-- ==== Sys2Proof/Word.lean ====
section
/-! DEFINITION. The word types of the SH4 (spec 00_scope.md R4, R5). -/

namespace Sys2Proof

/-- A 64-bit doubleword: scalar registers, addresses, package registers. -/
abbrev Word := BitVec 64

/-- The smallest addressable unit of memory. -/
abbrev Byte := BitVec 8

/-- A vector register: 128 lanes of 32 bits, lane i at bits 32i+31 to 32i (R5, R135). -/
abbrev VReg := BitVec 4096

/-- A lane predicate: bit i is lane i (R55, R77). -/
abbrev Pred := BitVec 128

/-- A scale register: 256 bytes (R180). -/
abbrev ScReg := BitVec 2048

/-- One copy of a shape register: 64 bytes (R212). -/
abbrev ShapeReg := BitVec 512

/-- A SHA-384 digest (R336, R370). -/
abbrev Digest := BitVec 384

end Sys2Proof
end

