-- ==== Sys2Proof/Machine/Bits.lean ====
section
/-! DEFINITION. Bit fields, sign extension, packing of elements and byte order (spec 00_scope.md R4, 04_numbers.md R107). -/

namespace Sys2Proof.Machine

/-- Bits [lo+n-1:lo] of `w`. -/
def fld (w lo n : Nat) : Nat := w / 2 ^ lo % 2 ^ n

/-- Bit `i` of `w`. -/
def bitAt (w i : Nat) : Bool := w.testBit i

/-- The two's complement value of the low `n` bits of `x` (n > 0). -/
def sval (n x : Nat) : Int :=
  if x % 2 ^ n < 2 ^ (n - 1) then ((x % 2 ^ n : Nat) : Int) else ((x % 2 ^ n : Nat) : Int) - ((2 ^ n : Nat) : Int)

/-- The low `n` bits that encode the integer `i` in two's complement. -/
def ofSval (n : Nat) (i : Int) : Nat := (i % ((2 ^ n : Nat) : Int)).toNat

/-- Replace bits [lo+n-1:lo] of `w` by the low n bits of `v`. -/
def putFld (w lo n v : Nat) : Nat := w % 2 ^ lo + v % 2 ^ n * 2 ^ lo + w / 2 ^ (lo + n) * 2 ^ (lo + n)

/-- Element `e` of width `w` of a packed value (R107). -/
def elemOf (w : Nat) (x e : Nat) : Nat := x / 2 ^ (w * e) % 2 ^ w

/-- Pack `n` elements of width `w`, element 0 lowest (R107). -/
def packElems (w : Nat) : Nat → (Nat → Nat) → Nat
  | 0, _ => 0
  | n + 1, f => packElems w n f + f n % 2 ^ w * 2 ^ (w * n)

/-- Lane `i` of a vector register (R5). -/
def lane (v : VReg) (i : Nat) : BitVec 32 := BitVec.ofNat 32 (v.toNat / 2 ^ (32 * i))

/-- The vector register whose lanes are `f 0` to `f 127`. -/
def ofLanes (f : Nat → BitVec 32) : VReg := BitVec.ofNat 4096 (packElems 32 128 (fun i => (f i).toNat))

/-- The vector register whose 128·k elements of width 32/k are given by `f`. -/
def ofElems (w : Nat) (f : Nat → Nat) : VReg := BitVec.ofNat 4096 (packElems w (4096 / w) f)

/-- The lanes of `new` where `mask` is 1 and of `old` elsewhere (R137). -/
def mergeLanes (mask : Pred) (old new : VReg) : VReg :=
  ofLanes fun i => if mask.getLsbD i then lane new i else lane old i

/-- The predicate whose bit i is `f i`. -/
def ofBits (f : Nat → Bool) : Pred := BitVec.ofNat 128 (packElems 1 128 (fun i => (f i).toNat))

/-- The value of little-endian bytes (R4). -/
def leNat : List Byte → Nat
  | [] => 0
  | b :: bs => b.toNat + 256 * leNat bs

/-- The `n` little-endian bytes of a value (R4). -/
def leBytes : Nat → Nat → List Byte
  | 0, _ => []
  | n + 1, v => BitVec.ofNat 8 v :: leBytes n (v / 256)

/-- Sum of `f 0` to `f (n-1)`. -/
def sumTo : Nat → (Nat → Nat) → Nat
  | 0, _ => 0
  | n + 1, f => sumTo n f + f n

/-- Do `f 0` to `f (n-1)` all hold? -/
def allTo : Nat → (Nat → Bool) → Bool
  | 0, _ => true
  | n + 1, f => allTo n f && f n

/-- The least i < n with `f i`. -/
def firstTo : Nat → (Nat → Bool) → Option Nat
  | 0, _ => none
  | n + 1, f => match firstTo n f with
    | some i => some i
    | none => if f n then some n else none

/-- Saturating add of a counter of width `w` (it stops at all ones). -/
def satAdd (w a b : Nat) : Nat := min (2 ^ w - 1) (a + b)

/-- Round `a` up to a multiple of `n`. -/
def alignUp (n a : Nat) : Nat := (a + n - 1) / n * n

/-- CRC-32C with the polynomial 0x1EDC_6F41, reflected (R41): eight steps of one byte. -/
def crcBits : Nat → Nat → Nat
  | 0, c => c
  | k + 1, c => crcBits k (if c % 2 = 1 then (c / 2) ^^^ 0x82F63B78 else c / 2)

/-- The running CRC of a list of bytes. -/
def crcStep (c : Nat) (b : Byte) : Nat := crcBits 8 (c ^^^ b.toNat)

/-- CRC-32C: initial value and final exclusive-OR 0xFFFF_FFFF (R41). -/
def crc32c (bs : List Byte) : Nat := (bs.foldl crcStep 0xFFFFFFFF) ^^^ 0xFFFFFFFF

end Sys2Proof.Machine
end

