-- ==== Sys2Proof/Syntax.lean ====
section
/-! DEFINITION. The operations and events of the SH4: one constructor for each row of the opcode table (spec 02_encoding.md R54 to R59;
95_what_each_step_holds.md for the rows without an encoding), and the types of their operands. -/

namespace Sys2Proof

/-- Vector element types, in the order of their codes (R56). -/
inductive VTy where
  | f32 | bf16 | f16 | i32 | i16 | i8 | u8 | f8
  deriving DecidableEq, Repr

/-- Access sizes of the SM format, in the order of their codes (R54). -/
inductive MSize where
  | b | bu | h | hu | w | wu | d
  deriving DecidableEq, Repr

/-- Rounding modes of the conversions: nearest even, toward zero, stochastic (R59, R112). -/
inductive RMode where
  | rne | rz | rs
  deriving DecidableEq, Repr

/-- The twelve scopes, in the order of their codes (R59, R267). -/
inductive Scope where
  | task | core | pair | cluster | die | package | host | peer | domain | group | network | system
  deriving DecidableEq, Repr

/-- Element widths of the copy engine: 1, 2 and 4 bytes (R55). -/
inductive CWidth where
  | e1 | e2 | e4
  deriving DecidableEq, Repr

/-- Format classes of the matrix slot, in the order of their codes (R55). -/
inductive FClass where
  | b16 | fp8 | fp4 | int8
  deriving DecidableEq, Repr

/-- Element pairs of MCFG, in the order of their codes (R59). -/
inductive MPair where
  | bf16 | fp16 | fp8 | db4 | mx4 | int8
  deriving DecidableEq, Repr

/-- Levels of CANCEL: codes 1 to 4 (R103). -/
inductive CLevel where
  | launch | graph | phase | job
  deriving DecidableEq, Repr


/-- What a reply of another device carries (R363): the bytes of a load, the old value and source stamp of an atomic, ACQ or REL, or an error. -/
inductive RemoteReply where
  | value (data : List Byte)
  | sync (old : Word) (stamp : Nat)
  | error (code : BitVec 8) (detail : BitVec 32)
  deriving DecidableEq, Repr

/-- The cause of a failing copy job (R220). -/
structure CopyErr where
  code : BitVec 8
  addr : Word
  detail : BitVec 32
  deriving DecidableEq, Repr

/-- An element of a channel: its lanes and the rank stamp of a reduce chain (R376). -/
structure ChanElem where
  lanes : List (BitVec 32)
  stamp : BitVec 8
  deriving DecidableEq, Repr

/-- A request of another device, or of this one to another (R363). -/
inductive ReqOp where
  | load (size : Nat)
  /-- a read of a copy job (R364) -/
  | copy (size : Nat)
  /-- records of store logs: for each its stamp at the sender and its bytes -/
  | records (rs : List (Nat × List (Nat × Byte)))
  | amo (op : Nat) (b : Word)
  | cas (expect b : Word)
  | acq
  | rel
  | ccadd (b : Word)
  /-- the decision record in force of a coding group (R411) -/
  | decision (gid : BitVec 16)
  /-- the share of a rebuild of a coding group at an offset, or every share from there on (R417) -/
  | share (gid : BitVec 16) (off : Nat) (one : Bool)
  /-- compact every record that this device has released on the variable at the address (R270, R272) -/
  | force
  deriving DecidableEq, Repr

/-- A request that reaches this device's memory side: the incarnation it names and the local offset (R362, R363). -/
structure RemoteReq where
  inc : BitVec 16
  addr : Nat
  op : ReqOp
  deriving DecidableEq, Repr

/-- Who waits for a route (R366): a parked load of a task, the fetch hold of a core, the running copy job of a core, or a work request. -/
inductive RouteWaiter where
  | load (launch index : Nat)
  | sync (core : Nat)
  | copy (core : Nat)
  | work (ctx ring slot : Nat)
  deriving DecidableEq, Repr

/-- A frame as it stands on a stream (R356): its header, its payload, encrypted where it has a tag, and its CRC-32C. -/
structure Frame where
  cls : BitVec 8
  flits : BitVec 8
  sseq : BitVec 16
  pseq : BitVec 32
  src : BitVec 8
  dst : BitVec 8
  mbz : BitVec 16
  ack : BitVec 32
  payload : List Byte
  tag : Option (BitVec 128)
  crc : BitVec 32
  /-- is its codeword correctable? -/
  fec : Bool
  /-- a NAK names the first sequence number that the other side lacks -/
  nak : Option (BitVec 16)
  deriving DecidableEq, Repr

/-- How a step of a lap rotation ends here (R385): this rank's copy has been written at its successor, or the successor has refused it for its length, or
the predecessor's block has arrived. -/
inductive LapEnd where
  | copied
  | refused
  | arrived (data : List Byte)
  deriving DecidableEq, Repr

/-- A packet of a message (R391, R393). -/
structure Packet where
  /-- key of the sender: its packet delivery context -/
  src : Nat
  psn : Nat
  /-- PSN of the first packet of the message and the number of its packets -/
  first : Nat
  count : Nat
  job : BitVec 24
  ctx : BitVec 4
  res : Nat
  roff : Nat
  /-- length of the message, offset of the packet in it, and the payload -/
  len : Nat
  off : Nat
  data : List Byte
  deriving DecidableEq, Repr

/-- A selective acknowledgement (R393). -/
structure Sack where
  cack : Nat
  bitmap : BitVec 64
  deriving DecidableEq, Repr

/-- The change of one coding granule in a round (R408). -/
structure Delta where
  src : Nat
  round : Word
  goff : Nat
  data : List Byte
  deriving DecidableEq, Repr

/-- The acknowledgement of a delta by a parity member (R410). -/
structure DeltaAck where
  src : Nat
  round : Word
  goff : Nat
  deriving DecidableEq, Repr

/-- A registration of a protected region (R404): intermediate address, length, group offset. -/
structure Region where
  ia : Nat
  len : Nat
  goff : Nat
  deriving DecidableEq, Repr

/-- A decision record (R410): the round, its verdict, the DEAD mask, and the registrations of each data member. -/
structure Decision where
  round : Word
  commit : Bool
  dead : BitVec 16
  regs : List (Nat × List Region)
  deriving DecidableEq, Repr

/-- A decision with the member that sent it (R410, R411). -/
structure SentDecision where
  src : Nat
  dec : Decision
  deriving DecidableEq, Repr

/-- A slot, and the member of its group that is rebuilt (R417). -/
structure RebuildAt where
  slot : Nat
  index : Nat
  deriving DecidableEq, Repr

/-- A share of a piece of a rebuild (R417). -/
structure Share where
  src : Nat
  off : Nat
  data : List Byte
  /-- the read of the share met unprotected loss -/
  lost : Bool
  deriving DecidableEq, Repr


/-- What reaches the memory side from outside the cores: a read of the block at a physical address (R325); a load, a store or an atomic of the host die at
a local offset, by the operation codes of R281 (R332); an upset of the parity of an entry of a TLB or walk cache (R293). -/
inductive MemReq where
  | read (pa : Nat)
  | hostLoad (addr n : Nat)
  | hostStore (addr : Nat) (data : List Byte)
  | hostAmo (addr op : Nat) (value : Word)
  | hostCas (addr : Nat) (expect value : Word)
  | upset (die n : Nat) (walk : Bool)
  deriving DecidableEq, Repr

/-- One constructor per row of the opcode table. Fields of syllables carry the names of the table. -/
inductive Instr where
  /-- ADD (R69): 64-bit integer add of two scalar registers. -/
  | add (d : BitVec 6) (a : BitVec 6) (b : BitVec 6) (q : BitVec 3)
  /-- ADD_W (R69): 32-bit add whose result is sign-extended to 64 bits. -/
  | addW (d : BitVec 6) (a : BitVec 6) (b : BitVec 6) (q : BitVec 3)
  /-- SUB (R69): 64-bit integer subtract. -/
  | sub (d : BitVec 6) (a : BitVec 6) (b : BitVec 6) (q : BitVec 3)
  /-- SUB_W (R69): 32-bit subtract whose result is sign-extended to 64 bits. -/
  | subW (d : BitVec 6) (a : BitVec 6) (b : BitVec 6) (q : BitVec 3)
  /-- AND (R69): 64-bit bitwise AND. -/
  | and (d : BitVec 6) (a : BitVec 6) (b : BitVec 6) (q : BitVec 3)
  /-- AND_W (R69): 32-bit bitwise AND whose result is sign-extended. -/
  | andW (d : BitVec 6) (a : BitVec 6) (b : BitVec 6) (q : BitVec 3)
  /-- OR (R69): 64-bit bitwise OR. -/
  | or (d : BitVec 6) (a : BitVec 6) (b : BitVec 6) (q : BitVec 3)
  /-- OR_W (R69): 32-bit bitwise OR whose result is sign-extended. -/
  | orW (d : BitVec 6) (a : BitVec 6) (b : BitVec 6) (q : BitVec 3)
  /-- XOR (R69): 64-bit bitwise XOR. -/
  | xor (d : BitVec 6) (a : BitVec 6) (b : BitVec 6) (q : BitVec 3)
  /-- XOR_W (R69): 32-bit bitwise XOR whose result is sign-extended. -/
  | xorW (d : BitVec 6) (a : BitVec 6) (b : BitVec 6) (q : BitVec 3)
  /-- SHL (R69): Shift left by register amount. -/
  | shl (d : BitVec 6) (a : BitVec 6) (b : BitVec 6) (q : BitVec 3)
  /-- SHL_W (R69): 32-bit shift left whose result is sign-extended. -/
  | shlW (d : BitVec 6) (a : BitVec 6) (b : BitVec 6) (q : BitVec 3)
  /-- SHR (R69): Logical shift right by register amount. -/
  | shr (d : BitVec 6) (a : BitVec 6) (b : BitVec 6) (q : BitVec 3)
  /-- SHR_W (R69): 32-bit logical shift right whose result is sign-extended. -/
  | shrW (d : BitVec 6) (a : BitVec 6) (b : BitVec 6) (q : BitVec 3)
  /-- SRA (R69): Arithmetic shift right by register amount. -/
  | sra (d : BitVec 6) (a : BitVec 6) (b : BitVec 6) (q : BitVec 3)
  /-- SRA_W (R69): 32-bit arithmetic shift right whose result is sign-extended. -/
  | sraW (d : BitVec 6) (a : BitVec 6) (b : BitVec 6) (q : BitVec 3)
  /-- ADDI (R70): Add a sign-extended 13-bit immediate. -/
  | addi (d : BitVec 6) (a : BitVec 6) (i : BitVec 13)
  /-- ANDI (R70): AND with a sign-extended immediate. -/
  | andi (d : BitVec 6) (a : BitVec 6) (i : BitVec 13)
  /-- ORI (R70): OR with a sign-extended immediate. -/
  | ori (d : BitVec 6) (a : BitVec 6) (i : BitVec 13)
  /-- XORI (R70): XOR with a sign-extended immediate. -/
  | xori (d : BitVec 6) (a : BitVec 6) (i : BitVec 13)
  /-- SHLI (R70): Shift left by an immediate amount. -/
  | shli (d : BitVec 6) (a : BitVec 6) (n : BitVec 7)
  /-- SHRI (R70): Logical shift right by an immediate amount. -/
  | shri (d : BitVec 6) (a : BitVec 6) (n : BitVec 7)
  /-- SRAI (R70): Arithmetic shift right by an immediate amount. -/
  | srai (d : BitVec 6) (a : BitVec 6) (n : BitVec 7)
  /-- LUI (R71): Load a 19-bit immediate shifted left by 13, sign-extended. -/
  | lui (d : BitVec 6) (i : BitVec 19)
  /-- AUB (R71): Add a shifted immediate to the bundle address. -/
  | aub (d : BitVec 6) (i : BitVec 19)
  /-- MUL (R72): Low 64 bits of a product. -/
  | mul (d : BitVec 6) (a : BitVec 6) (b : BitVec 6) (q : BitVec 3)
  /-- MULH (R72): High 64 bits of a signed product. -/
  | mulh (d : BitVec 6) (a : BitVec 6) (b : BitVec 6) (q : BitVec 3)
  /-- MULHU (R72): High 64 bits of an unsigned product. -/
  | mulhu (d : BitVec 6) (a : BitVec 6) (b : BitVec 6) (q : BitVec 3)
  /-- DIV (R72): Signed divide rounded toward zero, with fixed latency 20. -/
  | div (d : BitVec 6) (a : BitVec 6) (b : BitVec 6) (q : BitVec 3)
  /-- DIVU (R72): Unsigned divide. -/
  | divu (d : BitVec 6) (a : BitVec 6) (b : BitVec 6) (q : BitVec 3)
  /-- REM (R72): Signed remainder. -/
  | rem (d : BitVec 6) (a : BitVec 6) (b : BitVec 6) (q : BitVec 3)
  /-- REMU (R72): Unsigned remainder. -/
  | remu (d : BitVec 6) (a : BitVec 6) (b : BitVec 6) (q : BitVec 3)
  /-- MIN (R73): Signed minimum. -/
  | min (d : BitVec 6) (a : BitVec 6) (b : BitVec 6) (q : BitVec 3)
  /-- MAX (R73): Signed maximum. -/
  | max (d : BitVec 6) (a : BitVec 6) (b : BitVec 6) (q : BitVec 3)
  /-- MINU (R73): Unsigned minimum. -/
  | minu (d : BitVec 6) (a : BitVec 6) (b : BitVec 6) (q : BitVec 3)
  /-- MAXU (R73): Unsigned maximum. -/
  | maxu (d : BitVec 6) (a : BitVec 6) (b : BitVec 6) (q : BitVec 3)
  /-- SLT (R73): Set to 1 if signed less than. -/
  | slt (d : BitVec 6) (a : BitVec 6) (b : BitVec 6) (q : BitVec 3)
  /-- SLTU (R73): Set to 1 if unsigned less than. -/
  | sltu (d : BitVec 6) (a : BitVec 6) (b : BitVec 6) (q : BitVec 3)
  /-- SEQ (R73): Set to 1 if equal. -/
  | seq (d : BitVec 6) (a : BitVec 6) (b : BitVec 6) (q : BitVec 3)
  /-- SNE (R73): Set to 1 if not equal. -/
  | sne (d : BitVec 6) (a : BitVec 6) (b : BitVec 6) (q : BitVec 3)
  /-- SLTI (R70): Set if less than an immediate, signed. -/
  | slti (d : BitVec 6) (a : BitVec 6) (i : BitVec 13)
  /-- SLTIU (R70): Set if less than a sign-extended immediate, compared unsigned. -/
  | sltiu (d : BitVec 6) (a : BitVec 6) (i : BitVec 13)
  /-- SEL (R73): Select one of two registers by lane 0 of a predicate. -/
  | sel (d : BitVec 6) (a : BitVec 6) (b : BitVec 6) (p : BitVec 4) (q : BitVec 3)
  /-- CLZ (R73): Count leading zeros. -/
  | clz (d : BitVec 6) (a : BitVec 6) (q : BitVec 3)
  /-- CTZ (R73): Count trailing zeros. -/
  | ctz (d : BitVec 6) (a : BitVec 6) (q : BitVec 3)
  /-- POPC (R73): Count set bits. -/
  | popc (d : BitVec 6) (a : BitVec 6) (q : BitVec 3)
  /-- BFX (R73): Extract a bit field, sign-extended. -/
  | bfx (d : BitVec 6) (a : BitVec 6) (b : BitVec 6) (q : BitVec 3)
  /-- BFXU (R73): Extract a bit field, zero-extended. -/
  | bfxu (d : BitVec 6) (a : BitVec 6) (b : BitVec 6) (q : BitVec 3)
  /-- BFI (R73): Insert a bit field into the destination. -/
  | bfi (d : BitVec 6) (a : BitVec 6) (b : BitVec 6) (q : BitVec 3)
  /-- MADD (R72): Multiply-add into the destination register. -/
  | madd (d : BitVec 6) (a : BitVec 6) (b : BitVec 6) (q : BitVec 3)
  /-- ADDSC (R73): Add a register shifted left by fn. -/
  | addsc (d : BitVec 6) (a : BitVec 6) (b : BitVec 6) (s : BitVec 4) (q : BitVec 3)
  /-- FADD (R74): FP32 add. -/
  | fadd (d : BitVec 6) (a : BitVec 6) (b : BitVec 6) (q : BitVec 3)
  /-- FSUB (R74): FP32 subtract. -/
  | fsub (d : BitVec 6) (a : BitVec 6) (b : BitVec 6) (q : BitVec 3)
  /-- FMUL (R74): FP32 multiply. -/
  | fmul (d : BitVec 6) (a : BitVec 6) (b : BitVec 6) (q : BitVec 3)
  /-- FMIN (R74): FP32 minimum. -/
  | fmin (d : BitVec 6) (a : BitVec 6) (b : BitVec 6) (q : BitVec 3)
  /-- FMAX (R74): FP32 maximum. -/
  | fmax (d : BitVec 6) (a : BitVec 6) (b : BitVec 6) (q : BitVec 3)
  /-- FEQ (R74): FP32 compare equal. -/
  | feq (d : BitVec 6) (a : BitVec 6) (b : BitVec 6) (q : BitVec 3)
  /-- FLT (R74): FP32 compare less than. -/
  | flt (d : BitVec 6) (a : BitVec 6) (b : BitVec 6) (q : BitVec 3)
  /-- FLE (R74): FP32 compare less or equal. -/
  | fle (d : BitVec 6) (a : BitVec 6) (b : BitVec 6) (q : BitVec 3)
  /-- FCVT_FI (R75): Convert FP32 to signed 64-bit, rounded toward zero. -/
  | fcvtFi (d : BitVec 6) (a : BitVec 6) (q : BitVec 3)
  /-- FCVT_IF (R75): Convert signed 64-bit to FP32. -/
  | fcvtIf (d : BitVec 6) (a : BitVec 6) (q : BitVec 3)
  /-- FCVT_FU (R75): Convert FP32 to unsigned 64-bit. -/
  | fcvtFu (d : BitVec 6) (a : BitVec 6) (q : BitVec 3)
  /-- FCVT_UF (R75): Convert unsigned 64-bit to FP32. -/
  | fcvtUf (d : BitVec 6) (a : BitVec 6) (q : BitVec 3)
  /-- SETP_EQ (R76): Set every lane of a predicate if the registers are equal. -/
  | setpEq (p : BitVec 4) (a : BitVec 6) (b : BitVec 6) (q : BitVec 3)
  /-- SETP_NE (R76): Set a predicate if the registers are not equal. -/
  | setpNe (p : BitVec 4) (a : BitVec 6) (b : BitVec 6) (q : BitVec 3)
  /-- SETP_LT (R76): Set a predicate if signed less than. -/
  | setpLt (p : BitVec 4) (a : BitVec 6) (b : BitVec 6) (q : BitVec 3)
  /-- SETP_LTU (R76): Set a predicate if unsigned less than. -/
  | setpLtu (p : BitVec 4) (a : BitVec 6) (b : BitVec 6) (q : BitVec 3)
  /-- SETP_GE (R76): Set a predicate if signed greater or equal. -/
  | setpGe (p : BitVec 4) (a : BitVec 6) (b : BitVec 6) (q : BitVec 3)
  /-- SETP_GEU (R76): Set a predicate if unsigned greater or equal. -/
  | setpGeu (p : BitVec 4) (a : BitVec 6) (b : BitVec 6) (q : BitVec 3)
  /-- PAND (R77): Lane-wise AND of predicates. -/
  | pand (p : BitVec 4) (a : BitVec 4) (b : BitVec 4) (q : BitVec 3)
  /-- POR (R77): Lane-wise OR of predicates. -/
  | por (p : BitVec 4) (a : BitVec 4) (b : BitVec 4) (q : BitVec 3)
  /-- PXOR (R77): Lane-wise XOR of predicates. -/
  | pxor (p : BitVec 4) (a : BitVec 4) (b : BitVec 4) (q : BitVec 3)
  /-- PNOT (R77): Lane-wise NOT of a predicate. -/
  | pnot (p : BitVec 4) (a : BitVec 4) (q : BitVec 3)
  /-- PMOV (R77): Copy a predicate. -/
  | pmov (p : BitVec 4) (a : BitVec 4) (q : BitVec 3)
  /-- BRA (R79): Branch to a position-relative target. -/
  | bra (q : BitVec 3) (o : BitVec 21)
  /-- CALL (R79): Branch and write the return address to x1. -/
  | call (q : BitVec 3) (o : BitVec 21)
  /-- JR (R80): Jump to the byte address in a register. -/
  | jr (a : BitVec 6) (q : BitVec 3)
  /-- JRL (R80): Jump to a register address and link. -/
  | jrl (d : BitVec 6) (a : BitVec 6) (q : BitVec 3)
  /-- RET (R80): Jump to the address in x1. -/
  | ret (q : BitVec 3)
  /-- JTAB (R81): Indexed jump through a table of bundle addresses, with a range test. -/
  | jtab (d : BitVec 6) (a : BitVec 6) (b : BitVec 6) (q : BitVec 3)
  /-- LOOP (R82): Start a hardware loop level with a register count. -/
  | loop (l : BitVec 2) (a : BitVec 6) (i : BitVec 13)
  /-- LOOPI (R82): Start a hardware loop level with an immediate count. -/
  | loopi (l : BitVec 2) (n : BitVec 6) (i : BitVec 13)
  /-- LOOPSR (R86): Start a hardware loop whose count comes from a shape record extent. -/
  | loopsr (a : BitVec 6) (b : BitVec 6) (l : BitVec 2) (q : BitVec 3)
  /-- RFENCE (R87): Invalidate every entry of the record cache. -/
  | rfence (q : BitVec 3)
  /-- RFENCE_A (R87): Invalidate the record-cache entry of one address. -/
  | rfenceA (a : BitVec 6) (q : BitVec 3)
  /-- SUSP_YIELD (R90): Suspend the task to READY after the bundle commits. -/
  | suspYield (q : BitVec 3)
  /-- SUSP_PARK (R91): Park an affine task until a counter reaches X(x8). -/
  | suspPark (a : BitVec 6) (q : BitVec 3)
  /-- SUSP_EXIT (R90): End the task after waiting for its results, jobs and channel operations. -/
  | suspExit (q : BitVec 3)
  /-- MFS (R92): Read a system register. -/
  | mfs (d : BitVec 6) (s : BitVec 13)
  /-- MTS (R92): Write a system register under its access types. -/
  | mts (a : BitVec 6) (s : BitVec 13)
  /-- TRAP (R94): Raise cause TRAP with the immediate as DETAIL. -/
  | trap (c : BitVec 13)
  /-- TRAP_NZ (R94): Raise cause TRAP when the register is non-zero. -/
  | trapNz (a : BitVec 6) (c : BitVec 13)
  /-- SNAPST (R97): Store the snapshot image into scratchpad and set SS. -/
  | snapst (a : BitVec 6)
  /-- SNAPLD (R97): Load a snapshot image from scratchpad into the buffer and set SV. -/
  | snapld (a : BitVec 6)
  /-- BRK (R95): Raise cause BRK for the debugger. -/
  | brk (c : BitVec 13)
  /-- LAUNCH (R101): Submit a launch-ring entry by the producer steps of R347. -/
  | launch (a : BitVec 6) (r : BitVec 6)
  /-- CANCEL (R103): Cancel a launch, graph, phase or job by ID. -/
  | cancel (a : BitVec 6) (l : CLevel)
  /-- LD (R203): Scratchpad scalar load of the size in the size field. -/
  | ld (d : BitVec 6) (a : BitVec 6) (z : MSize) (o : BitVec 10)
  /-- ST (R203): Scratchpad scalar store. -/
  | st (s : BitVec 6) (a : BitVec 6) (z : MSize) (o : BitVec 10)
  /-- LDV (R204): Contiguous vector load from scratchpad. -/
  | ldv (d : BitVec 5) (a : BitVec 6) (o : BitVec 8) (p : BitVec 4)
  /-- LDV_S (R204): Strided vector load from scratchpad. -/
  | ldvS (d : BitVec 5) (a : BitVec 6) (s : BitVec 6) (p : BitVec 4)
  /-- LDV_B (R204): Broadcast vector load of 32 bytes from scratchpad. -/
  | ldvB (d : BitVec 5) (a : BitVec 6) (o : BitVec 8) (p : BitVec 4)
  /-- STV (R204): Contiguous vector store to scratchpad, bound-checked. -/
  | stv (v : BitVec 5) (a : BitVec 6) (o : BitVec 8) (p : BitVec 4)
  /-- STV_S (R204): Strided vector store to scratchpad. -/
  | stvS (v : BitVec 5) (a : BitVec 6) (s : BitVec 6) (p : BitVec 4)
  /-- GATH (R205): Gather 32-bit elements from scratchpad offsets. -/
  | gath (d : BitVec 5) (a : BitVec 5) (b : BitVec 5) (t : VTy) (p : BitVec 4)
  /-- SCAT (R205): Scatter 32-bit elements to scratchpad offsets. -/
  | scat (s : BitVec 5) (a : BitVec 5) (b : BitVec 5) (t : VTy) (p : BitVec 4)
  /-- LDG (R206): Global scalar load through the task's view, parking if remote. -/
  | ldg (d : BitVec 6) (a : BitVec 6) (z : MSize) (o : BitVec 9)
  /-- STG (R206): Global scalar store appended to the store log. -/
  | stg (s : BitVec 6) (a : BitVec 6) (z : MSize) (o : BitVec 9)
  /-- LDGV (R207): Global 512-byte vector load. -/
  | ldgv (d : BitVec 5) (a : BitVec 6) (o : BitVec 9) (p : BitVec 4)
  /-- STGV (R207): Global 512-byte vector store to the log. -/
  | stgv (s : BitVec 5) (a : BitVec 6) (o : BitVec 9) (p : BitVec 4)
  /-- LDC (R209): Load from the launch's constant path. -/
  | ldc (d : BitVec 6) (a : BitVec 6) (z : MSize) (o : BitVec 10)
  /-- TLOOK (R194): Find the scratchpad slot holding a global granule. -/
  | tlook (d : BitVec 6) (a : BitVec 6) (q : BitVec 3)
  /-- TFILL (R195): Tag a slot and start a copy job that fills it. -/
  | tfill (a : BitVec 6) (b : BitVec 6) (q : BitVec 3)
  /-- TEVICT (R195): Start a job writing a valid slot back through the log. -/
  | tevict (a : BitVec 6) (q : BitVec 3)
  /-- TINV (R195): Invalidate an unlocked slot. -/
  | tinv (a : BitVec 6) (q : BitVec 3)
  /-- TLOCK (R196): Pin a slot subject to the context quota. -/
  | tlock (d : BitVec 6) (a : BitVec 6) (q : BitVec 3)
  /-- TUNLOCK (R196): Unpin a slot. -/
  | tunlock (d : BitVec 6) (a : BitVec 6) (q : BitVec 3)
  /-- HWAIT (R199): Stall until a handle has n filled slots. -/
  | hwait (h : BitVec 4) (n : BitVec 13)
  /-- HWAITF (R199): Stall until a handle has n free slots. -/
  | hwaitf (h : BitVec 4) (n : BitVec 13)
  /-- HADVP (R200): Advance a handle's tail and fill count by program action. -/
  | hadvp (h : BitVec 4) (n : BitVec 13)
  /-- HADVC (R200): Advance a handle's head and reduce its fill count. -/
  | hadvc (h : BitVec 4) (n : BitVec 13)
  /-- HSET (R201): Load a whole handle from two registers. -/
  | hset (h : BitVec 4) (a : BitVec 6) (b : BitVec 6) (q : BitVec 3)
  /-- FOOTR (R224): Add a range to a party's declared read set. -/
  | footr (g : Bool) (y : Bool) (a : BitVec 6) (b : BitVec 6) (q : BitVec 3)
  /-- FOOTW (R224): Add a range to a party's declared write set. -/
  | footw (g : Bool) (y : Bool) (a : BitVec 6) (b : BitVec 6) (q : BitVec 3)
  /-- FOOTCLR (R224): Empty a party's declared sets. -/
  | footclr (y : Bool) (q : BitVec 3)
  /-- SPFENCE (R221): Hold until scratchpad jobs, MLOADs and SNAPST writes are complete. -/
  | spfence (q : BitVec 3)
  /-- ACQ (R272): Acquire on a sync variable at a scope. -/
  | acq (d : BitVec 6) (a : BitVec 6) (s : Scope) (q : BitVec 3)
  /-- REL (R271): Release the task's records on a sync variable and increment it. -/
  | rel (d : BitVec 6) (a : BitVec 6) (s : Scope) (q : BitVec 3)
  /-- FENCE (R273): Release then acquire on the scope's fence variable. -/
  | fence (s : Scope) (q : BitVec 3)
  /-- AMO_ADD (R281): Atomic add at the home atomic unit. -/
  | amoAdd (d : BitVec 6) (a : BitVec 6) (b : BitVec 6) (s : BitVec 3)
  /-- AMO_AND (R281): Atomic AND. -/
  | amoAnd (d : BitVec 6) (a : BitVec 6) (b : BitVec 6) (s : BitVec 3)
  /-- AMO_OR (R281): Atomic OR. -/
  | amoOr (d : BitVec 6) (a : BitVec 6) (b : BitVec 6) (s : BitVec 3)
  /-- AMO_XOR (R281): Atomic XOR. -/
  | amoXor (d : BitVec 6) (a : BitVec 6) (b : BitVec 6) (s : BitVec 3)
  /-- AMO_MIN (R281): Atomic signed minimum. -/
  | amoMin (d : BitVec 6) (a : BitVec 6) (b : BitVec 6) (s : BitVec 3)
  /-- AMO_MAX (R281): Atomic signed maximum. -/
  | amoMax (d : BitVec 6) (a : BitVec 6) (b : BitVec 6) (s : BitVec 3)
  /-- AMO_MINU (R281): Atomic unsigned minimum. -/
  | amoMinu (d : BitVec 6) (a : BitVec 6) (b : BitVec 6) (s : BitVec 3)
  /-- AMO_MAXU (R281): Atomic unsigned maximum. -/
  | amoMaxu (d : BitVec 6) (a : BitVec 6) (b : BitVec 6) (s : BitVec 3)
  /-- AMO_SWAP (R281): Atomic swap. -/
  | amoSwap (d : BitVec 6) (a : BitVec 6) (b : BitVec 6) (s : BitVec 3)
  /-- AMO_FADD (R281): Atomic FP32 add on a 32-bit word. -/
  | amoFadd (d : BitVec 6) (a : BitVec 6) (b : BitVec 6) (s : BitVec 3)
  /-- CAS (R281): Atomic compare and swap. -/
  | cas (d : BitVec 6) (a : BitVec 6) (b : BitVec 6) (s : BitVec 3)
  /-- LOGCMP (R284): Compact released records up to a stamp and count them. -/
  | logcmp (d : BitVec 6) (a : BitVec 6) (q : BitVec 3)
  /-- LOGMARK (R285): Read the task's log position (privileged). -/
  | logmark (d : BitVec 6) (q : BitVec 3)
  /-- LOGTRUNC (R285): Discard the task's unreleased records above a position (privileged). -/
  | logtrunc (d : BitVec 6) (a : BitVec 6) (q : BitVec 3)
  /-- SSTEP_DIE (R283): Die-scope superstep barrier of the launch. -/
  | sstepDie (q : BitVec 3)
  /-- SSTEP_PACKAGE (R283): Package-scope superstep barrier of the launch. -/
  | sstepPackage (q : BitVec 3)
  /-- GSET (R213): Write one field of a shape register's shadow copy. -/
  | gset (k : Bool) (r : BitVec 2) (a : BitVec 6) (f : BitVec 4)
  /-- GSWAP (R214): Exchange active and shadow copies of masked shape registers. -/
  | gswap (k : Bool) (m : BitVec 4)
  /-- CPY_HS (R217): Start a copy job from global memory to scratchpad. -/
  | cpyHs (g : BitVec 2) (a : BitVec 6) (b : BitVec 6) (w : Bool) (c : CWidth) (h : BitVec 4)
  /-- CPY_SH (R217): Start a copy job from scratchpad to global memory. -/
  | cpySh (g : BitVec 2) (a : BitVec 6) (b : BitVec 6) (w : Bool) (c : CWidth) (h : BitVec 4)
  /-- CPY_SS (R217): Start a scratchpad-to-scratchpad copy job. -/
  | cpySs (g : BitVec 2) (a : BitVec 6) (b : BitVec 6) (w : Bool) (c : CWidth) (h : BitVec 4)
  /-- CPY_RM (R217): Start a global-to-global copy job, local or remote. -/
  | cpyRm (g : BitVec 2) (a : BitVec 6) (b : BitVec 6) (w : Bool) (c : CWidth)
  /-- CPYR_HS (R219): Copy HBM to scratchpad with geometry from a shape record. -/
  | cpyrHs (a : BitVec 6) (b : BitVec 6) (w : Bool) (c : CWidth) (h : BitVec 4)
  /-- CPYR_SH (R219): Copy scratchpad to HBM with geometry from a shape record. -/
  | cpyrSh (a : BitVec 6) (b : BitVec 6) (w : Bool) (c : CWidth) (h : BitVec 4)
  /-- CPYR_SS (R219): Scratchpad copy with geometry from a shape record. -/
  | cpyrSs (a : BitVec 6) (b : BitVec 6) (w : Bool) (c : CWidth) (h : BitVec 4)
  /-- CPYR_RM (R219): Remote global copy with geometry from a shape record. -/
  | cpyrRm (a : BitVec 6) (b : BitVec 6) (w : Bool) (c : CWidth)
  /-- CPYW (R220): Hold until named copy jobs end, then acquire at core scope. -/
  | cpyw (h : BitVec 4)
  /-- ENGW (R227): Write a doubleword of the core's engine block. -/
  | engw (a : BitVec 6) (b : BitVec 6)
  /-- ENGR (R227): Read a doubleword of the engine block. -/
  | engr (a : BitVec 6) (b : BitVec 6)
  /-- TSEQ (R302): Take a slice of a loop nest from a sequencer descriptor. -/
  | tseq (a : BitVec 6)
  /-- CCADD (R304): Release at package scope and add to a completion counter. -/
  | ccadd (a : BitVec 6) (b : BitVec 6)
  /-- CCWAIT (R304): Hold until a counter reaches a value, then acquire. -/
  | ccwait (a : BitVec 6) (b : BitVec 6)
  /-- VADD (R142): Lane-wise vector add. -/
  | vadd (d : BitVec 5) (a : BitVec 5) (b : BitVec 5) (t : VTy) (p : BitVec 4)
  /-- VSUB (R142): Lane-wise vector subtract. -/
  | vsub (d : BitVec 5) (a : BitVec 5) (b : BitVec 5) (t : VTy) (p : BitVec 4)
  /-- VMUL (R142): Lane-wise vector multiply. -/
  | vmul (d : BitVec 5) (a : BitVec 5) (b : BitVec 5) (t : VTy) (p : BitVec 4)
  /-- VMINMAX_MIN (R142): Lane-wise minimum. -/
  | vminmaxMin (d : BitVec 5) (a : BitVec 5) (b : BitVec 5) (t : VTy) (p : BitVec 4)
  /-- VMINMAX_MAX (R142): Lane-wise maximum. -/
  | vminmaxMax (d : BitVec 5) (a : BitVec 5) (b : BitVec 5) (t : VTy) (p : BitVec 4)
  /-- VFMA (R144): Fused multiply-add to FP32. -/
  | vfma (d : BitVec 5) (a : BitVec 5) (b : BitVec 5) (c : BitVec 5) (y : Bool) (p : BitVec 4)
  /-- VFMS (R144): Fused multiply-subtract to FP32. -/
  | vfms (d : BitVec 5) (a : BitVec 5) (b : BitVec 5) (c : BitVec 5) (y : Bool) (p : BitVec 4)
  /-- VFNMA (R144): Fused negated multiply-add to FP32. -/
  | vfnma (d : BitVec 5) (a : BitVec 5) (b : BitVec 5) (c : BitVec 5) (y : Bool) (p : BitVec 4)
  /-- VLOGIC_AND (R145): Lane-wise AND. -/
  | vlogicAnd (d : BitVec 5) (a : BitVec 5) (b : BitVec 5) (t : VTy) (p : BitVec 4)
  /-- VLOGIC_OR (R145): Lane-wise OR. -/
  | vlogicOr (d : BitVec 5) (a : BitVec 5) (b : BitVec 5) (t : VTy) (p : BitVec 4)
  /-- VLOGIC_XOR (R145): Lane-wise XOR. -/
  | vlogicXor (d : BitVec 5) (a : BitVec 5) (b : BitVec 5) (t : VTy) (p : BitVec 4)
  /-- VLOGIC_ANDN (R145): Lane-wise A and not B. -/
  | vlogicAndn (d : BitVec 5) (a : BitVec 5) (b : BitVec 5) (t : VTy) (p : BitVec 4)
  /-- VLOGIC_NOT (R145): Lane-wise NOT. -/
  | vlogicNot (d : BitVec 5) (a : BitVec 5) (t : VTy) (p : BitVec 4)
  /-- VSHIFT_SHL (R145): Element-wise shift left. -/
  | vshiftShl (d : BitVec 5) (a : BitVec 5) (b : BitVec 5) (t : VTy) (p : BitVec 4)
  /-- VSHIFT_SHR (R145): Element-wise logical shift right. -/
  | vshiftShr (d : BitVec 5) (a : BitVec 5) (b : BitVec 5) (t : VTy) (p : BitVec 4)
  /-- VSHIFT_SRA (R145): Element-wise arithmetic shift right. -/
  | vshiftSra (d : BitVec 5) (a : BitVec 5) (b : BitVec 5) (t : VTy) (p : BitVec 4)
  /-- VCMP_EQ (R146): Lane compare equal into a predicate. -/
  | vcmpEq (p : BitVec 4) (a : BitVec 5) (b : BitVec 5) (t : VTy) (g : BitVec 4)
  /-- VCMP_NE (R146): Lane compare not equal. -/
  | vcmpNe (p : BitVec 4) (a : BitVec 5) (b : BitVec 5) (t : VTy) (g : BitVec 4)
  /-- VCMP_LT (R146): Lane compare less than. -/
  | vcmpLt (p : BitVec 4) (a : BitVec 5) (b : BitVec 5) (t : VTy) (g : BitVec 4)
  /-- VCMP_LE (R146): Lane compare less or equal. -/
  | vcmpLe (p : BitVec 4) (a : BitVec 5) (b : BitVec 5) (t : VTy) (g : BitVec 4)
  /-- VCMP_GT (R146): Lane compare greater than. -/
  | vcmpGt (p : BitVec 4) (a : BitVec 5) (b : BitVec 5) (t : VTy) (g : BitVec 4)
  /-- VCMP_GE (R146): Lane compare greater or equal. -/
  | vcmpGe (p : BitVec 4) (a : BitVec 5) (b : BitVec 5) (t : VTy) (g : BitVec 4)
  /-- VSEL (R147): Select whole lanes by a predicate. -/
  | vsel (d : BitVec 5) (a : BitVec 5) (b : BitVec 5) (p : BitVec 4)
  /-- VCVT (R148): Convert between lane types with a chosen rounding. -/
  | vcvt (d : BitVec 5) (a : BitVec 5) (r : RMode) (s : VTy) (u : VTy) (p : BitVec 4)
  /-- VRED_ADD (R149): Tree sum of all lanes into lane 0. -/
  | vredAdd (d : BitVec 5) (a : BitVec 5) (t : VTy) (p : BitVec 4)
  /-- VRED_MAX (R149): Tree maximum of all lanes into lane 0. -/
  | vredMax (d : BitVec 5) (a : BitVec 5) (t : VTy) (p : BitVec 4)
  /-- VRED_MIN (R149): Tree minimum of all lanes into lane 0. -/
  | vredMin (d : BitVec 5) (a : BitVec 5) (t : VTy) (p : BitVec 4)
  /-- VSCAN (R150): Inclusive prefix sums over lanes. -/
  | vscan (d : BitVec 5) (a : BitVec 5) (t : VTy) (p : BitVec 4)
  /-- VPERM_IDX (R151): Permute lanes by an index vector. -/
  | vpermIdx (d : BitVec 5) (a : BitVec 5) (b : BitVec 5) (p : BitVec 4)
  /-- VPERM_ROT (R151): Rotate lanes by a scalar amount. -/
  | vpermRot (d : BitVec 5) (a : BitVec 5) (b : BitVec 5) (p : BitVec 4)
  /-- VPERM_PSH (R151): Interleave lanes of two vectors. -/
  | vpermPsh (d : BitVec 5) (a : BitVec 5) (b : BitVec 5) (p : BitVec 4)
  /-- VBCAST (R152): Broadcast a scalar into every element. -/
  | vbcast (d : BitVec 5) (a : BitVec 5) (t : VTy) (p : BitVec 4)
  /-- VEXT (R152): Extract one element into a scalar register. -/
  | vext (d : BitVec 5) (a : BitVec 5) (b : BitVec 5) (t : VTy)
  /-- VTRANS_RCP (R155): Correctly rounded reciprocal. -/
  | vtransRcp (d : BitVec 5) (a : BitVec 5) (p : BitVec 4)
  /-- VTRANS_RSQ (R155): Correctly rounded reciprocal square root. -/
  | vtransRsq (d : BitVec 5) (a : BitVec 5) (p : BitVec 4)
  /-- VTRANS_EXP2 (R155): Correctly rounded base-2 exponential. -/
  | vtransExp2 (d : BitVec 5) (a : BitVec 5) (p : BitVec 4)
  /-- VTRANS_LOG2 (R155): Correctly rounded base-2 logarithm. -/
  | vtransLog2 (d : BitVec 5) (a : BitVec 5) (p : BitVec 4)
  /-- VTRANS_TANH (R155): Correctly rounded hyperbolic tangent. -/
  | vtransTanh (d : BitVec 5) (a : BitVec 5) (p : BitVec 4)
  /-- VTRANS_SIN (R155): Correctly rounded sine. -/
  | vtransSin (d : BitVec 5) (a : BitVec 5) (p : BitVec 4)
  /-- VTRANS_COS (R155): Correctly rounded cosine. -/
  | vtransCos (d : BitVec 5) (a : BitVec 5) (p : BitVec 4)
  /-- VTRANS_SQRT (R155): Correctly rounded square root. -/
  | vtransSqrt (d : BitVec 5) (a : BitVec 5) (p : BitVec 4)
  /-- VDIV (R156): Lane-wise divide with fixed latency 20. -/
  | vdiv (d : BitVec 5) (a : BitVec 5) (b : BitVec 5) (t : VTy) (p : BitVec 4)
  /-- VROW (R158): Copy the row in the forwarding latch into a vector. -/
  | vrow (d : BitVec 5) (p : BitVec 4)
  /-- VIOTA (R153): Write each element's index. -/
  | viota (d : BitVec 5) (t : VTy) (p : BitVec 4)
  /-- VMASK_POPC (R154): Count lanes set in two predicates. -/
  | vmaskPopc (d : BitVec 5) (s : BitVec 4) (p : BitVec 4)
  /-- VMASK_COMPRESS (R154): Pack enabled lanes to the bottom. -/
  | vmaskCompress (d : BitVec 5) (a : BitVec 5) (p : BitVec 4)
  /-- VMASK_EXPAND (R154): Spread consecutive lanes to enabled positions. -/
  | vmaskExpand (d : BitVec 5) (a : BitVec 5) (p : BitVec 4)
  /-- VMASK_FIRST (R154): Find the lowest lane set in two predicates. -/
  | vmaskFirst (d : BitVec 5) (s : BitVec 4) (p : BitVec 4)
  /-- VBND (R160): Test elements against the bound-table entry of ZTID. -/
  | vbnd (p : BitVec 4) (a : BitVec 5) (t : VTy) (g : BitVec 4)
  /-- VABS (R143): Element-wise absolute value. -/
  | vabs (d : BitVec 5) (a : BitVec 5) (t : VTy) (p : BitVec 4)
  /-- VNEG (R143): Element-wise negation. -/
  | vneg (d : BitVec 5) (a : BitVec 5) (t : VTy) (p : BitVec 4)
  /-- VDEF_DEFER (R161): Append enabled lanes to the deferral queue. -/
  | vdefDefer (p : BitVec 4) (a : BitVec 5) (g : BitVec 4)
  /-- VDEF_REFILL (R161): Refill enabled lanes from the deferral queue. -/
  | vdefRefill (d : BitVec 5) (p : BitVec 4)
  /-- VDEF_COUNT (R161): Read the deferral queue fill. -/
  | vdefCount (d : BitVec 5)
  /-- MLOAD_A (R167): Queue a load of an A tile into an operand slot. -/
  | mloadA (s : BitVec 6) (a : BitVec 6) (w : Bool) (c : FClass) (h : BitVec 4)
  /-- MLOAD_B (R167): Queue a load of a B tile into an operand slot. -/
  | mloadB (s : BitVec 6) (a : BitVec 6) (w : Bool) (c : FClass) (h : BitVec 4)
  /-- MLOAD_BT (R167): Queue a transposing load of a B tile. -/
  | mloadBt (s : BitVec 6) (a : BitVec 6) (w : Bool) (c : FClass) (h : BitVec 4)
  /-- MMA (R173): Queue a zero-initialised K-chunk matrix multiply into a plane. -/
  | mma (s : BitVec 6) (b : BitVec 6) (l : Bool) (w : Bool) (c : FClass)
  /-- MMA_ACC (R173): Queue an accumulating K-chunk matrix multiply. -/
  | mmaAcc (s : BitVec 6) (b : BitVec 6) (l : Bool) (w : Bool) (c : FClass)
  /-- MMAQ_F4 (R175): Queue BF16 by FP4-weight multiply with inline dequantisation. -/
  | mmaqF4 (s : BitVec 6) (b : BitVec 6) (l : Bool) (w : Bool) (c : BitVec 4)
  /-- MMAQ_F4_ACC (R175): Accumulating BF16 by FP4-weight multiply. -/
  | mmaqF4Acc (s : BitVec 6) (b : BitVec 6) (l : Bool) (w : Bool) (c : BitVec 4)
  /-- MMAQ_I4 (R175): Queue BF16 by INT4-weight multiply. -/
  | mmaqI4 (s : BitVec 6) (b : BitVec 6) (l : Bool) (w : Bool) (c : BitVec 4)
  /-- MMAQ_I4_ACC (R175): Accumulating BF16 by INT4-weight multiply. -/
  | mmaqI4Acc (s : BitVec 6) (b : BitVec 6) (l : Bool) (w : Bool) (c : BitVec 4)
  /-- MDRAIN (R177): Start draining a plane into the forwarding latch row by row. -/
  | mdrain (l : Bool) (w : Bool)
  /-- MCFG (R169): Set the format pair for later MX syllables. -/
  | mcfg (b : Bool) (a : Bool) (p : MPair)
  /-- MZERO (R176): Queue zeroing of a plane. -/
  | mzero (l : Bool)
  /-- SCLD_BLK (R181): Load 128 block scales into a scale register. -/
  | scldBlk (s : BitVec 4) (a : BitVec 6) (o : BitVec 9)
  /-- SCLD_BAND (R181): Load two band scales into a scale register. -/
  | scldBand (s : BitVec 4) (a : BitVec 6) (o : BitVec 9)
  /-- QCVT_F8 (R183): Pack FP32 lanes into MXFP8 blocks. -/
  | qcvtF8 (d : BitVec 5) (a : BitVec 5) (k : Bool) (r : RMode) (p : BitVec 4)
  /-- QCVT_DB4 (R184): Pack FP32 lanes into DB4 blocks under a band scale. -/
  | qcvtDb4 (d : BitVec 5) (a : BitVec 5) (s : BitVec 4) (r : RMode) (p : BitVec 4)
  /-- QCVT_MX4 (R183): Pack FP32 lanes into MXFP4 blocks. -/
  | qcvtMx4 (d : BitVec 5) (a : BitVec 5) (r : RMode) (p : BitVec 4)
  /-- QCVT_UNP (R185): Unpack MXFP8 elements into FP32 lanes. -/
  | qcvtUnp (d : BitVec 5) (a : BitVec 5) (s : BitVec 4) (k : Bool) (p : BitVec 4)
  /-- RNDG_INT (R188): Fill lanes with 32-bit Philox draws. -/
  | rndgInt (d : BitVec 5) (p : BitVec 4)
  /-- RNDG_UNI (R188): Fill lanes with uniform FP32 draws. -/
  | rndgUni (d : BitVec 5) (p : BitVec 4)
  /-- STATC (R189): Read live per-tensor counters for a group of 32 IDs. -/
  | statc (d : BitVec 5) (p : BitVec 4)
  /-- SEND (R376): Send lanes of a register as one channel element. -/
  | send (c : BitVec 6) (v : BitVec 5) (l : BitVec 6) (p : BitVec 4)
  /-- RECV (R376): Consume the head element of a receive channel. -/
  | recv (c : BitVec 6) (v : BitVec 5) (l : BitVec 6) (p : BitVec 4)
  /-- RADD_BF16 (R377): Consume an element and add it to BF16 lanes in rank order. -/
  | raddBf16 (c : BitVec 6) (v : BitVec 5) (l : BitVec 6) (p : BitVec 4)
  /-- RADD_F32 (R377): Consume an element and add it to FP32 lanes in rank order. -/
  | raddF32 (c : BitVec 6) (v : BitVec 5) (l : BitVec 6) (p : BitVec 4)
  /-- BARR (R253): Send one arrival to a spire barrier group. -/
  | barr (d : BitVec 6) (g : BitVec 7)
  /-- BARW (R254): Hold the bundle until a barrier generation completes. -/
  | barw (d : BitVec 6) (g : BitVec 7)
  /-- BARM (R252): Configure or break a barrier group. -/
  | barm (a : BitVec 6) (g : BitVec 7)
  /-- FUSE (R242): Wait to form a fused group of cores. -/
  | fuse (d : BitVec 6) (a : BitVec 6)
  /-- IDEM (R89): Set IB on the next bundle issued, beginning a new idempotent region. -/
  | idem
  /-- TRET (R25): Restore the snapshot and re-enter the interrupted bundle. -/
  | tret
  /-- SNAPREL (R24): Release the snapshot buffer and unmask traps. -/
  | snaprel
  /-- MCLAIM (R164): Claim the matrix engine and reset its pair, tags and plane kinds. -/
  | mclaim
  /-- MREL (R164): Release the matrix claim, stopping commands and the drain. -/
  | mrel
  /-- DECPL (R245): Decouple the fused group explicitly. -/
  | decpl
  /-- CHWAIT (R378): Stall until a channel has n credits or n elements. -/
  | chwait (c : BitVec 6) (n : BitVec 6)
  /-- REJN (R246): Wait for all group members to rejoin. -/
  | rejn (d : BitVec 6)
  /-- WDOG (R307): Read the watchdog and optionally change its budget. -/
  | wdog (d : BitVec 6) (a : BitVec 6)
  /-- PROT (R404): Register a region as protected, pending the next round. -/
  | prot (a : BitVec 6)
  /-- UNPROT (R404): Remove a protected-region registration, pending the next round. -/
  | unprot (a : BitVec 6)
  /-- RPREP (R408): Close the current round of a coding-group slot and send deltas. -/
  | rprep (a : BitVec 6) (b : BitVec 6)
  /-- RCOMM (R409): Hold until the closed round commits or aborts, then acquire. -/
  | rcomm (a : BitVec 6) (b : BitVec 6)
  /-- RSTAT (R415): Read ROUNDLAST or CGSTAT, or restore stream states from the round record. -/
  | rstat (a : BitVec 6) (b : BitVec 6)
  /-- NETPOST (R389): Copy a work request into a network ring and publish it. -/
  | netpost (a : BitVec 6) (b : BitVec 6)
  /-- NETWAIT (R389): Hold until a network counter reaches a target, then acquire. -/
  | netwait (a : BitVec 6) (b : BitVec 6)
  /-- EMPTY_BUNDLE (R44): An empty bundle issues REP + 1 empty cycles. -/
  | emptyBundle (rep : BitVec 6)
  /-- BIND_TASK (R17): A core picks up a READY record, checks it, loads state and issues the task. -/
  | bindTask (core : Nat) (launch : Nat) (index : Nat)
  /-- PREEMPT_TAKE (R33): A pending pre-emption is taken at the next eligible safe point. -/
  | preemptTake (core : Nat)
  /-- SLICE_EXPIRE (R305): A task's effective time slice ends and pre-emption is requested. -/
  | sliceExpire (core : Nat)
  /-- WATCHDOG_EXPIRE (R307): The watchdog count reaches its budget and the task is killed with WDOG. -/
  | watchdogExpire (core : Nat)
  /-- REMOTE_REPLY (R17): A reply to a parked remote load is written at home and the task becomes READY. -/
  | remoteReply (launch : Nat) (index : Nat) (reply : RemoteReply)
  /-- LOAD_ARRIVE (R206): Data of a missed load arrives and the stalled consumer proceeds. -/
  | loadArrive (core : Nat) (k : Nat)
  /-- RECORD_CACHE_FILL (R87): A record-cache miss fills an entry and ends the fetch hold. -/
  | recordCacheFill (core : Nat) (ia : Nat)
  /-- SEGMENT_EXPAND (R47): The prefetch engine expands a segment into a loop-buffer half. -/
  | segmentExpand (core : Nat) (frame : Nat)
  /-- SNAPST_WRITE (R97): The stored image bytes change in scratchpad 36 cycles after SNAPST. -/
  | snapstWrite (core : Nat)
  /-- SNAPLD_FILL (R97): The snapshot buffer is filled 36 cycles after SNAPLD. -/
  | snapldFill (core : Nat)
  /-- LOGFULL_TIMEOUT (R261): A store stalled for LOGSTALL ticks raises LOGFULL. -/
  | logfullTimeout (core : Nat)
  /-- RESURFACER_COMPACT (R276): The resurfacer applies released records to home in stamp order. -/
  | resurfacerCompact (die : Nat) (bound : Nat)
  /-- SYNC_OP_COMPLETE (R274): An ACQ, REL, FENCE, AMO or CAS completes at home and the hold ends. -/
  | syncOpComplete (core : Nat) (reply : RemoteReply)
  /-- SSTEP_RELEASE (R283): All superstep participants have arrived and held tasks acquire and proceed. -/
  | sstepRelease (launch : Nat) (die : Nat) (scope : Scope)
  /-- RING_PUB_WAIT_END (R347): A producer waiting at step 3 publishes once PUB equals its slot. -/
  | ringPubWaitEnd (core : Nat)
  /-- MX_COMMAND_START (R171): A queued matrix command starts when its unit and dependences allow. -/
  | mxCommandStart (core : Nat)
  /-- MX_COMMAND_END (R171): A matrix command ends and its results exist. -/
  | mxCommandEnd (core : Nat)
  /-- DRAIN_ROW (R157): A plane row occupies the forwarding latch for one advancing cycle. -/
  | drainRow (core : Nat)
  /-- COPY_JOB_START (R216): The copy engine starts the next queued job. -/
  | copyJobStart (core : Nat)
  /-- COPY_JOB_END (R217): A copy job ends, releasing its writes at core scope and updating its handle. -/
  | copyJobEnd (core : Nat)
  /-- COPY_JOB_FAIL (R220): A running copy job fails, stops and holds its cause. -/
  | copyJobFail (core : Nat) (err : CopyErr)
  /-- CHANNEL_OPEN (R373): An ENGW setting V opens a channel entry. -/
  | channelOpen (core : Nat) (ch : Nat)
  /-- CHANNEL_CLOSE (R373): Writing V = 0 closes a channel, discarding its elements. -/
  | channelClose (core : Nat) (ch : Nat)
  /-- CHANNEL_PAIR (R373): An opening entry pairs with its peer and becomes open or breaks. -/
  | channelPair (core : Nat) (ch : Nat) (depth : BitVec 6) (agree : Bool)
  /-- CHANNEL_ROUTE_TIMEOUT (R375): A remote channel without session or route for REROUTE.TICKS breaks. -/
  | channelRouteTimeout (core : Nat) (ch : Nat)
  /-- CHANNEL_ELEMENT_ARRIVE (R380): A sent element is placed in the receive buffer. -/
  | channelElementArrive (core : Nat) (ch : Nat) (elem : ChanElem)
  /-- CHANNEL_CREDIT_RETURN (R379): A returned credit reaches the send side. -/
  | channelCreditReturn (core : Nat) (ch : Nat)
  /-- BARRIER_ARRIVAL (R253): A BARR arrival reaches the group root and is counted or rejected. -/
  | barrierArrival (core : Nat) (group : BitVec 7)
  /-- BARM_APPLY (R252): A BARM value reaches the root and is applied, staged or breaks the group. -/
  | barmApply (core : Nat) (group : BitVec 7) (value : Word)
  /-- SPIRE_MIRROR_UPDATE (R255): A completion reaches a cluster node's mirror, releasing BARW holders. -/
  | spireMirrorUpdate (die : Nat) (cluster : Nat) (group : Nat)
  /-- FUSE_TIMEOUT (R242): A FUSE wait of 2,000 ticks withdraws with status 2. -/
  | fuseTimeout (core : Nat)
  /-- RING_POLL_VISIT (R348): The command processor visits a launch ring and takes one published entry. -/
  | ringPollVisit
  /-- LAUNCH_COMPLETE (R351): The launch counter reaches TASKS and the launch is completed. -/
  | launchComplete (launch : Nat)
  /-- GRAPH_NODE_ACTIVATE (R310): A graph node receives its PREDS completions and acts by type. -/
  | graphNodeActivate (graph : Nat) (node : Nat)
  /-- PHASE_START (R311): A phase starts and chooses a schedule by footprint. -/
  | phaseStart (job : Nat)
  /-- JOB_SUBMIT (R312): A JOBSUB write with GO starts or rejects a job. -/
  | jobSubmit (ctx : Nat) (master : Nat) (value : Word)
  /-- UNIT_CANCEL (R312): A UNITCANCEL write cancels a unit as CANCEL does. -/
  | unitCancel (ctx : Nat) (master : Nat) (value : Word)
  /-- FLTQ_POP (R294): A read of FLTQ returns and pops the head fault entry. -/
  | fltqPop (die : Nat) (master : Nat)
  /-- TLB_INVALIDATE (R294): A TLBINV write invalidates translation entries for a page or all. -/
  | tlbInvalidate (die : Nat) (master : Nat) (value : Word)
  /-- PAGE_DONE (R294): A PGDONE write wakes tasks and holds waiting on a page. -/
  | pageDone (die : Nat) (master : Nat) (value : Word)
  /-- PTROOT_WRITE (R335): A PTROOT write sets the page-table root and invalidates all TLBs. -/
  | ptrootWrite (master : Nat) (value : Word)
  /-- AWA_WRITE (R289): An AWnA write is checked against the window and may be refused. -/
  | awaWrite (ctx : Nat) (w : Nat) (master : Nat) (value : Word)
  /-- REGISTER_WRITE (R333): An owner write to a register without its own row takes effect and is journalled. -/
  | registerWrite (off : Nat) (master : Nat) (value : Word)
  /-- JOURNAL_MIRROR_WRITE (R345): A journal entry is mirrored to HBM within 1 ms. -/
  | journalMirrorWrite (seq : Nat)
  /-- JIDX_WRITE (R345): A master sets its own journal index for JDATA. -/
  | jidxWrite (master : Nat) (value : Word)
  /-- DBGCTL_WRITE (R99): The attached debugger writes DBGCTL through the root controller. -/
  | dbgctlWrite (core : Nat) (value : Word)
  /-- DEVNUM_SET (R339): The domain manager sets DEVID.DEVNUM at stage 1. -/
  | devnumSet (n : BitVec 7)
  /-- POWER_ON_RESET (R338): Power-on or reset enters stage 0, verifies images and advances INC. -/
  | powerOnReset (images : List (Bool × Digest))
  /-- HOST_LINK_UP (R338): With images verified and UCIe trained, the package enters stage 1. -/
  | hostLinkUp
  /-- STAGE_ADVANCE_COMPUTE (R338): GO = 2 releases dies, trains HBM and enters COMPUTE; `failed` lists the stacks that training
  fails. -/
  | stageAdvanceCompute (failed : List Nat)
  /-- STAGE_ADVANCE_FABRIC (R338): GO = 3 enters FABRIC once every port reaches RUN. -/
  | stageAdvanceFabric
  /-- STAGE_ADVANCE_GROUP (R338): GO = 4 enters GROUP once group restore completes. -/
  | stageAdvanceGroup
  /-- STAGE_ADVANCE_TIMEOUT (R338): A stage condition unmet within 10 s sets ERR. -/
  | stageAdvanceTimeout
  /-- THERMAL_CUT (R353): A sensor over its cut limit for 1 ms takes the package to stage 0. -/
  | thermalCut
  /-- THERMAL_THROTTLE (R353): A sensor above its throttle limit lowers the core clock. -/
  | thermalThrottle (on : Bool)
  /-- DIE_LINK_FAIL (R331): A die-to-die link failing retry reports MEM_UNCORRECTABLE. -/
  | dieLinkFail (d1 : Nat) (d2 : Nat)
  /-- OWNCAS_CLAIM (R342): An OWNCAS write claims ownership and wins or loses. -/
  | owncasClaim (master : Nat) (value : Word)
  /-- OWNHAND_WRITE (R343): The owner names a successor for handover. -/
  | ownhandWrite (master : Nat) (value : Word)
  /-- OWNBEAT_RENEW (R342): An owner OWNBEAT write renews the lease. -/
  | ownbeatRenew (master : Nat)
  /-- LEASE_LAPSE (R342): The ownership lease ends and the owner lapses. -/
  | leaseLapse
  /-- RETIRE_TRIGGER (R317): A RETIRE GO write triggers retirement of a stack. -/
  | retireTrigger (master : Nat) (value : Word)
  /-- AUTO_RETIRE_TRIGGER (R317): A stack's CECNT reaching CETH triggers retirement. -/
  | autoRetireTrigger (stack : Nat)
  /-- RELOCLIST_GO (R319): RELOCLIST.GO starts processing the relocation list. -/
  | reloclistGo (master : Nat) (value : Word)
  /-- RELOC_GRANULE_COPY (R319): The traverse copies one granule of a relocating page. -/
  | relocGranuleCopy
  /-- SWEEP_GRANULE_MOVE (R320): The sweep moves one granule off the failing stack. -/
  | sweepGranuleMove
  /-- TRAVLOSS_ZERO_FILL (R322): ACT = 1 zero-fills the lost granule and continues the sweep. -/
  | travlossZeroFill (master : Nat)
  /-- TRAVLOSS_REREAD (R322): ACT = 2 reads the lost granule again. -/
  | travlossReread (master : Nat)
  /-- MEM_REQUEST (R325): A request reaches a controller and opens its row if needed. -/
  | memRequest (req : MemReq)
  /-- RFM_HOLD_END (R326): A bank hold of TRFM ticks ends. -/
  | rfmHoldEnd (ctrl : Nat) (bank : Nat)
  /-- PERIODIC_REFRESH (R325): A periodic refresh command closes a bank's open row. -/
  | periodicRefresh (ctrl : Nat) (bank : Nat)
  /-- REFRESH_WINDOW_CLEAR (R326): Activation counters clear at each 32 ms refresh window. -/
  | refreshWindowClear (ctrl : Nat)
  /-- FRAME_RECEIVE (R356): A frame is received, checked and acknowledged or discarded. -/
  | frameReceive (plane : Nat) (lambda : Nat) (frame : Frame)
  /-- STREAM_ACK_TIMEOUT (R357): No acknowledgement for 50 µs makes a stream dead. -/
  | streamAckTimeout (plane : Nat) (peer : Nat)
  /-- STREAM_PROBE (R357): A dead stream sends a probe every 100 ms. -/
  | streamProbe (plane : Nat) (peer : Nat) (answered : Bool)
  /-- SESSION_SETUP (R360): The requester starts the SPDM exchange with a peer. -/
  | sessionSetup (peer : Nat)
  /-- SESSION_UP (R360): The SPDM exchange completes and the peer is accepted or refused. -/
  | sessionUp (peer : Nat) (inc : BitVec 16) (chain : Bool) (meas : Digest)
  /-- SESSION_LIVENESS_TIMEOUT (R360): No good frame from the peer for 1 ms takes the session DOWN. -/
  | sessionLivenessTimeout (peer : Nat)
  /-- KEY_UPDATE (R359): Before 2^32 frames under one key the sender moves to a new key. -/
  | keyUpdate (peer : Nat)
  /-- ACCEPT_WRITE (R360): A write to an ACCEPT register returns refused peers to NONE. -/
  | acceptWrite (master : Nat) (k : Nat) (word : Nat) (value : Word)
  /-- PORT_LOCK (R361): PORTCTL CMD 1 locks the port and measures its configuration. -/
  | portLock (master : Nat) (k : Nat)
  /-- PORT_RUN (R361): PORTCTL CMD 2 puts the port in RUN. -/
  | portRun (master : Nat) (k : Nat)
  /-- PORT_UNLOCK (R361): PORTCTL CMD 3 unlocks the port. -/
  | portUnlock (master : Nat) (k : Nat)
  /-- PORT_OPTICAL_FAULT (R361): A laser or receiver fault of 10 ms puts the port in ERROR. -/
  | portOpticalFault (k : Nat)
  /-- PORT_MEAS_CHECK (R361): The per-second configuration check may put a RUN port in ERROR. -/
  | portMeasCheck (k : Nat) (agrees : Bool)
  /-- REACH_ADVERT (R365): A reachability advertisement is sent to each UP peer. -/
  | reachAdvert (peer : Nat) (relay : BitVec 128)
  /-- REROUTE_TIMEOUT (R366): A request without a route for REROUTE.TICKS ends with REMOTE_UNREACHABLE. -/
  | rerouteTimeout (peer : Nat) (who : RouteWaiter)
  /-- REMOTE_REQUEST (R363): A remote request is performed at the target in PSEQ order. -/
  | remoteRequest (src : Nat) (req : RemoteReq)
  /-- ROAM_MOVE_REQUEST (R368): MIGTH accesses in 100 µs ask the registry to move a roaming page. -/
  | roamMoveRequest (page : Nat) (asker : Nat) (core : Nat) (refused : Bool)
  /-- ROAM_COPY_END (R368): A roaming page copy ends at the new holder. -/
  | roamCopyEnd (page : Nat) (holder : Nat) (data : List Byte)
  /-- MIGWIN_WRITE (R368): A MIGWIN write ends the phase window for roaming pages. -/
  | migwinWrite (master : Nat)
  /-- REDUCE_CONTRIBUTION (R382): A chunk contribution reaches the reduction unit and is combined in rank order. On a device
  that is not the group's ROOT it is the result of the chunk that arrives, with the ranks that it misses. -/
  | reduceContribution (group : Nat) (seq : Nat) (chunk : Nat) (rank : Nat) (ty : Nat) (data : List Byte) (missing : BitVec 128)
  /-- REDUCE_FLUSH (R383): A chunk waiting TREDUCE ticks is delivered partial. -/
  | reduceFlush (group : Nat) (seq : Nat) (chunk : Nat)
  /-- LAP_STEP_START (R385): A lap rotation step copy starts when its conditions hold. -/
  | lapStepStart (ctx : Nat)
  /-- LAP_STEP_END (R385): A step's last byte is written and the successor's R advances. Without bytes this rank's own copy has ended
  at its successor; bytes are a block that the predecessor has copied here. -/
  | lapStepEnd (ctx : Nat) (how : LapEnd)
  /-- NET_RING_POLL (R388): The network engine visits a network ring and starts an entry. -/
  | netRingPoll (agree : Bool)
  /-- MSG_PACKET_RECEIVE (R393): A message packet is checked and placed at home. -/
  | msgPacketReceive (packet : Packet)
  /-- SACK_SEND (R393): The receiver sends a coalesced SACK. -/
  | sackSend (peer : Nat)
  /-- SACK_RECEIVE (R394): A SACK acknowledges packets and may trigger retransmission. -/
  | sackReceive (peer : Nat) (sack : Sack)
  /-- RTO_EXPIRE (R394): An unacknowledged packet is retransmitted after RTO ticks. -/
  | rtoExpire (peer : Nat)
  /-- GROUP_JOIN (R401): CGCFG.EN := 1 with REPL = 0 enters FORMING. -/
  | groupJoin (master : Nat) (slot : Nat)
  /-- GROUP_FORM (R416): Formation completes with RUN, or fails to OFF. -/
  | groupForm (slot : Nat) (agree : Bool)
  /-- GROUP_FORM_TIMEOUT (R416): A member unreachable for CGTIME.DEAD during formation fails it. -/
  | groupFormTimeout (slot : Nat)
  /-- GROUP_LEAVE (R416): EN := 0 takes the slot to OFF and discards its state. -/
  | groupLeave (master : Nat) (slot : Nat)
  /-- REBUILD_START (R417): EN := 1 with REPL = 1 starts a rebuild into the replacement. -/
  | rebuildStart (rb : RebuildAt)
  /-- REBUILD_RESUME (R416): CGCTL.CMD = 2 resumes a held rebuild. -/
  | rebuildResume (master : Nat) (slot : Nat)
  /-- DELTA_RECEIVE (R410): A parity member stages a delta and acknowledges it. -/
  | deltaReceive (slot : Nat) (delta : Delta)
  /-- DELTA_ACK_RECEIVE (R410): A data member receives acknowledgements and may send PREPARED. -/
  | deltaAckReceive (slot : Nat) (ack : DeltaAck)
  /-- PREPARED_RECEIVE (R410): The coordinator receives PREPARED and may write COMMIT. -/
  | preparedReceive (slot : Nat) (src : Nat) (round : Word) (regs : List Region)
  /-- DECISION_RECEIVE (R410): A member stores a decision record and applies or aborts the round. -/
  | decisionReceive (slot : Nat) (msg : SentDecision)
  /-- MEMBER_DEAD_TIMEOUT (R411): A member unreachable for CGTIME.DEAD, or (`left`) one that has left the group, is
  declared dead. -/
  | memberDeadTimeout (slot : Nat) (member : Nat) (left : Bool)
  /-- REBUILD_SHARE_RECEIVE (R417): A share arrives; a complete piece is decoded and written. -/
  | rebuildShareReceive (slot : Nat) (share : Share)
  /-- DEBUGGER_CONTINUE (R99): The attached debugger lets a halted task continue, and with FREEZE set the copy engine, matrix array and channels of the core resume. -/
  | debuggerContinue (core : Nat)
  /-- DEBUGGER_ATTACH (R95): A debugger is attached or detached, which decides whether class D codes go to it first or follow class H. -/
  | debuggerAttach (on : Bool)
  /-- STANDBY_SUPPLY_LOSS (R344): Loss of F's standby supply empties the journal, so that it restarts at JSTART. -/
  | standbySupplyLoss
  /-- UEPORT_LINK_CHANGE (R396): An Ultra Ethernet port's link comes up at 800 Gb/s or goes down, changing UEPORT.LINK. -/
  | ueportLinkChange (k : Nat) (up : Bool)
  /-- PACKET_ERROR_ANSWER (R393): The sender receives the receiver's error answer to a rejected packet and fails the message under R392. -/
  | packetErrorAnswer (peer : Nat) (psn : Nat)
  /-- TLBINV_COMPLETE (R294): A TLB and walk-cache invalidation completes: TLBINV then reads 0, and stale translations stop being served. -/
  | tlbinvComplete (die : Nat)
  deriving DecidableEq, Repr

end Sys2Proof
end

