-- ==== Sys2Proof/Machine/Numbers.lean ====
section
/-! DEFINITION. Element formats, exact values, rounding, conversion and the exact functions (spec 04_numbers.md; 05_vector.md R155, R156).
Every finite value of every format is a whole number of quanta 2^-160; a product of two is a whole number of quanta 2^-320. -/

namespace Sys2Proof.Machine

/-- A floating-point format (R104). Magnitude codes are the bits below the sign. -/
structure FFmt where
  /-- width in bits -/
  width : Nat
  /-- mantissa bits -/
  mbits : Nat
  /-- exponent of the smallest normal is `-negEmin` -/
  negEmin : Nat
  /-- magnitude code of the largest finite value -/
  maxCode : Nat
  /-- does the format have infinities (at maxCode + 1)? -/
  hasInf : Bool
  /-- magnitude code of the canonical NaN (R105); 0 for a format without NaN -/
  nanCode : Nat
  deriving DecidableEq, Repr

def fp32 : FFmt := ⟨32, 23, 126, 0x7F7FFFFF, true, 0x7FC00000⟩
def fp16 : FFmt := ⟨16, 10, 14, 0x7BFF, true, 0x7E00⟩
def bf16 : FFmt := ⟨16, 7, 126, 0x7F7F, true, 0x7FC0⟩
def e4m3 : FFmt := ⟨8, 3, 6, 0x7E, false, 0x7F⟩
def e5m2 : FFmt := ⟨8, 2, 14, 0x7B, true, 0x7E⟩
def e2m1 : FFmt := ⟨4, 1, 0, 7, false, 0⟩

/-- The exact value of an operand: NaN, a signed infinity, or a sign and a magnitude in quanta of the scale in use. -/
inductive FVal where
  | nan
  | inf (neg : Bool)
  | fin (neg : Bool) (mag : Nat)
  deriving DecidableEq, Repr

/-- Events of a producing syllable (R132): saturations, flushes and NaNs. -/
structure Ev where
  sat : Nat := 0
  flush : Nat := 0
  nan : Nat := 0
  deriving DecidableEq, Repr

/-- Both lists of events. -/
def Ev.add (a b : Ev) : Ev := ⟨a.sat + b.sat, a.flush + b.flush, a.nan + b.nan⟩

/-- Sum of the events of elements 0 to n-1. -/
def Ev.sumTo : Nat → (Nat → Ev) → Ev
  | 0, _ => {}
  | n + 1, f => (Ev.sumTo n f).add (f n)

/-- One quantum of operands is 2^-160. -/
def quantBits : Nat := 160

/-- The exact value of a code (R104), in quanta 2^-160. -/
def FFmt.decode (f : FFmt) (x : Nat) : FVal :=
  let neg := x.testBit (f.width - 1)
  let c := x % 2 ^ (f.width - 1)
  if c ≤ f.maxCode then
    let e := c / 2 ^ f.mbits
    let m := if e = 0 then c else 2 ^ f.mbits + c % 2 ^ f.mbits
    .fin neg (m * 2 ^ (quantBits - f.negEmin - f.mbits + (e - 1)))
  else if f.hasInf && c == f.maxCode + 1 then .inf neg
  else .nan

/-- The sign bit of a format. -/
def FFmt.signBit (f : FFmt) (neg : Bool) : Nat := if neg then 2 ^ (f.width - 1) else 0

/-- A rounded magnitude: the code it would have without a largest value, and whether the exact value was zero. -/
structure Rounded where
  /-- magnitude code; above maxCode on overflow -/
  code : Nat
  /-- the exact magnitude was not zero -/
  nz : Bool
  deriving DecidableEq, Repr

/-- Does rounding go up? `rem/den` is the fraction between adjacent magnitudes, `odd` the low bit of the lower one (R112, R113). -/
def roundsUp (mode : RMode) (u : Nat) (odd : Bool) (rem den : Nat) : Bool :=
  match mode with
  | .rne => decide (den < 2 * rem) || (decide (2 * rem = den) && odd)
  | .rz => false
  | .rs => decide (2 ^ 32 ≤ rem * 2 ^ 32 / den + u)

/-- Round the exact magnitude num/den (den > 0) to the format's grid (R112, R113, R118). -/
def FFmt.roundMag (f : FFmt) (mode : RMode) (u num den : Nat) : Rounded :=
  if num = 0 then ⟨0, false⟩ else
  let e0 : Int := (Nat.log2 num : Int) - (Nat.log2 den : Int)
  -- 2^e ≤ num/den < 2^(e+1)
  let below : Bool := if e0 ≥ 0 then decide (num < den * 2 ^ e0.toNat) else decide (num * 2 ^ (-e0).toNat < den)
  let e := if below then e0 - 1 else e0
  let emin : Int := -(f.negEmin : Int)
  let ec := max e emin
  let q := ec - (f.mbits : Int)
  let n2 := if q ≥ 0 then num else num * 2 ^ (-q).toNat
  let d2 := if q ≥ 0 then den * 2 ^ q.toNat else den
  let n := n2 / d2
  let up := roundsUp mode u (n % 2 == 1) (n2 % d2) d2
  ⟨(ec - emin).toNat * 2 ^ f.mbits + n + up.toNat, true⟩

/-- The flush of R117: a zero delivered for a non-zero exact value. -/
def Rounded.flush (r : Rounded) : Nat := if r.nz && r.code == 0 then 1 else 0

/-- Nearest even with overflow to infinity (R118, R140): the code and whether it flushed. -/
def FFmt.roundNE (f : FFmt) (neg : Bool) (num den : Nat) : Nat × Ev :=
  let r := f.roundMag .rne 0 num den
  (f.signBit neg + min r.code (f.maxCode + 1), { flush := r.flush })

/-- Encode an exact value held in quanta 2^-s, rounding to nearest even. -/
def FFmt.encode (f : FFmt) (s : Nat) (v : FVal) : Nat × Ev :=
  match v with
  | .nan => (f.nanCode, {})
  | .inf neg => (f.signBit neg + f.maxCode + 1, {})
  | .fin neg m => f.roundNE neg m (2 ^ s)

/-- Negation of an exact value. -/
def FVal.neg : FVal → FVal
  | .nan => .nan
  | .inf s => .inf !s
  | .fin s m => .fin (!s) m

/-- The exact product; its scale is the sum of the scales. Infinity times zero is NaN. (Open points: DEDUCED, log 40.) -/
def FVal.mul : FVal → FVal → FVal
  | .nan, _ => .nan
  | _, .nan => .nan
  | .inf s, .inf t => .inf (s != t)
  | .inf s, .fin t m => if m = 0 then .nan else .inf (s != t)
  | .fin s m, .inf t => if m = 0 then .nan else .inf (s != t)
  | .fin s m, .fin t n => .fin (s != t) (m * n)

/-- Raise the scale by k: the same value in smaller quanta. -/
def FVal.scale (k : Nat) : FVal → FVal
  | .nan => .nan
  | .inf s => .inf s
  | .fin s m => .fin s (m * 2 ^ k)

/-- The signed value of a finite term. -/
def FVal.toInt : FVal → Int
  | .fin false m => (m : Int)
  | .fin true m => -(m : Int)
  | _ => 0

/-- Is it NaN? -/
def FVal.isNaN : FVal → Bool
  | .nan => true
  | _ => false

/-- A code with a NaN made canonical (R105). -/
def FFmt.canon (f : FFmt) (c : Nat) : Nat := if (f.decode c).isNaN then f.nanCode else c

/-- Is it the infinity of this sign? -/
def FVal.isInf (neg : Bool) : FVal → Bool
  | .inf s => s == neg
  | _ => false

/-- Is it -0? -/
def FVal.isNegZero : FVal → Bool
  | .fin true 0 => true
  | _ => false

/-- The exact sum of terms of one scale, with the special cases of R118, R119 and R144. -/
def FVal.sum (ts : List FVal) : FVal :=
  if ts.any FVal.isNaN then .nan
  else if ts.any (FVal.isInf false) then (if ts.any (FVal.isInf true) then .nan else .inf false)
  else if ts.any (FVal.isInf true) then .inf true
  else
    let s := ts.foldl (fun a t => a + t.toInt) 0
    if s = 0 then .fin (ts.all FVal.isNegZero) 0
    else .fin (decide (s < 0)) s.natAbs

/-- a < b as exact values, with -0 equal to +0; false if either is NaN (R74). -/
def FVal.lt : FVal → FVal → Bool
  | .nan, _ => false
  | _, .nan => false
  | .inf s, .inf t => s && !t
  | .inf s, .fin _ _ => s
  | .fin _ _, .inf t => !t
  | .fin s m, .fin t n => decide ((FVal.fin s m).toInt < (FVal.fin t n).toInt)

/-- a = b under IEEE 754 comparison. -/
def FVal.eq : FVal → FVal → Bool
  | .nan, _ => false
  | _, .nan => false
  | a, b => !(a.lt b) && !(b.lt a)

/-- a ≤ b under IEEE 754 comparison. -/
def FVal.le (a b : FVal) : Bool := a.lt b || a.eq b

/-- The order of FMIN and FMAX: as `lt`, with -0 below +0 (R74). -/
def FVal.below (a b : FVal) : Bool := a.lt b || (a.eq b && a.isNegZero && !b.isNegZero)

/-- a + b in format f (R74, R140). -/
def FFmt.add (f : FFmt) (a b : Nat) : Nat × Ev := f.encode quantBits (FVal.sum [f.decode a, f.decode b])

/-- a - b in format f. -/
def FFmt.sub (f : FFmt) (a b : Nat) : Nat × Ev := f.encode quantBits (FVal.sum [f.decode a, (f.decode b).neg])

/-- a × b in format f. -/
def FFmt.mul (f : FFmt) (a b : Nat) : Nat × Ev := f.encode (2 * quantBits) ((f.decode a).mul (f.decode b))

/-- FMIN (R74). -/
def FFmt.min (f : FFmt) (a b : Nat) : Nat :=
  match (f.decode a).isNaN, (f.decode b).isNaN with
  | true, true => f.nanCode
  | true, false => b
  | false, true => a
  | false, false => if (f.decode b).below (f.decode a) then b else a

/-- FMAX (R74). -/
def FFmt.max (f : FFmt) (a b : Nat) : Nat :=
  match (f.decode a).isNaN, (f.decode b).isNaN with
  | true, true => f.nanCode
  | true, false => b
  | false, true => a
  | false, false => if (f.decode a).below (f.decode b) then b else a

/-- The quotient a / b in format f, correctly rounded (R156). -/
def FFmt.div (f : FFmt) (a b : Nat) : Nat × Ev :=
  match f.decode a, f.decode b with
  | .nan, _ => (f.nanCode, {})
  | _, .nan => (f.nanCode, {})
  | .inf _, .inf _ => (f.nanCode, {})
  | .inf s, .fin t _ => (f.signBit (s != t) + f.maxCode + 1, {})
  | .fin s _, .inf t => (f.signBit (s != t), {})
  | .fin s m, .fin t n =>
    if n = 0 then (if m = 0 then (f.nanCode, {}) else (f.signBit (s != t) + f.maxCode + 1, {}))
    else f.roundNE (s != t) m n

/-- A fused sum of products of FP32 lanes and an addend, rounded once (R144). (Open points: DEDUCED, log 40.) -/
def fusedSum (products : List FVal) (addend : FVal) : Nat × Ev :=
  fp32.encode (2 * quantBits) (FVal.sum (products ++ [addend.scale quantBits]))

/-- The range of an integer format as an integer interval (R106). -/
structure IFmt where
  width : Nat
  signed : Bool
  deriving DecidableEq, Repr

def IFmt.lo (f : IFmt) : Int := if f.signed then -((2 ^ (f.width - 1) : Nat) : Int) else 0
def IFmt.hi (f : IFmt) : Int := if f.signed then ((2 ^ (f.width - 1) : Nat) : Int) - 1 else ((2 ^ f.width : Nat) : Int) - 1

/-- The value of a code of an integer format. -/
def IFmt.decode (f : IFmt) (x : Nat) : Int := if f.signed then sval f.width x else ((x % 2 ^ f.width : Nat) : Int)

/-- An element format: floating-point or integer. -/
inductive EFmt where
  | fp (f : FFmt)
  | int (f : IFmt)
  deriving DecidableEq, Repr

def EFmt.width : EFmt → Nat
  | .fp f => f.width
  | .int f => f.width

/-- The element format of a vector type code; `f8` is ZSTAT.F8 (R56, R135). -/
def VTy.fmt (f8 : Bool) : VTy → EFmt
  | .f32 => .fp fp32
  | .bf16 => .fp bf16
  | .f16 => .fp fp16
  | .i32 => .int ⟨32, true⟩
  | .i16 => .int ⟨16, true⟩
  | .i8 => .int ⟨8, true⟩
  | .u8 => .int ⟨8, false⟩
  | .f8 => .fp (if f8 then e5m2 else e4m3)

/-- Element width in bits of a vector type code (R135). -/
def VTy.width : VTy → Nat
  | .f32 => 32
  | .bf16 => 16
  | .f16 => 16
  | .i32 => 32
  | .i16 => 16
  | .i8 => 8
  | .u8 => 8
  | .f8 => 8

/-- The exact value of an element in quanta 2^-160. -/
def EFmt.decode (f : EFmt) (x : Nat) : FVal :=
  match f with
  | .fp g => g.decode x
  | .int g => .fin (decide (g.decode x < 0)) ((g.decode x).natAbs * 2 ^ quantBits)

/-- Narrow an exact value (quanta 2^-160) into an integer format, saturating (R112, R115). -/
def IFmt.convert (f : IFmt) (mode : RMode) (u : Nat) (v : FVal) : Nat × Ev :=
  match v with
  | .nan => (0, { nan := 1 })
  | .inf neg => (ofSval f.width (if neg then f.lo else f.hi), { sat := 1 })
  | .fin neg m =>
    let n := m / 2 ^ quantBits
    let r := m % 2 ^ quantBits
    let up := (r != 0) && roundsUp mode u (n % 2 == 1) r (2 ^ quantBits)
    let i : Int := if neg then -((n + up.toNat : Nat) : Int) else ((n + up.toNat : Nat) : Int)
    if i < f.lo then (ofSval f.width f.lo, { sat := 1 })
    else if f.hi < i then (ofSval f.width f.hi, { sat := 1 })
    else (ofSval f.width i, {})

/-- Narrow an exact finite value num/den into a floating-point format, saturating (R112 to R117). -/
def FFmt.narrow (f : FFmt) (mode : RMode) (u : Nat) (neg : Bool) (num den : Nat) : Nat × Ev :=
  let r := f.roundMag mode u num den
  if f.maxCode < r.code then (f.signBit neg + f.maxCode, { sat := 1 }) else (f.signBit neg + r.code, { flush := r.flush })

/-- Narrow an exact value (quanta 2^-s) into a floating-point format, saturating (R112 to R117). -/
def FFmt.convert (f : FFmt) (mode : RMode) (u s : Nat) (v : FVal) : Nat × Ev :=
  match v with
  | .nan => if f.nanCode = 0 then (0, { nan := 1 }) else (f.nanCode, {})
  | .inf neg =>
    if f.width = 16 ∨ f.width = 32 then (f.signBit neg + f.maxCode + 1, {})
    else (f.signBit neg + f.maxCode, { sat := 1 })
  | .fin neg m => f.narrow mode u neg m (2 ^ s)

/-- Convert of R148. -/
def convertElem (src dst : EFmt) (mode : RMode) (u : Nat) (x : Nat) : Nat × Ev :=
  match dst with
  | .fp g => g.convert mode u quantBits (src.decode x)
  | .int g => g.convert mode u (src.decode x)

/-- Round an exact value toward positive (up) or negative infinity into an element format: the bounds of R130. -/
def EFmt.roundDirected (f : EFmt) (up : Bool) (v : FVal) : FVal :=
  match f, v with
  | _, .nan => .nan
  | _, .inf s => .inf s
  | .int _, .fin s m =>
    let n := m / 2 ^ quantBits
    let away := (m % 2 ^ quantBits != 0) && (s != up)
    .fin s ((n + away.toNat) * 2 ^ quantBits)
  | .fp g, .fin s m =>
    let r := g.roundMag .rz 0 m (2 ^ quantBits)
    let c := min r.code g.maxCode
    match g.decode c with
    | .fin _ t =>
      if t = m then .fin s m
      else if s != up then
        (if c < g.maxCode then (match g.decode (c + 1) with | .fin _ t' => .fin s t' | _ => .inf s)
         else .inf s)
      else .fin s t
    | _ => .fin s m

/-- The code of an exact value that the format represents, or the nearest end of its range (R130). (Open points: DESIGN CHOICE, log 107.) -/
def EFmt.codeOf (f : EFmt) (v : FVal) : Nat :=
  match f, v with
  | .fp g, .nan => g.nanCode
  | .fp g, .inf s => g.signBit s + (if g.hasInf then g.maxCode + 1 else g.maxCode)
  | .fp g, .fin s m => g.signBit s + min (g.roundMag .rz 0 m (2 ^ quantBits)).code g.maxCode
  | .int _, .nan => 0
  | .int g, .inf s => ofSval g.width (if s then g.lo else g.hi)
  | .int g, .fin s m =>
    let i : Int := if s then -((m / 2 ^ quantBits : Nat) : Int) else ((m / 2 ^ quantBits : Nat) : Int)
    ofSval g.width (max g.lo (min g.hi i))

/-- The value of an E3M5 block scale in quanta 2^-7; none for 0xFF (R108). -/
def e3m5 (b : Nat) : Option Nat :=
  if b % 256 = 255 then none
  else
    let e := b % 256 / 32
    let m := b % 32
    some (if e = 0 then m else (32 + m) * 2 ^ (e - 1))

/-- The value of an E8M0 scale in quanta 2^-127; none for 0xFF (R109). -/
def e8m0 (b : Nat) : Option Nat := if b % 256 = 255 then none else some (2 ^ (b % 256))

/-- An E2M1 element times an E3M5 scale times a BF16 band scale, exact, in quanta 2^-160 (R110). -/
def db4Value (elem scale band : Nat) : FVal :=
  match e3m5 scale, bf16.decode band with
  | none, _ => .nan
  | _, .nan => .nan
  | some s, b =>
    -- element in quanta 2^-1, scale in quanta 2^-7: the product of magnitudes is in quanta 2^-8
    match e2m1.decode elem with
    | .fin sg m =>
      let em := m / 2 ^ (quantBits - 1)
      match b with
      | .inf bs => if em = 0 then .nan else .inf (sg != bs)
      | .fin bs bm => .fin (sg != bs) (em * s * bm / 2 ^ 8)
      | .nan => .nan
    | _ => .nan

/-- An element of a floating-point format times an E8M0 scale, in quanta 2^-160 (R109). -/
def mxValue (f : FFmt) (elem scale : Nat) : FVal :=
  match e8m0 scale, f.decode elem with
  | none, _ => .nan
  | _, .nan => .nan
  | some _, .inf s => .inf s
  | some k, .fin s m => .fin s (m * k / 2 ^ 127)

/-! Exact functions (R155), by fixed-point sums of 2^-640 quanta. The sums carry more than 200 bits beyond FP32's grid. -/

/-- Quantum of the fixed-point functions. -/
def fxBits : Nat := 640

/-- Σ t^(2n+1)/(2n+1) over `fuel` terms: artanh t for t in quanta 2^-640; `pw` is the running power. -/
def artanhSum (t2 : Nat) : Nat → Nat → Nat → Nat → Nat
  | 0, _, _, acc => acc
  | fuel + 1, pw, n, acc => artanhSum t2 fuel (pw * t2 / 2 ^ fxBits) (n + 2) (acc + pw / n)

/-- artanh t for t ≤ 1/3, in quanta 2^-640. (Open points: PRESUMED, log 84.) -/
def fxArtanh (t : Nat) : Nat := artanhSum (t * t / 2 ^ fxBits) 210 t 1 0

/-- ln 2 = 2 artanh(1/3). -/
def fxLn2 : Nat := 2 * fxArtanh (2 ^ fxBits / 3)

/-- Σ y^n/n! over `fuel` terms. -/
def expSum (y : Nat) : Nat → Nat → Nat → Nat → Nat
  | 0, _, _, acc => acc
  | fuel + 1, term, n, acc => expSum y fuel (term * y / (2 ^ fxBits * n)) (n + 1) (acc + term)

/-- e^y for 0 ≤ y < 1. (Open points: PRESUMED, log 84.) -/
def fxExp (y : Nat) : Nat := expSum y 130 (2 ^ fxBits) 1 0

/-- arctan(1/k) by its alternating series: even and odd terms apart. -/
def arctanSum (k : Nat) : Nat → Nat → Nat → Int → Int
  | 0, _, _, acc => acc
  | fuel + 1, pw, n, acc =>
    arctanSum k fuel (pw / (k * k)) (n + 2) (if n % 4 = 1 then acc + ((pw / n : Nat) : Int) else acc - ((pw / n : Nat) : Int))

/-- arctan(1/k) in quanta 2^-640. -/
def fxArctanInv (k : Nat) : Nat := (arctanSum k 150 (2 ^ fxBits / k) 1 0).toNat

/-- π/2 = 8 arctan(1/5) - 2 arctan(1/239). -/
def fxHalfPi : Nat := 8 * fxArctanInv 5 - 2 * fxArctanInv 239

/-- Σ (-1)^n r^(2n+d)/(2n+d)!: the series of cosine (first term 1) and sine (first term r). -/
def trigSum (r2 : Nat) : Nat → Nat → Nat → Bool → Int → Int
  | 0, _, _, _, acc => acc
  | fuel + 1, term, n, pos, acc =>
    trigSum r2 fuel (term * r2 / (2 ^ fxBits * ((n + 1) * (n + 2)))) (n + 2) (!pos)
      (if pos then acc + (term : Int) else acc - (term : Int))

/-- sin r and cos r for 0 ≤ r < 2, in quanta 2^-640. (Open points: PRESUMED, log 84.) -/
def fxSin (r : Nat) : Nat := (trigSum (r * r / 2 ^ fxBits) 90 r 1 true 0).toNat
def fxCos (r : Nat) : Nat := (trigSum (r * r / 2 ^ fxBits) 90 (2 ^ fxBits) 0 true 0).toNat

/-- Round a value known to lie strictly between A and A + 1 quanta of 2^-640. (Open points: PRESUMED, log 84.) -/
def roundFx (neg : Bool) (a : Nat) : Nat × Ev := fp32.roundNE neg (2 * a + 1) (2 ^ (fxBits + 1))

/-- The integer square root of n: bit by bit from bit k. -/
def sqrtBits (n : Nat) : Nat → Nat → Nat
  | 0, r => r
  | k + 1, r => let t := r + 2 ^ k; sqrtBits n k (if t * t ≤ n then t else r)

/-- Integer square root. -/
def isqrt (n : Nat) : Nat := sqrtBits n (Nat.log2 n / 2 + 1) 0

/-- SQRT of a magnitude in quanta 2^-160: exact when the root is, else with a sticky bit below. -/
def sqrtMag (m : Nat) : Nat × Ev :=
  -- sqrt(m·2^-160) = isqrt(m·2^320)·2^-240, up to the sticky bit
  let r := isqrt (m * 2 ^ 320)
  if r * r = m * 2 ^ 320 then fp32.roundNE false r (2 ^ 240) else fp32.roundNE false (2 * r + 1) (2 ^ 241)

/-- 1/SQRT of a non-zero magnitude in quanta 2^-160. -/
def rsqMag (m : Nat) : Nat × Ev :=
  -- 1/sqrt(m·2^-160) = sqrt(2^160/m) = isqrt(2^(160+640)/m)·2^-320
  let q := 2 ^ 800 / m
  let r := isqrt q
  if r * r * m = 2 ^ 800 then fp32.roundNE false r (2 ^ 320) else fp32.roundNE false (2 * r + 1) (2 ^ 321)

/-- 2^x for finite x (R155). (Open points: PRESUMED, log 84.) -/
def exp2Val (neg : Bool) (m : Nat) : Nat × Ev :=
  let n := m / 2 ^ quantBits
  let r := m % 2 ^ quantBits
  if r = 0 then
    (if neg then (if 400 < n then fp32.roundNE false 1 (2 ^ 400) else fp32.roundNE false 1 (2 ^ n))
     else if 400 < n then (0x7F800000, {}) else fp32.roundNE false (2 ^ n) 1)
  else
    -- 2^x = 2^k · 2^f with 0 < f < 1
    let f := if neg then 2 ^ quantBits - r else r
    let a := fxExp (f * 2 ^ (fxBits - quantBits) * fxLn2 / 2 ^ fxBits)
    if neg then (if 400 < n then fp32.roundNE false 1 (2 ^ 400) else fp32.roundNE false (2 * a + 1) (2 ^ (fxBits + 1) * 2 ^ (n + 1)))
    else if 400 < n then (0x7F800000, {})
    else fp32.roundNE false ((2 * a + 1) * 2 ^ n) (2 ^ (fxBits + 1))

/-- log2 of a positive magnitude in quanta 2^-160. (Open points: PRESUMED, log 84.) -/
def log2Val (m : Nat) : Nat × Ev :=
  let k := Nat.log2 m
  let e : Int := (k : Int) - 160
  if m = 2 ^ k then fp32.roundNE (decide (e < 0)) e.natAbs 1
  else
    -- m = 2^k (1 + x): ln(1 + x) = 2 artanh(x / (2 + x))
    let num := m - 2 ^ k
    let t := num * 2 ^ fxBits / (2 ^ (k + 1) + num)
    let l := 2 * fxArtanh t * 2 ^ fxBits / fxLn2
    if e ≥ 0 then roundFx false (e.toNat * 2 ^ fxBits + l)
    else roundFx true (e.natAbs * 2 ^ fxBits - l - 1)

/-- tanh of a non-zero magnitude. (Open points: PRESUMED, log 84.) -/
def tanhVal (neg : Bool) (m : Nat) : Nat × Ev :=
  if 32 * 2 ^ quantBits ≤ m then roundFx neg (2 ^ fxBits - 2)
  else
    -- e^(2x) = (e^(2x/64))^64
    let y := m * 2 ^ (fxBits - quantBits) / 32
    let a0 := fxExp y
    let sq := fun a : Nat => a * a / 2 ^ fxBits
    let a := sq (sq (sq (sq (sq (sq a0)))))
    roundFx neg ((a - 2 ^ fxBits) * 2 ^ fxBits / (a + 2 ^ fxBits))

/-- sin and cos of a non-zero magnitude, by exact reduction modulo π/2. (Open points: PRESUMED, log 84.) -/
def trigVal (cos : Bool) (neg : Bool) (m : Nat) : Nat × Ev :=
  let x := m * 2 ^ (fxBits - quantBits)
  let k := (x / fxHalfPi + cos.toNat) % 4
  let r := x % fxHalfPi
  -- sin(r + kπ/2), and cos x = sin(x + π/2)
  let s := if k % 2 = 0 then fxSin r else fxCos r
  roundFx ((decide (2 ≤ k)) != (neg && !cos)) s

/-- The eight functions of VTRANS, in the order of their function codes (R155). -/
inductive TransFn where
  | rcp | rsq | exp2 | log2 | tanh | sin | cos | sqrt
  deriving DecidableEq, Repr

/-- VTRANS of one FP32 lane (R155). (Open points: PRESUMED, log 84.) -/
def transLane (fn : TransFn) (x : Nat) : Nat × Ev :=
  let nan : Nat × Ev := (0x7FC00000, {})
  let pinf : Nat := 0x7F800000
  let ninf : Nat := 0xFF800000
  match fn, fp32.decode x with
  | _, .nan => nan
  | .rcp, .inf s => (fp32.signBit s, {})
  | .rcp, .fin s m => if m = 0 then (fp32.signBit s + pinf, {}) else fp32.roundNE s (2 ^ quantBits) m
  | .rsq, .inf s => if s then nan else (0, {})
  | .rsq, .fin s m => if m = 0 then (fp32.signBit s + pinf, {}) else if s then nan else rsqMag m
  | .exp2, .inf s => if s then (0, {}) else (pinf, {})
  | .exp2, .fin s m => exp2Val s m
  | .log2, .inf s => if s then nan else (pinf, {})
  | .log2, .fin s m => if m = 0 then (ninf, {}) else if s then nan else log2Val m
  | .tanh, .inf s => (fp32.signBit s + 0x3F800000, {})
  | .tanh, .fin s m => if m = 0 then (fp32.signBit s, {}) else tanhVal s m
  | .sin, .inf _ => nan
  | .sin, .fin s m => if m = 0 then (fp32.signBit s, {}) else trigVal false s m
  | .cos, .inf _ => nan
  | .cos, .fin s m => if m = 0 then (0x3F800000, {}) else trigVal true s m
  | .sqrt, .inf s => if s then nan else (pinf, {})
  | .sqrt, .fin s m => if m = 0 then (fp32.signBit s, {}) else if s then nan else sqrtMag m

end Sys2Proof.Machine
end

