-- ==== Sys2Proof/Config.lean ====
section
/-! DEFINITION. What the spec leaves open: constants without a body, so that nothing proves a value of them (assumption log 4 and 7). -/

namespace Sys2Proof.Config

/-- Contents of scratchpad byte `addr` of core `core` that nothing has written since `epoch` (R190: undefined at bind, R2 at power-on). (Open points: DESIGN CHOICE, log 4.) -/
opaque scratch (epoch core addr : Nat) : Byte

/-- A free 4,096-bit value: a vector register after a suspension (R15). (Open points: DESIGN CHOICE, log 7.) -/
opaque freeVec (n : Nat) : VReg

/-- A free scale register (R15). (Open points: DESIGN CHOICE, log 7.) -/
opaque freeScale (n : Nat) : ScReg

/-- A free copy of a shape register (R15). (Open points: DESIGN CHOICE, log 7.) -/
opaque freeShape (n : Nat) : ShapeReg

/-- A free doubleword: what a damaged snapshot image makes of an operand (R25). (Open points: DESIGN CHOICE, log 7.) -/
opaque freeWord (n : Nat) : Word

/-- Byte `i` of the implementation data of the snapshot image with serial number `n` (R97). (Open points: DESIGN CHOICE, log 7.) -/
opaque imageByte (n i : Nat) : Byte

/-- A free number that fixes the length of a snapshot image within the bounds of R23. (Open points: DESIGN CHOICE, log 7.) -/
opaque imageBlocks (n : Nat) : Nat

/-- Byte of another device at an intermediate address, as read under index `n` (R217, R363): no state of this device holds it. (Open points: DESIGN CHOICE, log 11.) -/
opaque remoteByte (n ia : Nat) : Byte

/-- The temperature reading of a core at a tick in °C, its droop reading in millivolts below nominal, and how old the scheduler's sample of them is in
ticks, up to 1,000 (R298). (Open points: DESIGN CHOICE, log 7, 93.) -/
opaque coreTemp (tick core : Nat) : Int
opaque coreDroop (tick core : Nat) : Int
opaque sampleAge (tick core : Nat) : Fin 1001

/-- The key of a session in one direction, of the given generation (R359): the exchange that makes it is not computed. (Open points: DESIGN CHOICE, log 7, 86.) -/
opaque trafficKey (session : Nat) (toUs : Bool) (gen : Nat) : BitVec 256

/-- Byte `i` of the payload of the frame with a pair sequence number to a device, sent at a tick (R356): the spec lays out no payload. (Open points:
DESIGN CHOICE, log 7, 65.) -/
opaque payloadByte (tick dst pseq i : Nat) : Byte

/-- The configuration bytes of a port that PORTMEAS measures (R361): the spec does not list them. (Open points: DEDUCED, log 66.) -/
opaque portBytes (k : Nat) (en enc : Bool) (relay : BitVec 128) : List Byte

/-- Ticks that pass beyond a cycle's own while the core clock is throttled (R353). (Open points: DESIGN CHOICE, log 7, 78.) -/
opaque throttleTicks (n : Nat) : Nat

/-- A free digest: the output digest of a launch one of whose declared outputs cannot be read (R352). (Open points: DESIGN CHOICE, log 7; DEDUCED, log 51.) -/
opaque freeDigest (n : Nat) : Digest

/-- The RESULT that a journal entry gives a job none of whose schedules fits (R311). (Open points: DESIGN CHOICE, log 7, 47.) -/
opaque noFit : Nat

end Sys2Proof.Config
end

