-- ==== Sys2Proof/Machine/State.lean ====
section
/-! DEFINITION. The state of the SH4 as plain data: everything the spec gives the machine, and the state after reset
(INVENTORY.md lists each piece with its rule and its reset value). -/

namespace Sys2Proof.Machine

/-- A sparse table: keys strictly rising (`Tab.set` keeps that form); an absent key reads as the table's default. -/
abbrev Tab (α : Type) := List (Nat × α)

/-! ### The task's registers (01_task.md, 03_scalar_control.md, 07_core_memory.md) -/

/-- A circular-buffer handle (R197): the 128 bits of task state and the two counts of outstanding commands. -/
structure Handle where
  base : Nat := 0
  ssize : Nat := 0
  count : Nat := 0
  head : Nat := 0
  tail : Nat := 0
  fill : Nat := 0
  /-- producer commands outstanding -/
  pp : Nat := 0
  /-- consumer commands outstanding -/
  cp : Nat := 0
  deriving DecidableEq, Repr

/-- ZSTAT (R35). -/
structure ZStat where
  tm : Bool := false
  sv : Bool := false
  ten : Bool := false
  sliceup : Bool := false
  joor : Bool := false
  defov : Bool := false
  f8 : Bool := false
  det : Bool := false
  af : Bool := false
  srf : BitVec 3 := 0
  ss : Bool := false
  deriving DecidableEq, Repr

/-- ZCAUSE (R36). -/
structure ZCause where
  detail : BitVec 32 := 0
  slot : BitVec 3 := 0
  code : BitVec 8 := 0
  deriving DecidableEq, Repr

/-- The task system registers that no other part of the state holds (R32, R37, R93, R186, R250, R262, R307, R371). -/
structure ZRegs where
  stat : ZStat := {}
  cause : ZCause := {}
  addr : Word := 0
  bundle : Word := 0
  snapLen : BitVec 16 := 0
  tvec : Word := 0
  tid : BitVec 8 := 0
  abortPage : BitVec 41 := 0
  abortCount : BitVec 16 := 0
  graph : BitVec 32 := 0
  phase : BitVec 32 := 0
  job : BitVec 32 := 0
  rkey : Word := 0
  rstr : Word := 0
  rpos : Word := 0
  divcnt : BitVec 16 := 0
  logStalls : BitVec 16 := 0
  /-- ZWDOG.BUDGET and COUNT (R307) -/
  budget : BitVec 32 := 0
  wcount : BitVec 32 := 0
  /-- ZRMT (R371) -/
  settled : BitVec 16 := 0
  relayed : BitVec 16 := 0
  deriving DecidableEq, Repr

/-- Where control goes next: a position of the current segment or of its successor (R50), or a byte address (R49). -/
inductive Target where
  | pos (succ : Bool) (p : Nat)
  | addr (a : Word)
  deriving DecidableEq, Repr

/-- An active loop level (R82). -/
structure LoopLevel where
  start : Nat
  stop : Nat
  rem : Nat
  deriving DecidableEq, Repr

/-- A register write that takes effect when its latency has elapsed (R19, R68, R139, R210). -/
inductive RegWrite where
  | x (n : Nat) (v : Word)
  | p (n : Nat) (v : Pred)
  /-- lanes of `mask` take the lanes of `val` -/
  | v (n : Nat) (mask : Pred) (val : VReg)
  | sc (n : Nat) (val : ScReg)
  /-- GSET: field `f` of the shadow copy of shape register `k` (gm0-gm3 are 0-3, gy0-gy3 are 4-7) -/
  | gset (k f : Nat) (v : BitVec 32)
  /-- GSWAP and sw: exchange the copies of the registers of the mask -/
  | swap (gy : Bool) (mask : BitVec 4)
  /-- HSET -/
  | hset (n : Nat) (w0 w1 : Word)
  /-- HADVP (producer) and HADVC -/
  | hadv (n : Nat) (producer : Bool) (k : Nat)
  /-- MTS -/
  | z (sel : Nat) (v : Word)
  /-- ENGW -/
  | eng (off : Nat) (v : Word)
  deriving DecidableEq, Repr

/-- An in-flight result: the advancing cycles left before its write (R19, R20). -/
structure Flight where
  lat : Nat
  w : RegWrite
  deriving DecidableEq, Repr

/-- Register values of the bundle entry that a snapshot holds (R23, R25). -/
structure RegImage where
  x : Tab Word := []
  p : Tab Pred := []
  v : Tab VReg := []
  sc : Tab ScReg := []
  h : Tab Handle := []
  shape : Tab (ShapeReg × ShapeReg) := []
  z : Tab Word := []
  deriving DecidableEq, Repr

/-- A load from another device: address and incarnation, destination, access, enabled lanes, address of its bundle (R17, R27, R363). -/
structure RemotePart where
  ia : Nat
  inc : BitVec 16
  size : Nat
  mask : Pred := 0
  /-- the lane at `ia` -/
  lane0 : Nat := 0
  deriving DecidableEq, Repr

/-- A load from another device (R17, R206). -/
structure RemoteLoad extends RemotePart where
  vec : Bool
  reg : Nat
  signed : Bool
  bundle : Word
  /-- tick of its issue, or of its first send (R366) -/
  tick : Nat := 0
  /-- lanes of an LDGV that other addresses hold, asked for one after another (R207) -/
  rest : List RemotePart := []
  deriving DecidableEq, Repr

/-- How the task leaves BOUND once the bundle has fully committed (R17, R90, R91), and what it then waits for. -/
inductive After where
  | yield
  | park (counter : Word) (target : Word)
  | exit
  | remote (l : RemoteLoad)
  /-- the LAUNCH of R102 met a full ring -/
  | fullRing (ring : Nat)
  /-- pre-emption at a safe point (R33) -/
  | preempt
  /-- page fault on this intermediate address (R29) -/
  | abort (ia : Nat)
  deriving DecidableEq, Repr

/-- A load that has committed and whose data has not arrived (R206, R208, R209). -/
structure Miss where
  /-- intermediate address of the first byte -/
  ia : Nat
  /-- destination register: vector or scalar -/
  vec : Bool
  reg : Nat
  /-- the write to perform; its value is the view's at the load -/
  w : RegWrite
  /-- the data is uncorrectable: the fault waits for the first consumer -/
  bad : Bool
  deriving DecidableEq, Repr

/-- A trap cause with its ZADDR and DETAIL (R38). -/
structure Cause where
  code : BitVec 8
  addr : Word := 0
  detail : BitVec 32 := 0
  deriving DecidableEq, Repr

/-! ### Segments and the loop buffer (02_encoding.md) -/

/-- A stored bundle of an expanded segment: its offset in the frame, its header and its present syllables (R42, R43). -/
structure Stored where
  off : Nat
  hdr : Nat
  words : List (Nat × Nat)
  deriving DecidableEq, Repr

/-- Why a segment cannot be issued from (R46, R52). -/
inductive SegFault where
  /-- malformed, with the offending word -/
  | malformed (word : BitVec 32)
  /-- the page is not resident: an abort when a bundle is due -/
  | pageFault (ia : Nat)
  /-- no window, or the memory side's cause -/
  | cause (c : Cause)
  deriving DecidableEq, Repr

/-- A loop-buffer half: a segment expanded from home (R47, R53). -/
structure Segment where
  frame : Nat
  next : Nat
  len : Nat
  /-- bytes 0-3 and 8-11 of the header, for R48 and R49 -/
  word0 : BitVec 32
  word8 : BitVec 32
  bundles : List Stored
  bad : Option SegFault
  deriving DecidableEq, Repr

/-- The four totals of a tensor (R132, R133). -/
structure Stat where
  sat : Nat := 0
  flush : Nat := 0
  nan : Nat := 0
  viol : Nat := 0
  deriving DecidableEq, Repr

/-- A core's input of the wired-AND line (R242, R246). -/
inductive LineWait where
  | fuse (mask : BitVec 4) (addr : Nat) (dest : Nat) (since : Nat)
  | rejn (addr : Nat) (dest : Nat)
  deriving DecidableEq, Repr

/-- The bundle that is issuing: what its slots share. -/
structure Run where
  /-- address of its header syllable -/
  addr : Nat
  pos : Nat
  hdr : Nat
  /-- syllables not yet executed, lowest slot first -/
  todo : List (Nat × Nat)
  /-- lowest slot at which the bundle's encoding is ILLEGAL (R60) -/
  bad : Option Nat := none
  /-- slot and word of the syllable being executed -/
  slot : Nat := 0
  word : Nat := 0
  /-- operands of a bundle re-entered by TRET (R25) -/
  image : RegImage := {}
  /-- register writes committed by this bundle, newest first -/
  wrote : List RegWrite := []
  latched : Option Target := none
  after : Option After := none
  /-- IDEM committed: IB on the next bundle (R89) -/
  idem : Bool := false
  /-- a region-ending syllable committed (R28) -/
  ended : Bool := false
  /-- SNAPREL committed (R24) -/
  snaprel : Bool := false
  /-- LOOP with a zero count: flow continues past its END (R82) -/
  skipTo : Option Nat := none
  /-- TRET committed, and was TM = 0 until then (R100)? -/
  tret : Bool := false
  unmasked : Bool := false
  /-- a VROW read the row in the latch (R158) -/
  rowRead : Bool := false
  /-- it began a region through a preceding IDEM (R28) -/
  byIdem : Bool := false
  /-- a region-ending syllable has set the region mark (R28) -/
  marked : Bool := false
  /-- its completion is what the coupled members of the core's group wait for (R248) -/
  completes : Bool := false
  /-- its FUSE or REJN has committed: the core waits on the line when the bundle has ended (R241) -/
  line : Option LineWait := none
  /-- the counters at bundle entry, once a syllable of the bundle has counted (R189) -/
  counts : Option (Tab Stat) := none
  deriving DecidableEq, Repr

/-- An MDRAIN in progress: the plane and the advancing cycles since its issue (R157). -/
structure Drain where
  plane : Nat
  age : Nat
  deriving DecidableEq, Repr

/-! ### The matrix engine (06_matrix.md) -/

inductive MxOp where
  | mload | mma | mmaq | mzero
  deriving DecidableEq, Repr

/-- A matrix command with all it captured at issue (R171). -/
structure MxCmd where
  op : MxOp
  /-- destination or A slot, and B or weight slot -/
  slotA : Nat := 0
  slotB : Nat := 0
  plane : Nat := 0
  acc : Bool := false
  /-- MMAQ: INT4 weights; MLOAD: transposed source -/
  alt : Bool := false
  /-- MLOAD: form B -/
  formB : Bool := false
  cls : Nat := 0
  skind : Nat := 0
  /-- scale kind of the B slot's tag at issue -/
  skindB : Nat := 0
  base : Nat := 0
  rows : Nat := 0
  cols : Nat := 0
  stride : Nat := 0
  soff : Nat := 0
  sstride : Nat := 0
  bandoff : Nat := 0
  hd : Nat := 0
  sc : Nat := 0
  /-- the scale register as sampled in the start cycle (R175) -/
  scVal : ScReg := 0
  pair : MPair := .bf16
  ae5 : Bool := false
  be5 : Bool := false
  tid : Nat := 0
  ticket : Nat := 0
  /-- the core's cycle in which it issued -/
  since : Nat := 0
  /-- cycles of its unit that have ended since it started -/
  done : Nat := 0
  /-- scratchpad bytes of the snapshot of MLOAD: elements, scales, bands (R167) -/
  elems : BitVec 262144 := 0
  scales : BitVec 65536 := 0
  bands : BitVec 32 := 0
  deriving DecidableEq, Repr

/-- A slot tag: form B, class, scale kind (R165). -/
structure SlotTag where
  formB : Bool
  cls : Nat
  skind : Nat
  deriving DecidableEq, Repr

/-- An operand slot: elements by tile position, scale page, band scales, tag (R163). -/
structure OpSlot where
  elems : BitVec 262144 := 0
  scales : BitVec 65536 := 0
  bands : BitVec 32 := 0
  tag : Option SlotTag := none
  deriving DecidableEq, Repr

inductive PlaneKind where
  | none | zero | fp32 | int32
  deriving DecidableEq, Repr

/-- An accumulator plane (R163): row i holds cell (i, j) in lane j; a row not listed is 0 (assumption log 5). -/
structure Plane where
  rows : Tab VReg := []
  kind : PlaneKind := .none
  deriving DecidableEq, Repr

/-- The matrix engine (R163). -/
structure Mx where
  claim : Bool := false
  pair : MPair := .bf16
  ae5 : Bool := false
  be5 : Bool := false
  slots : Tab OpSlot := []
  planes : Tab Plane := []
  queue : List MxCmd := []
  load : Option MxCmd := none
  array : Option MxCmd := none
  /-- the cycle of the last MCFG (R170) -/
  mcfgAt : Option Nat := none
  drain : Option Drain := none
  deriving DecidableEq, Repr

/-! ### Scratchpad, tag table, copy engine (07_core_memory.md) -/

/-- A tag-table entry (R192). -/
structure TagEntry where
  tag : Nat := 0
  owner : Nat := 0
  tid : Nat := 0
  valid : Bool := false
  lock : Bool := false
  reads : Nat := 0
  deriving DecidableEq, Repr

/-- A half-open byte range of one space: scratchpad, or intermediate global addresses (R223). -/
structure Range where
  glob : Bool
  lo : Nat
  hi : Nat
  deriving DecidableEq, Repr

/-- Read and write sets (R223). -/
structure Foot where
  reads : List Range := []
  writes : List Range := []
  deriving DecidableEq, Repr

inductive JobDir where
  | hs | sh | ss | rm | tfill | tevict
  deriving DecidableEq, Repr

/-- A copy job (R216, R217): geometry and addresses as captured at issue. -/
structure Job where
  dir : JobDir
  src : Nat
  dst : Nat
  w : Nat
  ext : List Nat
  str : List Int
  dstr : List Int
  hd : Nat := 0
  /-- tag slot of TFILL and TEVICT -/
  slot : Nat := 0
  /-- the region in which it was issued (R29) -/
  region : Nat
  foot : Foot
  /-- order of issue among all commands and footprints (R198, R225), and the incarnations that the windows name -/
  ticket : Nat := 0
  srcInc : BitVec 16 := 0
  dstInc : BitVec 16 := 0
  running : Bool := false
  /-- tick of its start (R366) -/
  tick : Nat := 0
  deriving DecidableEq, Repr

/-- A declared footprint and its place in the order of issue (R223, R224). -/
structure Declared where
  ticket : Nat
  foot : Foot
  deriving DecidableEq, Repr

/-- A handle's update that waits for an earlier command in its role (R198). -/
structure HUpdate where
  hd : Nat
  producer : Bool
  ticket : Nat
  deriving DecidableEq, Repr

/-- A failed copy job's cause, and the handle of the job (R220). -/
structure CopyHeld where
  cause : Cause
  hd : Nat
  deriving DecidableEq, Repr

/-- A snapshot (R23). -/
structure Snap where
  addr : Word
  slot : Nat
  image : RegImage
  flight : List Flight
  misses : List Miss := []
  /-- queued matrix commands, the drain, the loop levels -/
  queue : List MxCmd
  drain : Option Drain
  loops : Tab LoopLevel
  latched : Option Target
  after : Option After
  idem : Bool
  wrote : List RegWrite
  skipTo : Option Nat
  /-- SNAPREL had opened the span of R178 at the trap -/
  released : Bool := false
  /-- the bundle had begun a region through an IDEM (R28); the trap stopped the core's group (R248) -/
  byIdem : Bool := false
  completes : Bool := false
  /-- a VROW of a committed slot has read the row in the latch (R158) -/
  rowRead : Bool := false
  /-- STEP was taken after a bundle that ends in a suspension, which follows once the trap has been handled (R100) -/
  leaving : Option (After × Nat) := none
  /-- the wait on the line that the rest of the bundle leads to, and the one that STEP has interrupted (R241, R248) -/
  line : Option LineWait := none
  waits : Option LineWait := none
  /-- the copy-engine queue, and by channel the elements sent and not yet placed; both run on (R222, R380), so TRET restores nothing of them -/
  jobs : List Job := []
  chanOps : Tab Nat := []
  deriving DecidableEq, Repr

/-- A stored image: the index of its implementation data among the free values, its length and what it holds (R97). -/
structure Archived where
  key : Nat
  len : Nat
  snap : Snap
  deriving DecidableEq, Repr

/-- A pending scratchpad write of SNAPST or buffer fill of SNAPLD, with the core cycles left (R97). -/
inductive SnapOp where
  | st (addr : Nat) (image : Archived) (left : Nat)
  | ld (snap : Snap) (left : Nat)
  deriving DecidableEq, Repr


/-! ### The cluster (09_cluster.md) -/

/-- A fused group (R240): member and coupled masks over cores 0-3, and the next bundle of each coupled member that has reached
the boundary (R243, R244). -/
structure FuseGroup where
  mask : BitVec 4
  coupled : BitVec 4
  /-- coupled members that have taken a trap and not yet completed its bundle (R248) -/
  trapped : BitVec 4 := 0
  /-- member number and the address of its next bundle -/
  arrived : Tab Nat := []
  /-- coupled members that stand at the entry of the next bundle with nothing that stalls or holds it (R243) -/
  entry : BitVec 4 := 0
  /-- a DECPL has committed in a coupled member, so the group decouples at the boundary (R245) -/
  split : Bool := false
  deriving DecidableEq, Repr

/-- A barrier group at its root, or its mirror (R251). -/
structure SpireGroup where
  gen : Word := 0
  n : BitVec 16 := 0
  mask : BitVec 22 := 0
  arrived : BitVec 16 := 0
  staged : Option (BitVec 16 × BitVec 22) := none
  deriving DecidableEq, Repr

/-- A line of the broadcast cache of the constant path (R209). -/
structure BcastLine where
  launch : Nat
  ia : Nat
  data : List Byte
  deriving DecidableEq, Repr

/-- An arrival of BARR (no value) or a value of BARM on its way to the root of a group (R252, R253): the register that the reply of an
arrival is written to, and the advancing cycles left of its latency. -/
structure SpireMsg where
  group : Nat
  value : Option Word
  dest : Nat
  left : Nat
  deriving DecidableEq, Repr

/-- A cluster (R240). -/
structure Cluster where
  groups : List FuseGroup := []
  line : Tab LineWait := []
  mirror : Tab SpireGroup := []
  bcast : List BcastLine := []
  deriving DecidableEq, Repr

/-! ### Store logs, the view and the sync homes (10_memory_model.md) -/

/-- A record of a store log (R259, R260). -/
structure Rec where
  core : Nat
  ctx : Nat
  launch : Nat
  index : Nat
  seq : Nat
  /-- intermediate address of the first byte, and payload length -/
  addr : Nat
  len : Nat
  /-- the bytes of the mask, by intermediate address -/
  cells : List Host.Cell
  /-- the stamp of the release that covered it -/
  stamp : Option Nat := none
  /-- written by a copy job, and has that job ended? (R282) -/
  copy : Bool := false
  ended : Bool := true
  /-- in the overflow pool (R261) -/
  spilled : Bool := false
  /-- the incarnation of the target device when it was appended, and has it been sent there (R276, R363)? -/
  inc : BitVec 16 := 0
  sent : Bool := false
  deriving DecidableEq, Repr

/-- A view-cache line (R266, R277): 64 bytes of home with their stamps, the moment of the fill, and the words marked as read. -/
structure VLine where
  ia : Nat
  data : List Byte
  stamps : List Nat
  tick : Nat
  marks : BitVec 8
  deriving DecidableEq, Repr

/-- A sync variable at its sync home (R270): the latest release stamp of each source. Sources 0-3 are dies; 4 + d is device d. -/
structure SyncVar where
  ia : Nat
  sources : Tab Nat
  /-- the network engine counts on it (R282, R304) -/
  net : Bool := false
  deriving DecidableEq, Repr

/-- An entry of a write-owner table (R278). -/
structure Owner where
  granule : Nat
  words : BitVec 8
  launch : Nat
  index : Nat
  stamp : Nat
  /-- the owner is on another device -/
  remote : Bool := false
  deriving DecidableEq, Repr

/-- Home memory (R264, R276, R313): bytes and the stamps of their writes by physical address, the addresses of 32-byte blocks that
read uncorrectable, and every record not yet compacted. -/
structure Mem where
  cells : List Host.Cell := []
  stamps : Tab Nat := []
  bad : List Nat := []
  recs : List Rec := []
  /-- the next stamp of the package release clock -/
  clock : Nat := 1
  deriving DecidableEq, Repr

/-! ### Translation, scheduling and containment (11_translation_scheduling.md) -/

/-- An address window as its four words (R289). -/
structure Window where
  v : Word := 0
  l : Word := 0
  i : Word := 0
  a : Word := 0
  deriving DecidableEq, Repr

/-- A TLB entry (R293): bits [49:16] of the local offset, or [49:25] of a 32 MiB page, and the physical page. -/
structure TlbEntry where
  /-- the controller that holds it (R293) -/
  ctrl : Nat := 0
  page : Nat
  big : Bool
  pa : Nat
  /-- its parity agrees (R293) -/
  good : Bool := true
  deriving DecidableEq, Repr

/-- What a page-table entry says (R292). -/
structure Pte where
  val : Bool
  leaf : Bool
  res : Bool
  crit : Bool
  pa : Nat
  deriving DecidableEq, Repr

/-- A walk-cache entry of a controller: level 2 or 1, the offset's bits above the entry's reach, and the entry (R293). -/
structure WalkEntry where
  ctrl : Nat
  level : Nat
  tag : Nat
  pte : Pte
  good : Bool := true
  deriving DecidableEq, Repr

/-- A fault-queue entry (R294). -/
structure FltEntry where
  page : Nat
  waiters : Nat
  deriving DecidableEq, Repr

/-- Lifecycle states of a task (R17). -/
inductive TaskState where
  | ready
  | bound (core : Nat)
  | parked
  | faultWait
  | done
  | killed
  deriving DecidableEq, Repr

/-- Why a task is PARKED (R17, R91, R102). -/
inductive ParkWhy where
  | counter (ia : Nat) (target : Word)
  /-- remote load, and has its request been sent? -/
  | remote (l : RemoteLoad) (sent : Bool)
  /-- the full ring of R102: READY when an entry of the ring frees -/
  | ring (ctx ring : Nat)
  deriving DecidableEq, Repr

/-- A cause held for the next pick-up (R17, R27): `trap` for one delivered as a trap, else the task is killed. -/
structure HeldCause where
  cause : Cause
  trap : Bool
  bundle : Word
  deriving DecidableEq, Repr

/-- A task's records on a core: the sequence numbers of the last one and of the last released one, the task's last stay there, and the stay in which
the last released one was written (R260, R285). -/
structure CoreSeq where
  last : Nat := 0
  rel : Nat := 0
  stay : Nat := 0
  relStay : Nat := 0
  deriving DecidableEq, Repr

/-- A task as the scheduler and the memory side keep it (R17, R265, R296, R297). -/
structure Task where
  launch : Nat
  index : Nat
  ctx : Nat
  die : Nat
  prio : Nat
  /-- virtual address of the continuation record, and local offset of the save area -/
  recVa : Word
  save : Nat
  /-- LINK.AF, and the partition of an affine task in banks -/
  affine : Bool := false
  pbase : Nat := 0
  plen : Nat := 0
  state : TaskState := .ready
  /-- home core of an affine task once chosen (R13) -/
  home : Option Nat := none
  /-- scheduler: order of entry into the queue, effective level, age, and when it became overdue -/
  order : Nat := 0
  level : Nat := 0
  age : Nat := 0
  overdue : Option Nat := none
  park : Option ParkWhy := none
  held : Option HeldCause := none
  /-- the cause with which a kill is reported, and its slot (R17, R103) -/
  report : Option (Cause × Nat) := none
  /-- pages of FAULT_WAIT still awaited, and those not yet in the fault queue (R294) -/
  pages : List Nat := []
  unqueued : List Nat := []
  /-- level of a CANCEL that has reached the task (R17, R103) -/
  cancel : Option Nat := none
  /-- P, A, F (R265); stamp of the latest release; hand-off stamp and die (R18) -/
  vp : Nat := 0
  va : Nat := 0
  vf : Nat := 0
  lastRel : Nat := 0
  lastCore : Option Nat := none
  /-- what the task has left on each core, and the number of its stays on cores (R260, R285) -/
  seqs : Tab CoreSeq := []
  stays : Nat := 0
  /-- the counter to acquire on the first bind after a park (R91) -/
  wakeAcq : Option Nat := none
  /-- superstep scope and generation that the task awaits (R283) -/
  sstep : Option (Bool × Nat) := none
  /-- the watchdog count kept for a retry (R307) -/
  wcount : BitVec 32 := 0
  /-- a failed copy job's cause that has not been raised (R220) -/
  copyErr : List CopyHeld := []
  abort : BitVec 41 × BitVec 16 := (0, 0)
  /-- an IDEM has set IB on the bundle at which the task resumes, and on the one at RSTART (R89) -/
  idem : Bool := false
  rsIdem : Bool := false
  /-- argument of the free contents of its partition (the model's own) -/
  epoch : Nat := 0
  deriving DecidableEq, Repr

/-- The superstep variable of a launch and scope (R283): key 0-3 for a die, 4 for the package. -/
structure SuperStep where
  gen : Nat := 0
  arrived : List Nat := []
  sources : Tab Nat := []
  deriving DecidableEq, Repr

/-- A launch (R349 to R352): the entry and block as read at acceptance, and its progress. -/
structure Launch where
  id : Nat
  ctx : Nat
  ring : Nat
  entry : List Byte
  block : List Byte
  /-- 0 running, 1 done, 2 cancelled, 3 failed, 4 rejected (R352) -/
  status : Nat := 0
  /-- the status it takes when it completes, and the level of the CANCEL that reached it (R103, R352) -/
  final : Nat := 1
  cancel : Nat := 0
  start : Nat := 0
  stop : Nat := 0
  jseq : Nat := 0
  killed : Nat := 0
  /-- tasks counted in the completion counter -/
  counted : Nat := 0
  totals : Tab Stat := []
  retries : Tab Nat := []
  ssteps : Tab SuperStep := []
  /-- graph, phase and job IDs, and the node that submitted it -/
  graph : Nat := 0
  phase : Nat := 0
  job : Nat := 0
  node : Nat := 0
  /-- the graph of the submitting task's launch (R312) -/
  parentGraph : Nat := 0
  complete : Bool := false
  /-- a new launch of the node replaces this one, so its completion tells the graph nothing (R308) -/
  orphan : Bool := false
  /-- a launch that a task submitted is run again from its entry once it has completed (R308); the ID of the launch that it repeats -/
  again : Bool := false
  origin : Nat := 0
  deriving DecidableEq, Repr

/-- A running graph (R309, R310). -/
structure Graph where
  id : Nat
  ctx : Nat
  addr : Word
  phase : Nat
  job : Nat
  policy : Nat := 0
  /-- number of nodes, and address of the completion counter (R303, R309) -/
  nodes : Nat := 0
  counter : Nat := 0
  received : Tab Nat := []
  /-- nodes whose launch has been submitted and not completed -/
  running : List Nat := []
  /-- nodes that have become active and have not acted -/
  active : List Nat := []
  ended : Bool := false
  complete : Bool := false
  retries : Tab Nat := []
  deriving DecidableEq, Repr

/-- A running phase (R311). -/
structure Phase where
  id : Nat
  ctx : Nat
  job : Nat
  addr : Word
  graph : Nat := 0
  /-- address of the completion counter (R303) -/
  counter : Nat := 0
  /-- address of the chosen graph: the choice is fixed for the life of the phase (R311) -/
  gaddr : Word := 0
  policy : Nat := 0
  retries : Nat := 0
  /-- cancelled while its graph was to run again (R103, R308) -/
  stopped : Bool := false
  complete : Bool := false
  deriving DecidableEq, Repr

/-- A published ring entry that a graph node or a task submitted: its graph and node, or the graph of the submitting task (R312). -/
structure Submit where
  ctx : Nat
  ring : Nat
  slot : Nat
  graph : Nat := 0
  node : Nat := 0
  parent : Nat := 0
  deriving DecidableEq, Repr

/-- A job (R312): the index of the phase that runs or is next. -/
structure JobRun where
  id : Nat
  ctx : Nat
  addr : Word
  nphase : Nat
  policy : Nat
  counter : Word
  phases : Word
  cur : Nat := 0
  /-- a phase is running -/
  active : Bool := false
  retries : Tab Nat := []
  stopped : Bool := false
  complete : Bool := false
  deriving DecidableEq, Repr

/-- A compute die. -/
structure Die where
  logStall : BitVec 32 := 10000
  ageShift : BitVec 4 := 6
  dev : BitVec 4 := 4
  minSlice : BitVec 32 := 400
  /-- the last pre-emption times, newest first, at most 256 (R306) -/
  preTimes : List Nat := []
  tlbInv : Option Word := none
  fltq : List FltEntry := []
  trpar : BitVec 32 := 0
  abortCnt : Word := 0
  tlb : List TlbEntry := []
  /-- the walk caches of the four controllers, newest first (R293) -/
  wcache : List WalkEntry := []
  sync : List SyncVar := []
  fence : Tab Nat := []
  spire : Tab SpireGroup := []
  /-- the core chosen by the previous placement (R298) -/
  rr : Nat := 87
  deriving DecidableEq, Repr

/-! ### The package (13_package.md) -/

/-- A journal entry (R344). -/
structure JEntry where
  seq : Nat
  tick : Nat
  cmd : Nat
  master : Nat
  result : Nat
  arg0 : Nat
  hash : BitVec 256
  deriving DecidableEq, Repr

/-- The journal (R344, R345). -/
structure Journal where
  entries : Tab JEntry := []
  jseq : Word := BitVec.allOnes 64
  jstart : Word := 0
  jidx : Tab Word := []
  mirror : Word := 0
  deriving DecidableEq, Repr

/-- A context's configuration block (R346, R388). -/
structure Ctx where
  slice : BitVec 32 := 0
  en : Bool := false
  logPriv : Bool := false
  lockq : BitVec 11 := 0
  budget : Word := 0
  faultRing : Word := 0
  /-- number of the next fault record (R422) -/
  faultN : Nat := 0
  netPeer : Word := 0
  netRes : Word := 0
  jobSub : Word := 0
  jobRej : Bool := false
  jobLast : BitVec 32 := 0
  aws : Tab Window := []
  rings : Tab Word := []
  netRings : Tab Word := []
  deriving DecidableEq, Repr

/-- The advance that a GO write asked for (R338): the stage, and the tick, master and value of the write. -/
structure Go where
  stage : Nat
  tick : Nat
  master : Nat
  value : Word
  deriving DecidableEq, Repr

/-- STAGE and the advance in progress (R337, R338). -/
structure Stage where
  stage : Nat := 0
  err : Bool := false
  cause : BitVec 4 := 0
  pending : Option Go := none
  /-- the images verified at the last entry to stage 0 -/
  verified : Bool := false
  deriving DecidableEq, Repr

/-- Ownership (R341 to R343). -/
structure Ownership where
  epoch : BitVec 32 := 0
  id : Nat := 0
  succ : BitVec 4 := 0
  lease : BitVec 32 := 1000000
  /-- tick of the later of the winning claim and the last OWNBEAT -/
  beat : Nat := 0
  /-- RESULT of each master's last claim -/
  results : Tab Nat := []
  deriving DecidableEq, Repr

/-! ### HBM and the traverse (12_hbm.md) -/

/-- A memory controller (R325 to R327). Rows are numbered row·1024 + bank·64 + pseudo-channel, as granule offsets are (R313). -/
structure Ctrl where
  trfm : BitVec 8 := 35
  mgmtth : BitVec 16 := 2048
  rfms : BitVec 32 := 0
  alerts : BitVec 32 := 0
  boTicks : BitVec 32 := 0
  boReq : BitVec 32 := 0
  /-- ROWPEEK's PC, BANK and ROW as a row number -/
  peek : BitVec 25 := 0
  lastAlert : Option (BitVec 25) := none
  /-- activation counters by row number -/
  counts : Tab Nat := []
  /-- open row of each bank (key bank·64 + pseudo-channel), and the tick of its activation -/
  opened : Tab (Nat × Nat) := []
  /-- banks held by refresh management and the tick at which the hold began -/
  holds : Tab Nat := []
  /-- refresh windows that have begun since package reset (R326) -/
  window : Nat := 0
  owners : List Owner := []
  deriving DecidableEq, Repr

inductive TravState where
  | idle | relocate | sweep | hold
  deriving DecidableEq, Repr

/-- The retirement registers and the traverse (R316 to R324). -/
structure Trav where
  /-- retired stacks in order, the one being retired last (R316) -/
  retired : List Nat := []
  state : TravState := .idle
  retStack : Nat := 0
  pend : Option Nat := none
  gran : Nat := 0
  result : Nat := 0
  stackField : BitVec 4 := 0
  auto : Bool := true
  ceth : BitVec 16 := 256
  listCount : BitVec 16 := 0
  listAddr : Nat := 0
  listGo : Bool := false
  /-- entry of the list in progress and the page pointer in granules; its copy's old physical address -/
  listIdx : Nat := 0
  pagePtr : Nat := 0
  /-- the page being copied: old and new physical address, size in granules; 0 while none is -/
  relOld : Nat := 0
  relNew : Nat := 0
  relSize : Nat := 0
  done : BitVec 16 := 0
  relErr : Bool := false
  lossValid : Bool := false
  lossGran : Nat := 0
  /-- LIVEMASK -/
  live : BitVec 16 := 0xFFFF
  cecnt : Tab Nat := []
  injAddr : Nat := 0
  injArm : Bool := false
  injFired : Bool := false
  injType : BitVec 2 := 0
  deriving DecidableEq, Repr

/-! ### The fabric die (14_fabric.md) -/

inductive PortState where
  | unlocked | locked | run | error
  deriving DecidableEq, Repr

/-- An optical port (R361, R370). -/
structure Port where
  en : Bool := true
  state : PortState := .unlocked
  ecause : BitVec 8 := 0
  retries : BitVec 32 := 0
  meas : Digest := 0
  deriving DecidableEq, Repr

inductive SessState where
  | none | setup | up | down | refused
  deriving DecidableEq, Repr

/-- The requests of an SPDM exchange, in order, and KEY_UPDATE (R359). -/
inductive SpdmStep where
  | getVersion | getCapabilities | negotiateAlgorithms | getCertificate | getMeasurements | keyExchange | finish | keyUpdate
  deriving DecidableEq, Repr

/-- What a session negotiates: signatures, hash, key exchange and AEAD (R359). -/
inductive Algorithm where
  | ecdsaP384 | sha384 | ecdheSecp384r1 | aes256Gcm
  deriving DecidableEq, Repr

/-- What a frame carries, whichever stream it takes (R356): class, originating and final device, pair sequence number, and payload as it is before
encryption. -/
structure Wire where
  cls : Nat
  src : Nat
  dst : Nat
  pseq : Nat
  payload : List Byte
  deriving DecidableEq, Repr

/-- An unacknowledged frame of a stream, and how often it has been sent again (R357). -/
structure Sent where
  wire : Wire
  frame : Frame
  resent : Nat := 0
  deriving DecidableEq, Repr

/-- A peer (R358 to R360, R365, R370). -/
structure Peer where
  state : SessState := .none
  inc : BitVec 16 := 0
  relay : Option Nat := none
  dropped : BitVec 32 := 0
  migSettled : BitVec 32 := 0
  /-- the exchange: how many of its requests have been answered (R359) -/
  spdm : Nat := 0
  /-- the session's keys: which session, the generations of this device's sending key and of the peer's, whose low bit is the phase, frames sent under
  the former, and frames of the old phase still accepted (R359) -/
  session : Nat := 0
  txGen : Nat := 0
  rxGen : Nat := 0
  txFrames : Nat := 0
  oldLeft : Nat := 0
  badTags : Nat := 0
  lastGood : Nat := 0
  downAt : Nat := 0
  /-- next pair sequence number to send, next to deliver, classes of the early frames held, requests delivered and
  not yet performed, reply cache (R358) -/
  txPseq : Nat := 0
  rxPseq : Nat := 0
  early : Tab Nat := []
  due : List Nat := []
  replies : Tab RemoteReply := []
  /-- payload frames that have been spread over paths (R364) -/
  spread : Nat := 0
  /-- the latest reachability advertisement received (R365) -/
  advert : BitVec 128 := 0
  /-- tick since which there has been no route (R366, R375) -/
  lost : Option Nat := none
  deriving DecidableEq, Repr

/-- The sending side of a stream to one peer on one plane, and what its receiving side expects (R357). Key plane·128 + peer. -/
structure Stream where
  sseq : Nat := 0
  acked : Nat := 0
  rxNext : Nat := 0
  /-- unacknowledged frames, at most 64, what waits for room among them, and the tick of the latest acknowledgement while some are out -/
  retry : List Sent := []
  queue : List Wire := []
  since : Nat := 0
  dead : Bool := false
  probes : Nat := 0
  /-- frames sent under the sending key; frames received under the peer's key of a generation (R359) -/
  frames : Nat := 0
  rxGen : Nat := 0
  rxCount : Nat := 0
  deriving DecidableEq, Repr

/-- A roaming page in the registry's directory (R367). -/
structure RoamEntry where
  holder : Nat
  moves : Nat := 0
  settled : Bool := false
  /-- the device a granted move is copying to -/
  moving : Option Nat := none
  deriving DecidableEq, Repr

/-- This device has asked another one to compact what it released on a variable of this device; has it answered (R270, R272)? -/
structure Force where
  dev : Nat
  ia : Nat
  done : Bool := false
  deriving DecidableEq, Repr

/-- The fabric registers, ports, peers, streams and roaming (R354 to R371). -/
structure Fabric where
  migMax : BitVec 4 := 4
  migTh : BitVec 8 := 64
  enc : Bool := true
  spray : Bool := true
  qpeer : BitVec 7 := 16
  reroute : BitVec 32 := 200000
  relayMask : BitVec 128 := BitVec.allOnes 128
  roamCfg : Word := 0
  ports : Tab Port := []
  peers : Tab Peer := []
  streams : Tab Stream := []
  accept : Tab Digest := []
  directory : Tab RoamEntry := []
  /-- cached holders of roaming pages, frames of the pool in use (page), accesses of the last 100 µs -/
  holders : Tab Nat := []
  pool : Tab Nat := []
  accesses : Tab (List Nat) := []
  /-- requests of other devices that wait for a page or for the round buffer: source, PSEQ, request (R363, R406) -/
  waiting : List (Nat × Nat × RemoteReq) := []
  forces : List Force := []
  /-- requests that have been passed on to the present holder of a roaming page: that device, and the source and PSEQ of the request (R358, R367) -/
  forwards : List (Nat × Nat × Nat) := []
  /-- pages that a waiting request or work request has put into the fault queue: who (source and number), page (R294) -/
  noted : List ((Nat × Nat) × Nat) := []
  deriving DecidableEq, Repr

/-! ### Channels, collectives and the network engine (15_collectives_network.md) -/

inductive ChanState where
  | closed | opening | opened | broken
  deriving DecidableEq, Repr

/-- A channel-table entry (R372 to R380). `ctl` and `peer` hold the RW fields of words 0 and 1 as written. -/
structure Chan where
  ctl : Word := 0
  peer : Word := 0
  owner : Nat := 0
  err : Nat := 0
  state : ChanState := .closed
  cred : Nat := 0
  /-- credits retired at a receiver of this package and not yet returned (R379) -/
  owed : Nat := 0
  xfer : BitVec 32 := 0
  /-- elements present, oldest first, and elements consumed since the region mark, oldest first -/
  buf : List ChanElem := []
  held : List ChanElem := []
  /-- elements sent and not yet placed at the receiver (R380) -/
  pending : List ChanElem := []
  /-- the receive side's DEPTH + 1, known at pairing -/
  depthPeer : Nat := 0
  /-- tick of its opening (R375) -/
  since : Nat := 0
  deriving DecidableEq, Repr

/-- A collective group (R381). -/
structure CGroup where
  en : Bool := false
  nranks : BitVec 8 := 0
  myrank : BitVec 7 := 0
  root : BitVec 7 := 0
  treduce : BitVec 32 := 100000
  gmap : Word := 0
  late : BitVec 32 := 0
  partialN : BitVec 32 := 0
  /-- hash exchange of the group: not done, agreed, differing -/
  hash : Option Bool := none
  deriving DecidableEq, Repr

/-- A chunk at the reduction unit (R382, R383). -/
structure RChunk where
  group : Nat
  seq : Nat
  chunk : Nat
  ty : Nat
  parts : Tab (List Byte) := []
  first : Nat := 0
  flushed : Bool := false
  /-- the result and the ranks it misses, once formed here or arrived -/
  result : Option (List Byte × BitVec 128) := none
  deriving DecidableEq, Repr

/-- A work request in progress (R390): its 64 bytes, its context, and what its kind needs. -/
structure WorkReq where
  ctx : Nat
  ring : Nat
  bytes : List Byte
  /-- ring slot, the core that posted it (none for a master), and has the engine taken the entry? -/
  slot : Nat := 0
  core : Option Nat := none
  started : Bool := false
  foot : Foot := {}
  ticket : Nat := 0
  /-- AREDUCE: chunks delivered and missing ranks; LAP: steps ended and whether one is copying -/
  done : Nat := 0
  pchunks : Nat := 0
  missing : BitVec 128 := 0
  copying : Bool := false
  /-- LAP: blocks of the predecessor that have been written here -/
  arrived : Nat := 0
  /-- MSG: first PSN, number of packets and bytes of a full packet; LAP: LCTR has advanced -/
  psn0 : Nat := 0
  packets : Nat := 0
  psize : Nat := 0
  finished : Bool := false
  /-- tick of the first send (R366) -/
  tick : Nat := 0
  deriving DecidableEq, Repr

/-- A packet sent and not yet acknowledged (R393, R394). -/
structure SentPkt where
  psn : Nat
  sends : Nat
  last : Nat
  acked : Bool := false
  deriving DecidableEq, Repr

/-- A packet delivery context (R393): sending side and receiving side. -/
structure Pdc where
  nextPsn : Nat := 0
  sent : List SentPkt := []
  /-- receiver: every lower PSN has been received; received PSNs above it; packets placed per message -/
  cack : Nat := 0
  got : List Nat := []
  sackDue : Bool := false
  deriving DecidableEq, Repr

/-- The network engine (R381 to R396). -/
structure Net where
  groups : Tab CGroup := []
  chunks : List RChunk := []
  work : List WorkReq := []
  retry : BitVec 4 := 7
  rto : BitVec 32 := 5000
  reorder : BitVec 4 := 3
  payload : BitVec 2 := 2
  retx : BitVec 32 := 0
  dup : BitVec 16 := 0
  rej : BitVec 16 := 0
  addr0 : Word := 0
  addr1 : Word := 0
  /-- UEPORT: EN and LINK -/
  ports : Tab (Bool × Bool) := []
  /-- delivery contexts by context·4096 + peer index -/
  pdcs : Tab Pdc := []
  /-- receive side: (source key, first PSN) of each message and its packets placed so far -/
  rxMsgs : List (Nat × Nat × Nat) := []
  /-- next (context, ring) visited -/
  poll : Nat := 0
  deriving DecidableEq, Repr
/-! ### Coding groups (16_coding_groups.md) -/

inductive GState where
  | off | forming | run | degraded | rebuild | failed
  deriving DecidableEq, Repr

/-- A staged delta at a parity member: its product with the coefficient (R408). -/
structure Staged where
  round : Word
  src : Nat
  goff : Nat
  data : List Byte
  deriving DecidableEq, Repr

/-- A granule of 128 bytes held apart from home: its physical address, group offset and bytes (R406). -/
structure Image where
  pa : Nat
  goff : Nat
  data : List Byte
  deriving DecidableEq, Repr

/-- The configuration registers of a group slot (R399). -/
structure GCfg where
  gid : BitVec 16 := 0
  repl : Bool := false
  ovr : Bool := false
  myidx : BitVec 4 := 0
  k : BitVec 4 := 0
  m : BitVec 3 := 0
  en : Bool := false
  memb0 : Word := 0
  memb1 : Word := 0
  power : Word := 0
  cool : Word := 0
  space : BitVec 40 := 0
  parbase : Word := 0
  roundbuf : Word := 0
  roundcfg : Word := 0
  deadTicks : BitVec 32 := 100000
  deriving DecidableEq, Repr

/-- A group slot (R399, R404, R406, R410, R417). -/
structure GSlot where
  cfg : GCfg := {}
  roundLast : Word := 0
  dead : BitVec 16 := 0
  rbidx : BitVec 4 := 0
  err : BitVec 8 := 0
  weak : Bool := false
  rb : Bool := false
  /-- 0 open, 1 preparing, 2 prepared, 3 decided -/
  phase : BitVec 2 := 0
  state : GState := .off
  rbprog : BitVec 40 := 0
  regs : List Region := []
  joining : List Region := []
  leaving : List Region := []
  /-- pending registrations and removals of the round being closed (R404, R408) -/
  closedJoin : List Region := []
  closedLeave : List Region := []
  /-- by local offset / 128: the images of the closed round; the granules with an image of the open round; the committed bytes
  of every granule with an image, whose image home's cells hold for every read (R406) -/
  closed : Tab Image := []
  opened : Tab Image := []
  committed : Tab Image := []
  staged : List Staged := []
  /-- (parity index, group offset) of deltas sent and not acknowledged -/
  unacked : List (Nat × Nat) := []
  /-- members whose PREPARED for the open round has reached this coordinator -/
  prepared : List Nat := []
  decisions : List Decision := []
  /-- the decision record in force here (R410), and the members whose record this device, coordinator since the last one died, still awaits (R411) -/
  record : Option Decision := none
  asking : List Nat := []
  /-- registrations in force at every data member -/
  memberRegs : List (Nat × List Region) := []
  /-- tick since which a member has not been reachable -/
  lost : Tab Nat := []
  /-- outcome of the round most recently closed: none since RUN, 0 committed, 1 aborted -/
  outcome : Option Nat := none
  /-- a rebuild into this device is held (ERR = 3), the next offset it needs, and the shares received -/
  rbHeld : Bool := false
  rbNext : Nat := 0
  shares : List Share := []
  deriving DecidableEq, Repr
/-! ### The core -/

/-- The register files (R11, R55, R77, R135, R180, R197, R212). -/
structure Regs where
  x : Vector Word 64 := Vector.replicate 64 0
  p : Vector Pred 16 := Vector.replicate 16 0
  v : Vector VReg 32 := Vector.replicate 32 0
  sc : Vector ScReg 16 := Vector.replicate 16 0
  h : Vector Handle 16 := Vector.replicate 16 {}
  /-- active and shadow copies; gm0-gm3 are 0-3, gy0-gy3 are 4-7 -/
  shape : Vector (ShapeReg × ShapeReg) 8 := Vector.replicate 8 (0, 0)
  z : ZRegs := {}
  deriving DecidableEq, Repr

/-- Why the core does not issue (R20, R51). -/
inductive HoldWhy where
  | none
  /-- an issue stall of R20, before any slot of the bundle -/
  | stall
  /-- a fetch hold at the slot that is next to execute -/
  | fetch
  /-- the next bundle's segment is not in the loop buffer (R51) -/
  | segment
  deriving DecidableEq, Repr

/-- The issue end of a core: loop buffer, position, and the bundle that is issuing (R47 to R53, R78 to R84). -/
structure Front where
  cur : Option Segment := none
  succ : Option Segment := none
  pos : Nat := 0
  latched : Option Target := none
  /-- after a SNAPREL and before the TRET (R178) -/
  released : Bool := false
  /-- an address-named entry that is awaited (R49, R51) -/
  entry : Option Target := none
  bubbles : Nat := 0
  emptyLeft : Nat := 0
  run : Option Run := none
  idemNext : Bool := false
  /-- IB of the bundle that is next has taken effect at its entry (R28) -/
  marked : Bool := false
  /-- the task leaves BOUND as soon as its copy jobs and results allow; RESUME (R15, R90) -/
  leaving : Option (After × Nat) := none
  /-- TRET has restored this snapshot, and its bundle has not issued again yet (R25) -/
  reenter : Option Snap := none
  hold : HoldWhy := .none
  /-- the page that a fetch hold awaits, once the fault queue holds it (R86) -/
  holdPage : Option Nat := none
  /-- tick at which a store found the log full, and has LOGSTALL passed since (R261) -/
  logSince : Option Nat := none
  logDue : Bool := false
  loops : Tab LoopLevel := []
  /-- expansions that the fetch of the core's coupled group has made and that the core has not entered yet (R243) -/
  given : List Segment := []
  freeze : Bool := false
  step : Bool := false
  /-- halted by the attached debugger, and with the trap's snapshot taken (R95, R100) -/
  halted : Bool := false
  debug : Bool := false
  deriving DecidableEq, Repr

/-- The bound task as its record gave it (R11), and its memory view (R28, R265). -/
structure Bound where
  launch : Nat
  index : Nat
  ctx : Nat := 0
  prio : Nat := 0
  /-- KIND.AFFINE, FULL -/
  affine : Bool := false
  pbase : Nat := 0
  plen : Nat := 0
  recVa : Word := 0
  save : Nat := 0
  rstart : Word := 0
  mark : Nat := 0
  vp : Nat := 0
  va : Nat := 0
  vf : Nat := 0
  lastRel : Nat := 0
  /-- sequence numbers on this core: the task's last record, its last released one, and the core's at the bind (R260, R285) -/
  lastSeq : Nat := 0
  relSeq : Nat := 0
  seq0 : Nat := 0
  /-- the number of this stay (R285) -/
  stay : Nat := 0
  /-- the counter to acquire before the first bundle (R91) -/
  wake : Option Nat := none
  /-- number of the region since the bind (R29); the region at RSTART began through an IDEM (R28, R89) -/
  region : Nat := 0
  idem : Bool := false
  /-- POS of the stream table has been loaded (R187) -/
  posLoaded : Bool := true
  /-- argument of the free contents of scratchpad bytes that nothing has written (the model's own) -/
  epoch : Nat := 0
  /-- the effective slice in ticks, fixed at the bind; 0 for none (R305) -/
  slice : Nat := 0
  deriving DecidableEq, Repr

/-- The copy engine, tag table, footprints and residency (R192, R193, R216 to R228). -/
structure CopyEng where
  jobs : List Job := []
  err : List CopyHeld := []
  updates : List HUpdate := []
  bytes : BitVec 64 := 0
  tags : Tab TagEntry := []
  /-- resident numbers 0-7: launch and index -/
  resid : Tab (Nat × Nat) := []
  footProg : List Declared := []
  footNet : List Declared := []
  deriving DecidableEq, Repr

/-- A bound-table entry (R127). -/
structure BoundEntry where
  hi : BitVec 32 := 0x7F800000
  lo : BitVec 32 := 0xFF800000
  etype : BitVec 4 := 0
  mode : BitVec 2 := 0
  deriving DecidableEq, Repr

/-- Vector-unit state beyond its registers, and the statistics counters (R127, R132, R159, R161). -/
structure VecEng where
  lost : BitVec 32 := 0
  empty : BitVec 32 := 0
  dq : List (BitVec 32) := []
  bounds : Tab BoundEntry := []
  counts : Tab Stat := []
  pcounts : Tab Stat := []
  deriving DecidableEq, Repr

/-- A core (R1, R5). -/
structure Core where
  regs : Regs := {}
  front : Front := {}
  task : Option Bound := none
  flight : List Flight := []
  misses : List Miss := []
  snap : Option Snap := none
  snapOps : List SnapOp := []
  /-- record cache: address of the 64 bytes and the bytes, most recently used first (R87) -/
  rcache : List (Nat × List Byte) := []
  vcache : List VLine := []
  /-- scratchpad bytes written since the power came on; any other byte is free (R190) -/
  spad : List Host.Cell := []
  copy : CopyEng := {}
  mx : Mx := {}
  vec : VecEng := {}
  chans : Tab Chan := []
  chdrop : BitVec 32 := 0
  seq : BitVec 55 := 0
  preempt : Bool := false
  /-- the device whose answer a fetch hold awaits and whether its request has been sent, and the answer (R274, R362) -/
  asked : Option (Nat × Bool) := none
  /-- tick of the issue of that request, or of its first send (R366) -/
  askedAt : Nat := 0
  answer : Option RemoteReply := none
  /-- ring and slot that the LAUNCH or NETPOST in its fetch hold has reserved, and the slot once it is published (R101, R347, R389);
  ring n is launch ring n, ring 64 + n network ring n -/
  slotHeld : Option (Nat × Nat) := none
  published : Option Nat := none
  /-- a release performed by the syllable in its fetch hold, whose compaction is awaited: its stamp and its result (R271, R283) -/
  released : Option (Nat × Word) := none
  /-- the stamp up to which the LOGCMP in its fetch hold compacts, and its number of records (R284) -/
  compacted : Option (Nat × Nat) := none
  /-- a superstep arrived at: scope package?, generation; the next bundle is held at entry (R283) -/
  sstep : Option (Bool × Nat) := none
  /-- arrivals and BARM values that have not reached their roots, in issue order (R251, R252) -/
  spireOut : List SpireMsg := []
  bindTick : Nat := 0
  /-- tick at which a pre-emption was taken, until the next task's first bundle (R306) -/
  preAt : Option Nat := none
  /-- core cycles, and the reference ticks that have passed for the core beside them: while it was throttled, waited or was not bound (R6, R307) -/
  cycle : Nat := 0
  skew : Nat := 0
  deriving DecidableEq, Repr
/-! ### The device -/

/-- What the device has sent to other devices, masters and networks (the model's own field). -/
inductive OutMsg where
  | request (dev : Nat) (pseq : Nat) (addr : Nat) (inc : BitVec 16) (op : ReqOp)
  /-- the reply to the request with a pair sequence number -/
  | reply (dev : Nat) (pseq : Nat) (r : RemoteReply)
  /-- a frame leaves a port on a wavelength -/
  | frame (plane lambda : Nat) (f : Frame)
  /-- a probe of the dead stream on a wavelength -/
  | probe (plane lambda : Nat)
  /-- the first SSEQ not received, after a good frame and after a bad one or a gap (R357) -/
  | ack (plane peer : Nat) (sseq : Nat)
  | nak (plane peer : Nat) (sseq : Nat)
  | element (dev core ch : Nat) (e : ChanElem)
  | credit (dev core ch n : Nat)
  | closed (dev core ch : Nat)
  | contribution (dev : Nat) (group seq chunk ty : Nat) (data : List Byte)
  | result (dev : Nat) (group seq chunk : Nat) (data : List Byte) (missing : BitVec 128)
  /-- step `step` of a lap rotation of a group -/
  | lap (dev : Nat) (group step : Nat) (data : List Byte)
  /-- the predecessor's block has another length than this rank's request (R385) -/
  | lapRefused (dev : Nat) (group : Nat)
  /-- the first 8 bytes of the rank table's SHA-384, NRANKS and ROOT of a collective group (R381) -/
  | rankHash (dev : Nat) (group : Nat) (hash : Word) (nranks root : Nat)
  | packet (port : Nat) (p : Packet)
  | sack (key : Nat) (k : Sack)
  | packetError (key : Nat)
  /-- a request of the SPDM exchange, or its answer, with the algorithms that NEGOTIATE_ALGORITHMS and its answer name -/
  | spdm (dev : Nat) (step : SpdmStep) (answer : Bool) (algs : List Algorithm)
  | advert (dev : Nat) (live : BitVec 128)
  | delta (dev : Nat) (gid : BitVec 16) (d : Delta)
  | deltaAck (dev : Nat) (gid : BitVec 16) (a : DeltaAck)
  | prepared (dev : Nat) (gid : BitVec 16) (src : Nat) (round : Word) (regs : List Region)
  | decision (dev : Nat) (gid : BitVec 16) (d : Decision)
  | groupHash (dev : Nat) (gid : BitVec 16) (hash : Word)
  | groupLeft (dev : Nat) (gid : BitVec 16)
  | share (dev : Nat) (gid : BitVec 16) (s : Share)
  | moveRequest (dev : Nat) (page : Nat)
  /-- the registry tells the holder of a page to copy it to another device, and a device that its move is refused (R368) -/
  | moveGrant (dev : Nat) (page asker : Nat)
  | moveRefused (dev : Nat) (page : Nat)
  /-- the bytes of a roaming page go to its new holder (R368) -/
  | page (dev : Nat) (page : Nat) (data : List Byte)
  /-- the value that a master's read returned (R294) -/
  | readValue (master : Nat) (value : Word)
  /-- an interrupt or alert line to a master -/
  | alert (what : Nat)
  deriving DecidableEq, Repr

/-- One move of the model's agenda: which core acts next, or an event of the environment. -/
inductive Move where
  | act (core : Nat)
  | event (i : Instr)
  deriving DecidableEq, Repr

/-- Units and scheduling (R296 to R312). -/
structure Sched where
  tasks : List Task := []
  launches : List Launch := []
  graphs : List Graph := []
  phases : List Phase := []
  jobs : List JobRun := []
  submits : List Submit := []
  launchSeq : BitVec 32 := 1
  unitSeq : BitVec 32 := 1
  /-- next order number of the ready queues -/
  nextOrder : Nat := 0
  /-- next (context, ring) visited -/
  poll : Nat := 0
  deriving DecidableEq, Repr

/-- The device identity of the root controller: the ECDSA P-384 key pair and the certificate chain (R336). -/
structure Identity where
  priv : BitVec 384 := 0
  pub : BitVec 768 := 0
  chain : List Byte := []
  deriving DecidableEq, Repr

/-- The root controller and its registers (R335 to R346). -/
structure Root where
  stage : Stage := {}
  devnum : BitVec 7 := 0
  inc : BitVec 16 := 1
  meas : Tab Digest := []
  identity : Identity := {}
  /-- the firmware images: does the signature verify, and the digest (R336) -/
  images : List (Bool × Digest) := []
  owner : Ownership := {}
  journal : Journal := {}
  lrcfg : Word := 0
  ptroot : Word := 0
  ctxs : Tab Ctx := []
  throttled : Bool := false
  debugger : Bool := false
  /-- tick of the last package reset (R326) -/
  resetAt : Nat := 0
  deriving DecidableEq, Repr

/-- The machine: everything the spec gives the device. -/
structure State where
  /-- the core that acts, its index (die·88 + cluster·4 + core), and the other cores that differ from reset -/
  core : Core := {}
  coreId : Nat := 0
  others : Tab Core := []
  clusters : Tab Cluster := []
  dies : Tab Die := []
  mem : Mem := {}
  sched : Sched := {}
  root : Root := {}
  /-- reference time in ticks of 10 ns (R6) -/
  time : Nat := 0
  /-- package barrier groups 64-79, the package fence variable -/
  spire : Tab SpireGroup := []
  fence : Tab Nat := []
  /-- by variable on another device, the stamps of the dies' latest releases on it (R264, R271) -/
  rsync : List SyncVar := []
  ctrls : Tab Ctrl := []
  trav : Trav := {}
  fabric : Fabric := {}
  net : Net := {}
  groups : Tab GSlot := []
  /-- the model's own: moves to come, what has been sent, and the counter of free values -/
  agenda : List Move := []
  out : List OutMsg := []
  free : Nat := 0
  /-- the model's own: order of issue of engine commands and footprints -/
  ticket : Nat := 0
  /-- the model's own: every snapshot image that has been stored, newest first, by which SNAPLD knows an unaltered one (R97) -/
  archive : List Archived := []
  deriving DecidableEq, Repr

/-- Why the machine stops with a fault. -/
inductive Fault where
  /-- The agenda names a core that the part does not have (raised by the step; safe: such a move exists in no run of the part). -/
  | noSuchCore
  deriving DecidableEq, Repr

/-- Why a step has no meaning. -/
inductive Refusal where
  /-- The instruction has no meaning in the model yet (raised by its arm of exec; safe: the model stops where the part goes on). -/
  | notModelled (mnemonic : String)
  deriving DecidableEq, Repr

/-- What a meaning answers. -/
abbrev Out := Host.Outcome State Fault Refusal

/-- The machine right after power-on (R338; registers without a reset value: DESIGN CHOICE, assumption log 1, 3, 5). -/
def State.reset : State := {}

end Sys2Proof.Machine
end

