-- ==== Sys2Proof/Machine/Basic.lean ====
section
/-! DEFINITION. Sparse tables, and the accessors of the state's parts. -/

namespace Sys2Proof.Machine

/-- Entry `n` of a table. -/
def tget? {α : Type} : Tab α → Nat → Option α
  | [], _ => none
  | (k, v) :: t, n => if k = n then some v else tget? t n

/-- Entry `n`, or the table's default. -/
def tget {α : Type} (d : α) (t : Tab α) (n : Nat) : α := (tget? t n).getD d

/-- Remove entry `n`. -/
def terase {α : Type} (t : Tab α) (n : Nat) : Tab α := t.filter fun kv => kv.1 != n

/-- Insert by key; the key is absent. -/
def tins {α : Type} : Tab α → Nat → α → Tab α
  | [], n, v => [(n, v)]
  | (k, w) :: t, n, v => if n < k then (n, v) :: (k, w) :: t else (k, w) :: tins t n v

/-- Set entry `n`; keys stay strictly rising. -/
def tset {α : Type} (t : Tab α) (n : Nat) (v : α) : Tab α := tins (terase t n) n v

/-- Change entry `n`, taking the default where it is absent. -/
def tmod {α : Type} (d : α) (t : Tab α) (n : Nat) (f : α → α) : Tab α := tset t n (f (tget d t n))

/-- Are the keys strictly rising? -/
def tsorted {α : Type} : Tab α → Bool
  | [] => true
  | [_] => true
  | (k, _) :: (l, w) :: t => decide (k < l) && tsorted ((l, w) :: t)

/-- Byte `a` of a cell list: a byte that is not listed reads as 0 (assumption log 3). (Open points: DESIGN CHOICE, log 3.) -/
def cget (cs : List Host.Cell) (a : Nat) : Byte := (tget? cs a).getD 0

/-- Write byte `a`; a byte that reads as 0 is not listed, so equal memories are equal lists. (Open points: DESIGN CHOICE, log 3.) -/
def cset (cs : List Host.Cell) (a : Nat) (b : Byte) : List Host.Cell := if b = 0 then terase cs a else tset cs a b

/-- The canonical form of home memory: addresses strictly rising, no byte listed that reads as 0. (Open points: DESIGN CHOICE, log 3.) -/
def Memory.wf (cs : List Host.Cell) : Bool := tsorted cs && cs.all fun c => c.2 != 0

/-- Cores, dies and clusters of a core index (R1, R260). -/
def dieOf (core : Nat) : Nat := core / 88
def clusterOf (core : Nat) : Nat := core / 4
def lowCore (core : Nat) : Nat := core % 4

/-- Sum of a list of numbers. -/
def sumList (l : List Nat) : Nat := l.foldl (· + ·) 0

/-- Insertion by rising key, stable. -/
def insertBy {α : Type} (key : α → Nat) (x : α) : List α → List α
  | [] => [x]
  | y :: ys => if key x < key y then x :: y :: ys else y :: insertBy key x ys

/-- A list in the order of a key, stable. -/
def sortBy {α : Type} (key : α → Nat) (l : List α) : List α := l.foldl (fun acc x => insertBy key x acc) []

/-- Change the first element that satisfies `p`. -/
def modFirst {α : Type} (p : α → Bool) (f : α → α) : List α → List α
  | [] => []
  | x :: xs => if p x then f x :: xs else x :: modFirst p f xs

namespace State

def modCore (s : State) (f : Core → Core) : State := { s with core := f s.core }
def modRegs (s : State) (f : Regs → Regs) : State := s.modCore fun c => { c with regs := f c.regs }
def modFront (s : State) (f : Front → Front) : State := s.modCore fun c => { c with front := f c.front }
def modRun (s : State) (f : Run → Run) : State := s.modFront fun r => { r with run := r.run.map f }
def modZ (s : State) (f : ZRegs → ZRegs) : State := s.modRegs fun r => { r with z := f r.z }
def modStat (s : State) (f : ZStat → ZStat) : State := s.modZ fun z => { z with stat := f z.stat }
def modTask (s : State) (f : Bound → Bound) : State := s.modCore fun c => { c with task := c.task.map f }
def modCopy (s : State) (f : CopyEng → CopyEng) : State := s.modCore fun c => { c with copy := f c.copy }
def modMx (s : State) (f : Mx → Mx) : State := s.modCore fun c => { c with mx := f c.mx }
def modVec (s : State) (f : VecEng → VecEng) : State := s.modCore fun c => { c with vec := f c.vec }
def modChan (s : State) (n : Nat) (f : Chan → Chan) : State := s.modCore fun c => { c with chans := tmod {} c.chans n f }
def modMem (s : State) (f : Mem → Mem) : State := { s with mem := f s.mem }
def modSched (s : State) (f : Sched → Sched) : State := { s with sched := f s.sched }
def modRoot (s : State) (f : Root → Root) : State := { s with root := f s.root }
def modTrav (s : State) (f : Trav → Trav) : State := { s with trav := f s.trav }
def modFabric (s : State) (f : Fabric → Fabric) : State := { s with fabric := f s.fabric }
def modNet (s : State) (f : Net → Net) : State := { s with net := f s.net }

def die (s : State) (d : Nat) : Die := tget {} s.dies d
def modDie (s : State) (d : Nat) (f : Die → Die) : State := { s with dies := tmod {} s.dies d f }
def cluster (s : State) (c : Nat) : Cluster := tget {} s.clusters c
def modCluster (s : State) (c : Nat) (f : Cluster → Cluster) : State := { s with clusters := tmod {} s.clusters c f }
def ctx (s : State) (n : Nat) : Ctx := tget {} s.root.ctxs n
def modCtx (s : State) (n : Nat) (f : Ctx → Ctx) : State := s.modRoot fun r => { r with ctxs := tmod {} r.ctxs n f }
def ctrl (s : State) (n : Nat) : Ctrl := tget {} s.ctrls n
def modCtrl (s : State) (n : Nat) (f : Ctrl → Ctrl) : State := { s with ctrls := tmod {} s.ctrls n f }
def group (s : State) (n : Nat) : GSlot := tget {} s.groups n
def modGroup (s : State) (n : Nat) (f : GSlot → GSlot) : State := { s with groups := tmod {} s.groups n f }
def peer (s : State) (n : Nat) : Peer := tget {} s.fabric.peers n
def modPeer (s : State) (n : Nat) (f : Peer → Peer) : State := s.modFabric fun b => { b with peers := tmod {} b.peers n f }
def port (s : State) (n : Nat) : Port := tget {} s.fabric.ports n
def modPort (s : State) (n : Nat) (f : Port → Port) : State := s.modFabric fun b => { b with ports := tmod {} b.ports n f }

/-- Append to what the device has sent. (Open points: DESIGN CHOICE, log 6, 94.) -/
def send (s : State) (m : OutMsg) : State := { s with out := s.out ++ [m] }

/-- The state of core `n`. -/
def coreAt (s : State) (n : Nat) : Core := if n = s.coreId then s.core else tget {} s.others n

/-- Change core `n`. -/
def modCoreAt (s : State) (n : Nat) (f : Core → Core) : State :=
  if n = s.coreId then s.modCore f else { s with others := tset s.others n (f (tget {} s.others n)) }

/-- Make core `n` the current core. -/
def focus (s : State) (n : Nat) : State :=
  if n = s.coreId then s
  else { s with core := tget {} s.others n, coreId := n, others := terase (tset s.others s.coreId s.core) n }

/-- Act on core `n`, leaving the current core current. -/
def onCore (s : State) (n : Nat) (f : State → State) : State := (f (s.focus n)).focus s.coreId

/-- Every core index with state of its own. -/
def liveCores (s : State) : List Nat := s.coreId :: s.others.map Prod.fst

/-- A fresh index of the free values (assumption log 7). (Open points: DESIGN CHOICE, log 7.) -/
def nextFree (s : State) : State := { s with free := s.free + 1 }

/-- The bound task of the current core; before any bind, task 0 of launch 0 of context 0 (assumption log 2). (Open points: DEDUCED, log 2.) -/
def bound (s : State) : Bound := s.core.task.getD { launch := 0, index := 0 }

/-- The launch of a launch ID. -/
def launch? (s : State) (id : Nat) : Option Launch := s.sched.launches.find? fun l => l.id == id && l.status == 0

/-- The launch of the bound task. -/
def boundLaunch (s : State) : Option Launch := s.launch? s.bound.launch

/-- Change a launch record. -/
def modLaunch (s : State) (id : Nat) (f : Launch → Launch) : State :=
  s.modSched fun q => { q with launches := modFirst (fun l => l.id == id && l.status == 0) f q.launches }

/-- The record of a task. -/
def task? (s : State) (launch index : Nat) : Option Task :=
  s.sched.tasks.find? fun t => t.launch == launch && t.index == index

/-- Change a task's record. -/
def modTaskRec (s : State) (launch index : Nat) (f : Task → Task) : State :=
  s.modSched fun q => { q with tasks := modFirst (fun t => t.launch == launch && t.index == index) f q.tasks }

/-- The die of the current core. -/
def myDie (s : State) : Nat := dieOf s.coreId

/-- This device's number in its domain (R339). -/
def devNum (s : State) : Nat := s.root.devnum.toNat

end State

end Sys2Proof.Machine
end

