-- ==== Sys2Proof/Machine/Operands.lean ====
section
/-! DEFINITION. Operand forms: what a syllable reads at bundle entry, what it writes and when, scalar and lane predicates, handles and shape
registers (spec 01_task.md R19, R25; 02_encoding.md R55; 03_scalar_control.md R67 to R69; 05_vector.md R137; 07_core_memory.md R197, R198, R212). -/

namespace Sys2Proof.Machine

/-- Word 0 of a handle (R197). -/
def Handle.word0 (h : Handle) : Word := BitVec.ofNat 64 (h.base % 2 ^ 21 + h.ssize % 2 ^ 21 * 2 ^ 32)

/-- Word 1 of a handle (R197). -/
def Handle.word1 (h : Handle) : Word :=
  BitVec.ofNat 64 (h.count % 512 + h.head % 256 * 2 ^ 16 + h.tail % 256 * 2 ^ 24 + h.fill % 512 * 2 ^ 32)

/-- The handle of two words; its counts of outstanding commands are 0 (R197, R201). -/
def Handle.ofWords (w0 w1 : Word) : Handle :=
  { base := fld w0.toNat 0 21, ssize := fld w0.toNat 32 21, count := fld w1.toNat 0 9, head := fld w1.toNat 16 8
    tail := fld w1.toNat 24 8, fill := fld w1.toNat 32 9 }

def Handle.headSlot (h : Handle) : Nat := h.base + (h.head + h.cp) % h.count * h.ssize
def Handle.tailSlot (h : Handle) : Nat := h.base + (h.tail + h.pp) % h.count * h.ssize
def Handle.avail (h : Handle) : Nat := h.fill - h.cp
def Handle.free (h : Handle) : Nat := h.count - h.fill - h.pp

/-- A producer's update when its command ends, or HADVP's by `n` slots (R198, R200). -/
def Handle.produce (h : Handle) (n : Nat) : Handle := { h with tail := (h.tail + n) % h.count, fill := h.fill + n }

/-- A consumer's update when its command ends, or HADVC's by `n` slots (R198, R200). -/
def Handle.consume (h : Handle) (n : Nat) : Handle := { h with head := (h.head + n) % h.count, fill := h.fill - n }

namespace State

/-- The operand image of a bundle that TRET re-entered; empty otherwise (R25). -/
def image (s : State) : RegImage := (s.core.front.run.map Run.image).getD {}

/-- X(n): the bundle-entry value of x[n]; x0 reads 0 (R67, R69). -/
def x (s : State) (n : BitVec 6) : Word :=
  if n = 0 then 0 else (tget? s.image.x n.toNat).getD (s.core.regs.x[n.toNat]?.getD 0)

/-- P(n): p0 reads all ones (R55, R77). -/
def p (s : State) (n : BitVec 4) : Pred :=
  if n = 0 then BitVec.allOnes 128 else (tget? s.image.p n.toNat).getD (s.core.regs.p[n.toNat]?.getD 0)

/-- A vector register at bundle entry. -/
def v (s : State) (n : BitVec 5) : VReg := (tget? s.image.v n.toNat).getD (s.core.regs.v[n.toNat]?.getD 0)

/-- A scale register at bundle entry. -/
def sc (s : State) (n : BitVec 4) : ScReg := (tget? s.image.sc n.toNat).getD (s.core.regs.sc[n.toNat]?.getD 0)

/-- A handle at bundle entry, with its counts of outstanding commands as they stand (R197). -/
def h (s : State) (n : BitVec 4) : Handle :=
  let now := s.core.regs.h[n.toNat]?.getD {}
  match tget? s.image.h n.toNat with
  | some old => { old with pp := now.pp, cp := now.cp }
  | none => now

/-- Both copies of shape register `k` (gm0-gm3 are 0-3, gy0-gy3 are 4-7), active first, at bundle entry. -/
def shapes (s : State) (k : Nat) : ShapeReg × ShapeReg := (tget? s.image.shape k).getD (s.core.regs.shape[k]?.getD (0, 0))

/-- Does sq let the syllable execute (R55)? -/
def sqOn (s : State) (q : BitVec 3) : Bool := q == 0 || (s.p (q.zeroExtend 4)).getLsbD 0

/-- Execute under sq: a suppressed syllable has no effect (R55). (Open points: DEDUCED, log 91.) -/
def guarded (s : State) (q : BitVec 3) (f : State → State) : State := if s.sqOn q then f s else s

/-- Schedule a register write (R22): it takes effect at the end of `lat` advancing cycles (R19). -/
def result (s : State) (lat : Nat) (w : RegWrite) : State :=
  (s.modCore fun c => { c with flight := c.flight ++ [⟨lat, w⟩] }).modRun fun r => { r with wrote := w :: r.wrote }

/-- SetX(n, v, c): a write to x0 is discarded (R67, R69). -/
def setX (s : State) (n : BitVec 6) (val : Word) (lat : Nat) : State := if n = 0 then s else s.result lat (.x n.toNat val)

/-- Write a predicate: a write to p0 is discarded (R67). -/
def setP (s : State) (n : BitVec 4) (val : Pred) (lat : Nat) : State := if n = 0 then s else s.result lat (.p n.toNat val)

/-- Write the lanes of a vector register that `mask` enables (R137). -/
def setV (s : State) (n : BitVec 5) (mask : Pred) (val : VReg) (lat : Nat) : State := s.result lat (.v n.toNat mask val)

/-- Write a scale register. -/
def setSc (s : State) (n : BitVec 4) (val : ScReg) (lat : Nat) : State := s.result lat (.sc n.toNat val)

/-- Change a handle at once (R198). -/
def modH (s : State) (n : Nat) (f : Handle → Handle) : State :=
  s.modRegs fun r => { r with h := r.h.setIfInBounds n (f (r.h[n]?.getD {})) }

/-- The word of the syllable that executes, and its slot. -/
def sylWord (s : State) : BitVec 32 := BitVec.ofNat 32 ((s.core.front.run.map Run.word).getD 0)
def sylSlot (s : State) : Nat := (s.core.front.run.map Run.slot).getD 0

/-- Address of the stored bundle that issues (R71). -/
def bundleAddr (s : State) : Nat := (s.core.front.run.map Run.addr).getD 0

/-- ZTID at bundle entry (R19, R132). -/
def tid (s : State) : Nat :=
  match tget? s.image.z 6 with
  | some w => w.toNat % 256
  | none => s.core.regs.z.tid.toNat

/-- Does FP8 code 111 mean E5M2 at bundle entry (R19, R35)? -/
def f8 (s : State) : Bool :=
  match tget? s.image.z 0 with
  | some w => w.getLsbD 25
  | none => s.core.regs.z.stat.f8

/-- The bound task's launch runs in deterministic mode (R35). -/
def det (s : State) : Bool := s.core.regs.z.stat.det

end State

end Sys2Proof.Machine
end

