-- ==== Sys2Proof/Machine/Spire.lean ====
section
/-! DEFINITION. The spire network: the roots of the barrier groups, arrivals and BARM values at them, and the mirrors of the cluster nodes
(spec 09_cluster.md R251 to R255). -/

namespace Sys2Proof.Machine

/-- One arrival is counted (R251, R253): when ARRIVED reaches N, the generation completes. -/
def SpireGroup.arrive (g : SpireGroup) : SpireGroup :=
  let a := g.arrived + 1
  if a = g.n then
    match g.staged with
    | some (n, m) => { gen := g.gen + 1, n := n, mask := m, arrived := 0, staged := none }
    | none => { g with gen := g.gen + 1, arrived := 0 }
  else { g with arrived := a }

/-- A BARM value at the root (R252). (Open points: DEDUCED, log 42.) -/
def SpireGroup.configure (g : SpireGroup) (w : Word) : SpireGroup :=
  let n := BitVec.ofNat 16 (fld w.toNat 32 16)
  let m := BitVec.ofNat 22 (fld w.toNat 0 22)
  if n = 0 then { g with arrived := 0, staged := none, n := 0 }
  else if g.arrived = 0 then { g with n := n, mask := m, staged := none }
  else { g with staged := some (n, m) }

/-- Does the group admit an arrival of the core: is it enabled, with the core's cluster or die in MASK (R253)? -/
def SpireGroup.admits (g : SpireGroup) (group core : Nat) : Bool :=
  g.n != 0 && g.mask.getLsbD (if group < 64 then clusterOf core % 22 else dieOf core)

namespace State

/-- The root of a group as a core's messages reach it: of the core's die for groups 0-63, of the package for the rest (R251). -/
def spireRoot (s : State) (core g : Nat) : SpireGroup := if g < 64 then tget {} (s.die (dieOf core)).spire g else tget {} s.spire g

def setSpireRoot (s : State) (core g : Nat) (v : SpireGroup) : State :=
  if g < 64 then s.modDie (dieOf core) fun d => { d with spire := tset d.spire g v } else { s with spire := tset s.spire g v }

/-- A group's state reaches the mirror of a cluster node (R255). -/
def mirrorUpdate (s : State) (cluster g : Nat) : State :=
  s.modCluster cluster fun c => { c with mirror := tset c.mirror g (s.spireRoot (4 * cluster) g) }

/-- A group's state reaches the mirrors of every cluster node that its root serves (R251, R255). -/
def mirrorAll (s : State) (core g : Nat) : State :=
  (if g < 64 then (List.range 22).map (fun k => dieOf core * 22 + k) else List.range 88).foldl (fun s k => s.mirrorUpdate k g) s

/-- The oldest message of a core reaches its root (R252, R253). (Open points: DEDUCED, log 43.) -/
def spireDeliver (s : State) (core : Nat) : State :=
  match (s.coreAt core).spireOut with
  | [] => s
  | m :: rest =>
    let s := s.modCoreAt core fun c => { c with spireOut := rest }
    let g := s.spireRoot core m.group
    match m.value with
    | some w => s.setSpireRoot core m.group (g.configure w)
    | none =>
      let ok := g.admits m.group core
      let s := if ok then s.setSpireRoot core m.group g.arrive else s
      if m.dest = 0 then s
      else s.modCoreAt core fun c => { c with flight := c.flight ++ [⟨max 1 m.left, .x m.dest (if ok then g.gen else BitVec.allOnes 64)⟩] }

/-- The oldest message of a core reaches its root, and the group's state the mirrors (R255). (Open points: DEDUCED, log 43.) -/
def spireApply (s : State) (core : Nat) : State :=
  match (s.coreAt core).spireOut with
  | [] => s
  | m :: _ => (s.spireDeliver core).mirrorAll core m.group

/-- Every message of the current core reaches its root, and the groups' states the mirrors (R255). (Open points: DEDUCED, log 43.) -/
def spireFlush (s : State) : State :=
  s.core.spireOut.foldl (fun s _ => s.spireApply s.coreId) s

/-- One advancing cycle of the messages' latencies (R253); the roots are reached within the bounds of R255. (Open points: DEDUCED, log 43.) -/
def spireTick (s : State) : State :=
  let s := s.modCore fun c => { c with spireOut := c.spireOut.map fun m => { m with left := m.left - 1 } }
  if s.core.spireOut.any fun m => decide (m.left ≤ (if m.group < 64 then 34 else 102)) then s.spireFlush else s

end State

end Sys2Proof.Machine
end

