-- ==== Sys2Proof/Machine/Sha.lean ====
section
/-! DEFINITION. SHA-384 of FIPS 180-4, which the spec names for measurements, digests and journal hashes (R336, R344, R352, R360, R361, R381, R401). -/

namespace Sys2Proof.Machine

/-- The first eighty primes. -/
def shaPrimes : List Nat :=
  [2, 3, 5, 7, 11, 13, 17, 19, 23, 29, 31, 37, 41, 43, 47, 53, 59, 61, 67, 71] ++
  [73, 79, 83, 89, 97, 101, 103, 107, 109, 113, 127, 131, 137, 139, 149, 151, 157, 163, 167, 173] ++
  [179, 181, 191, 193, 197, 199, 211, 223, 227, 229, 233, 239, 241, 251, 257, 263, 269, 271, 277, 281] ++
  [283, 293, 307, 311, 313, 317, 331, 337, 347, 349, 353, 359, 367, 373, 379, 383, 389, 397, 401, 409]

/-- Integer cube root, bit by bit. -/
def cbrtBits (n : Nat) : Nat → Nat → Nat
  | 0, r => r
  | k + 1, r => let t := r + 2 ^ k; cbrtBits n k (if t * t * t ≤ n then t else r)

/-- Round constants: the first 64 bits of the fractional parts of the cube roots of the first eighty primes. -/
def shaK : List Nat := shaPrimes.map fun p => cbrtBits (p * 2 ^ 192) 68 0 % 2 ^ 64

/-- Initial value: the first 64 bits of the fractional parts of the square roots of the ninth to sixteenth primes. -/
def shaInit : List Nat := ((shaPrimes.drop 8).take 8).map fun p => isqrt (p * 2 ^ 128) % 2 ^ 64

/-- Rotation to the right of a 64-bit word. -/
def rotr64 (n x : Nat) : Nat := x / 2 ^ n + x % 2 ^ n * 2 ^ (64 - n)

/-- The message schedule, newest word first: extend sixteen words to eighty. -/
def shaExtend : Nat → List Nat → List Nat
  | 0, w => w
  | k + 1, w =>
    let w2 := w.getD 1 0
    let w7 := w.getD 6 0
    let w15 := w.getD 14 0
    let w16 := w.getD 15 0
    let s0 := rotr64 1 w15 ^^^ rotr64 8 w15 ^^^ w15 / 2 ^ 7
    let s1 := rotr64 19 w2 ^^^ rotr64 61 w2 ^^^ w2 / 2 ^ 6
    shaExtend k ((w16 + s0 + w7 + s1) % 2 ^ 64 :: w)

/-- The eight working variables. -/
structure ShaVars where
  a : Nat
  b : Nat
  c : Nat
  d : Nat
  e : Nat
  f : Nat
  g : Nat
  h : Nat

/-- One round. -/
def shaRound (v : ShaVars) (kw : Nat) : ShaVars :=
  let s1 := rotr64 14 v.e ^^^ rotr64 18 v.e ^^^ rotr64 41 v.e
  let ch := (v.e &&& v.f) ^^^ ((2 ^ 64 - 1 - v.e) &&& v.g)
  let t1 := v.h + s1 + ch + kw
  let s0 := rotr64 28 v.a ^^^ rotr64 34 v.a ^^^ rotr64 39 v.a
  let maj := (v.a &&& v.b) ^^^ (v.a &&& v.c) ^^^ (v.b &&& v.c)
  ⟨(t1 + s0 + maj) % 2 ^ 64, v.a, v.b, v.c, (v.d + t1) % 2 ^ 64, v.e, v.f, v.g⟩

/-- The big-endian value of bytes. -/
def beNat (bs : List Byte) : Nat := bs.foldl (fun a b => a * 256 + b.toNat) 0

/-- The words of a block of 128 bytes, first word first. -/
def blockWords : Nat → List Byte → List Nat
  | 0, _ => []
  | n + 1, bs => beNat (bs.take 8) :: blockWords n (bs.drop 8)

/-- One block. -/
def shaBlock (st : List Nat) (bs : List Byte) : List Nat :=
  let w := (shaExtend 64 (blockWords 16 bs).reverse).reverse
  let v0 : ShaVars := ⟨st.getD 0 0, st.getD 1 0, st.getD 2 0, st.getD 3 0, st.getD 4 0, st.getD 5 0, st.getD 6 0, st.getD 7 0⟩
  let v := (List.zipWith (· + ·) shaK w).foldl shaRound v0
  List.zipWith (fun x y => (x + y) % 2 ^ 64) st [v.a, v.b, v.c, v.d, v.e, v.f, v.g, v.h]

/-- All blocks of a padded message. -/
def shaBlocks : Nat → List Nat → List Byte → List Nat
  | 0, st, _ => st
  | n + 1, st, bs => shaBlocks n (shaBlock st (bs.take 128)) (bs.drop 128)

/-- The message with its padding. -/
def shaPad (bs : List Byte) : List Byte :=
  let z := (239 - bs.length % 128) % 128
  bs ++ [0x80] ++ List.replicate z 0 ++ (leBytes 16 (8 * bs.length)).reverse

/-- The 48 bytes of the SHA-384 of a message. (Open points: DESIGN CHOICE, log 86.) -/
def sha384 (bs : List Byte) : List Byte :=
  let p := shaPad bs
  ((shaBlocks (p.length / 128) shaInit p).take 6).flatMap fun w => (leBytes 8 w).reverse

/-- The digest as a register of 48 bytes, byte 0 lowest (R4). -/
def digestOf (bs : List Byte) : Digest := BitVec.ofNat 384 (leNat (sha384 bs))

end Sys2Proof.Machine
end

