-- ==== Sys2Proof/Machine/Journal.lean ====
section
/-! DEFINITION. The journal (spec 13_package.md R344, R345). -/

namespace Sys2Proof.Machine

/-- AHASH: the first 32 bytes of the SHA-384 of the command's argument bytes (R344). -/
def argHash (args : List Byte) : BitVec 256 := BitVec.ofNat 256 (leNat ((sha384 args).take 32))

/-- Write a journal entry (R344). (Open points: DEDUCED, log 59.) -/
def State.journal (s : State) (cmd master result arg0 : Nat) (args : List Byte) : State :=
  s.modRoot fun r =>
    let j := r.journal
    let q := (j.jseq + 1).toNat
    { r with journal := { j with
        jseq := j.jseq + 1
        entries := tset j.entries (q % 65536)
          { seq := q, tick := s.time, cmd := cmd, master := master, result := result, arg0 := arg0, hash := argHash args } } }

/-- A journal entry of the device itself. -/
def State.event (s : State) (cmd result arg0 : Nat) : State := s.journal cmd 0 result arg0 []

/-- The journal entry of an owner's register write (R333, R344). (Open points: DEDUCED, log 59.) -/
def State.command (s : State) (master result off : Nat) (value : Word) : State :=
  s.journal 1 master result off (leBytes 8 value.toNat)

/-- The 64 bytes of an entry (R344). -/
def JEntry.bytes (e : JEntry) : List Byte :=
  leBytes 8 e.seq ++ leBytes 8 e.tick ++ leBytes 2 e.cmd ++ leBytes 1 e.master ++ leBytes 1 e.result ++ leBytes 4 e.arg0 ++
  leBytes 32 e.hash.toNat ++ leBytes 8 0

/-- Entry `q`, unless it has been overwritten or not written (R345). -/
def State.journalEntry? (s : State) (q : Nat) : Option JEntry :=
  (tget? s.root.journal.entries (q % 65536)).filter fun e => e.seq == q

end Sys2Proof.Machine
end

