-- ==== Sys2Proof/Machine/Hbm.lean ====
section
/-! DEFINITION. Stacks, the interleave, row activations, error injection and the retirement trigger (spec 12_hbm.md). -/

namespace Sys2Proof.Machine

/-- Granules that a phase with `n` retirements serves (R314). -/
def capGranules (n : Nat) : Nat := 2 ^ 25 * (16 - n)

/-- The largest d with `f d ≤ k`, by bits from `2^(b-1)` down, above `c`. -/
def searchUp (f : Nat → Nat) (k : Nat) : Nat → Nat → Nat
  | 0, c => c
  | b + 1, c => searchUp f k b (if f (c + 2 ^ b) ≤ k then c + 2 ^ b else c)

/-- Granule number `k` at or above `c` whose stack is not `f`, given the count of granules below a bound on `f` (R314). -/
def nthOther (cnt : Nat → Nat) (c k : Nat) : Nat :=
  searchUp (fun d => (d - c) - (cnt d - cnt c)) k 27 c

/-- How many granules below `g` lie on stack `f`; the list holds the retired stacks, latest first (R314). -/
def stackCount : List Nat → Nat → Nat → Nat
  | [], f, g => (g + 15 - f) / 16
  | r :: rs, f, g =>
    if f = r then 0
    else
      let c := capGranules (rs.length + 1)
      let d := nthOther (stackCount rs r) c (stackCount rs r g)
      stackCount rs f g + (stackCount rs f d - stackCount rs f c)

/-- Map(p, g): stack and offset of a granule after the listed retirements, latest first (R314). -/
def mapGranule : List Nat → Nat → Nat × Nat
  | [], g => (g % 16, g / 16)
  | r :: rs, g =>
    let m := mapGranule rs g
    if m.1 = r then mapGranule rs (nthOther (stackCount rs r) (capGranules (rs.length + 1)) (stackCount rs r g)) else m

/-- CAPLIVE in bytes (R315). -/
def Trav.capLive (t : Trav) : Nat := 2048 * capGranules t.retired.length

/-- Where granule `g` lies now (R320): a granule of the failing stack that the sweep has not reached stays there. (Open points: DEDUCED, log 54.) -/
def Trav.place (t : Trav) (g : Nat) : Nat × Nat :=
  let now := mapGranule t.retired.reverse g
  match t.state with
  | .idle => now
  | .relocate => mapGranule t.retired.reverse.tail g
  | _ =>
    let old := mapGranule t.retired.reverse.tail g
    if old.1 = t.retStack ∧ t.gran ≤ g then old else now

/-- Is a physical address served (R315)? -/
def Trav.serves (t : Trav) (pa : Nat) : Bool :=
  decide (pa < t.capLive) ||
  (t.state == .relocate && decide (pa < 2048 * capGranules (t.retired.length - 1)))

/-- DETAIL of DATA_LOST (R315). -/
def Trav.lastRetired (t : Trav) : Nat := t.retired.getLast?.getD 0xFF

/-- Rows at distances 1 and 2 in the same bank that exist (R326); a row is bits [24:10] of the offset. -/
def neighbourRows (o : Nat) : Nat :=
  let r := o / 1024
  (if 1 ≤ r then 1 else 0) + (if 2 ≤ r then 1 else 0) + (if r + 1 < 32768 then 1 else 0) + (if r + 2 < 32768 then 1 else 0)

/-- Raise an alert for a row: refresh management and the hold of its bank (R326). -/
def Ctrl.alert (c : Ctrl) (o now : Nat) : Ctrl :=
  { c with
    alerts := BitVec.ofNat 32 (satAdd 32 c.alerts.toNat 1)
    lastAlert := some (BitVec.ofNat 25 o)
    counts := terase c.counts o
    opened := terase c.opened (o % 1024)
    rfms := BitVec.ofNat 32 (satAdd 32 c.rfms.toNat (neighbourRows o))
    holds := tset c.holds (o % 1024) now }

/-- A request waits for the hold of its bank; the answer holds the tick at which it is served (R326). -/
def Ctrl.waitHold (c : Ctrl) (o now : Nat) : Ctrl × Nat :=
  match tget? c.holds (o % 1024) with
  | none => (c, now)
  | some t =>
    let free := t + c.trfm.toNat
    if now < free then ({ c with boReq := c.boReq + 1, boTicks := c.boTicks + BitVec.ofNat 32 (free - now) }, free)
    else ({ c with holds := terase c.holds (o % 1024) }, now)

/-- The activation counters are cleared once a new refresh window has begun (R326). -/
def Ctrl.enterWindow (c : Ctrl) (n : Nat) : Ctrl := if c.window < n then { c with window := n, counts := [] } else c

/-- Refresh windows of 3,200,000 ticks since package reset (R326). -/
def State.refreshWindow (s : State) : Nat := (s.time - s.root.resetAt) / 3200000

/-- Ticks within which every bank is refreshed, which closes its row (R325). -/
def refreshTicks : Nat := 390

/-- Is the row of offset `o` open at a tick (R325)? -/
def Ctrl.rowOpen (c : Ctrl) (o now : Nat) : Bool :=
  match tget? c.opened (o % 1024) with
  | some (r, t) => r == o / 1024 && decide (now < t + refreshTicks)
  | none => false

/-- A request to the row of offset `o` opens it unless it is open, and counts the activation; `inject` raises an alert for the row whatever its count
(R325, R326, R328). -/
def Ctrl.request (c : Ctrl) (o now : Nat) (inject : Bool := false) : Ctrl :=
  let (c, now) := c.waitHold o now
  if c.rowOpen o now then (if inject then c.alert o now else c)
  else
    let n := satAdd 16 (tget 0 c.counts o) 1
    let c := { c with opened := tset c.opened (o % 1024) (o / 1024, now), counts := tset c.counts o n }
    if inject || (c.mgmtth != 0 && decide (c.mgmtth.toNat ≤ n)) then c.alert o now else c

/-- Start a retirement of stack `f` (R317, from IDLE). -/
def State.startRetire (s : State) (f : Nat) : State :=
  (s.modTrav fun t => { t with
    retired := t.retired ++ [f], state := .relocate, retStack := f, result := 0, done := 0, listGo := false, listIdx := 0 }).event 8 0 f

/-- A trigger for stack `f` (R317). -/
def State.trigger (s : State) (f : Nat) : State :=
  let t := s.trav
  if t.retired.contains f || t.pend == some f || decide (16 - t.retired.length - (if t.pend.isSome then 1 else 0) < 13) then
    s.modTrav fun t => { t with result := 2 }
  else if t.state == .idle then s.startRetire f
  else if t.pend.isSome then s.modTrav fun t => { t with result := 2 }
  else s.modTrav fun t => { t with pend := some f, result := 1 }

/-- A corrected read of stack `f`: CECNT advances and may trigger a retirement (R317, R324). (Open points: DESIGN CHOICE, log 90.) -/
def State.corrected (s : State) (f : Nat) : State :=
  let n := satAdd 32 (tget 0 s.trav.cecnt f) 1
  let s := s.modTrav fun t => { t with cecnt := tset t.cecnt f n }
  if s.trav.auto ∧ s.trav.ceth ≠ 0 ∧ n = s.trav.ceth.toNat then s.trigger f else s

/-- A request for physical address `pa` reaches its controller (R325). -/
def State.request (s : State) (pa : Nat) (inject : Bool := false) : State :=
  let pl := s.trav.place (pa / 2048)
  s.modCtrl pl.1 fun c => (c.enterWindow s.refreshWindow).request pl.2 s.time inject

/-- Does the armed error fire on a read of `pa` (R328)? `walk`: a page walk's read of an entry. (Open points: DESIGN CHOICE, log 90.) -/
def Trav.fires (t : Trav) (pa : Nat) (walk : Bool) : Bool :=
  t.injArm && t.injAddr == pa / 64 * 64 && (t.injType != 2 || walk)

/-- What one read of a 64-byte block meets. -/
inductive Ecc where
  | good
  | parity
  | bad
  deriving DecidableEq, Repr

/-- A read of the 64-byte block of `pa` reaches its controller: the row, and the armed error (R325, R328). (Open points: DESIGN CHOICE, log 90.) -/
def State.readBlock (s : State) (pa : Nat) (walk : Bool) : State × Ecc :=
  let fires := s.trav.fires pa walk
  let f := (s.trav.place (pa / 2048)).1
  let s := s.request pa (fires && s.trav.injType == 3)
  let lost := s.mem.bad.any fun b => b == pa / 64 * 2 || b == pa / 64 * 2 + 1
  if fires then
    let s := s.modTrav fun t => { t with injArm := false, injFired := true }
    match s.trav.injType.toNat with
    | 0 => (s.corrected f, if lost then .bad else .good)
    | 1 => (s, .bad)
    | 2 => (s, if lost then .bad else .parity)
    | _ => (s, if lost then .bad else .good)
  else (s, if lost then .bad else .good)

/-- The stack that holds `pa`. -/
def State.stackOf (s : State) (pa : Nat) : Nat := (s.trav.place (pa / 2048)).1

/-- The cause of an uncorrectable unprotected read: DATA_LOST on the failing stack while it is being retired, else MEM_UNCORRECTABLE
(R10, R322). -/
def State.lossCode (s : State) (pa : Nat) : BitVec 8 :=
  if s.trav.state ≠ .idle ∧ s.stackOf pa = s.trav.retStack then 0x13 else 0x0A

end Sys2Proof.Machine
end

