-- ==== Sys2Proof/Machine/Home.lean ====
section
/-! DEFINITION. Home memory: windows, the page-table walk, reads and writes at home (spec 10_memory_model.md R264, R276; 11_translation_scheduling.md
R289 to R295; 12_hbm.md R315, R319, R322; 16_coding_groups.md R406, R407). -/

namespace Sys2Proof.Machine

/-- Permissions that an access needs (R290). -/
inductive Perm where
  | rd | w | rdw | x
  deriving DecidableEq, Repr

/-- What the issuing unit makes of a virtual address (R290). -/
structure Access where
  ia : Nat
  win : Nat
  inc : BitVec 16
  deriving DecidableEq, Repr

/-- Does the window admit the access? Bits of AWnA: 3 X, 2 W, 1 RD (R289). -/
def Window.permits (a : Window) : Perm → Bool
  | .rd => a.a.getLsbD 1
  | .w => a.a.getLsbD 2
  | .rdw => a.a.getLsbD 1 && a.a.getLsbD 2
  | .x => a.a.getLsbD 3

def Window.vbase (a : Window) : Nat := fld a.v.toNat 16 41
def Window.len (a : Window) : Nat := fld a.l.toNat 0 41
def Window.ibase (a : Window) : Nat := fld a.i.toNat 16 41

/-- Does the window cover the address (R290)? -/
def Window.covers (a : Window) (va : Nat) : Bool :=
  a.a.getLsbD 0 && a.len != 0 && decide (a.vbase * 65536 ≤ va) && decide (va < (a.vbase + a.len) * 65536)

/-- The lowest-numbered window that covers `va`, whatever its permissions. -/
def Ctx.cover? (c : Ctx) (va : Nat) : Option Nat :=
  if va / 2 ^ 57 = 0 then [0, 1, 2, 3, 4, 5, 6, 7].find? fun w => (tget {} c.aws w).covers va else none

/-- Translation through the windows (R290). -/
def Ctx.translate? (c : Ctx) (va : Nat) (p : Perm) : Option Access :=
  match c.cover? va with
  | none => none
  | some w =>
    let a := tget {} c.aws w
    if a.permits p then some ⟨a.ibase * 65536 + (va - a.vbase * 65536), w, BitVec.ofNat 16 (fld a.a.toNat 16 16)⟩ else none

/-- Does [va, va + n) lie in one window that grants the permission (R350, R405)? -/
def Ctx.rangeIn? (c : Ctx) (va n : Nat) (p : Perm) : Option Access :=
  match c.translate? va p, c.translate? (va + n - 1) p with
  | some a, some b => if a.win = b.win ∧ b.ia = a.ia + n - 1 then some a else none
  | _, _ => none

/-- Device and local offset of an intermediate address (R290). -/
def devOf (ia : Nat) : Nat := ia / 2 ^ 50 % 128
def offOf (ia : Nat) : Nat := ia % 2 ^ 50

/-- Is the address in roaming space (R367)? -/
def roaming (ia : Nat) : Bool := ia.testBit 49

/-- The frame of this device's roaming pool that holds the page of `ia` (R367). (Open points: DEDUCED, log 69.) -/
def State.poolFrame? (s : State) (ia : Nat) : Option Nat :=
  (s.fabric.pool.find? fun kv => kv.2 == ia / 65536).map Prod.fst

/-- The device that holds an address: for a roaming page its holder as this device knows it (R290, R367). -/
def State.holderOf (s : State) (ia : Nat) : Nat :=
  if roaming ia then
    (if (s.poolFrame? ia).isSome then s.devNum
     else if devOf ia = s.devNum then
       (match tget? s.fabric.directory (ia / 65536) with
        | some e => e.holder
        | none => s.devNum)
     else tget (devOf ia) s.fabric.holders (ia / 65536))
  else devOf ia

/-- Is the access remote (R362)? -/
def State.isRemote (s : State) (ia : Nat) : Bool := s.holderOf ia != s.devNum

/-- The outcome of a walk (R293). -/
inductive Walk where
  /-- physical address, and was the translation missing from the TLB? -/
  | page (pa : Nat) (miss : Bool)
  | invalid (level : Nat)
  | absent
  | integrity (level : Nat)
  /-- at or above CAPLIVE (R315) -/
  | lost
  deriving DecidableEq, Repr

/-- The exclusive-OR of the low `n` bits. -/
def parityBits : Nat → Nat → Bool
  | 0, _ => false
  | n + 1, x => xor (x % 2 == 1) (parityBits n (x / 2))

/-- Decode an entry of a level (R292). -/
def pteOf (level x : Nat) : Option Pte :=
  let e : Pte := ⟨bitAt x 8, bitAt x 10, bitAt x 9, bitAt x 11, fld x 16 32 * 65536⟩
  if parityBits 128 x then none
  else if !e.val then some e
  else if fld x 48 16 != 0 || fld x 12 4 != 0 || fld x 0 8 != 0 || fld x 65 63 != 0 then none
  else if (level == 0 && !e.leaf) || (level == 2 && e.leaf) || (level == 1 && e.leaf && fld x 16 9 != 0) then none
  else some e

/-- Bytes of home at a physical address. -/
def Mem.bytes (m : Mem) (pa n : Nat) : List Byte := (List.range n).map fun i => cget m.cells (pa + i)

/-- What the read of a page-table entry comes to (R293, R295, R315). -/
inductive PteRead where
  | entry (e : Pte)
  | integrity
  | lost
  deriving DecidableEq, Repr

/-- TRPAR advances (R294). -/
def State.countParity (s : State) (d : Nat) : State := s.modDie d fun e => { e with trpar := BitVec.ofNat 32 (satAdd 32 e.trpar.toNat 1) }

/-- One read of an entry: `none` when it is uncorrectable, `some none` when it fails parity (R292, R328). -/
def State.readPteOnce (s : State) (pa level : Nat) : State × Option (Option Pte) :=
  let r := s.readBlock pa true
  (r.1, match r.2 with
    | .bad => none
    | .good => some (pteOf level (leNat (r.1.mem.bytes pa 16)))
    | .parity => some none)

/-- A critical leaf is read twice, and twice more when the two reads do not agree (R295). -/
def State.readCritical (s : State) (d pa level : Nat) (a : Option Pte) : State × PteRead :=
  let (s, b) := s.readPteOnce pa level
  match a, b with
  | _, none => (s, .integrity)
  | some x, some (some y) => if x = y then (s, .entry x) else (s, .integrity)
  | _, some _ =>
    let (s, c) := s.readPteOnce pa level
    let (s, e) := s.readPteOnce pa level
    match c, e with
    | some (some x), some (some y) => if x = y then (s.countParity d, .entry x) else (s, .integrity)
    | _, _ => (s, .integrity)

/-- Read an entry of the table: a critical leaf by R295, another entry once more when it fails parity (R293, R295). (Open points: DEDUCED, log 54.) -/
def State.readPte (s : State) (d pa level : Nat) : State × PteRead :=
  if !s.trav.serves pa then (s, .lost)
  else
    let x := leNat (s.mem.bytes pa 16)
    let (s, a) := s.readPteOnce pa level
    match a with
    | none => (s, .integrity)
    | some p =>
      if level != 2 && bitAt x 8 && bitAt x 10 && bitAt x 11 then s.readCritical d pa level p
      else
        match p with
        | some e => (s, .entry e)
        | none =>
          let (s, b) := (s.countParity d).readPteOnce pa level
          (s, match b with
            | some (some e) => .entry e
            | _ => .integrity)

/-- Keep at most `n` entries that satisfy `p`, the first ones, and every other. -/
def capBy {α : Type} (p : α → Bool) : Nat → List α → List α
  | _, [] => []
  | n, x :: xs =>
    if p x then
      match n with
      | 0 => capBy p 0 xs
      | n + 1 => x :: capBy p n xs
    else x :: capBy p n xs

/-- The bits of a local offset above the reach of an entry of a level (R291). -/
def walkTag (level off : Nat) : Nat := if level = 2 then off / 2 ^ 34 else off / 2 ^ 25

/-- The walk-cache entry of a controller for an offset (R293). -/
def Die.cached? (x : Die) (c level off : Nat) : Option WalkEntry :=
  x.wcache.find? fun w => w.ctrl == c && w.level == level && w.tag == walkTag level off

/-- The translating controller of an offset (R293): by bits [49:16], or by bits [49:25] where the controller so chosen holds a 32 MiB page in its walk
cache. (Open points: DEDUCED, log 99.) -/
def Die.translator (x : Die) (off : Nat) : Nat :=
  let c := off / 2 ^ 16 % 4
  if (x.cached? c 1 off).any fun w => w.pte.leaf then off / 2 ^ 25 % 4 else c

/-- A walk-cache entry is filled: 512 for each controller, the newest stay; an invalid entry or an absent page is not kept (R293). (Open points: DEDUCED,
log 99.) -/
def Die.keep (x : Die) (w : WalkEntry) : Die :=
  if w.pte.val && (!w.pte.leaf || w.pte.res) then
    { x with wcache := capBy (fun e => e.ctrl == w.ctrl) 512 (w :: x.wcache.filter fun e => !(e.ctrl == w.ctrl && e.level == w.level && e.tag == w.tag)) }
  else x

/-- An entry of level 2 or 1 of the walk of `off`, from the walk cache of controller `c` or from memory at `pa` (R293). -/
def State.walkEntry (s : State) (d c pa level off : Nat) : State × PteRead :=
  let load := fun s : State =>
    match s.readPte d pa level with
    | (s, .entry e) => (s.modDie d fun x => x.keep { ctrl := c, level := level, tag := walkTag level off, pte := e }, .entry e)
    | r => r
  match (s.die d).cached? c level off with
  | some w => if w.good then (s, .entry w.pte) else load ((s.countParity d).modDie d fun x => { x with wcache := x.wcache.erase w })
  | none => load s

/-- The walk of the three levels at controller `c` (R291, R293), with the page size of the result. -/
def State.walkTable (s : State) (d c off : Nat) : State × Walk × Bool :=
  if !s.root.ptroot.getLsbD 0 then (s, .invalid 2, false)
  else
    let root := fld s.root.ptroot.toNat 20 28 * 2 ^ 20
    match s.walkEntry d c (root + 16 * fld off 34 16) 2 off with
    | (s, .lost) => (s, .lost, false)
    | (s, .integrity) => (s, .integrity 2, false)
    | (s, .entry p2) =>
      if !p2.val then (s, .invalid 2, false)
      else
        match s.walkEntry d c (p2.pa + 16 * fld off 25 9) 1 off with
        | (s, .lost) => (s, .lost, false)
        | (s, .integrity) => (s, .integrity 1, false)
        | (s, .entry p1) =>
          if !p1.val then (s, .invalid 1, false)
          else if p1.leaf then
            (if p1.res then (s, .page (p1.pa + fld off 0 25) true, true) else (s, .absent, true))
          else
            match s.readPte d (p1.pa + 16 * fld off 16 9) 0 with
            | (s, .lost) => (s, .lost, false)
            | (s, .integrity) => (s, .integrity 0, false)
            | (s, .entry p0) =>
              if !p0.val then (s, .invalid 0, false)
              else if p0.res then (s, .page (p0.pa + fld off 0 16) true, false) else (s, .absent, false)

/-- Follow the page that the traverse is copying (R319). -/
def Trav.follow (t : Trav) (pa : Nat) : Nat :=
  if t.listGo ∧ t.relSize ≠ 0 ∧ t.relOld ≤ pa ∧ pa < t.relOld + 2048 * t.relSize ∧ (pa - t.relOld) / 2048 < t.pagePtr
  then t.relNew + (pa - t.relOld) else pa

/-- Only a served physical address is a place in memory (R315). -/
def State.served (s : State) (w : Walk) : Walk :=
  match w with
  | .page pa m => if s.trav.serves (s.trav.follow pa) then .page (s.trav.follow pa) m else .lost
  | w => w

/-- Does a TLB entry of controller `c` cover an offset (R293)? -/
def TlbEntry.hits (e : TlbEntry) (c off : Nat) : Bool := e.ctrl == c && (if e.big then e.page == off / 2 ^ 25 else e.page == off / 2 ^ 16)

/-- A walk that the TLB of controller `c` could not serve; its result takes an entry of the 4,096 (R293). -/
def State.walkMiss (s : State) (d c off : Nat) : State × Walk :=
  let (s, w, big) := s.walkTable d c off
  match w with
  | .page pa _ =>
    let n := if big then 25 else 16
    (s.modDie d fun e => { e with tlb := capBy (fun x => x.ctrl == c) 4096 ({ ctrl := c, page := off / 2 ^ n, big := big, pa := pa / 2 ^ n * 2 ^ n } :: e.tlb) }, s.served w)
  | _ => (s, w)

/-- Translation of an intermediate address of this device at the memory side, for a request of die `d` (R293): an entry whose parity fails is
invalidated, and the walk is repeated. -/
def State.walk (s : State) (d ia : Nat) : State × Walk :=
  let off := offOf ia
  match s.poolFrame? ia with
  | some f => (s, s.served (.page ((s.fabric.roamCfg.toNat / 65536 + f) * 65536 + fld off 0 16) false))
  | none =>
    let c := (s.die d).translator off
    match (s.die d).tlb.find? fun e => e.hits c off with
    | some e =>
      if e.good then (s, s.served (.page (e.pa + (if e.big then fld off 0 25 else fld off 0 16)) false))
      else ((s.countParity d).modDie d fun x => { x with tlb := x.tlb.erase e }).walkMiss d c off
    | none => s.walkMiss d c off

/-- Invalidate the TLB and walk-cache entries of a die for [off, off + size), `size` being that of a page (R294, R319). -/
def Die.invalidate (x : Die) (off size : Nat) : Die :=
  let meets := fun base len : Nat => decide (base < off + size) && decide (off < base + len)
  { x with
    tlb := x.tlb.filter fun e => !(if e.big then meets (e.page * 2 ^ 25) (2 ^ 25) else meets (e.page * 2 ^ 16) (2 ^ 16))
    wcache := x.wcache.filter fun w => !(if w.level = 2 then meets (w.tag * 2 ^ 34) (2 ^ 34) else meets (w.tag * 2 ^ 25) (2 ^ 25)) }

/-- The next stamp of the package release clock (R264). -/
def State.takeStamp (s : State) : State × Nat := (s.modMem fun m => { m with clock := m.clock + 1 }, s.mem.clock)

/-- Does the slot protect the intermediate address: a registration in force (R404)? The result is the group offset. -/
def GSlot.covers? (g : GSlot) (ia : Nat) : Option Nat :=
  (g.regs.find? fun r => decide (r.ia ≤ ia) && decide (ia < r.ia + r.len)).map fun r => r.goff + (ia - r.ia)

/-- The group slot that protects an address, with its group offset (R404). -/
def State.protector? (s : State) (ia : Nat) : Option (Nat × Nat) :=
  (s.groups.find? fun kv => kv.2.cfg.en && (kv.2.covers? ia).isSome).bind fun kv => (kv.2.covers? ia).map fun g => (kv.1, g)

/-- Members of a group that are not declared dead, this device apart (R407). -/
def GSlot.otherLive (g : GSlot) : Nat :=
  let n := g.cfg.k.toNat + g.cfg.m.toNat
  ((List.range n).filter fun i => i != g.cfg.myidx.toNat && !(g.dead.getLsbD i)).length

/-- Can a committed byte of the slot be reconstructed (R407)? -/
def GSlot.canReconstruct (g : GSlot) (ia : Nat) : Bool :=
  g.state != .failed && decide (g.cfg.k.toNat ≤ g.otherLive) &&
  (tget? g.committed (offOf ia / 128)).isNone

/-- A read of the 64-byte block that holds `ia` at home: true when its data is lost to the reader (R10, R407). The reconstruction of a
committed granule is its committed bytes, which the controller writes back. -/
def State.touch (s : State) (ia pa : Nat) : State × Bool :=
  let (s, e) := s.readBlock pa false
  if e = .bad then
    match s.protector? ia with
    | some (g, _) =>
      if (s.group g).canReconstruct ia then
        (s.modMem fun m => { m with bad := m.bad.filter fun b => b / 4 != pa / 128 }, false)
      else (s, true)
    | none => (s, true)
  else (s, false)

/-- Touch every 64-byte block of [pa, pa + n); true when one is lost. -/
def State.touchRange (s : State) (ia pa : Nat) : Nat → State × Bool
  | 0 => s.touch ia pa
  | k + 1 =>
    let (s, b) := s.touchRange ia pa k
    let a := (pa / 64 + k + 1) * 64
    let (s, c) := s.touch (ia + (a - pa)) a
    (s, b || c)

/-- Read `n` bytes at home (n > 0): `none` when uncorrectable and not reconstructed. -/
def State.homeRead (s : State) (ia pa n : Nat) : State × Option (List Byte) :=
  let (s, lost) := s.touchRange ia pa ((pa + n - 1) / 64 - pa / 64)
  (s, if lost then none else some (s.mem.bytes pa n))

/-- One byte at home: the write of greatest stamp stays (R276). -/
def Mem.putByte (m : Mem) (pa : Nat) (b : Byte) (stamp : Nat) : Mem :=
  if tget 0 m.stamps pa ≤ stamp then { m with cells := cset m.cells pa b, stamps := tset m.stamps pa stamp } else m

/-- The bytes of a list at rising addresses. -/
def Mem.putBytes (m : Mem) (stamp : Nat) : Nat → List Byte → Mem
  | _, [] => m
  | pa, b :: bs => Mem.putBytes (m.putByte pa b stamp) stamp (pa + 1) bs

/-- The images and staged deltas that the round buffer of a slot holds (R406). -/
def GSlot.bufferUsed (g : GSlot) : Nat := g.opened.length + g.closed.length + g.staged.length
def GSlot.bufferRoom (g : GSlot) (n : Nat) : Bool :=
  decide ((g.bufferUsed + n) * 144 ≤ fld g.cfg.roundbuf.toNat 0 12 * 2 ^ 20)

/-- Must a write to `ia` wait for the round buffer (R406)? -/
def State.imageWait (s : State) (ia : Nat) : Bool :=
  match s.protector? ia with
  | some (g, _) => (tget? (s.group g).opened (offOf ia / 128)).isNone && !(s.group g).bufferRoom 1
  | none => false

/-- Before the first write of a round to a protected granule its committed bytes are set apart (R406). (Open points: DESIGN CHOICE, log 87.) -/
def State.openImage (s : State) (ia pa : Nat) : State :=
  match s.protector? ia with
  | some (g, goff) =>
    let k := offOf ia / 128
    let base := pa / 128 * 128
    let im : Image := ⟨base, goff / 128 * 128, s.mem.bytes base 128⟩
    s.modGroup g fun x => { x with
      opened := if (tget? x.opened k).isSome then x.opened else tset x.opened k { im with data := [] }
      committed := if (tget? x.committed k).isSome then x.committed else tset x.committed k im }
  | none => s

/-- 32-byte blocks that [pa, pa + n) covers only in part. -/
def partBlocks (pa n : Nat) : List Nat :=
  (if pa % 32 ≠ 0 ∨ n < 32 then [pa / 32] else []) ++ (if (pa + n) % 32 ≠ 0 then [(pa + n) / 32] else [])

/-- Write bytes at home inside one coding granule, with a stamp (R264, R276, R322, R406), within the request that is at the controller: false when
the write failed because the rest of an uncorrectable word could not be read. -/
def State.homePut (s : State) (ia pa : Nat) (bs : List Byte) (stamp : Nat) : State × Bool :=
  let blocks := partBlocks pa bs.length
  let lost := s.mem.bad.any fun b => blocks.contains b
  let recon := match s.protector? ia with
    | some (g, _) => (s.group g).canReconstruct ia
    | none => false
  if lost && !recon then (s, false)
  else
    let s := s.openImage ia pa
    (s.modMem fun m =>
      let m := m.putBytes stamp pa bs
      { m with bad := m.bad.filter fun b => decide (b * 32 + 32 ≤ pa / 32 * 32) || decide (pa + bs.length ≤ b * 32) }, true)

/-- A write at home as a request of its own (R325). -/
def State.homeWrite (s : State) (ia pa : Nat) (bs : List Byte) (stamp : Nat) : State × Bool := (s.request pa).homePut ia pa bs stamp

/-- A write of the device at home that takes its own stamp: piecewise over the pages and granules of the range (R421). -/
def State.homeStore (s : State) (ia pa : Nat) (bs : List Byte) : State × Bool :=
  let (s, st) := s.takeStamp
  let head := 128 - pa % 128
  let rec go : Nat → State → Nat → Nat → List Byte → State × Bool
    | 0, s, _, _, _ => (s, true)
    | f + 1, s, ia, pa, bs =>
      if bs.isEmpty then (s, true)
      else
        let n := 128 - pa % 128
        let (s, ok) := s.homeWrite ia pa (bs.take n) st
        let (s, ok') := go f s (ia + n) (pa + n) (bs.drop n)
        (s, ok && ok')
  go ((bs.length + 127 - head) / 128 + 2) s ia pa bs

end Sys2Proof.Machine
end

