-- ==== Sys2Proof/Machine/Aes.lean ====
section
/-! DEFINITION. AES-256 in Galois/Counter mode, which the spec names for the frames of the fabric (spec 14_fabric.md R356, R359). Its operations are those of
FIPS 197 and NIST SP 800-38D. (Open points: PRESUMED, log 100.) -/

namespace Sys2Proof.Machine

/-- Twice a byte of the field of AES. -/
def aesDouble (b : Nat) : Nat := (b * 2) % 256 ^^^ (if 128 ≤ b then 0x1B else 0)

/-- The product of two bytes of the field of AES, over the low `n` bits of the first. -/
def aesMul : Nat → Nat → Nat → Nat
  | 0, _, _ => 0
  | n + 1, a, b => (if a % 2 = 1 then b else 0) ^^^ aesMul n (a / 2) (aesDouble b)

/-- A byte raised to the power `2 ^ n - 1`. -/
def aesPow : Nat → Nat → Nat
  | 0, _ => 1
  | n + 1, b => let p := aesPow n b; aesMul 8 b (aesMul 8 p p)

/-- The substitution of a byte: its inverse, the power 254, and the affine map. -/
def aesSub (b : Nat) : Nat :=
  let p := aesPow 7 b
  let i := aesMul 8 p p
  let rot := fun n : Nat => (i * 2 ^ n) % 256 + i * 2 ^ n / 256
  i ^^^ rot 1 ^^^ rot 2 ^^^ rot 3 ^^^ rot 4 ^^^ 0x63

/-- The substitution of every byte. -/
def aesBox : List Nat := (List.range 256).map aesSub

def aesByte (b : Nat) : Nat := aesBox.getD b 0

/-- Two lists of bytes added. -/
def xorNats (a b : List Nat) : List Nat := List.zipWith (· ^^^ ·) a b

/-- The words of the key schedule, newest first: word `i` is made next. -/
def aesExpand : Nat → Nat → List (List Nat) → List (List Nat)
  | 0, _, w => w
  | n + 1, i, w =>
    let t := w.headD []
    let t := if i % 8 = 0 then xorNats ((t.drop 1 ++ t.take 1).map aesByte) [2 ^ (i / 8 - 1), 0, 0, 0]
      else if i % 8 = 4 then t.map aesByte else t
    aesExpand n (i + 1) (xorNats (w.getD 7 []) t :: w)

/-- The fifteen round keys of a 32-byte key. -/
def aesKeys (key : List Nat) : List (List Nat) :=
  let w := (aesExpand 52 8 ((List.range 8).map fun i => (key.drop (4 * i)).take 4).reverse).reverse
  (List.range 15).map fun r => ((w.drop (4 * r)).take 4).flatten

/-- Row `r` moves by `r` columns. -/
def aesRows (b : List Nat) : List Nat := (List.range 16).map fun i => b.getD ((i + 4 * (i % 4)) % 16) 0

/-- Each column is multiplied by the polynomial of MixColumns. -/
def aesMix (b : List Nat) : List Nat :=
  (List.range 16).map fun i =>
    let at4 := fun k : Nat => b.getD (i / 4 * 4 + (i + k) % 4) 0
    aesDouble (at4 0) ^^^ (aesDouble (at4 1) ^^^ at4 1) ^^^ at4 2 ^^^ at4 3

/-- The rounds of a block under the round keys that are left. -/
def aesRounds : List (List Nat) → List Nat → List Nat
  | [], b => b
  | [k], b => xorNats (aesRows (b.map aesByte)) k
  | k :: ks, b => aesRounds ks (xorNats (aesMix (aesRows (b.map aesByte))) k)

/-- One block of 16 bytes under the round keys. -/
def aesBlock (keys : List (List Nat)) (b : List Nat) : List Nat := aesRounds keys.tail (xorNats b (keys.headD []))

/-- The big-endian number of some bytes, and the `n` bytes of a number. -/
def beNum (bs : List Nat) : Nat := bs.foldl (fun a b => a * 256 + b) 0
def beBytes (n v : Nat) : List Nat := (List.range n).map fun i => v / 2 ^ (8 * (n - 1 - i)) % 256

/-- The product of GHASH: the bits of `x` that are left, highest first. -/
def ghashMul : Nat → Nat → Nat → Nat → Nat
  | 0, _, _, z => z
  | n + 1, x, v, z => ghashMul n x (if v % 2 = 1 then (v / 2) ^^^ (0xE1 * 2 ^ 120) else v / 2) (if x.testBit n then z ^^^ v else z)

/-- Bytes filled with zeros to whole blocks. -/
def padBlocks (bs : List Nat) : List Nat := bs ++ List.replicate (alignUp 16 bs.length - bs.length) 0

/-- GHASH of whole blocks. -/
def ghash (h : Nat) (bs : List Nat) : Nat :=
  (List.range (bs.length / 16)).foldl (fun y i => ghashMul 128 (y ^^^ beNum ((bs.drop (16 * i)).take 16)) h 0) 0

/-- The counter-mode stream of a nonce over some bytes: it encrypts and decrypts. -/
def gcmStream (keys : List (List Nat)) (nonce bs : List Nat) : List Nat :=
  (List.range ((bs.length + 15) / 16)).flatMap fun i => xorNats ((bs.drop (16 * i)).take 16) (aesBlock keys (nonce ++ beBytes 4 (i + 2)))

/-- The tag over authenticated bytes and ciphertext. -/
def gcmTag (keys : List (List Nat)) (nonce aad ct : List Nat) : Nat :=
  let h := beNum (aesBlock keys (List.replicate 16 0))
  ghash h (padBlocks aad ++ padBlocks ct ++ beBytes 8 (8 * aad.length) ++ beBytes 8 (8 * ct.length)) ^^^ beNum (aesBlock keys (nonce ++ [0, 0, 0, 1]))

/-- Bytes as numbers, and back. -/
def natBytes (bs : List Byte) : List Nat := bs.map BitVec.toNat
def ofNatBytes (bs : List Nat) : List Byte := bs.map (BitVec.ofNat 8)

/-- The 96-bit nonce of a frame: the plane, zeros, and the stream's frame count under its key (R359). -/
def frameNonce (plane count : Nat) : List Nat := beBytes 12 (plane * 2 ^ 88 + count % 2 ^ 32)

/-- The payload of a frame, encrypted or decrypted, and the tag over its header and its ciphertext (R359). -/
def frameCipher (key : BitVec 256) (plane count : Nat) (payload : List Byte) : List Byte :=
  ofNatBytes (gcmStream (aesKeys (beBytes 32 key.toNat)) (frameNonce plane count) (natBytes payload))
def frameTag (key : BitVec 256) (plane count : Nat) (header ct : List Byte) : BitVec 128 :=
  BitVec.ofNat 128 (gcmTag (aesKeys (beBytes 32 key.toNat)) (frameNonce plane count) (natBytes header) (natBytes ct))

end Sys2Proof.Machine
end

