-- ==== Sys2Proof/Machine/Links.lean ====
section
/-! DEFINITION. Wavelengths, frames, streams, paths, and sending to another device (spec 14_fabric.md R354 to R359, R364, R365). -/

namespace Sys2Proof.Machine

/-- The wavelength on which device `d` reaches device `e` (R354). -/
def wavelength (d e : Nat) : Nat := (e + 128 - d % 128) % 128

/-- Where light that leaves a port of device `d` on a wavelength arrives: the port and the device (R354). -/
def grating (port d lambda : Nat) : Nat × Nat := (port, (d + lambda) % 128)

/-- The stream to a device on a plane. -/
def State.stream (s : State) (plane dev : Nat) : Stream := tget {} s.fabric.streams (plane * 128 + dev)

def State.modStream (s : State) (plane dev : Nat) (f : Stream → Stream) : State :=
  s.modFabric fun b => { b with streams := tmod {} b.streams (plane * 128 + dev) f }

/-- Does the direct stream to a device on a plane carry data (R357, R361)? -/
def State.liveStream (s : State) (plane dev : Nat) : Bool := (s.port plane).state == .run && !(s.stream plane dev).dead

/-- Does it carry SPDM and management frames (R360, R361)? -/
def State.openStream (s : State) (plane dev : Nat) : Bool :=
  ((s.port plane).state == .locked || (s.port plane).state == .run) && !(s.stream plane dev).dead

/-- The planes with a live direct stream to a device. -/
def State.livePlanes (s : State) (dev : Nat) : List Nat := (List.range 8).filter fun p => s.liveStream p dev

/-- Has a device a live direct stream? -/
def State.liveDirect (s : State) (dev : Nat) : Bool := (List.range 8).any fun p => s.liveStream p dev

/-- Is there a route for data to a device, direct or through a relay (R338, R360, R365)? -/
def State.routed (s : State) (dev : Nat) : Bool :=
  (s.peer dev).state == .up && decide (3 ≤ s.root.stage.stage) &&
  (s.liveDirect dev || (match (s.peer dev).relay with
    | some r => s.liveDirect r
    | none => false))

/-- Note since when each peer has had no route (R366, R375). -/
def State.noteRoutes (s : State) : State :=
  s.modFabric fun f => { f with peers := f.peers.map fun kv => (kv.1, { kv.2 with lost := if s.routed kv.1 then none else some (kv.2.lost.getD s.time) }) }

/-- Has a device had no route for REROUTE.TICKS, counted from `t` at the earliest (R366, R375)? -/
def State.unroutedFor (s : State) (dev t : Nat) : Bool :=
  !s.routed dev && decide (max t ((s.peer dev).lost.getD 0) + s.fabric.reroute.toNat ≤ s.time)

/-! ### Frames (R356, R359) -/

/-- The 16 bytes of a header. -/
def frameHeader (f : Frame) : List Byte :=
  [f.cls, f.flits] ++ leBytes 2 f.sseq.toNat ++ leBytes 4 f.pseq.toNat ++ [f.src, f.dst] ++ leBytes 2 f.mbz.toNat ++ leBytes 4 f.ack.toNat

/-- Everything before the CRC-32C. -/
def frameBody (f : Frame) : List Byte := frameHeader f ++ f.payload ++ ((f.tag.map fun t => leBytes 16 t.toNat).getD [])

/-- Does the CRC-32C hold? -/
def frameCrcOk (f : Frame) : Bool := crc32c (frameBody f) == f.crc.toNat

/-- Is the device's link under the session's keys: is link encryption on, and the session UP (R359, R360)? -/
def State.keyed (s : State) (dev : Nat) : Bool := s.fabric.enc && (s.peer dev).state == .up

/-- The frame that carries `w` next on a stream: a frame for another device than the stream's goes through a relay (R356, R359, R365). (Open points: DEDUCED,
log 65.) -/
def State.frameFor (s : State) (plane hop : Nat) (w : Wire) : Frame :=
  let t := s.stream plane hop
  let p := s.peer hop
  let key := Config.trafficKey p.session false p.txGen
  let f : Frame := {
    cls := BitVec.ofNat 8 (if w.dst = hop then w.cls else 5), flits := BitVec.ofNat 8 (w.payload.length / 32), sseq := BitVec.ofNat 16 t.sseq
    pseq := BitVec.ofNat 32 w.pseq, src := BitVec.ofNat 8 (w.src % 128 + if s.keyed hop then p.txGen % 2 * 128 else 0), dst := BitVec.ofNat 8 (w.dst % 128)
    mbz := 0, ack := BitVec.ofNat 32 t.rxNext, payload := w.payload, tag := none, crc := 0, fec := true, nak := none }
  let f := if s.keyed hop then
      let f := { f with payload := frameCipher key plane t.frames w.payload }
      { f with tag := some (frameTag key plane t.frames (frameHeader f) f.payload) }
    else f
  { f with crc := BitVec.ofNat 32 (crc32c (frameBody f)) }

/-- A new sending key: its phase bit, and frame counts from 0 (R359). -/
def State.newKey (s : State) (dev : Nat) : State :=
  (s.modPeer dev fun p => { p with txGen := p.txGen + 1, txFrames := 0 }).modFabric fun f => { f with
    streams := f.streams.map fun kv => (kv.1, if kv.1 % 128 = dev then { kv.2 with frames := 0 } else kv.2) }

/-- Put a frame on a stream: it leaves, and waits for its acknowledgement; with 64 unacknowledged it waits for room, and without a live stream for one
(R354, R356, R357). A new key is taken before 2^32 frames have gone under the old one (R359). -/
def State.putFrame (s : State) (plane hop : Nat) (w : Wire) : State :=
  if 64 ≤ (s.stream plane hop).retry.length ∨ !s.openStream plane hop then s.modStream plane hop fun t => { t with queue := t.queue ++ [w] }
  else
    let s := if s.keyed hop ∧ 2 ^ 32 ≤ (s.peer hop).txFrames + 1 then s.newKey hop else s
    let f := s.frameFor plane hop w
    ((s.modStream plane hop fun t => { t with
      sseq := (t.sseq + 1) % 65536, frames := t.frames + 1, retry := t.retry ++ [⟨w, f, 0⟩], since := if t.retry.isEmpty then s.time else t.since }).modPeer hop
        fun p => { p with txFrames := p.txFrames + 1 }).send (.frame plane (wavelength s.devNum hop) f)

/-! ### Messages (R356, R359, R363 to R365) -/

/-- The code of an SPDM request; its answer has the same without bit 7. (Open points: PRESUMED, log 64.) -/
def SpdmStep.code : SpdmStep → Nat
  | .getVersion => 0x84
  | .getCapabilities => 0xE1
  | .negotiateAlgorithms => 0xE3
  | .getCertificate => 0x82
  | .getMeasurements => 0xE0
  | .keyExchange => 0xE4
  | .finish => 0xE5
  | .keyUpdate => 0xE9

/-- The requests of the exchange, in order (R359). -/
def spdmSteps : List SpdmStep := [.getVersion, .getCapabilities, .negotiateAlgorithms, .getCertificate, .getMeasurements, .keyExchange, .finish]

/-- The algorithms that a session negotiates, and no others (R359). -/
def sessionAlgorithms : List Algorithm := [.ecdsaP384, .sha384, .ecdheSecp384r1, .aes256Gcm]

/-- The class of the frames of a message (R356). (Open points: DEDUCED, log 65.) -/
def OutMsg.cls : OutMsg → Nat
  | .request _ _ _ _ (.records _) => 2
  | .request _ _ _ _ _ => 0
  | .reply _ _ _ => 1
  | .spdm _ _ _ _ => 6
  | _ => 3

/-- The data bytes that a request carries. -/
def opBytes : ReqOp → Nat
  | .records rs => (rs.map fun r => r.2.length).foldl (· + ·) 0
  | .amo _ _ => 8
  | .cas _ _ => 16
  | .ccadd _ => 8
  | _ => 0

/-- The data bytes of a message. (Open points: DEDUCED, log 65.) -/
def OutMsg.bytes : OutMsg → Nat
  | .request _ _ _ _ op => opBytes op
  | .reply _ _ (.value bs) => bs.length
  | .element _ _ _ e => 4 * e.lanes.length
  | .contribution _ _ _ _ _ d => d.length
  | .result _ _ _ _ d _ => d.length
  | .lap _ _ _ d => d.length
  | .delta _ _ d => d.data.length
  | .share _ _ d => d.data.length
  | .page _ _ d => d.length
  | _ => 0

/-- The number of frames that some data bytes take: one at least, of 256 bytes each (R356). (Open points: DEDUCED, log 65.) -/
def frameCount (n : Nat) : Nat := max 1 ((n + 255) / 256)

/-- The payload of a frame of a message, in whole flits, at least one; an SPDM message names its code in byte 1 (R356). (Open points: DESIGN CHOICE, log 65;
PRESUMED, log 64.) -/
def State.payload (s : State) (m : OutMsg) (dst pseq n : Nat) : List Byte :=
  let p := (List.range (32 * max 1 ((min 256 n + 31) / 32))).map fun i => Config.payloadByte s.time dst pseq i
  match m with
  | .spdm _ x a _ => (p.set 0 0x13).set 1 (BitVec.ofNat 8 (if a then x.code - 0x80 else x.code))
  | _ => p

/-- The relays over which payload to a device is spread: up to 15 of the lowest-numbered devices of RELAYMASK with live paths to both ends (R364). -/
def State.sprayRelays (s : State) (dev : Nat) : List Nat :=
  ((List.range 128).filter fun r =>
    r != s.devNum && r != dev && s.fabric.relayMask.getLsbD r && (s.peer r).state == .up && s.liveDirect r && (s.peer r).advert.getLsbD dev).take 15

/-- The paths for a frame to a device, as plane and first hop: for payload that is spread, every live direct stream and every live stream to those relays
(R364); else the lowest live stream to the device, or to its relay (R365); SPDM takes the lowest stream that carries it (R360). (Open points: DESIGN CHOICE,
log 66.) -/
def State.paths (s : State) (dev cls : Nat) (bulk : Bool) : List (Nat × Nat) :=
  if cls = 6 then (((List.range 8).filter fun p => s.openStream p dev).take 1).map fun p => (p, dev)
  else if bulk && s.fabric.spray then (dev :: s.sprayRelays dev).flatMap fun h => (s.livePlanes h).map fun p => (p, h)
  else
    let hop := if s.liveDirect dev then dev else ((s.peer dev).relay).getD dev
    ((s.livePlanes hop).take 1).map fun p => (p, hop)

/-- Send what a frame carries on one of its paths: spread payload takes them in turn; without a path it waits on plane 0 (R364, R365). (Open points: DESIGN
CHOICE, log 66.) -/
def State.putOn (s : State) (bulk : Bool) (w : Wire) : State :=
  let l := s.paths w.dst w.cls bulk
  match l[(s.peer w.dst).spread % max 1 l.length]? with
  | some (k, h) =>
    let s := if bulk then s.modPeer w.dst fun p => { p with spread := p.spread + 1 } else s
    s.putFrame k h (if h = w.dst then w else { w with payload := w.payload.set 0 (BitVec.ofNat 8 w.cls) })
  | none => s.modStream 0 w.dst fun t => { t with queue := t.queue ++ [w] }

/-- The frames of a message, `n` of them left, under the next sequence numbers of the pair (R356, R358). -/
def State.putFrames (s : State) (dev : Nat) (m : OutMsg) (bulk : Bool) : Nat → State
  | 0 => s
  | n + 1 =>
    let p := (s.peer dev).txPseq
    let w : Wire := { cls := m.cls, src := s.devNum, dst := dev, pseq := p, payload := s.payload m dev p (m.bytes - 256 * (frameCount m.bytes - 1 - n)) }
    ((s.modPeer dev fun p => { p with txPseq := (p.txPseq + 1) % 2 ^ 32 }).putOn bulk w).putFrames dev m bulk n

/-- Send to another device: the message, and its frames; `bulk` payload is spread (R358, R364). -/
def State.postAs (s : State) (dev : Nat) (bulk : Bool) (m : OutMsg) : State := (s.send m).putFrames dev m bulk (frameCount m.bytes)

/-- Send to another device; the frames of records are spread (R364). -/
def State.post (s : State) (dev : Nat) (m : OutMsg) : State := s.postAs dev (m.cls == 2) m

end Sys2Proof.Machine
end

