-- ==== Sys2Proof/Machine/View.lean ====
section
/-! DEFINITION. Store logs, the view of a task, release, acquire and compaction (spec 10_memory_model.md; R422 of 11_translation_scheduling.md). -/

namespace Sys2Proof.Machine

/-- What a fault record says (R422). -/
structure FaultInfo where
  ctx : Nat
  launch : Nat := 0
  task : Nat := 0
  cause : Cause
  slot : Nat := 0
  level : Nat := 0
  offered : Bool := true
  graph : Nat := 0
  job : Nat := 0
  tag : Nat := 0
  deriving DecidableEq, Repr

/-- The bytes of fault record `n` (R422). (Open points: DEDUCED, log 50.) -/
def FaultInfo.bytes (f : FaultInfo) (n tick : Nat) : List Byte :=
  leBytes 8 n ++ leBytes 8 tick ++ leBytes 4 f.launch ++ leBytes 4 (f.task % 2 ^ 24) ++ leBytes 8 f.cause.addr.toNat ++
  leBytes 4 f.cause.detail.toNat ++ leBytes 1 f.cause.code.toNat ++ leBytes 1 (f.slot % 8) ++ leBytes 1 f.level ++
  leBytes 1 (if f.offered then 1 else 0) ++ leBytes 4 f.graph ++ leBytes 4 f.job ++ leBytes 2 f.tag ++ leBytes 14 0

/-- Write bytes at a local intermediate address: page by page through the page table alone; the write is lost where no page is. -/
def State.iaStore (s : State) (ia : Nat) (bs : List Byte) : State :=
  let (s, w) := s.walk 0 ia
  match w with
  | .page pa _ => (s.homeStore ia pa bs).1
  | _ => s

/-- Write a fault record into its context's fault ring (R422). (Open points: DEDUCED, log 50.) -/
def State.faultRecord (s : State) (f : FaultInfo) : State :=
  let c := s.ctx f.ctx
  let lg := fld c.faultRing.toNat 0 6
  if lg = 0 then s
  else
    let base := fld c.faultRing.toNat 6 58 * 64
    let s := s.modCtx f.ctx fun c => { c with faultN := c.faultN + 1 }
    s.iaStore (base + 64 * (c.faultN % 2 ^ lg)) (f.bytes c.faultN s.time)

/-! ### Records -/

/-- Log bytes of a record: a 32-byte header and the payload rounded up to 32 bytes (R259). -/
def Rec.size (r : Rec) : Nat := 32 + (r.len + 31) / 32 * 32

/-- Bytes of core `n`'s log in use (R261). (Open points: DESIGN CHOICE, log 24.) -/
def Mem.logUsed (m : Mem) (n : Nat) : Nat := sumList ((m.recs.filter fun r => r.core == n && !r.spilled).map Rec.size)

/-- Bytes of the overflow pool of a die in use (R261). -/
def Mem.poolUsed (m : Mem) (d : Nat) : Nat := sumList ((m.recs.filter fun r => dieOf r.core == d && r.spilled).map Rec.size)

/-- Is the record the bound task's own? -/
def State.own (s : State) (r : Rec) : Bool := r.launch == s.bound.launch && r.index == s.bound.index

/-- U of R266: the bound task's unreleased records, and those of copy jobs that have ended on its core (R282). -/
def State.inU (s : State) (r : Rec) : Bool :=
  r.stamp.isNone && r.core == s.coreId && r.ended && (s.own r || r.copy)

/-- The records that replay and the task's own releases make visible (Wc of R266). -/
def State.replayed (s : State) (r : Rec) : Bool :=
  match r.stamp with
  | none => false
  | some st => s.own r || (dieOf r.core == s.myDie && decide (st ≤ s.bound.vp))

/-- Does a record write bytes of [ia, ia + n)? -/
def Rec.writesIn (r : Rec) (ia n : Nat) : Bool := r.cells.any fun c => decide (ia ≤ c.1) && decide (c.1 < ia + n)

/-- The byte of a record at an intermediate address. -/
def Rec.byte? (r : Rec) (ia : Nat) : Option Byte := tget? r.cells ia

/-- The byte of greatest key among records that write it; of two with one key (one release) the later record, which stands later in the list. -/
def bestByte (key : Rec → Nat) (ia : Nat) : List Rec → Option (Nat × Byte)
  | [] => none
  | r :: rs =>
    match r.byte? ia, bestByte key ia rs with
    | none, b => b
    | some x, none => some (key r, x)
    | some x, some (k, y) => if k < key r then some (key r, x) else some (k, y)

/-- The view-cache line of a 64-byte block. -/
def Core.line? (c : Core) (ia : Nat) : Option VLine := c.vcache.find? fun l => l.ia == ia / 64 * 64

/-- One byte of ViewRead, given what home shows at a moment at or after F; true when the task's own record supplied it (R266, R277). Records of one
release reach home in order, so a record that is still in a log is later than a byte of its release at home; a release is one task's. -/
def State.viewByte (s : State) (ia : Nat) (home : Byte) (homeStamp : Nat) : Byte × Bool :=
  match bestByte Rec.seq ia (s.mem.recs.filter s.inU) with
  | some (_, b) => (b, true)
  | none =>
    match bestByte (fun r => r.stamp.getD 0) ia (s.mem.recs.filter s.replayed) with
    | some (k, b) => if homeStamp ≤ k then (b, s.mem.recs.any fun r => s.own r && r.stamp == some k) else (home, false)
    | none => (home, false)

/-- Is data of the 64-byte block of `ia` uncorrectable at home and out of reach of a reconstruction (R10, R407)? -/
def State.homeLost (s : State) (ia pa : Nat) : Bool :=
  (s.mem.bad.any fun b => b / 2 == pa / 64) &&
  !(match s.protector? ia with
    | some (g, _) => (s.group g).canReconstruct ia
    | none => false)

/-- Lines of a view cache of 512 KiB (R2). A fill of a full cache evicts the line that was filled first. (Open points: DESIGN CHOICE, log 24.) -/
def viewLines : Nat := 8192

/-- Make the view-cache line of `ia` serve the task: a line filled before F reads home again (R266, R277, R325). Answers whether it missed, and
whether the data is lost; a hit reaches no controller, and meets uncorrectable data where home's block is lost (R208). (Open points: DESIGN CHOICE, log 24, 90.) -/
def State.fillLine (s : State) (ia pa : Nat) : State × Bool × Bool :=
  let fresh := match s.core.line? ia with
    | some l => decide (s.bound.vf < l.tick)
    | none => false
  if fresh then (s, false, s.homeLost ia pa)
  else
    let base := ia / 64 * 64
    let pb := pa / 64 * 64
    let (s, lost) := s.touch base pb
    if lost then (s, true, true)
    else
      let marks := match s.core.line? ia with
        | some l => l.marks
        | none => 0
      let l : VLine := { ia := base, data := s.mem.bytes pb 64, stamps := (List.range 64).map fun i => tget 0 s.mem.stamps (pb + i)
                         tick := s.mem.clock, marks := marks }
      (s.modCore fun c => { c with vcache := (l :: c.vcache.filter fun x => x.ia != base).take viewLines }, true, false)

/-- Mark the 8-byte word of `ia` as read (R277). -/
def Core.markRead (c : Core) (ia : Nat) : Core :=
  { c with vcache := modFirst (fun l => l.ia == ia / 64 * 64) (fun l => { l with marks := l.marks ||| BitVec.ofNat 8 (2 ^ (ia % 64 / 8)) }) c.vcache }

/-- Bytes [ia, ia + n) of one line as the task views them, once the line is filled. -/
def State.viewLine (s : State) (ia : Nat) : Nat → State × List Byte
  | 0 => (s, [])
  | n + 1 =>
    let (s, bs) := s.viewLine ia n
    let a := ia + n
    let (hb, hs) := match s.core.line? a with
      | some l => (l.data.getD (a % 64) 0, l.stamps.getD (a % 64) 0)
      | none => (0, 0)
    let (b, mine) := s.viewByte a hb hs
    (if mine then s else s.modCore fun c => c.markRead a, bs ++ [b])

/-- What a read through the view finds. -/
structure ViewGot where
  data : List Byte
  /-- the read missed the view cache -/
  missed : Bool
  lost : Bool
  deriving DecidableEq, Repr

/-- ViewRead of [ia, ia + n) whose physical address is `pa`, inside one 64-byte line. -/
def State.viewRead1 (s : State) (ia pa n : Nat) : State × ViewGot :=
  let (s, missed, lost) := s.fillLine ia pa
  let (s, bs) := s.viewLine ia n
  (s, ⟨bs, missed, lost⟩)

/-- ViewRead of a range inside one page, line by line (R266). -/
def State.viewReadFrom (s : State) (ia pa n : Nat) : Nat → State × ViewGot
  | 0 => (s, ⟨[], false, false⟩)
  | fuel + 1 =>
    if n = 0 then (s, ⟨[], false, false⟩)
    else
      let k := min n (64 - ia % 64)
      let (s, g) := s.viewRead1 ia pa k
      let (s, h) := s.viewReadFrom (ia + k) (pa + k) (n - k) fuel
      (s, ⟨g.data ++ h.data, g.missed || h.missed, g.lost || h.lost⟩)

/-- ViewRead of [ia, ia + n) (R266). -/
def State.viewRead (s : State) (ia pa n : Nat) : State × ViewGot := s.viewReadFrom ia pa n (n / 64 + 2)

/-- A copy-engine read of [ia, ia + n) inside one 64-byte block: it reads home whatever the view cache holds, and takes no line; a line that is
there takes home's bytes, so that no later read of the task goes back (R217, R266, R325). (Open points: DESIGN CHOICE, log 24.) -/
def State.copyRead1 (s : State) (ia pa n : Nat) : State × ViewGot :=
  let base := ia / 64 * 64
  let pb := pa / 64 * 64
  let (s, lost) := s.touch base pb
  let data := s.mem.bytes pb 64
  let stamps := (List.range 64).map fun i => tget 0 s.mem.stamps (pb + i)
  let s := if lost then s
    else s.modCore fun c => { c with vcache := modFirst (fun l => l.ia == base) (fun l => { l with data := data, stamps := stamps }) c.vcache }
  (List.range n).foldl (fun (r : State × ViewGot) i =>
    let a := ia + i
    let (b, mine) := r.1.viewByte a (data.getD (a % 64) 0) (stamps.getD (a % 64) 0)
    (if mine then r.1 else r.1.modCore fun c => c.markRead a, { r.2 with data := r.2.data ++ [b] })) (s, ⟨[], true, lost⟩)

/-- A copy-engine read of a range inside one page (R217). -/
def State.copyRead (s : State) (ia pa n : Nat) : State × ViewGot :=
  let k := min n (64 - ia % 64)
  if k = n then s.copyRead1 ia pa n
  else
    let (s, g) := s.copyRead1 ia pa k
    let (s, h) := s.copyRead1 (ia + k) (pa + k) (n - k)
    (s, ⟨g.data ++ h.data, true, g.lost || h.lost⟩)

/-- The bytes of a remote read, with the task's own records that the target has not applied laid over them (R266). -/
def State.remoteOverlay (s : State) (ia : Nat) (bs : List Byte) : List Byte :=
  let u := s.mem.recs.filter s.inU
  let rel := s.mem.recs.filter fun r => s.own r && r.stamp.isSome
  (List.range bs.length).map fun i =>
    match bestByte Rec.seq (ia + i) u with
    | some (_, b) => b
    | none =>
      match bestByte (fun r => r.stamp.getD 0) (ia + i) rel with
      | some (_, b) => b
      | none => bs.getD i 0

/-! ### Compaction (R276) -/

/-- Refresh one line with bytes of greater stamp that have reached home. -/
def VLine.refresh (l : VLine) (cells : List Host.Cell) (stamp : Nat) : VLine :=
  let hit := fun i => match tget? cells (l.ia + i) with
    | some b => if l.stamps.getD i 0 ≤ stamp then some b else none
    | none => none
  { l with
    data := (List.range 64).map fun i => (hit i).getD (l.data.getD i 0)
    stamps := (List.range 64).map fun i => if (hit i).isSome then stamp else l.stamps.getD i 0 }

/-- Refresh the view caches of the package with a record that has reached home. -/
def State.refreshLines (s : State) (cells : List Host.Cell) (stamp : Nat) : State :=
  let touched := fun (l : VLine) => cells.any fun c => decide (l.ia ≤ c.1) && decide (c.1 < l.ia + 64)
  let f := fun (c : Core) => { c with vcache := c.vcache.map fun l => if touched l then l.refresh cells stamp else l }
  { s with core := f s.core, others := s.others.map fun kv => (kv.1, f kv.2) }

/-- Uncorrectable 32-byte words that the cells cover only in part: such a write fails, for it cannot obtain the other bytes (R322). -/
def State.lostWords (s : State) (ia pa : Nat) (cells : List Host.Cell) : List Nat :=
  if (match s.protector? ia with
    | some (g, _) => (s.group g).canReconstruct ia
    | none => false) then []
  else s.mem.bad.filter fun b => (cells.any fun c => (pa + (c.1 - ia)) / 32 == b) &&
    !((List.range 32).all fun i => cells.any fun c => pa + (c.1 - ia) == 32 * b + i)

/-- Write the bytes of one coding granule with their stamp: `pa` is the physical address of the intermediate `ia`. A word that is written reads well
again, and a write into a part of a lost word fails (R322). -/
def State.homeCells (s : State) (ia pa : Nat) (cells : List Host.Cell) (stamp : Nat) : State :=
  let failed := s.lostWords ia pa cells
  let cells := cells.filter fun c => !failed.contains ((pa + (c.1 - ia)) / 32)
  let s := (s.request pa).openImage ia pa
  s.modMem fun m =>
    let m := { m with bad := m.bad.filter fun b => !(cells.any fun c => (pa + (c.1 - ia)) / 32 == b) }
    cells.foldl (fun m c => m.putByte (pa + (c.1 - ia)) c.2 stamp) m

/-- The cells of a record in one granule of 128 bytes. -/
def granuleCells (cells : List Host.Cell) (g : Nat) : List Host.Cell := cells.filter fun c => c.1 / 128 == g

/-- Apply the cells of one granule of a record at home, and refresh the view caches: false where a page, the round buffer or an uncorrectable word
that it covers in part makes it wait; bytes of a page above the capacity have nowhere to go, and a fault record says so (R276, R315, R322).
(Open points: DESIGN CHOICE, log 90, 99.) -/
def State.applyGranule (s : State) (d : Nat) (r : Rec) (cs : List Host.Cell) : State × Bool :=
  match cs with
  | [] => (s, true)
  | c :: _ =>
    let (s, w) := s.walk d c.1
    match w with
    | .page pa _ =>
      if s.imageWait c.1 || !(s.lostWords c.1 pa cs).isEmpty then (s, false)
      else ((s.homeCells c.1 pa cs (r.stamp.getD 0)).refreshLines cs (r.stamp.getD 0), true)
    | .lost => (s.faultRecord { ctx := r.ctx, launch := r.launch, task := r.index, offered := false
                                cause := { code := 0x13, addr := BitVec.ofNat 64 c.1, detail := BitVec.ofNat 32 s.trav.lastRetired } }, true)
    | _ => (s, false)

/-- Granules of 128 bytes that cells touch. -/
def cellGranules (cells : List Host.Cell) : List Nat := (cells.map fun c => c.1 / 128).eraseDups

/-- Apply the granules of a record at home but those that an earlier record of the same granule blocks: the granules that are left (R276). -/
def State.applyGranules (s : State) (d : Nat) (r : Rec) (blocked : List Nat) : List Nat → State × List Nat
  | [] => (s, [])
  | g :: gs =>
    let (s, ok) := if blocked.contains g then (s, false) else s.applyGranule d r (granuleCells r.cells g)
    let (s, left) := s.applyGranules d r blocked gs
    (s, if ok then left else g :: left)

/-- Remove a record from its log. -/
def Mem.drop (m : Mem) (r : Rec) : Mem :=
  { m with recs := m.recs.filter fun x => !(x.core == r.core && x.seq == r.seq) }

/-- Change a record in its log. -/
def Mem.modRec (m : Mem) (r : Rec) (f : Rec → Rec) : Mem :=
  { m with recs := m.recs.map fun x => if x.core == r.core && x.seq == r.seq then f x else x }

/-- The address that a request carries: a roaming page keeps the name of its registry (R363, R367). -/
def wireAddr (ia : Nat) : Nat := if roaming ia then ia else offOf ia

/-- An access of this device to a roaming page of another holder is counted for 100 µs (R368). -/
def State.noteAccess (s : State) (addr : Nat) : State :=
  if roaming addr then
    s.modFabric fun f => { f with accesses := tmod [] f.accesses (addr / 65536) fun l => s.time :: l.filter fun t => decide (s.time < t + 10000) }
  else s

/-- Send a request to another device (R358, R363). -/
def State.sendReq (s : State) (dev addr : Nat) (inc : BitVec 16) (op : ReqOp) : State :=
  (s.noteAccess addr).post dev (.request dev (s.peer dev).txPseq addr inc op)

/-- A record for another device whose incarnation has changed is discarded: it is counted, and a fault record says so (R363). -/
def State.discardGone (s : State) (r : Rec) (dev : Nat) : State :=
  let p := s.peer dev
  let s := s.modPeer dev fun p => { p with dropped := BitVec.ofNat 32 (satAdd 32 p.dropped.toNat 1) }
  let s := s.faultRecord { ctx := r.ctx, launch := r.launch, task := r.index, offered := false
                           cause := { code := 0x0B, addr := BitVec.ofNat 64 r.addr, detail := BitVec.ofNat 32 p.inc.toNat } }
  s.modMem fun m => m.drop r

/-- Compact one released record: at home here, or by sending it to the device that holds its target, whose answer says that it has been applied
(R260, R276, R363). `blocked` are the granules on which an earlier record waits; the answer holds also those of this record when it waits, and says
whether it left the log. What a granule has received is not written again. (Open points: DEDUCED, log 34.) -/
def State.compactRec (s : State) (r : Rec) (blocked : List Nat) : State × List Nat × Bool :=
  let stamp := r.stamp.getD 0
  let dev := s.holderOf r.addr
  if dev = s.devNum then
    let (s, left) := s.applyGranules (dieOf r.core) r blocked (cellGranules r.cells)
    if left.isEmpty then (s.modMem fun m => m.drop r, blocked, true)
    else (s.modMem fun m => m.modRec r fun x => { x with cells := r.cells.filter fun c => left.contains (c.1 / 128) }, left ++ blocked, false)
  else
    let p := s.peer dev
    if p.state = .up ∧ p.inc ≠ r.inc then (s.discardGone r dev, blocked, true)
    else if p.state = .up ∧ !r.sent then
      ((s.modMem fun m => m.modRec r fun x => { x with sent := true }).sendReq dev (wireAddr r.addr) r.inc (.records [(stamp, r.cells)]), blocked, false)
    else (s, blocked, false)

/-- Compact a list of records in turn, counting those that left their logs; a granule on which one waits keeps its order (R276). -/
def State.compactList (s : State) (blocked : List Nat) : List Rec → State × Nat
  | [] => (s, 0)
  | r :: rs =>
    let (s, b, ok) := s.compactRec r blocked
    let (s, n) := s.compactList b rs
    (s, n + ok.toNat)

/-- Do two records touch one 64-byte granule? -/
def Rec.touches (a b : Rec) : Bool := decide (a.addr / 64 ≤ (b.addr + b.len - 1) / 64) && decide (b.addr / 64 ≤ (a.addr + a.len - 1) / 64)

/-- Released records in stamp order, and by sequence number within a stamp. -/
def Mem.released (m : Mem) : List Rec := sortBy (fun r => r.stamp.getD 0) (sortBy Rec.seq (m.recs.filter fun r => r.stamp.isSome))

/-- The released records that satisfy `p`, with those of smaller stamp that touch a granule of theirs (R276). -/
def Mem.compactible (m : Mem) (p : Rec → Nat → Bool) : List Rec :=
  m.released.foldr (fun r acc => if p r (r.stamp.getD 0) || acc.any r.touches then r :: acc else acc) []

/-- Compact every released record that satisfies `p`, in stamp order (R276). (Open points: DEDUCED, log 34.) -/
def State.compact (s : State) (p : Rec → Nat → Bool) : State × Nat := s.compactList [] (s.mem.compactible p)

/-- Every record of a die with stamp at most `b`. -/
def State.compactDie (s : State) (d b : Nat) : State × Nat := s.compact fun r st => dieOf r.core == d && decide (st ≤ b)

/-! ### Log room (R261) -/

/-- Compact the given records of core `n` in turn while more than 384 KiB of its log are in use; one that waits does not keep later ones (R261). -/
def State.drainList (s : State) (n : Nat) : List Rec → State
  | [] => s
  | r :: rs =>
    if s.mem.logUsed n ≤ 384 * 1024 then s
    else ((s.compact fun x _ => x.core == r.core && x.seq == r.seq).1).drainList n rs

/-- The resurfacer compacts the oldest released records of core `n` whenever more than 384 KiB of its log are in use (R261, R276). -/
def State.drainLog (s : State) (n : Nat) : State :=
  if s.mem.logUsed n ≤ 384 * 1024 then s
  else s.drainList n (s.mem.released.filter fun r => r.core == n && !r.spilled)

/-- Move the task's oldest unreleased records to the overflow pool until `size` bytes fit the log (R261). -/
def State.spill (s : State) (size : Nat) : Nat → State
  | 0 => s
  | f + 1 =>
    if s.mem.logUsed s.coreId + size ≤ 512 * 1024 then s
    else
      match s.mem.recs.find? fun r => r.core == s.coreId && r.stamp.isNone && !r.spilled && s.own r with
      | none => s
      | some r =>
        if s.mem.poolUsed s.myDie + r.size ≤ 64 * 2 ^ 20 then
          (s.modMem fun m => { m with recs := m.recs.map fun x => if x.core == r.core && x.seq == r.seq then { x with spilled := true } else x }).spill size f
        else s

/-- Make room for a record; false when neither the log nor the pool has any (R261). -/
def State.logRoom (s : State) (size : Nat) : State × Bool :=
  let n := s.mem.recs.length + 1
  let s := (s.drainLog s.coreId).spill size n
  (s, decide (s.mem.logUsed s.coreId + size ≤ 512 * 1024))

/-- Append a record to the current core's log (R259, R260). -/
def State.append (s : State) (ia len : Nat) (cells : List Host.Cell) (copy : Bool) (inc : BitVec 16) : State :=
  let s := (s.modCore fun c => { c with seq := c.seq + 1 }).modTask fun b => { b with lastSeq := (s.core.seq + 1).toNat }
  s.modMem fun m => { m with recs := m.recs ++
    [{ core := s.coreId, ctx := s.bound.ctx, launch := s.bound.launch, index := s.bound.index, seq := s.core.seq.toNat,
       addr := ia, len := len, cells := cells, copy := copy, inc := inc }] }

/-- Discard the bound task's unreleased records of this core that satisfy `p`. -/
def State.discard (s : State) (p : Rec → Bool) : State :=
  s.modMem fun m => { m with recs := m.recs.filter fun r => !(r.core == s.coreId && r.stamp.isNone && s.own r && p r) }

/-! ### Release and acquire (R264, R270 to R279) -/

/-- Does a release of the bound task cover the record (R271)? -/
def State.covers (s : State) (r : Rec) : Bool := r.stamp.isNone && r.core == s.coreId && s.own r && r.ended

/-- Aligned 8-byte words that the records write, by intermediate address / 8. -/
def wordsOf (rs : List Rec) : List Nat := sortBy id ((rs.flatMap fun r => r.cells.map fun c => c.1 / 8).eraseDups)

/-- The records become released with a stamp, and the task's read marks are cleared (R271, R277). -/
def State.release (s : State) (stamp : Nat) : State :=
  let top := (s.mem.recs.filter s.covers).foldl (fun n r => max n r.seq) 0
  let s := s.modMem fun m => { m with recs := m.recs.map fun r => if s.covers r then { r with stamp := some stamp } else r }
  (s.modCore fun c => { c with vcache := c.vcache.map fun l => { l with marks := 0 } }).modTask fun b =>
    { b with lastRel := stamp, relSeq := max b.relSeq top }

/-- The physical address of an intermediate address of this device, without a trace. -/
def State.peekPa? (s : State) (ia : Nat) : Option Nat :=
  match (s.walk s.myDie ia).2 with
  | .page pa _ => some pa
  | _ => none

/-- The controller that keeps the owner of a word of this device (R278). (Open points: DEDUCED, log 89.) -/
def State.ownerCtrl (s : State) (word : Nat) : Option Nat := if s.isRemote (8 * word) then none else (s.peekPa? (8 * word)).map s.stackOf

/-- The owner entry of a word. -/
def State.ownerOf (s : State) (word : Nat) : Option Owner :=
  (s.ownerCtrl word).bind fun c => (s.ctrl c).owners.find? fun o => o.granule == word / 8 && o.words.getLsbD (word % 8)

/-- The word is owned by another task of this package whose stamp is above A (R278). (Open points: DEDUCED, log 89.) -/
def State.ownerConflict (s : State) (word : Nat) : Option Nat :=
  match s.ownerOf word with
  | some o =>
    if !o.remote && !(o.launch == s.bound.launch && o.index == s.bound.index) && decide (s.bound.va < o.stamp) then some o.index else none
  | none => none

/-- A word of the write-owner table takes a new owner (R278). (Open points: DEDUCED, log 89.) -/
def State.putOwner (s : State) (word : Nat) (o : Owner) : State :=
  match s.ownerCtrl word with
  | none => s
  | some c =>
    s.modCtrl c fun x =>
      let bit := BitVec.ofNat 8 (2 ^ (word % 8))
      let same := fun e : Owner => e.granule == word / 8 && e.launch == o.launch && e.index == o.index && e.stamp == o.stamp && e.remote == o.remote
      let rest := (x.owners.map fun e => if e.granule == word / 8 && !same e then { e with words := e.words &&& ~~~bit } else e).filter fun e => e.words != 0
      if rest.any same then { x with owners := rest.map fun e => if same e then { e with words := e.words ||| bit } else e }
      else { x with owners := (if 32768 ≤ rest.length then rest.drop 1 else rest) ++ [{ o with granule := word / 8, words := bit }] }

/-- Give a word to the bound task with a stamp (R278, R279). (Open points: DEDUCED, log 89.) -/
def State.takeOwner (s : State) (word stamp : Nat) : State :=
  s.putOwner word { granule := 0, words := 0, launch := s.bound.launch, index := s.bound.index, stamp := stamp }

/-- Words of a list that conflict, each with the other task's index. -/
def State.conflicts (s : State) (ws : List Nat) : List (Nat × Nat) :=
  ws.filterMap fun w => (s.ownerConflict w).map fun i => (w, i)

/-- The MM_RACE cause of R279. -/
def raceCause (kind word other : Nat) : Cause :=
  { code := 0x05, addr := BitVec.ofNat 64 (word / 8 * 64), detail := BitVec.ofNat 32 (kind * 2 ^ 24 + other % 2 ^ 24) }

/-- CheckWriteOwners and, when it passes, the covered records' release with a fresh stamp (R271, R278, R279). -/
def State.releasePart (s : State) : State × Nat × Option Cause :=
  let ws := wordsOf (s.mem.recs.filter s.covers)
  match s.conflicts ws with
  | (w, i) :: rest =>
    let s := ((w, i) :: rest).foldl (fun s c => s.takeOwner c.1 s.bound.va) s
    (s, 0, some (raceCause 2 w i))
  | [] =>
    let (s, st) := s.takeStamp
    let s := ws.foldl (fun s w => s.takeOwner w st) s
    (s.release st, st, none)

/-- The die whose sync home keeps a variable: that of the word's stack (R270). -/
def State.syncDie (s : State) (pa : Nat) : Nat := s.stackOf pa / 4

/-- Compact a die up to a stamp: true when nothing of it waits (R276). -/
def State.forceDie (s : State) (d stamp : Nat) : State × Bool :=
  let s := (s.compactDie d stamp).1
  (s, !(s.mem.recs.any fun r => dieOf r.core == d && (match r.stamp with
    | some st => decide (st ≤ stamp)
    | none => false)))

/-- Ask a source that is another device to compact what it has released on a variable: true once it has answered, or holds no session with this
device (R270, R272). (Open points: DEDUCED, log 33.) -/
def State.forceDevice (s : State) (dev ia : Nat) : State × Bool :=
  match s.fabric.forces.find? fun f => f.dev == dev && f.ia == ia, (s.peer dev).state with
  | some f, _ => if f.done then (s.modFabric fun x => { x with forces := x.forces.filter fun g => g != f }, true) else (s, false)
  | none, .up =>
    ((s.modFabric fun x => { x with forces := x.forces ++ [{ dev := dev, ia := ia }] }).sendReq dev (wireAddr ia) (s.peer dev).inc .force, false)
  | none, .none => (s, true)
  | none, .refused => (s, true)
  | none, _ => (s, false)

/-- Force the compaction of a source of a variable up to a stamp: true when nothing waits (R270, R272). -/
def State.forceSource (s : State) (ia src stamp : Nat) : State × Bool := if src < 4 then s.forceDie src stamp else s.forceDevice (src - 4) ia

/-- Force every source of a variable: true when nothing waits. -/
def State.forceAll (s : State) (ia : Nat) : List (Nat × Nat) → State × Bool
  | [] => (s, true)
  | (src, st) :: rest =>
    let (s, ok) := s.forceSource ia src st
    let (s, ok') := s.forceAll ia rest
    (s, ok && ok')

/-- Room for one more source of a variable: of 8 the lowest-numbered is dropped, once its compaction is done (R270). -/
def State.sourceRoom (s : State) (d ia src : Nat) : State × Bool :=
  match (s.die d).sync.find? fun v => v.ia == ia with
  | none => (s, true)
  | some v =>
    match v.sources with
    | (k, st) :: _ =>
      if v.sources.length < 8 ∨ (tget? v.sources src).isSome then (s, true)
      else
        match s.forceSource ia k st with
        | (s, true) => (s.modDie d fun x => { x with sync := modFirst (fun v => v.ia == ia) (fun v => { v with sources := terase v.sources k }) x.sync }, true)
        | (s, false) => (s, false)
    | [] => (s, true)

/-- Record the latest release stamp of a source on a variable (R270). -/
def State.latest (s : State) (d ia src stamp : Nat) : State :=
  s.modDie d fun x =>
    if x.sync.any fun v => v.ia == ia then
      { x with sync := modFirst (fun v => v.ia == ia) (fun v => { v with sources := tset v.sources src stamp }) x.sync }
    else { x with sync := x.sync ++ [{ ia := ia, sources := [(src, stamp)] }] }

/-- The first of some variables whose sources have all been compacted is dropped from a sync home; false when each has a record that waits. -/
def State.dropVar (s : State) (d : Nat) : List SyncVar → State × Bool
  | [] => (s, false)
  | v :: vs =>
    match s.forceAll v.ia v.sources with
    | (s, true) => (s.modDie d fun x => { x with sync := x.sync.filter fun w => w.ia != v.ia }, true)
    | (s, false) => s.dropVar d vs

/-- Room at a die's sync home for a release of a source on a variable: 16,384 variables and 8 sources each; a drop waits for the compaction that it
forces (R270). -/
def State.syncRoom (s : State) (d ia src : Nat) : State × Bool :=
  if (s.die d).sync.any fun v => v.ia == ia then s.sourceRoom d ia src
  else if (s.die d).sync.length < 16384 then (s, true)
  else s.dropVar d (s.die d).sync

/-- Words of records that the task has marked as read, with the writer's index (R277). -/
def State.markConflicts (s : State) (rs : List Rec) : List (Nat × Nat) :=
  sortBy Prod.fst ((rs.filter fun r => !s.own r).flatMap fun r =>
    (r.cells.filter fun c => match s.core.line? c.1 with
      | some l => l.marks.getLsbD (c.1 % 64 / 8)
      | none => false).map fun c => (c.1 / 8, r.index))

/-- F := now (R265): a moment of the release clock, which every write at home and every fill of a line can be told from. -/
def State.freshen (s : State) : State :=
  let (s, st) := s.takeStamp
  s.modTask fun b => { b with vf := st }

/-- How an acquire part ends. -/
inductive Acq where
  | done
  | race (c : Cause)
  /-- a compaction that it forces is not complete -/
  | wait
  deriving DecidableEq, Repr

/-- The released records of a die with a stamp from `lo` + 1 to `hi`. -/
def Mem.releasedIn (m : Mem) (d lo hi : Nat) : List Rec := m.recs.filter fun r => match r.stamp with
  | some st => dieOf r.core == d && decide (lo < st) && decide (st ≤ hi)
  | none => false

/-- Acquire from one source (R272): the own die's records are checked and P rises; another source compacts, its records are checked, and F := now. For a
variable of another device (`far`) this device is such a source. (Open points: DEDUCED, log 33.) -/
def State.acquireFrom (s : State) (ia : Nat) (far : Bool) (src stamp : Nat) : State × Acq :=
  let own := src == s.myDie && !far
  match s.markConflicts (s.mem.releasedIn src (if own then s.bound.vp else 0) stamp) with
  | x :: _ => (if own then s else (s.forceSource ia src stamp).1, .race (raceCause 1 x.1 x.2))
  | [] =>
    if own then (s.modTask fun b => { b with vp := max b.vp stamp }, .done)
    else
      match s.forceSource ia src stamp with
      | (s, true) => (s.freshen, .done)
      | (s, false) => (s, .wait)

/-- Acquire from each source in turn, stopping at a race or a wait. -/
def State.acquireAll (s : State) (ia : Nat) (far : Bool) : List (Nat × Nat) → State × Acq
  | [] => (s, .done)
  | (src, st) :: rest =>
    match s.acquireFrom ia far src st with
    | (s, .done) => s.acquireAll ia far rest
    | r => r

/-- The acquire part on the sources of the variable `ia` (R272): the own die first; an eager scope reads afresh, A rises, and a race clears the marks
(R279). Stamps of another device are not compared: A then rises to the present (R264, R280). (Open points: DEDUCED, log 33.) -/
def State.acquirePart (s : State) (ia : Nat) (far : Bool) (sources : Tab Nat) (eager : Bool) : State × Acq :=
  match s.acquireAll ia far ((sources.filter fun kv => kv.1 == s.myDie) ++ sources.filter fun kv => kv.1 != s.myDie) with
  | (s, .done) =>
    let s := if eager || far || sources.isEmpty then s.freshen else s
    (s.modTask fun b => { b with va := if far || sources.any (fun kv => 4 ≤ kv.1) then max b.va s.mem.clock
                                       else sources.foldl (fun a kv => max a kv.2) b.va }, .done)
  | (s, .race c) => (s.modCore fun k => { k with vcache := k.vcache.map fun l => { l with marks := 0 } }, .race c)
  | (s, .wait) => (s, .wait)

/-- The sources that the sync home of a die keeps for a variable. -/
def State.sourcesOf (s : State) (d ia : Nat) : Tab Nat :=
  match (s.die d).sync.find? fun v => v.ia == ia with
  | some v => v.sources
  | none => []

/-- Is a scope eager (R267)? -/
def Scope.eager : Scope → Bool
  | .host | .network | .system => true
  | _ => false

/-- May a variable at this scope lie on another device (R267)? -/
def Scope.remoteOk : Scope → Bool
  | .peer | .domain | .group | .network | .system => true
  | _ => false

end Sys2Proof.Machine
end

