-- ==== Sys2Proof/Machine/Chans.lean ====
section
/-! DEFINITION. The channel table: opening, pairing, breaking, closing, elements and credits in flight (spec 15_collectives_network.md R372 to R380). -/

namespace Sys2Proof.Machine

def Chan.lanes (c : Chan) : Nat := fld c.ctl.toNat 11 7 + 1
def Chan.ty (c : Chan) : Nat := fld c.ctl.toNat 8 3
def Chan.proto (c : Chan) : Bool := c.ctl.getLsbD 2
def Chan.recv (c : Chan) : Bool := c.ctl.getLsbD 1
def Chan.depth (c : Chan) : Nat := fld c.ctl.toNat 18 6 + 1
def Chan.rank (c : Chan) : Nat := fld c.ctl.toNat 24 8
def Chan.kind (c : Chan) : Nat := fld c.peer.toNat 40 2
def Chan.dev (c : Chan) : Nat := fld c.peer.toNat 32 7
def Chan.inc (c : Chan) : BitVec 16 := BitVec.ofNat 16 (fld c.peer.toNat 48 16)
def Chan.pch (c : Chan) : Nat := fld c.peer.toNat 0 6

/-- The core that a KIND 0 or 1 entry of core `me` names (R372). -/
def Chan.peerCore (c : Chan) (me : Nat) : Nat :=
  (if c.kind = 0 then dieOf me else fld c.peer.toNat 22 2) * 88 + fld c.peer.toNat 16 5 * 4 + fld c.peer.toNat 8 2

/-- The RW fields of words 0 and 1 (R372). -/
def chanCtlMask : Word := 0x00000000FFFFFF07
def chanPeerMask : Word := 0xFFFF037F00DF033F

/-- The read-only fields of word 0 (R372). -/
def chanRoMask : Word := 0x000000EF00000000

/-- CHCTL as a word (R372). -/
def Chan.word0 (c : Chan) : Word :=
  let st := match c.state with
    | .closed => 0
    | .opening => 1
    | .opened => 2
    | .broken => 3
  (c.ctl &&& chanCtlMask) ||| BitVec.ofNat 64 (st * 2 ^ 32 + c.err * 2 ^ 34 + c.owner * 2 ^ 37)

/-- CHCNT as a word (R372). -/
def Chan.word2 (c : Chan) : Word :=
  BitVec.ofNat 64 (c.xfer.toNat + c.cred % 256 * 2 ^ 32 + c.buf.length % 256 * 2 ^ 40 + c.held.length % 256 * 2 ^ 48)

/-- May a closed entry of core `me` open with these two words (R373)? -/
def Chan.openable (c : Chan) (me dev : Nat) : Bool :=
  (c.ctl &&& ~~~(chanCtlMask ||| chanRoMask)) == 0 && (c.peer &&& ~~~chanPeerMask) == 0 && (!c.proto || c.ty == 0 || c.ty == 1) &&
  (match c.kind with
   | 0 => c.peerCore me != me && decide (fld c.peer.toNat 16 5 < 22)
   | 1 => dieOf (c.peerCore me) != dieOf me && decide (fld c.peer.toNat 16 5 < 22)
   | 2 => c.dev != dev
   | _ => false)

/-- Does the entry of core `me` name channel `ch` of core `n` (R373)? -/
def Chan.names (c : Chan) (me n ch : Nat) : Bool := decide (c.kind < 2) && c.peerCore me == n && c.pch == ch

namespace State

def chanAt (s : State) (core ch : Nat) : Chan := tget {} (s.coreAt core).chans ch
def modChanAt (s : State) (core ch : Nat) (f : Chan → Chan) : State :=
  s.modCoreAt core fun c => { c with chans := tmod {} c.chans ch f }

/-- Channel `c` of the current core. -/
def chan (s : State) (c : BitVec 6) : Chan := tget {} s.core.chans c.toNat

/-- Break an entry (R373, R375); a closed entry stays closed. -/
def chanBreak (s : State) (core ch err : Nat) : State :=
  s.modChanAt core ch fun c => if c.state = .closed then c else { c with state := .broken, err := err }

/-- Break the entry that a local entry has paired with (R373). -/
def chanBreakPeer (s : State) (core ch err : Nat) : State :=
  let c := s.chanAt core ch
  let n := c.peerCore core
  if c.kind < 2 ∧ (s.chanAt n c.pch).names n core ch then s.chanBreak n c.pch err else s

/-- Add to CHDROP (R373, R396). -/
def chanDrop (s : State) (core k : Nat) : State :=
  s.modCoreAt core fun c => { c with chdrop := BitVec.ofNat 32 (satAdd 32 c.chdrop.toNat k) }

/-- Close an entry (R373): its elements and those in flight are discarded and counted, and the peer breaks. -/
def chanClose (s : State) (core ch : Nat) : State :=
  let c := s.chanAt core ch
  if c.state = .closed then s.modChanAt core ch fun c => { c with ctl := c.ctl &&& ~~~1 }
  else
    let n := c.peerCore core
    let paired := decide (c.kind < 2) && (s.chanAt n c.pch).names n core ch
    let inflight := if paired && c.recv then (s.chanAt n c.pch).pending.length else 0
    let s := s.chanDrop core (c.buf.length + c.held.length + c.pending.length + inflight)
    let s := if paired then (s.modChanAt n c.pch fun d => { d with pending := [] }).chanBreak n c.pch 1 else s
    let s := if c.kind = 2 then s.post c.dev (.closed c.dev (c.peerCore core % 352) c.pch) else s
    s.modChanAt core ch fun c => { ctl := c.ctl &&& ~~~1, peer := c.peer }

/-- Open a closed entry, recording its owner, with the session test of a channel to another device (R373, R375). -/
def chanOpen (s : State) (core ch owner : Nat) : State :=
  let c := s.chanAt core ch
  if c.state ≠ .closed ∨ !c.openable core s.devNum then s
  else
    let s := s.modChanAt core ch fun c => { ctl := c.ctl ||| 1, peer := c.peer, owner := owner, state := .opening, since := s.time }
    if c.kind = 2 then
      let p := s.peer c.dev
      match p.state with
      | .up => if p.inc = c.inc then s else s.chanBreak core ch 2
      | .none => s.chanBreak core ch 3
      | .refused => s.chanBreak core ch 3
      | _ => s
    else s

/-- Pair an opening entry with its peer, or break both (R373). For a peer on another device `depth` and `agree` are what it answered. -/
def chanPair (s : State) (core ch : Nat) (depth : Nat) (agree : Bool) : State :=
  let c := s.chanAt core ch
  if c.state ≠ .opening then s
  else if c.kind = 2 then
    let p := s.peer c.dev
    if p.state ≠ .up then s
    else if p.inc ≠ c.inc then s.chanBreak core ch 2
    else if !agree then s.chanBreak core ch 1
    else s.modChanAt core ch fun c => { c with state := .opened, depthPeer := depth, cred := if c.recv then 0 else depth }
  else
    let n := c.peerCore core
    let d := s.chanAt n c.pch
    if (d.state = .opening ∨ d.state = .opened) ∧ d.names n core ch then
      if d.recv != c.recv && d.lanes == c.lanes && d.ty == c.ty && d.proto == c.proto then
        let put := fun (e other : Chan) =>
          if e.state = .opening then { e with state := .opened, depthPeer := other.depth, cred := if e.recv then 0 else other.depth } else e
        (s.modChanAt core ch fun e => put e d).modChanAt n c.pch fun e => put e c
      else (s.chanBreak core ch 1).chanBreak n c.pch 1
    else s

/-- Can an opening entry of a local peer pair or break now? -/
def chanCanPair (s : State) (core ch : Nat) : Bool :=
  let c := s.chanAt core ch
  let n := c.peerCore core
  let d := s.chanAt n c.pch
  c.state == .opening && decide (c.kind < 2) && (d.state == .opening || d.state == .opened) && d.names n core ch

/-- Does FREEZE stop the copy engine, the matrix array and the channels of a core (R99)? -/
def frozenAt (s : State) (core : Nat) : Bool := (s.coreAt core).front.freeze && (s.coreAt core).front.halted

/-- Does FREEZE stop the engines of the current core (R99)? -/
def frozen (s : State) : Bool := s.core.front.freeze && s.core.front.halted

/-- Place the oldest element in flight of a local sender in its receiver's buffer (R380). -/
def chanDeliver (s : State) (core ch : Nat) : State :=
  let c := s.chanAt core ch
  match c.pending with
  | [] => s
  | e :: rest =>
    let n := c.peerCore core
    if s.frozenAt core || s.frozenAt n then s
    else
    let s := s.modChanAt core ch fun c => { c with pending := rest }
    if (s.chanAt n c.pch).state = .opened then s.modChanAt n c.pch fun d => { d with buf := d.buf ++ [e] } else s.chanDrop n 1

/-- Return `k` retired credits to the sender of a receive entry (R379). -/
def chanReturn (s : State) (core ch k : Nat) : State :=
  let c := s.chanAt core ch
  if k = 0 then s
  else if c.kind = 2 then s.post c.dev (.credit c.dev (c.peerCore core % 352) c.pch k)
  else s.modChanAt (c.peerCore core) c.pch fun d => { d with owed := d.owed + k }

/-- Every channel of the current core with entries. -/
def chanKeys (s : State) : List Nat := s.core.chans.map Prod.fst

/-- Retire the held elements of the bound task at a region mark (R379). -/
def chanRetire (s : State) : State :=
  s.chanKeys.foldl (fun s ch =>
    let k := (s.chanAt s.coreId ch).held.length
    (s.modChan ch fun c => { c with held := [] }).chanReturn s.coreId ch k) s

/-- A page-fault abort returns the held elements to the head of their buffers (R379). -/
def chanRewind (s : State) : State :=
  s.modCore fun c => { c with chans := c.chans.map fun kv => (kv.1, { kv.2 with buf := kv.2.held ++ kv.2.buf, held := [] }) }

/-- Close the entries that resident number `r` opened (R374). -/
def chanCloseOwned (s : State) (r : Nat) : State :=
  s.chanKeys.foldl (fun s ch =>
    let c := s.chanAt s.coreId ch
    if c.state ≠ .closed ∧ c.owner = r then s.chanClose s.coreId ch else s) s

/-- Does a SEND of the entries of resident number `r` still wait to be placed (R380)? -/
def chanPending (s : State) (r : Nat) : Bool := s.core.chans.any fun kv => kv.2.owner == r && !kv.2.pending.isEmpty

end State

end Sys2Proof.Machine
end

