-- ==== Sys2Proof/Machine/Flags.lean ====
section
/-! DEFINITION. The status register, the cause register and the other task system registers as words, and how MTS writes them
(spec 00_scope.md R7; 01_task.md R32, R35 to R37; 10_memory_model.md R262; 11_translation_scheduling.md R307; 14_fabric.md R371). -/

namespace Sys2Proof.Machine

/-- ZSTAT as a word (R35). -/
def ZStat.word (t : ZStat) : Word :=
  BitVec.ofNat 64 (t.tm.toNat * 2 ^ 31 + t.sv.toNat * 2 ^ 30 + t.ten.toNat * 2 ^ 29 + t.sliceup.toNat * 2 ^ 28 + t.joor.toNat * 2 ^ 27 +
    t.defov.toNat * 2 ^ 26 + t.f8.toNat * 2 ^ 25 + t.det.toNat * 2 ^ 24 + t.af.toNat * 2 ^ 23 + t.srf.toNat * 2 ^ 20 + t.ss.toNat * 2 ^ 19)

/-- MTS to ZSTAT: TEN and F8 are written, SLICEUP, JOOR and DEFOV are cleared by 1, the rest is read-only (R7, R35). -/
def ZStat.mts (t : ZStat) (w : Word) : ZStat :=
  { t with ten := w.getLsbD 29, f8 := w.getLsbD 25, sliceup := t.sliceup && !w.getLsbD 28, joor := t.joor && !w.getLsbD 27
           defov := t.defov && !w.getLsbD 26 }

/-- ZSTAT of the bits [29:23] saved in the save area (R14). -/
def ZStat.ofSaved (w : Word) : ZStat :=
  { ten := w.getLsbD 29, sliceup := w.getLsbD 28, joor := w.getLsbD 27, defov := w.getLsbD 26, f8 := w.getLsbD 25
    det := w.getLsbD 24, af := w.getLsbD 23 }

/-- ZCAUSE as a word (R36). -/
def ZCause.word (c : ZCause) : Word := BitVec.ofNat 64 (c.detail.toNat * 2 ^ 32 + c.slot.toNat * 2 ^ 8 + c.code.toNat)

/-- ZABORT as a word (R32). -/
def ZRegs.abortWord (z : ZRegs) : Word := BitVec.ofNat 64 (z.abortPage.toNat * 2 ^ 16 + z.abortCount.toNat)

/-- ZWDOG as a word (R307). -/
def ZRegs.wdogWord (z : ZRegs) : Word := BitVec.ofNat 64 (z.budget.toNat * 2 ^ 32 + z.wcount.toNat)

/-- ZRMT as a word (R371). -/
def ZRegs.rmtWord (z : ZRegs) : Word := BitVec.ofNat 64 (z.relayed.toNat + z.settled.toNat * 2 ^ 16)

/-- Count one page-fault abort of a page (R32). -/
def ZRegs.countAbort (z : ZRegs) (ia : Nat) : ZRegs :=
  { z with abortPage := BitVec.ofNat 41 (ia / 65536), abortCount := BitVec.ofNat 16 (satAdd 16 z.abortCount.toNat 1) }

end Sys2Proof.Machine
end

