-- ==== Sys2Proof/Machine/Writes.lean ====
section
/-! DEFINITION. What a scheduled register write does when its latency has elapsed, and the in-flight results (spec 01_task.md R19, R20;
03_scalar_control.md R92; 04_numbers.md R127; 05_vector.md R159; 07_core_memory.md R200, R201, R212 to R214, R227, R228). -/

namespace Sys2Proof.Machine

/-- Is the result a vector one (R140)? -/
def RegWrite.isVec : RegWrite → Bool
  | .v _ _ _ => true
  | _ => false

/-- Resident number of a task on a core, 0 when it has none (R193). -/
def CopyEng.resNo (c : CopyEng) (launch index : Nat) : Nat :=
  match c.resid.find? fun kv => kv.2 == (launch, index) with
  | some kv => kv.1
  | none => 0

/-- Resident number of the bound task. -/
def State.resNo (s : State) : Nat := s.core.copy.resNo s.bound.launch s.bound.index

/-- Exchange the copies of the shape registers of a bank that the mask names (R214). -/
def swapShapes (gy : Bool) (mask : BitVec 4) (sh : Vector (ShapeReg × ShapeReg) 8) : Vector (ShapeReg × ShapeReg) 8 :=
  Vector.ofFn fun k => if (k.val / 4 == 1) == gy && mask.getLsbD (k.val % 4) then (sh[k].2, sh[k].1) else sh[k]

/-- The value that an MTS leaves in the task's registers (R37, R92, R93, R186); read-only and unlisted numbers keep theirs. -/
def ZRegs.mts (z : ZRegs) (sel : Nat) (w : Word) : ZRegs :=
  match sel with
  | 0x0000 => { z with stat := z.stat.mts w }
  | 0x0005 => { z with tvec := w }
  | 0x0006 => { z with tid := BitVec.ofNat 8 w.toNat }
  | 0x0020 => { z with rkey := w }
  | 0x0021 => { z with rstr := w }
  | 0x0022 => { z with rpos := w }
  | _ => z

/-- The bound-table entry of an ID after a write of one of its words (R127). -/
def BoundEntry.write (e : BoundEntry) (hi : Bool) (w : Word) : BoundEntry :=
  if hi then { e with etype := BitVec.ofNat 4 (fld w.toNat 4 4), mode := BitVec.ofNat 2 w.toNat }
  else { e with hi := BitVec.ofNat 32 (fld w.toNat 32 32), lo := BitVec.ofNat 32 w.toNat }

def BoundEntry.word (e : BoundEntry) (hi : Bool) : Word :=
  if hi then BitVec.ofNat 64 (e.etype.toNat * 16 + e.mode.toNat) else BitVec.ofNat 64 (e.hi.toNat * 2 ^ 32 + e.lo.toNat)

/-- Write 64 bits at byte offset `o` of one copy of a shape register. -/
def putShape (r : ShapeReg) (o : Nat) (w : Word) : ShapeReg := BitVec.ofNat 512 (putFld r.toNat (8 * o) 64 w.toNat)

namespace State

/-- What an ENGW does to the engine block (R227); the read-only parts of the map are unchanged. -/
def engWrite (s : State) (off : Nat) (w : Word) : State :=
  if 0x4000 ≤ off ∧ off < 0x5000 then
    s.modVec fun e => { e with bounds := tmod {} e.bounds ((off - 0x4000) / 16) fun b => b.write (off / 8 % 2 == 1) w }
  else if off = 0x6000 then s.modVec fun e => { e with lost := BitVec.ofNat 32 w.toNat }
  else if off = 0x6008 then s.modVec fun e => { e with empty := BitVec.ofNat 32 w.toNat }
  else if 0x7800 ≤ off ∧ off < 0x7C00 then
    s.modRegs fun r =>
      let k := (off - 0x7800) / 128
      let o := (off - 0x7800) % 64
      let g := r.shape[k]?.getD (0, 0)
      { r with shape := r.shape.setIfInBounds k (if (off - 0x7800) % 128 < 64 then (putShape g.1 o w, g.2) else (g.1, putShape g.2 o w)) }
  else if off = 0x7C08 then s.modCopy fun c => { c with bytes := w }
  else if 0xC000 ≤ off ∧ off < 0xD000 then
    let ch := (off - 0xC000) / 64
    let c := s.chanAt s.coreId ch
    match (off - 0xC000) % 64 with
    | 0 =>
      if c.state = .closed then
        let s := s.modChan ch fun c => { c with ctl := w &&& ~~~chanRoMask }
        if w.getLsbD 0 then s.chanOpen s.coreId ch s.resNo else s
      else if w.getLsbD 0 then s
      else s.chanClose s.coreId ch
    | 8 => if c.state = .closed then s.modChan ch fun c => { c with peer := w } else s
    | _ => s
  else if off = 0xD000 then s.modCore fun c => { c with chdrop := BitVec.ofNat 32 w.toNat }
  else s

/-- A register write takes effect. -/
def applyWrite (s : State) : RegWrite → State
  | .x n v => s.modRegs fun r => { r with x := r.x.setIfInBounds n v }
  | .p n v => s.modRegs fun r => { r with p := r.p.setIfInBounds n v }
  | .v n m v => s.modRegs fun r => { r with v := r.v.setIfInBounds n (if m = BitVec.allOnes 128 then v else mergeLanes m (r.v[n]?.getD 0) v) }
  | .sc n v => s.modRegs fun r => { r with sc := r.sc.setIfInBounds n v }
  | .gset k f v => s.modRegs fun r =>
      let g := r.shape[k]?.getD (0, 0)
      { r with shape := r.shape.setIfInBounds k (g.1, BitVec.ofNat 512 (putFld g.2.toNat (32 * f) 32 v.toNat)) }
  | .swap gy m => s.modRegs fun r => { r with shape := swapShapes gy m r.shape }
  | .hset n a b => s.modH n fun h => { Handle.ofWords a b with pp := h.pp, cp := h.cp }
  | .hadv n pr k => s.modH n fun h => if pr then h.produce k else h.consume k
  | .z sel v => s.modZ fun z => z.mts sel v
  | .eng off v => s.engWrite off v

/-- Apply writes in their order. -/
def applyAll (s : State) (ws : List RegWrite) : State := ws.foldl applyWrite s

/-- An advancing cycle ends: results whose latency has elapsed are written, in issue order (R19, R20). -/
def tickFlight (s : State) : State :=
  let due := s.core.flight.filter fun f => decide (f.lat ≤ 1)
  let rest := (s.core.flight.filter fun f => decide (1 < f.lat)).map fun f => { f with lat := f.lat - 1 }
  (s.modCore fun c => { c with flight := rest }).applyAll (due.map Flight.w)

/-- Write every in-flight result to its destination (R15), earliest first. (Open points: DEDUCED, log 92.) -/
def drainFlight (s : State) : State :=
  (s.modCore fun c => { c with flight := [], misses := [] }).applyAll ((sortBy Flight.lat s.core.flight).map Flight.w)

end State

end Sys2Proof.Machine
end

