-- ==== Sys2Proof/Machine/Support.lean ====
section
/-! DEFINITION. Accesses that the device makes for itself: continuation records, save areas, stream tables, counters, rings and descriptors
(spec 01_task.md R11, R14, R421; 10_memory_model.md R264, R281; 11_translation_scheduling.md R303; 13_package.md R349). -/

namespace Sys2Proof.Machine

/-- `n` bytes at offset `o` of a byte list, as a little-endian number. -/
def at' (bs : List Byte) (o n : Nat) : Nat := leNat ((bs.drop o).take n)

/-! ### Fields of a launch (R349) -/

def Launch.addr (l : Launch) : Nat := at' l.entry 0 8
def Launch.blockAddr (l : Launch) : Nat := at' l.entry 8 8
def Launch.count (l : Launch) : Nat := at' l.entry 16 4
def Launch.mode (l : Launch) : Nat := at' l.entry 20 1
def Launch.det (l : Launch) : Bool := l.mode.testBit 0
def Launch.affine (l : Launch) : Bool := l.mode.testBit 1
def Launch.prio (l : Launch) : Nat := fld l.mode 2 2
def Launch.policy (l : Launch) : Nat := at' l.entry 21 1
def Launch.constMask (l : Launch) : Nat := at' l.entry 22 1
def Launch.arg (l : Launch) (k : Nat) : Nat := at' l.entry (24 + 8 * k) 8
def Launch.seed (l : Launch) : Nat := at' l.entry 56 8
def Launch.recs (l : Launch) : Nat := at' l.block 0 8
def Launch.saveOff (l : Launch) : Nat := at' l.block 8 8
def Launch.counter (l : Launch) : Nat := at' l.block 16 8
def Launch.stats (l : Launch) : Nat := at' l.block 24 8
def Launch.bounds (l : Launch) : Nat := at' l.block 32 8
def Launch.streams (l : Launch) : Nat := at' l.block 40 8
def Launch.ctrBase (l : Launch) : Nat := at' l.block 48 8
def Launch.budget (l : Launch) : Nat := at' l.block 56 4
def Launch.wdcap (l : Launch) : Nat := at' l.block 60 4
def Launch.place (l : Launch) (d : Nat) : Nat := at' l.block (64 + 4 * d) 4
def Launch.pbase (l : Launch) : Nat := at' l.block 80 1
def Launch.plen (l : Launch) : Nat := at' l.block 81 1
def Launch.outs (l : Launch) : Nat := at' l.block 88 8
def Launch.nouts (l : Launch) : Nat := at' l.block 96 4

namespace State

/-- Read bytes at home at a local intermediate address, page by page, through the page table alone: `none` when a page or the data fails. -/
def readIa (s : State) (d ia n : Nat) : Nat → State × Option (List Byte)
  | 0 => (s, some [])
  | f + 1 =>
    if n = 0 then (s, some [])
    else
      let k := min n (65536 - ia % 65536)
      let (s, w) := s.walk d ia
      match w with
      | .page pa _ =>
        let (s, r) := s.homeRead ia pa k
        match r with
        | none => (s, none)
        | some bs =>
          let (s, r) := s.readIa d (ia + k) (n - k) f
          (s, r.map fun t => bs ++ t)
      | _ => (s, none)

/-- Write bytes at home, page by page; false when a page or a write fails. -/
def writeIa (s : State) (d ia : Nat) (bs : List Byte) : Nat → State × Bool
  | 0 => (s, true)
  | f + 1 =>
    if bs.isEmpty then (s, true)
    else
      let k := 65536 - ia % 65536
      let (s, w) := s.walk d ia
      match w with
      | .page pa _ =>
        let (s, ok) := s.homeStore ia pa (bs.take k)
        if ok then s.writeIa d (ia + k) (bs.drop k) f else (s, false)
      | _ => (s, false)

/-- Intermediate address of a range of a context's windows that lies on this device (R421). -/
def supIa (s : State) (c va n : Nat) (p : Perm) : Option Nat :=
  ((s.ctx c).rangeIn? va n p).bind fun a => if s.isRemote a.ia then none else some a.ia

/-- Read through a context's windows, directly at home (R421). -/
def supRead (s : State) (d c va n : Nat) : State × Option (List Byte) :=
  match s.supIa c va n .rd with
  | some ia => s.readIa d ia n (n / 65536 + 2)
  | none => (s, none)

/-- Write through a context's windows, directly at home (R421). -/
def supWrite (s : State) (d c va : Nat) (bs : List Byte) : State × Bool :=
  match s.supIa c va bs.length .w with
  | some ia => s.writeIa d ia bs (bs.length / 65536 + 2)
  | none => (s, false)

/-- The intermediate address of a local offset of this device. -/
def localIa (s : State) (off : Nat) : Nat := s.devNum * 2 ^ 50 + off

/-- Write an aligned word at home with a given stamp; view caches see it (R264, R281). It is the second half of an atomic's one request (R325). -/
def atomicWrite (s : State) (ia pa : Nat) (bs : List Byte) (stamp : Nat) : State × Bool :=
  let (s, ok) := s.homePut ia pa bs stamp
  (if ok then s.refreshLines ((List.range bs.length).map fun i => (ia + i, bs.getD i 0)) stamp else s, ok)

/-- Compact every released record that writes [ia, ia + n); true when none of them waits (R281). -/
def compactAt (s : State) (ia n : Nat) : State × Bool :=
  let s := (s.compact fun r _ => r.writesIn ia n).1
  (s, !(s.mem.recs.any fun r => r.stamp.isSome && r.writesIn ia n))

/-- Change a task and put it on its ready queue (R17, R296). -/
def makeReady (s : State) (launch index : Nat) (f : Task → Task) : State :=
  (s.modTaskRec launch index fun t =>
    { f t with state := .ready, order := s.sched.nextOrder, level := t.prio, age := 0, overdue := none, park := none }).modSched
    fun q => { q with nextOrder := q.nextOrder + 1 }

/-- The counter at `ia` now holds `v`: tasks parked on it become READY (R91). (Open points: DEDUCED, log 25.) -/
def wakeCounter (s : State) (ia v : Nat) : State :=
  s.sched.tasks.foldl (fun s t =>
    match t.state, t.park with
    | .parked, some (.counter a target) =>
      if a = ia ∧ target.toNat ≤ v then s.makeReady t.launch t.index fun t => { t with wakeAcq := some ia } else s
    | _, _ => s) s

/-- Add 1 to the word at an intermediate address at its home, as a release of die `d` (R303). -/
def counterAddIa (s : State) (d ia : Nat) : State :=
  let s := (s.compactAt ia 8).1
  let (s, w) := s.walk d ia
  match w with
  | .page pa _ =>
    let (s, st) := s.takeStamp
    let (s, r) := s.homeRead ia pa 8
    match r with
    | none => s
    | some bs =>
      let v := (leNat bs + 1) % 2 ^ 64
      let s := (s.atomicWrite ia pa (leBytes 8 v) st).1
      (match s.syncRoom (s.syncDie pa) ia d with
       | (s, true) => s.latest (s.syncDie pa) ia d st
       | (s, false) => s).wakeCounter ia v
  | _ => s

/-- Advance a completion counter by 1 at its home, at package scope (R303). -/
def counterAdd (s : State) (d c va : Nat) : State :=
  match s.supIa c va 8 .rdw with
  | none => s
  | some ia => s.counterAddIa d ia

/-- The acquire of an agent of the package on a variable: every source compacts up to its latest stamp; true when none waits (R272, R348). -/
def agentAcquire (s : State) (ia : Nat) : State × Bool :=
  match s.peekPa? ia with
  | none => (s, true)
  | some pa => s.forceAll ia (s.sourcesOf (s.syncDie pa) ia)

end State

end Sys2Proof.Machine
end

