-- ==== Sys2Proof/Machine/Units.lean ====
section
/-! DEFINITION. Units and containment: cancelling, the policies that a failure climbs through, records of tasks, and completion counters
(spec 01_task.md R11, R16, R17; 11_translation_scheduling.md R303, R308 to R312, R422; 13_package.md R351, R352). -/

namespace Sys2Proof.Machine

/-- LINK as a word (R11). (Open points: DEDUCED, log 95.) -/
def linkWord (launch index prio : Nat) (det can fw full af : Bool) : Nat :=
  launch % 2 ^ 32 * 2 ^ 32 + index % 2 ^ 24 * 2 ^ 8 + prio % 4 * 2 ^ 6 + det.toNat * 2 ^ 5 + can.toNat * 2 ^ 4 + fw.toNat * 2 ^ 3 +
  full.toNat * 2 ^ 2 + af.toNat

/-- SAVE as a word; the home is that of core `c` when there is one (R11, R13). (Open points: DEDUCED, log 95.) -/
def saveWord (pbase plen : Nat) (home : Option Nat) (saoff : Nat) : Nat :=
  let h := match home with
    | none => 0
    | some c => dieOf c * 2 ^ 46 + c % 88 / 4 * 2 ^ 41 + c % 4 * 2 ^ 39 + 2 ^ 38
  pbase % 256 * 2 ^ 56 + plen % 256 * 2 ^ 48 + h + saoff % 2 ^ 35

/-- The continuation record of a task as LAUNCH creates it (R351). (Open points: DEDUCED, log 95.) -/
def Launch.record (l : Launch) (i : Nat) : List Byte :=
  leBytes 8 (l.addr / 4 * 4) ++ leBytes 8 (l.addr / 4 * 4) ++
  leBytes 8 (linkWord l.id i l.prio l.det false false false l.affine) ++
  leBytes 8 (saveWord (if l.affine then l.pbase else 0) (if l.affine then l.plen else 0) none ((l.saveOff + 32768 * i) / 32768)) ++
  leBytes 8 (l.arg 0) ++ leBytes 8 (l.arg 1) ++ leBytes 8 (l.arg 2) ++ leBytes 8 (l.arg 3)

/-- Task `i` of a launch as the scheduler first holds it (R351, R296). -/
def Launch.task (l : Launch) (i die : Nat) : Task :=
  { launch := l.id, index := i, ctx := l.ctx, die := die, prio := l.prio, recVa := BitVec.ofNat 64 (l.recs + 64 * i)
    save := l.saveOff + 32768 * i, affine := l.affine, pbase := l.pbase, plen := l.plen, level := l.prio }

namespace State

/-- The graph, phase and job of an ID. -/
def graph? (s : State) (id : Nat) : Option Graph := s.sched.graphs.find? fun g => g.id == id
def phase? (s : State) (id : Nat) : Option Phase := s.sched.phases.find? fun p => p.id == id
def job? (s : State) (id : Nat) : Option JobRun := s.sched.jobs.find? fun j => j.id == id

def modGraph (s : State) (id : Nat) (f : Graph → Graph) : State :=
  s.modSched fun q => { q with graphs := modFirst (fun g => g.id == id) f q.graphs }
def modPhase (s : State) (id : Nat) (f : Phase → Phase) : State :=
  s.modSched fun q => { q with phases := modFirst (fun p => p.id == id) f q.phases }
def modJob (s : State) (id : Nat) (f : JobRun → JobRun) : State :=
  s.modSched fun q => { q with jobs := modFirst (fun j => j.id == id) f q.jobs }
def modLaunchAny (s : State) (id : Nat) (f : Launch → Launch) : State :=
  s.modSched fun q => { q with launches := modFirst (fun l => l.id == id && !l.complete) f q.launches }

/-- The next unit ID: UNITSEQ advances by 1 and skips 0 (R312). -/
def takeUnit (s : State) : State × Nat :=
  let n := s.sched.unitSeq
  (s.modSched fun q => { q with unitSeq := if n + 1 = 0 then 1 else n + 1 }, n.toNat)

/-! ### Cancelling (R17, R103) -/

/-- LINK.CAN := 1 in a task's record (R11, R17). (Open points: DEDUCED, log 95.) -/
def markCan (s : State) (t : Task) : State :=
  let (s, r) := s.supRead t.die t.ctx (t.recVa.toNat + 16) 1
  match r with
  | some [b] => (s.supWrite t.die t.ctx (t.recVa.toNat + 16) [b ||| 0x10]).1
  | _ => s

/-- A CANCEL reaches a task: one that is not bound becomes READY with CAN = 1, a bound one stops at its next boundary (R17, R103). -/
def cancelTask (s : State) (t : Task) (level : Nat) : State :=
  match t.state with
  | .done => s
  | .killed => s
  | .bound _ => s.modTaskRec t.launch t.index fun t => { t with cancel := some level }
  | .ready => (s.modTaskRec t.launch t.index fun t => { t with cancel := some level }).markCan t
  | _ => (s.makeReady t.launch t.index fun t => { t with cancel := some level, pages := [], unqueued := [] }).markCan t

/-- Cancel a launch: its status will be `final` (R103, R308, R352). -/
def cancelLaunch (s : State) (id level final : Nat) : State :=
  match s.launch? id with
  | none => s
  | some l =>
    if l.final ≠ 1 ∨ l.complete then s
    else
      let s := s.modLaunchAny id fun l => { l with final := final, cancel := level }
      (s.sched.tasks.filter fun t => t.launch == id).foldl (fun s t => s.cancelTask t level) s

/-- Cancel a graph: it activates nothing more, and its launches are cancelled (R103). (Open points: DESIGN CHOICE, log 106.) -/
def cancelGraph (s : State) (id level final : Nat) : State :=
  match s.graph? id with
  | none => s
  | some g =>
    if g.complete then s
    else
      let s := s.modGraph id fun g => { g with ended := true, active := [] }
      (s.sched.launches.filter fun l => l.graph == id && !l.complete).foldl (fun s l => s.cancelLaunch l.id level final) s

/-- Cancel a phase: its graph is cancelled, or does not run again where it was to (R103, R308). -/
def cancelPhase (s : State) (id level final : Nat) : State :=
  match s.phase? id with
  | none => s
  | some p =>
    if p.complete then s
    else if p.graph = 0 then s.modPhase id fun p => { p with stopped := true }
    else s.cancelGraph p.graph level final

/-- Stop a job, with the journal entry that R312 names when `entry` holds. (Open points: DESIGN CHOICE, log 44.) -/
def stopJob (s : State) (id level final : Nat) (entry : Bool) : State :=
  match s.job? id with
  | none => s
  | some j =>
    if j.stopped ∨ j.complete then s
    else
      let s := s.modJob id fun j => { j with stopped := true, active := false }
      let s := (s.sched.phases.filter fun p => p.job == id && !p.complete).foldl (fun s p => s.cancelPhase p.id level final) s
      if entry then s.event 7 0 id else s

/-- CANCEL of a unit of a level (R103, R312); an identifier that names no live unit has no effect. -/
def cancelUnit (s : State) (level : CLevel) (id : Nat) : State :=
  match level with
  | .launch => s.cancelLaunch id 1 2
  | .graph => s.cancelGraph id 2 2
  | .phase => s.cancelPhase id 3 2
  | .job => s.stopJob id 4 2 true

/-! ### Policies (R308) -/

/-- POLICY and RETRIES of a policy byte (R308). -/
def polOf (b : Nat) : Nat := b % 4
def polRetries (b : Nat) : Nat := b / 4 % 4

/-- A job applies its policy to a failure of its phase `pid` (R308). (Open points: DESIGN CHOICE, log 44.) -/
def jobPolicy (s : State) (j : JobRun) (pid : Nat) : State :=
  let n := tget 0 j.retries j.cur
  match polOf j.policy with
  | 0 => s
  | 1 =>
    if n < polRetries j.policy then
      (s.modPhase pid fun p => { p with complete := true }).modJob j.id fun j => { j with retries := tset j.retries j.cur (n + 1), active := false }
    else s.stopJob j.id 4 3 false
  | 2 => s.stopJob j.id 4 3 false
  | _ => s.stopJob j.id 4 3 true

/-- A phase's failure is offered to its job. (Open points: DEDUCED, log 46.) -/
def offerJob (s : State) (f : FaultInfo) (p : Phase) : State :=
  match s.job? p.job with
  | none => s
  | some j => (s.faultRecord { f with launch := 0, task := 0, level := 3, graph := p.graph, job := j.id }).jobPolicy j p.id

/-- A graph's failure is offered to its phase. (Open points: DEDUCED, log 46.) -/
def offerPhase (s : State) (f : FaultInfo) (g : Graph) : State :=
  match s.phase? g.phase with
  | none => s
  | some p =>
    let s := s.faultRecord { f with launch := 0, task := 0, level := 2, graph := g.id, job := g.job }
    match polOf p.policy with
    | 0 => s
    | 1 =>
      if p.retries < polRetries p.policy then
        (s.modGraph g.id fun g => { g with complete := true }).modPhase p.id fun p => { p with retries := p.retries + 1, graph := 0 }
      else s.cancelPhase p.id 3 3
    | 2 => s.cancelPhase p.id 3 3
    | _ => (s.cancelPhase p.id 3 3).offerJob f p

/-- A failure of the graph itself: the graph stops, and its phase is offered it (R310). -/
def graphFails (s : State) (id : Nat) (f : FaultInfo) : State :=
  match s.graph? id with
  | none => s
  | some g => if g.complete then s else (s.cancelGraph id 2 3).offerPhase f g

/-- A launch's failure, passed upward by its policy, is offered to a graph (R308, R312). (Open points: DEDUCED, log 46; DESIGN CHOICE, log 48.) -/
def offerGraph (s : State) (f : FaultInfo) (l : Launch) : State :=
  let gid := if l.graph ≠ 0 then l.graph else l.parentGraph
  match s.graph? gid with
  | none => s.event 7 0 0
  | some g =>
    let s := s.faultRecord { f with task := 0, level := 1, graph := l.graph, job := l.job }
    let key := if l.graph ≠ 0 then l.node else 65536 + (if l.origin = 0 then l.id else l.origin)
    let n := tget 0 g.retries key
    match polOf g.policy with
    | 0 => s
    | 1 =>
      if n < polRetries g.policy then
        if l.graph ≠ 0 then
          (s.modLaunchAny l.id fun l => { l with orphan := true }).modGraph gid fun g =>
            { g with retries := tset g.retries key (n + 1), running := g.running.erase l.node, active := g.active ++ [l.node] }
        else (s.modLaunchAny l.id fun l => { l with again := true }).modGraph gid fun g => { g with retries := tset g.retries key (n + 1) }
      else s.cancelGraph gid 2 3
    | 2 => s.cancelGraph gid 2 3
    | _ => s.graphFails gid f

/-- A task's failure is offered to its launch (R308); in a launch that is already cancelled it is recorded, and climbs no further. (Open points: DEDUCED,
log 46.) -/
def offerLaunch (s : State) (f : FaultInfo) (t : Task) (l : Launch) : State :=
  let s := s.faultRecord { f with level := 0, graph := l.graph, job := l.job }
  let n := tget 0 l.retries t.index
  let kill := fun s : State => s.cancelLaunch l.id 1 3
  match polOf l.policy with
  | 0 => (s.counterAdd t.die t.ctx l.counter).modLaunchAny l.id fun l => { l with counted := l.counted + 1 }
  | 1 =>
    if l.final ≠ 1 then s
    else if n < polRetries l.policy then
      let s := s.modLaunchAny l.id fun l => { l with retries := tset l.retries t.index (n + 1) }
      let s := (s.supWrite t.die t.ctx t.recVa.toNat (l.record t.index)).1
      s.makeReady t.launch t.index fun t => { l.task t.index t.die with wcount := t.wcount, abort := t.abort }
    else kill s
  | 2 => kill s
  | _ => if l.final ≠ 1 then s else (kill s).offerGraph f l

/-! ### Killing (R17) -/

/-- Resident number `r` of core `n` is no longer resident: its tag entries lose VALID and LOCK, its channels close (R193, R374). -/
def unresident (s : State) (n launch index : Nat) : State :=
  match (s.coreAt n).copy.resid.find? fun kv => kv.2 == (launch, index) with
  | none => s
  | some (r, _) =>
    let s := s.modCoreAt n fun c => { c with copy := { c.copy with
      resid := terase c.copy.resid r
      tags := c.copy.tags.map fun kv => (kv.1, if kv.2.owner == r then { kv.2 with valid := false, lock := false } else kv.2) } }
    s.onCore n fun s => s.chanCloseOwned r

/-- A task that is on no core becomes KILLED, its cause is kept, and a failure is offered to its launch (R17, R103, R308). `slot` is that of the cause. (Open points: DEDUCED, log 45.) -/
def endKilled (s : State) (launch index : Nat) (c : Cause) (slot : Nat) : State :=
  match s.task? launch index with
  | none => s
  | some t =>
    let s := s.modTaskRec launch index fun t => { t with state := .killed, park := none, held := none, home := none, report := some (c, slot) }
    let s := match t.home with
      | some n => s.unresident n launch index
      | none => s
    let s := s.modLaunchAny launch fun l => { l with killed := l.killed + 1 }
    if c.code = 0x17 then s
    else
      match s.launch? launch with
      | none => s
      | some l =>
        s.offerLaunch { ctx := t.ctx, launch := launch, task := index, cause := c, slot := slot } t l

end State

end Sys2Proof.Machine
end

