-- ==== Sys2Proof/Machine/Leave.lean ====
section
/-! DEFINITION. Leaving BOUND: what is saved, written back, released and freed, and how a bound task is killed (spec 01_task.md R14 to R18, R421;
04_numbers.md R132, R133; 05_vector.md R162; 06_matrix.md R164, R187; 07_core_memory.md R193, R222, R223; 09_cluster.md R247). -/

namespace Sys2Proof.Machine

/-- Both statistics, each stopping at all ones of 32 bits (R132). -/
def Stat.sat32 (a b : Stat) : Stat := ⟨satAdd 32 a.sat b.sat, satAdd 32 a.flush b.flush, satAdd 32 a.nan b.nan, satAdd 32 a.viol b.viol⟩

/-- 64-bit totals (R133). -/
def Stat.sum64 (a b : Stat) : Stat :=
  ⟨(a.sat + b.sat) % 2 ^ 64, (a.flush + b.flush) % 2 ^ 64, (a.nan + b.nan) % 2 ^ 64, (a.viol + b.viol) % 2 ^ 64⟩

/-- Entry-wise sums of two tables of statistics. -/
def mergeStats (f : Stat → Stat → Stat) (a b : Tab Stat) : Tab Stat := b.foldl (fun t kv => tmod {} t kv.1 fun x => f x kv.2) a

/-- The 16 bytes of an entry of pending counts (R14). -/
def Stat.bytes (a : Stat) : List Byte := leBytes 4 a.sat ++ leBytes 4 a.flush ++ leBytes 4 a.nan ++ leBytes 4 a.viol

/-- The suspension set (R14); the order of the words at 0x0400 is the order in which R14 names them (assumption log 9). (Open points: DEDUCED, log 9.) -/
def suspensionSet (r : Regs) : List Byte :=
  ((List.range 64).flatMap fun n => leBytes 8 (if n = 0 ∨ (8 ≤ n ∧ n < 12) then 0 else (r.x[n]?.getD 0).toNat)) ++
  ((List.range 16).flatMap fun n => leBytes 16 (r.p[n]?.getD 0).toNat) ++
  ((List.range 16).flatMap fun n => leBytes 8 (r.h[n]?.getD {}).word0.toNat ++ leBytes 8 (r.h[n]?.getD {}).word1.toNat) ++
  leBytes 8 (r.z.stat.word &&& 0x3F800000).toNat ++ leBytes 8 r.z.tid.toNat ++ leBytes 8 r.z.tvec.toNat ++ leBytes 8 r.z.wdogWord.toNat ++
  leBytes 8 r.z.abortWord.toNat ++ leBytes 8 (r.z.stat.defov.toNat + 2 * r.z.stat.joor.toNat) ++ leBytes 16 0 ++ leBytes 0xBC0 0

/-- The part of the full set above the suspension set (R14). (Open points: DEDUCED, log 9.) -/
def fullSet (r : Regs) (pend : Tab Stat) : List Byte :=
  ((List.range 16).flatMap fun n => leBytes 256 (r.sc[n]?.getD 0).toNat) ++
  ((List.range 8).flatMap fun n => leBytes 64 (r.shape[n]?.getD (0, 0)).1.toNat ++ leBytes 64 (r.shape[n]?.getD (0, 0)).2.toNat) ++
  ((List.range 256).flatMap fun n => (tget {} pend n).bytes) ++ leBytes 0xC00 0 ++
  ((List.range 32).flatMap fun n => leBytes 512 (r.v[n]?.getD 0).toNat)

/-- BAD_RECORD (R421). -/
def badRecord (addr detail : Nat) : Cause := { code := 0x18, addr := BitVec.ofNat 64 addr, detail := BitVec.ofNat 32 detail }

/-- Is it the write of a SNAPST? -/
def SnapOp.isStore : SnapOp → Bool
  | .st _ _ _ => true
  | .ld _ _ => false

/-- A stopped command's reservation of its handle is dropped (R178, R222). -/
def Regs.dropReservation (r : Regs) (hd : Nat) (producer : Bool) : Regs :=
  if hd = 0 then r
  else
    let h := r.h[hd]?.getD {}
    { r with h := r.h.setIfInBounds hd (if producer then { h with pp := h.pp - 1 } else { h with cp := h.cp - 1 }) }

/-- Is the job's handle role that of a producer (R198)? -/
def Job.produces (j : Job) : Bool := j.dir == .hs || j.dir == .ss

/-- The commands of the engine that have not ended. -/
def Mx.inWork (m : Mx) : List MxCmd := m.queue ++ m.load.toList ++ m.array.toList

/-- Every MLOAD that has issued and not ended: in the queue, in work, or held with its queue in the snapshot (R168, R178). -/
def State.mloads (s : State) : List MxCmd := (s.core.mx.inWork ++ (s.core.snap.map Snap.queue).getD []).filter fun c => c.op == .mload

/-- MREL (R164): queued commands are discarded, running ones stopped, the drain ends. (Open points: DEDUCED, log 82.) -/
def Mx.release (m : Mx) : Mx := { m with claim := false, queue := [], load := none, array := none, drain := none, mcfgAt := none }

/-- Remove core `n` of a cluster from its fused group and from the line (R247). -/
def Cluster.remove (c : Cluster) (n : Nat) : Cluster :=
  let bit := BitVec.ofNat 4 (2 ^ n)
  { c with
    groups := (c.groups.map fun g => { g with
        mask := g.mask &&& ~~~bit, coupled := g.coupled &&& ~~~bit, trapped := g.trapped &&& ~~~bit
        entry := g.entry &&& ~~~bit, arrived := terase g.arrived n }).filter
      fun g => decide (2 ≤ ((List.range 4).filter fun i => g.mask.getLsbD i).length)
    line := terase c.line n }

/-- Rows of a drain in progress that it has not presented, the one in the latch in this cycle among them unless a VROW `read` it (R158, R230). -/
def Mx.rowsLeft (m : Mx) (read : Bool) : Nat :=
  match m.drain with
  | some d => 136 - max 8 d.age - (if read && decide (8 ≤ d.age) then 1 else 0)
  | none => 0

namespace State

/-- Partitions of the affine tasks that are resident on a core (R16), in banks: base and number. -/
def partitions (s : State) (core : Nat) : List (Nat × Nat) :=
  (s.sched.tasks.filter fun t => t.affine && t.home == some core).map fun t => (t.pbase, t.plen + 1)

/-- Release the matrix claim (R164). The rows of the drain that it ends are lost: R230 counts them for the drain that EXIT ends. (Open points: DEDUCED, log 82.) -/
def mxRelease (s : State) : State :=
  let left := s.core.mx.rowsLeft ((s.core.front.run.map Run.rowRead).getD false)
  let cmds := s.mloads
  ((s.modMx Mx.release).modVec fun v => { v with lost := BitVec.ofNat 32 (satAdd 32 v.lost.toNat left) }).modRegs
    fun r => cmds.foldl (fun r c => r.dropReservation c.hd false) r

/-- Cancel the copy jobs that satisfy `p`: their reservations are dropped without a handle update (R222). -/
def cancelJobs (s : State) (p : Job → Bool) : State :=
  let gone := s.core.copy.jobs.filter p
  (s.modCopy fun c => { c with jobs := c.jobs.filter fun j => !p j }).modRegs fun r => gone.foldl (fun r j => r.dropReservation j.hd j.produces) r

/-- The pending counts are added to the counters (R132). -/
def addPending (s : State) : State := s.modVec fun v => { v with counts := mergeStats Stat.sat32 v.counts v.pcounts, pcounts := [] }

/-- A new region mark, with RSTART (R28, R132, R379). (Open points: DEDUCED, log 16.) -/
def markRegion (s : State) (addr : Nat) : State :=
  ((s.modTask fun b => { b with rstart := BitVec.ofNat 64 addr, mark := s.core.seq.toNat, region := b.region + 1 }).addPending).chanRetire

/-- The counters are added to the launch's totals and cleared (R133). -/
def addTotals (s : State) : State :=
  (s.modLaunchAny s.bound.launch fun l => { l with totals := mergeStats Stat.sum64 l.totals s.core.vec.counts }).modVec fun v => { v with counts := [] }

/-- Write POS into the stream table when there is one (R187): the failure of R421. -/
def writePos (s : State) : State × Option Cause :=
  let b := s.bound
  match s.boundLaunch with
  | none => (s, none)
  | some l =>
    if l.streams = 0 ∨ !b.posLoaded then (s, none)
    else
      let a := l.streams + 32 * b.index + 16
      let (s, ok) := s.supWrite s.myDie b.ctx a (leBytes 8 s.core.regs.z.rpos.toNat)
      (s, if ok then none else some (badRecord a 10))

/-- Write the save area and the record (R14, R11): the failure of R421. (Open points: DEDUCED, log 95; DESIGN CHOICE, log 103.) -/
def saveTask (s : State) (resume kind : Nat) (full fw : Bool) : State × Option Cause :=
  let b := s.bound
  let r := s.core.regs
  let ia := s.localIa b.save
  let (s, ok) := s.writeIa s.myDie ia (suspensionSet r ++ (if full then fullSet r s.core.vec.pcounts else [])) 4
  let (s, ok2) := if full then (s, true)
    else s.writeIa s.myDie (ia + 0x2400) (((List.range 256).flatMap fun n => (tget {} s.core.vec.pcounts n).bytes) ++ leBytes 0xC00 0) 4
  if !(ok && ok2) then (s, some (badRecord ia 8))
  else
    let t := s.task? b.launch b.index
    let can := (t.bind Task.cancel).isSome
    let link := linkWord b.launch b.index b.prio r.z.stat.det can fw full b.affine
    let live := fun n : Nat => leBytes 8 (r.x[n]?.getD 0).toNat
    let (s, ok) := s.supWrite s.myDie b.ctx b.recVa.toNat (leBytes 8 (resume / 4 * 4 + kind) ++ leBytes 8 b.rstart.toNat ++ leBytes 8 link)
    let (s, ok2) := s.supWrite s.myDie b.ctx (b.recVa.toNat + 32) (live 8 ++ live 9 ++ live 10 ++ live 11)
    if ok && ok2 then s.writePos else (s, some (badRecord b.recVa.toNat 9))

/-- The core is free: everything of it that belonged to the bound task's stay is gone. -/
def vacate (s : State) : State :=
  let s := s.modCluster (clusterOf s.coreId) fun c => c.remove (lowCore s.coreId)
  s.modCore fun c => { c with
    task := none, flight := [], misses := [], snap := none, preempt := false, asked := none, answer := none, slotHeld := none, published := none, sstep := none, released := none, compacted := none
    snapOps := c.snapOps.filter SnapOp.isStore
    front := { freeze := c.front.freeze, step := c.front.step }
    vec := { c.vec with dq := [], pcounts := [] }
    copy := { c.copy with footProg := [], footNet := [], err := [], updates := [] }
    vcache := c.vcache.map fun l => { l with marks := 0 } }

/-- Free the core and, for a task that is resident no longer, its number (R193). (Open points: DEDUCED, log 88.) -/
def vacateTask (s : State) (keep : Bool) : State :=
  let b := s.bound
  let s := s.vacate
  if keep then s else s.unresident s.coreId b.launch b.index

/-- What a task carries from core to core (R220, R265, R283, R307). (Open points: DEDUCED, log 88.) -/
def carry (s : State) (t : Task) : Task :=
  let b := s.bound
  { t with vp := b.vp, va := b.va, vf := b.vf, lastRel := b.lastRel, lastCore := some s.coreId, wcount := s.core.regs.z.wcount
           abort := (s.core.regs.z.abortPage, s.core.regs.z.abortCount), copyErr := s.core.copy.err, sstep := s.core.sstep
           idem := s.core.front.idemNext, rsIdem := b.idem
           seqs := tset t.seqs s.coreId { last := b.lastSeq, rel := b.relSeq, stay := b.stay
                                          relStay := if b.relSeq = (tget {} t.seqs s.coreId).rel then (tget {} t.seqs s.coreId).relStay else b.stay }
           wakeAcq := b.wake }

/-- Kill the bound task of the current core with a cause (R17, R30, R132). -/
def killBound (s : State) (c : Cause) (slot : Nat) : State :=
  let b := s.bound
  let s := ((s.spireFlush.mxRelease.cancelJobs fun _ => true).addPending).addTotals
  let s := (s.writePos).1
  let s := s.discard fun _ => true
  let s := s.modTaskRec b.launch b.index s.carry
  (s.vacateTask false).endKilled b.launch b.index c slot

/-- BOUND to READY, PARKED or FAULT_WAIT (R17): in-flight results are written, the set is saved, and the hand-off releases the records; where an
access fails, the transition is the kill of R421, whose records are discarded. -/
def leaveBound (s : State) (resume kind : Nat) (full fw : Bool) (next : State → Nat → Nat → State) : State :=
  let b := s.bound
  let s := s.spireFlush.drainFlight.mxRelease
  let s := if s.core.vec.dq.isEmpty then s else s.modStat fun t => { t with defov := true }
  match s.saveTask resume kind full fw with
  | (s, some c) => s.killBound c 0
  | (s, none) =>
    let (s, st) := s.takeStamp
    let s := (s.release st).addTotals
    let s := s.modTaskRec b.launch b.index s.carry
    next (s.vacateTask b.affine) b.launch b.index

/-- BOUND to DONE (R17, R18, R303). -/
def exitBound (s : State) : State :=
  let b := s.bound
  let s := (s.spireFlush.drainFlight.mxRelease).addPending
  match s.writePos with
  | (s, some c) => s.killBound c 0
  | (s, none) =>
    let (s, st) := s.takeStamp
    let s := (s.release st).addTotals
    let d := s.myDie
    let s := s.modTaskRec b.launch b.index fun t => { t with state := .done, home := none }
    let s := s.vacateTask false
    match s.launch? b.launch with
    | none => s
    | some l => (s.counterAdd d b.ctx l.counter).modLaunchAny b.launch fun l => { l with counted := l.counted + 1 }

end State

end Sys2Proof.Machine
end

