-- ==== Sys2Proof/Machine/Ops.lean ====
section
/-! DEFINITION. Taking an exception, returning from one, and the page-fault abort, each as one operation (spec 01_task.md R22 to R32, R38;
03_scalar_control.md R85, R96, R99; 06_matrix.md R178; 05_vector.md R157; 11_translation_scheduling.md R294). -/

namespace Sys2Proof.Machine

/-- Reference ticks that have ended after `n` cycles of a core: 22.5 cycles a tick (R6). (Open points: DESIGN CHOICE, log 8, 78, 96.) -/
def ticksOf (n : Nat) : Nat := 2 * n / 45

/-- Delivery classes of a cause (R38). -/
inductive CauseClass where
  | handler | debug | containment
  deriving DecidableEq, Repr

/-- The class of a cause code (R38). -/
def Cause.cls (c : Cause) : CauseClass :=
  if c.code.toNat = 0x10 ∨ c.code.toNat = 0x11 then .debug
  else if 0x12 ≤ c.code.toNat ∧ c.code.toNat ≤ 0x18 then .containment
  else .handler

/-- Is the handler address set (R35, R37)? Bits [1:0] of ZTVEC are ignored. (Open points: DEDUCED, log 104.) -/
def ZRegs.handler (z : ZRegs) : Nat := z.tvec.toNat / 4 * 4

/-- The words of the system registers that MTS writes, for the image (R23). -/
def ZRegs.mtsWord (z : ZRegs) (sel : Nat) : Word :=
  match sel with
  | 0x0000 => z.stat.word
  | 0x0005 => z.tvec
  | 0x0006 => z.tid.zeroExtend 64
  | 0x0020 => z.rkey
  | 0x0021 => z.rstr
  | 0x0022 => z.rpos
  | _ => 0

namespace State

/-- Both copies of shape register `k` for the image. -/
def imageShape (s : State) (g : RegImage) (k : Nat) : RegImage := { g with shape := tset g.shape k (s.shapes k) }

/-- Add the bundle-entry value of the registers that a write changes (R23). -/
def imageWrite (s : State) (g : RegImage) : RegWrite → RegImage
  | .x n _ => { g with x := tset g.x n (s.x (BitVec.ofNat 6 n)) }
  | .p n _ => { g with p := tset g.p n (s.p (BitVec.ofNat 4 n)) }
  | .v n _ _ => { g with v := tset g.v n (s.v (BitVec.ofNat 5 n)) }
  | .sc n _ => { g with sc := tset g.sc n (s.sc (BitVec.ofNat 4 n)) }
  | .gset k _ _ => s.imageShape g k
  | .swap gy m => (List.range 4).foldl (fun g i => if m.getLsbD i then s.imageShape g (gy.toNat * 4 + i) else g) g
  | .hset n _ _ => { g with h := tset g.h n (s.h (BitVec.ofNat 4 n)) }
  | .hadv n _ _ => { g with h := tset g.h n (s.h (BitVec.ofNat 4 n)) }
  | .z sel _ => { g with z := tset g.z sel ((tget? s.image.z sel).getD (s.core.regs.z.mtsWord sel)) }
  | .eng off _ => if 0x7800 ≤ off ∧ off < 0x7C00 then s.imageShape g ((off - 0x7800) / 128) else g

/-- Does a trap of this core stop a group that it runs coupled with, and that no trap of its own has stopped (R248)? -/
def fuseFirst (s : State) : Bool :=
  (s.cluster (clusterOf s.coreId)).groups.any fun g => g.coupled.getLsbD (lowCore s.coreId) && !g.trapped.getLsbD (lowCore s.coreId)

/-- The wait of the current core on its cluster's line. -/
def lineWait (s : State) : Option LineWait := tget? (s.cluster (clusterOf s.coreId)).line (lowCore s.coreId)

/-- The pipeline snapshot of the bundle that issues (R23); with no bundle issuing, that of its boundary, or of the bundle that TRET was about to
enter again. (Open points: DEDUCED, log 20.) -/
def snapshot (s : State) (addr slot : Nat) : Snap :=
  let c := s.core
  let r := c.front.run
  let wrote := (r.map Run.wrote).getD []
  let ops := (c.chans.filter fun kv => !kv.2.pending.isEmpty).map fun kv => (kv.1, kv.2.pending.length)
  match c.front.reenter, r with
  | some e, none =>
    { e with flight := e.flight ++ c.flight, misses := e.misses ++ c.misses, queue := c.mx.queue, drain := c.mx.drain, loops := c.front.loops
             released := c.front.released, completes := e.completes || s.fuseFirst, leaving := c.front.leaving, jobs := c.copy.jobs, chanOps := ops
             waits := s.lineWait }
  | _, _ =>
  { addr := BitVec.ofNat 64 addr, slot := slot, image := wrote.foldl s.imageWrite {}, flight := c.flight, misses := c.misses, queue := c.mx.queue
    drain := c.mx.drain, loops := c.front.loops, latched := r.bind Run.latched
    after := match r.bind Run.after with
      | some (.remote l) => some (.remote l)
      | _ => none
    idem := (r.map Run.idem).getD false, wrote := wrote, skipTo := r.bind Run.skipTo, released := c.front.released
    byIdem := (r.map Run.byIdem).getD c.front.idemNext, completes := s.fuseFirst
    rowRead := (r.map Run.rowRead).getD false, leaving := c.front.leaving, line := r.bind Run.line, waits := s.lineWait, jobs := c.copy.jobs, chanOps := ops }

/-- A core takes a trap: a coupled member stops its group until it has completed the bundle (R248), and a wait on the line goes on after the handler.
(Open points: DEDUCED, log 19.) -/
def fuseTrapped (s : State) : State :=
  s.modCluster (clusterOf s.coreId) fun c =>
    let bit := BitVec.ofNat 4 (2 ^ lowCore s.coreId)
    { c with line := terase c.line (lowCore s.coreId), groups := c.groups.map fun g => if g.coupled &&& bit != 0 then { g with trapped := g.trapped ||| bit } else g }

/-- Steps 1 to 3 of R23: the snapshot, ZSTAT, ZCAUSE, ZADDR and ZBUNDLE; the core issues nothing of the bundle any more. (Open points: DEDUCED, log 20.) -/
def captureTrap (s : State) (c : Cause) (slot srf : Nat) (bundle resume : Nat) : State :=
  let s := s.spireFlush
  let snap := s.snapshot resume srf
  let len := 64 * (1 + Config.imageBlocks s.free % 256)
  let s := s.nextFree.fuseTrapped
  let s := s.modZ fun z => { z with
    stat := { z.stat with sv := true, ss := false, tm := true, srf := BitVec.ofNat 3 srf }
    cause := { detail := c.detail, slot := BitVec.ofNat 3 slot, code := c.code }, addr := c.addr, bundle := BitVec.ofNat 64 bundle
    snapLen := BitVec.ofNat 16 len }
  s.modCore fun k => { k with
    snap := some snap, flight := [], misses := [], snapOps := k.snapOps.filter SnapOp.isStore
    mx := { k.mx with queue := [], drain := none }
    front := { k.front with run := none, latched := none, loops := [], hold := .none, idemNext := false, leaving := none
                            emptyLeft := 0, reenter := none, released := false, marked := false, given := [] } }

/-- Steps 1 to 4 of R23: the state is captured, and control goes to ZTVEC. A fill that a SNAPLD has pending is dropped. (Open points: DEDUCED, log 20;
DESIGN CHOICE, log 98.) -/
def enterHandler (s : State) (c : Cause) (slot srf : Nat) (bundle resume : Nat) : State :=
  (s.captureTrap c slot srf bundle resume).modFront fun f => { f with latched := some (.addr (BitVec.ofNat 64 s.core.regs.z.handler)) }

/-- The attached debugger takes a cause of class D first (R38, R95, R100): the trap's state is captured and the core halts; under TM = 1 the handler's
snapshot stays, and the core only halts. (Open points: DESIGN CHOICE, log 98.) -/
def enterDebugger (s : State) (c : Cause) (slot srf : Nat) (bundle resume : Nat) : State :=
  if s.core.regs.z.stat.tm then s.modFront fun f => { f with halted := true }
  else (s.captureTrap c slot srf bundle resume).modFront fun f => { f with halted := true, debug := true }

/-- Take an exception (R23, R24, R38): to the handler, to the debugger, or to containment. `resume` and `srf` name the re-entry. -/
def takeTrap (s : State) (c : Cause) (slot srf : Nat) (bundle resume : Nat) : State :=
  let z := s.core.regs.z
  if c.cls = .containment then s.killBound c slot
  else if c.cls = .debug ∧ s.root.debugger then s.enterDebugger c slot srf bundle resume
  else if z.stat.tm then s.killBound { code := 0x16, addr := c.addr, detail := c.code.zeroExtend 32 } slot
  else if z.stat.ten ∧ z.handler ≠ 0 then s.enterHandler c slot srf bundle resume
  else s.killBound c slot

/-- The syllable that executes raises a cause (R22). -/
def raise (s : State) (c : Cause) : State := s.takeTrap c s.sylSlot s.sylSlot s.bundleAddr s.bundleAddr

/-- ILLEGAL at the syllable (R38). -/
def illegal (s : State) : State := s.raise { code := 0x01, detail := s.sylWord }

/-- A suspension while TM = 1: a double fault without an original cause (R24). -/
def suspendMasked (s : State) : State := s.killBound { code := 0x16 } s.sylSlot

/-- Append a page to a die's fault queue, or count one more waiter (R294); false when the queue is full. (Open points: DEDUCED, log 53.) -/
def fltqAdd (s : State) (d page : Nat) : State × Bool :=
  let q := (s.die d).fltq
  if q.any fun e => e.page == page then
    (s.modDie d fun e => { e with fltq := modFirst (fun f => f.page == page) (fun f => { f with waiters := satAdd 16 f.waiters 1 }) e.fltq }, true)
  else if q.length < 1024 then (s.modDie d fun e => { e with fltq := e.fltq ++ [⟨page, 1⟩] }, true)
  else (s, false)

/-- A request of another device, or a work request, waits for a page: the fault queue takes it once until a PGDONE names the page, and later where the
queue is full (R294, R363). A work request counts as no waiting task. (Open points: DEDUCED, log 53.) -/
def fltqNote (s : State) (d page : Nat) (who : Nat × Nat) (task : Bool) : State :=
  let q := (s.die d).fltq
  if s.fabric.noted.contains (who, page) then s
  else
    let (s, ok) := if task then s.fltqAdd d page
      else if q.any fun e => e.page == page then (s, true)
      else if q.length < 1024 then (s.modDie d fun e => { e with fltq := e.fltq ++ [⟨page, 0⟩] }, true)
      else (s, false)
    if ok then s.modFabric fun f => { f with noted := (who, page) :: f.noted } else s

/-- A page-fault abort (R29): its immediate effects; the task then waits for its earlier copy jobs and leaves BOUND. In-flight vector results are
discarded (R140); the others are written (R15). (Open points: DEDUCED, log 92.) -/
def abort (s : State) (ia : Nat) : State :=
  let b := s.bound
  let s := s.spireFlush.discard fun r => decide (b.mark < r.seq)
  let s := s.cancelJobs fun j => j.region == b.region
  let s := s.chanRewind.mxRelease
  let s := s.modVec fun v => { v with pcounts := [] }
  let s := s.modZ fun z => { z.countAbort ia with stat := { z.stat with sv := false, tm := false, ss := false } }
  let s := s.modDie s.myDie fun d => { d with abortCnt := BitVec.ofNat 64 (satAdd 64 d.abortCnt.toNat 1) }
  let s := s.modCluster (clusterOf s.coreId) fun c => c.remove (lowCore s.coreId)
  s.modCore fun c => { c with
    flight := c.flight.filter fun f => !f.w.isVec, misses := c.misses.filter fun m => !m.vec || m.bad
    snap := none, snapOps := c.snapOps.filter SnapOp.isStore, asked := none, answer := none
    front := { c.front with run := none, latched := none, loops := [], hold := .none, idemNext := false, emptyLeft := 0, reenter := none, released := false, marked := false
                            leaving := some (.abort ia, b.rstart.toNat) } }

/-- TRET (R25, R96): the snapshot is restored, and its bundle is entered again at its slot; its in-flight results and loads go on when it is.
(Open points: DEDUCED, log 20.) -/
def returnFromTrap (s : State) : State :=
  match s.core.snap with
  | none => s
  | some p =>
    let s := s.modStat fun t => { t with sv := false, tm := false }
    s.modCore fun c => { c with
      snap := none
      mx := { c.mx with queue := c.mx.queue ++ p.queue, drain := p.drain }
      front := { c.front with loops := p.loops, reenter := some p, released := p.released, leaving := p.leaving } }

/-- The bundle that TRET enters again is at hand: the results and loads that the snapshot held go on (R25). -/
def resumeSnap (s : State) : State :=
  match s.core.front.reenter with
  | none => s
  | some e => s.modCore fun c => { c with
      flight := e.flight ++ c.flight, misses := e.misses ++ c.misses
      front := { c.front with reenter := some { e with flight := [], misses := [] } } }

/-- The debugger lets a halted core go on: the task continues at the re-entry point of the trap that halted it (R99, R100). -/
def debugContinue (s : State) : State :=
  let s := if s.core.front.debug then
      match s.core.snap with
      | some p => s.returnFromTrap.modFront fun f => { f with latched := some (.addr p.addr), idemNext := false }
      | none => s
    else s
  s.modFront fun f => { f with halted := false, debug := false }

/-- The cause of a walk that fails (R293, R315): `none` when the page is there or awaited. -/
def walkCause (s : State) (ia : Nat) : Walk → Option Cause
  | .page _ _ => none
  | .absent => none
  | .invalid l => some { code := 0x14, addr := BitVec.ofNat 64 ia, detail := BitVec.ofNat 32 l }
  | .integrity l => some { code := 0x12, addr := BitVec.ofNat 64 ia, detail := BitVec.ofNat 32 l }
  | .lost => some { code := 0x13, addr := BitVec.ofNat 64 ia, detail := BitVec.ofNat 32 s.trav.lastRetired }

/-- What a failed walk does at the syllable: the cause of R293, or the abort of R29. `none` when the page is there. -/
def walkFails (s : State) (ia : Nat) (w : Walk) : Option State :=
  match w with
  | .absent => some (s.abort ia)
  | w => (s.walkCause ia w).map s.raise

end State

end Sys2Proof.Machine
end

