-- ==== Sys2Proof/Machine/Spad.lean ====
section
/-! DEFINITION. The scratchpad: the range a task may address, reads and writes (spec 07_core_memory.md R190). -/

namespace Sys2Proof.Machine

namespace State

/-- Do the bytes [a, a + n) lie in the task's range (R190)? -/
def spadOk (s : State) (a n : Nat) : Bool :=
  let b := s.bound
  if b.affine then decide (b.pbase * 8192 ≤ a) && decide (a + n ≤ (b.pbase + b.plen + 1) * 8192)
  else
    decide (a + n ≤ 2 ^ 21) &&
    (s.partitions s.coreId).all fun p => decide (a + n ≤ p.1 * 8192) || decide ((p.1 + p.2) * 8192 ≤ a)

/-- A byte of the current core's scratchpad; one that nothing has written is free (R190). (Open points: DESIGN CHOICE, log 4.) -/
def spadByte (s : State) (a : Nat) : Byte := (tget? s.core.spad a).getD (Config.scratch s.bound.epoch s.coreId a)

def spadBytes (s : State) (a n : Nat) : List Byte := (List.range n).map fun i => s.spadByte (a + i)

/-- The `n` bytes at `a` as a little-endian number. -/
def spadNat (s : State) (a n : Nat) : Nat := leNat (s.spadBytes a n)

/-- Write bytes at rising addresses. -/
def spadPut (s : State) (a : Nat) (bs : List Byte) : State :=
  s.modCore fun c => { c with spad := (bs.foldl (fun t b => (tset t.1 t.2 b, t.2 + 1)) (c.spad, a)).1 }

/-- Write scattered bytes, the last of two at one address. -/
def spadCells (s : State) (cs : List Host.Cell) : State :=
  s.modCore fun c => { c with spad := cs.foldl (fun t b => tset t b.1 b.2) c.spad }

end State

end Sys2Proof.Machine
end

