-- ==== Sys2Proof/Machine/Remote.lean ====
section
/-! DEFINITION. What a syllable does that must wait, requests to other devices, the causes of an access, and the record cache
(spec 02_encoding.md R51; 03_scalar_control.md R81, R86, R87; 07_core_memory.md R206, R208; 10_memory_model.md R274; 14_fabric.md R362, R363). -/

namespace Sys2Proof.Machine

namespace State

/-- The syllable holds the core: it executes again on the next step (R51). -/
def hold (s : State) : State := s.modFront fun f => { f with hold := .fetch }

def noWindow (s : State) (va : Word) : State := s.raise { code := 0x08, addr := va }
def misalign (s : State) (va : Word) (size : Nat) : State := s.raise { code := 0x09, addr := va, detail := BitVec.ofNat 32 size }

/-- The cause of a read that met uncorrectable data (R10, R322). -/
def lossCause (s : State) (ia pa : Nat) : Cause :=
  { code := s.lossCode pa, addr := BitVec.ofNat 64 ia, detail := BitVec.ofNat 32 (s.stackOf pa) }

def uncorrectable (s : State) (ia pa : Nat) : State := s.raise (s.lossCause ia pa)

/-- The causes of R362. -/
def goneCause (s : State) (ia : Nat) : Cause :=
  { code := 0x0B, addr := BitVec.ofNat 64 ia, detail := (s.peer (s.holderOf ia)).inc.zeroExtend 32 }
def unreachableCause (s : State) (ia : Nat) : Cause :=
  { code := 0x0C, addr := BitVec.ofNat 64 ia, detail := BitVec.ofNat 32 (s.holderOf ia) }

/-- A request of the bound task leaves for the device that holds `ia` (R363, R371). -/
def sendFor (s : State) (ia : Nat) (inc : BitVec 16) (op : ReqOp) : State :=
  let dev := s.holderOf ia
  let s := if (s.peer dev).relay.isSome then
      s.modZ fun z => { z with relayed := BitVec.ofNat 16 (satAdd 16 z.relayed.toNat 1) }
    else s
  s.sendReq dev (wireAddr ia) inc op

/-- A request to another device under a fetch hold: the check at issue (R362), one send, and what follows the answer. -/
def ask (s : State) (ia : Nat) (inc : BitVec 16) (op : ReqOp) (k : State → RemoteReply → State) : State :=
  match s.core.answer with
  | some r => k (s.modCore fun c => { c with asked := none, answer := none }) r
  | none =>
    let dev := s.holderOf ia
    let p := s.peer dev
    let clear := fun s : State => s.modCore fun c => { c with asked := none }
    match s.core.asked, p.state with
    | some (_, true), _ => s.hold
    | _, .up =>
      if p.inc = inc then ((s.sendFor ia inc op).modCore fun c => { c with asked := some (dev, true), askedAt := s.time }).hold
      else (clear s).raise (s.goneCause ia)
    | _, .none => (clear s).raise (s.unreachableCause ia)
    | _, .refused => (clear s).raise (s.unreachableCause ia)
    | some _, _ => s.hold
    | none, _ => (s.modCore fun c => { c with asked := some (dev, false), askedAt := s.time }).hold

/-- The cause of an error reply. -/
def replyCause (ia : Nat) (code : BitVec 8) (detail : BitVec 32) : Cause := { code := code, addr := BitVec.ofNat 64 ia, detail := detail }

/-- A bad load that the task leaves behind: its fault comes at the suspending syllable (R208). (Open points: DEDUCED, log 15.) -/
def badMiss? (s : State) : Option Miss := s.core.misses.find? Miss.bad

/-- The fault of lost data reaches its first consumer; it is raised once (R208). (Open points: DEDUCED, log 15.) -/
def raiseMiss (s : State) (m : Miss) : State := (s.modCore fun c => { c with misses := c.misses.erase m }).uncorrectable m.ia ((s.peekPa? m.ia).getD 0)

/-! ### The record cache (R87) -/

/-- The record of a 64-byte block, most recently used from now on. -/
def recordHit (s : State) (ia : Nat) : Option (State × List Byte) :=
  (s.core.rcache.find? fun e => e.1 == ia).map fun e =>
    (s.modCore fun c => { c with rcache := e :: c.rcache.filter fun x => x.1 != ia }, e.2)

def recordFill (s : State) (ia : Nat) (bs : List Byte) : State :=
  s.modCore fun c => { c with rcache := ((ia, bs) :: c.rcache.filter fun x => x.1 != ia).take 32 }

/-- A hold on a page that is not resident: the fault queue holds it once, until a PGDONE names it (R86). -/
def holdPage (s : State) (ia : Nat) : State :=
  if s.core.front.holdPage.isSome then s.hold
  else
    let (s, ok) := s.fltqAdd s.myDie (ia / 65536)
    (if ok then s.modFront fun f => { f with holdPage := some (ia / 65536) } else s).hold

/-- The page of a local address whose absence is a fetch hold, then what follows (R28, R86, R293). -/
def withHeldPage (s : State) (ia : Nat) (k : State → Nat → State) : State :=
  if s.core.front.holdPage.isSome then s.hold
  else
    match s.walk s.myDie ia with
    | (s, .absent) => s.holdPage ia
    | (s, .page pa _) => k s pa
    | (s, w) => (s.walkFails ia w).getD s

/-- A shape record through the record cache, and what follows (R86, R87). -/
def withRecord (s : State) (va : Word) (k : State → List Byte → State) : State :=
  match (s.ctx s.bound.ctx).translate? va.toNat .rd with
  | none => s.noWindow va
  | some a =>
    if va.toNat % 64 ≠ 0 then s.misalign va 64
    else
      match s.recordHit a.ia with
      | some (s, bs) => k s bs
      | none =>
        if s.isRemote a.ia then
          s.ask a.ia a.inc (.load 64) fun s r =>
            match r with
            | .value bs => k (s.recordFill a.ia (s.remoteOverlay a.ia bs)) (s.remoteOverlay a.ia bs)
            | .sync _ _ => s
            | .error c d => s.raise (replyCause a.ia c d)
        else
          s.withHeldPage a.ia fun s pa =>
            let (s, g) := s.viewRead a.ia pa 64
            if g.lost then s.uncorrectable a.ia pa else k (s.recordFill a.ia g.data) g.data

end State

end Sys2Proof.Machine
end

