-- ==== Sys2Proof/Machine/Bounds.lean ====
section
/-! DEFINITION. The statistics counters and the bound check of stores (spec 04_numbers.md R127 to R132). -/

namespace Sys2Proof.Machine

/-- Count events of a tensor: pending in canonical mode (R132). -/
def State.countStat (s : State) (id : Nat) (a : Stat) : State :=
  if a = {} then s
  else if s.det then s.modVec fun v => { v with pcounts := tmod {} v.pcounts id fun b => b.sat32 a }
  else (s.modRun fun r => { r with counts := r.counts.or (some s.core.vec.counts) }).modVec
    fun v => { v with counts := tmod {} v.counts id fun b => b.sat32 a }

/-- Count the events of a conversion or an arithmetic syllable under ZTID at bundle entry (R132). -/
def State.countEv (s : State) (e : Ev) : State := s.countStat s.tid { sat := e.sat, flush := e.flush, nan := e.nan }

/-- The element format of ETYPE; `none` disables the entry (R127). -/
def etypeFmt : Nat → Option EFmt
  | 0 => some (.fp fp32)
  | 1 => some (.fp bf16)
  | 2 => some (.fp fp16)
  | 3 => some (.int ⟨32, true⟩)
  | 4 => some (.int ⟨16, true⟩)
  | 5 => some (.int ⟨8, true⟩)
  | 6 => some (.int ⟨8, false⟩)
  | 7 => some (.fp e4m3)
  | 8 => some (.fp e5m2)
  | _ => none

/-- An aligned 4-byte word that a store writes, with the bytes it writes and the tensor ID of its place. -/
structure SWord where
  addr : Nat
  val : Nat
  mask : BitVec 4 := 0xF
  id : Nat
  deriving DecidableEq, Repr

/-- The bits of the bytes of a mask. -/
def maskBits (m : BitVec 4) : Nat := packElems 8 4 fun i => if m.getLsbD i then 255 else 0

/-- Is a value outside [LO, HI] or a NaN (R130)? -/
def violates (x lo hi : FVal) : Bool := x.isNaN || x.lt lo || hi.lt x

/-- FMIN(FMAX(x, LO'), HI') on values: the bound that replaces x, if one does (R130). -/
def clampTo (f : EFmt) (x : FVal) (lo hi : FVal) : Option FVal :=
  let l := f.roundDirected true lo
  let h := f.roundDirected false hi
  let y := if !l.isNaN && x.below l then l else x
  if !h.isNaN && h.below y then some h else if !l.isNaN && x.below l then some l else none

/-- What the check makes of one element code: its new code, what it counts, and does it violate (R130)? -/
def checkElem (f : EFmt) (e : BoundEntry) (c : Nat) : Nat × Stat × Bool :=
  let x := f.decode c
  let lo := fp32.decode e.lo.toNat
  let hi := fp32.decode e.hi.toNat
  let viol := violates x lo hi
  let nan : Stat := { nan := x.isNaN.toNat }
  match e.mode.toNat with
  | 0 => (c, nan, false)
  | 1 => (c, { nan with viol := viol.toNat }, false)
  | 2 =>
    let c' := if x.isNaN then c
      else match clampTo f x lo hi with
        | some y => f.codeOf y
        | none => c
    (c', { nan with viol := viol.toNat }, false)
  | _ => (c, nan, viol)

/-- The check of the elements of one word, lowest first: new word, counts, address of the lowest violating element in trap mode. -/
def SWord.check (w : SWord) (e : BoundEntry) : SWord × Stat × Option Nat :=
  match etypeFmt e.etype.toNat with
  | none => (w, {}, none)
  | some f =>
    let wb := f.width / 8
    let v0 := w.val &&& maskBits w.mask
    (List.range (4 / wb)).foldl (fun (w, st, bad) k =>
      if w.mask.getLsbD (k * wb + wb - 1) then
        let (c, a, viol) := checkElem f e (elemOf f.width v0 k)
        ({ w with val := putFld w.val (k * f.width) f.width c }, st.sat32 a, if bad.isSome then bad else if viol then some (w.addr + k * wb) else none)
      else (w, st, bad)) (w, {}, none)

/-- The check of a store (R129 to R131): the words to write, or the violating element of lowest address with its tensor. -/
def State.boundCheck (s : State) (ws : List SWord) : State × Except (Nat × Nat) (List SWord) :=
  let rs := ws.map fun w => (w.id, w.check (tget {} s.core.vec.bounds w.id))
  let bads := rs.filterMap fun r => r.2.2.2.map fun a => (a, r.1)
  match bads with
  | b :: bs => (s, .error (bs.foldl (fun m x => if x.1 < m.1 then x else m) b))
  | [] => (rs.foldl (fun s r => s.countStat r.1 r.2.2.1) s, .ok (rs.map fun r => r.2.1))

/-- The bytes that words write, in their order. -/
def SWord.cells (w : SWord) : List Host.Cell :=
  (List.range 4).filterMap fun i => if w.mask.getLsbD i then some (w.addr + i, BitVec.ofNat 8 (w.val / 2 ^ (8 * i))) else none

/-- BOUND (R131). -/
def State.boundTrap (s : State) (a id : Nat) : State :=
  s.raise { code := 0x0E, addr := BitVec.ofNat 64 a, detail := BitVec.ofNat 32 id }

end Sys2Proof.Machine
end

