-- ==== Sys2Proof/Machine/Bind.lean ====
section
/-! DEFINITION. The scheduler's choice of a task for a core, its pick-up and binding, and pre-emption requests (spec 01_task.md R12 to R18, R27;
04_numbers.md R128; 06_matrix.md R187; 10_memory_model.md R265; 11_translation_scheduling.md R296 to R300, R305). -/

namespace Sys2Proof.Machine

namespace State

/-- R16 for a task that is to be bound on a core. -/
def roomOn (s : State) (t : Task) (core : Nat) : Bool :=
  let c := s.coreAt core
  if t.affine then
    t.home == some core ||
    (t.home.isNone && decide (c.copy.resid.length < 8) &&
     (s.partitions core).all fun p => decide (p.1 + p.2 ≤ t.pbase) || decide (t.pbase + t.plen + 1 ≤ p.1))
  else decide (c.copy.resid.length < 8)

/-- Does the launch's placement mask admit the core (R296, R349)? -/
def admits (l : Launch) (core : Nat) : Bool := (l.place (dieOf core)).testBit (core % 88 / 4)

/-- The core list of a deterministic launch on a die (R300). -/
def coreList (l : Launch) (die : Nat) : List Nat := (List.range 88).filterMap fun k => if admits l (die * 88 + k) then some (die * 88 + k) else none

/-- Is a READY task eligible for a core (R296)? -/
def eligible (s : State) (t : Task) (core : Nat) : Bool :=
  t.state == .ready && t.die == dieOf core && s.roomOn t core &&
  (match s.sched.launches.find? fun l => l.id == t.launch && !l.complete with
   | none => false
   | some l => admits l core && (!l.det || (coreList l t.die).getD (t.index % (coreList l t.die).length) 352 == core))

/-- Order of two eligible tasks (R297, R300): overdue first by time, then by level, then by entry, or by index in a deterministic launch. -/
def before (s : State) (a b : Task) : Bool :=
  match a.overdue, b.overdue with
  | some m, some n => decide (m < n) || (m == n && decide (a.order < b.order))
  | some _, none => true
  | none, some _ => false
  | none, none =>
    if a.level ≠ b.level then decide (b.level < a.level)
    else
      let det := (s.sched.launches.find? fun l => l.id == a.launch).any Launch.det
      if a.launch = b.launch ∧ det then decide (a.index < b.index) else decide (a.order < b.order)

/-- The task that a decision for a core chooses (R297). (Open points: DESIGN CHOICE, log 93.) -/
def choice (s : State) (core : Nat) : Option Task :=
  (s.sched.tasks.filter fun t => s.eligible t core).foldl (fun best t =>
    match best with
    | none => some t
    | some b => if s.before t b then some t else some b) none

/-- Is a core idle? -/
def idle (s : State) (core : Nat) : Bool := (s.coreAt core).task.isNone

/-- The placement weight of a core: its temperature above 40 °C and its droop, each clamped at zero (R298). -/
def placementWeight (s : State) (c : Nat) : Nat :=
  let t := s.time - (Config.sampleAge s.time c).val
  (Config.coreTemp t c - 40).toNat + (Config.coreDroop t c).toNat

/-- The core that placement chooses for a task (R298, R300): of the first DEV + 1 idle eligible cores in round-robin order, the one of lowest weight. (Open points: DESIGN CHOICE, log 93.) -/
def placement (s : State) (t : Task) : Option Nat :=
  let d := s.die t.die
  let cores := (List.range 88).map fun k => t.die * 88 + (d.rr + 1 + k) % 88
  let list := (cores.filter fun c => s.idle c && s.eligible t c).take (if t.affine then 88 else d.dev.toNat + 1)
  list.foldl (fun best c =>
    match best with
    | none => some c
    | some b => if !t.affine && decide (s.placementWeight c < s.placementWeight b) then some c else some b) none

/-- One decision passes a waiting task over (R297): a task that rises enters the queue of its new level. -/
def passOver (shift now : Nat) (t : Task) : Task :=
  if t.age + 1 < 2 ^ shift then { t with age := t.age + 1 }
  else if t.level < 3 then { t with age := 0, level := t.level + 1, order := now }
  else { t with age := 0, overdue := some (t.overdue.getD now) }

/-- The decision for a core: every other eligible task ages (R297), and round-robin order moves on (R298). (Open points: DESIGN CHOICE, log 93.) -/
def decide' (s : State) (t : Task) (core : Nat) : State :=
  let sh := (s.die t.die).ageShift.toNat
  let s := s.modSched fun q => { q with tasks := q.tasks.map fun u =>
    if !(u.launch == t.launch && u.index == t.index) && s.eligible u core then passOver sh q.nextOrder u else u, nextOrder := q.nextOrder + 1 }
  s.modDie t.die fun d => { d with rr := core % 88 }

/-- The registers of a task that LAUNCH has created: x, p, v and sc registers hold nothing defined (assumption log 10). (Open points: DESIGN CHOICE, log 10.) -/
def freshRegs (n : Nat) (live : Nat → Word) : Regs :=
  { x := Vector.ofFn fun i => if 8 ≤ i.val ∧ i.val < 12 then live (i.val - 8) else Config.freeWord (128 * n + i.val)
    p := Vector.ofFn fun i => BitVec.ofNat 128 (Config.freeVec (64 * n + i.val)).toNat
    v := Vector.ofFn fun i => Config.freeVec (64 * n + 16 + i.val)
    sc := Vector.ofFn fun i => Config.freeScale (16 * n + i.val) }

/-- The registers that a save area restores (R14, R15); what the suspension set does not hold is undefined. (Open points: DEDUCED, log 9; DESIGN CHOICE, log 10.) -/
def savedRegs (n : Nat) (full : Bool) (live : Nat → Word) (bs : List Byte) : Regs :=
  { x := Vector.ofFn fun i => if 8 ≤ i.val ∧ i.val < 12 then live (i.val - 8) else BitVec.ofNat 64 (at' bs (8 * i.val) 8)
    p := Vector.ofFn fun i => BitVec.ofNat 128 (at' bs (0x200 + 16 * i.val) 16)
    h := Vector.ofFn fun i => Handle.ofWords (BitVec.ofNat 64 (at' bs (0x300 + 16 * i.val) 8)) (BitVec.ofNat 64 (at' bs (0x308 + 16 * i.val) 8))
    v := Vector.ofFn fun i => if full then BitVec.ofNat 4096 (at' bs (0x4000 + 512 * i.val) 512) else Config.freeVec (64 * n + 16 + i.val)
    sc := Vector.ofFn fun i => if full then BitVec.ofNat 2048 (at' bs (0x1000 + 256 * i.val) 256) else Config.freeScale (16 * n + i.val)
    shape := Vector.ofFn fun i =>
      if full then (BitVec.ofNat 512 (at' bs (0x2000 + 128 * i.val) 64), BitVec.ofNat 512 (at' bs (0x2040 + 128 * i.val) 64))
      else (Config.freeShape (16 * n + 2 * i.val), Config.freeShape (16 * n + 2 * i.val + 1))
    z := { stat := ZStat.ofSaved (BitVec.ofNat 64 (at' bs 0x400 8)), tid := BitVec.ofNat 8 (at' bs 0x408 1), tvec := BitVec.ofNat 64 (at' bs 0x410 8)
           wcount := BitVec.ofNat 32 (at' bs 0x418 4), budget := BitVec.ofNat 32 (at' bs 0x41C 4), abortCount := BitVec.ofNat 16 (at' bs 0x420 2)
           abortPage := BitVec.ofNat 41 (fld (at' bs 0x420 8) 16 41)
           cause := { detail := BitVec.ofNat 32 (Config.freeWord (128 * n)).toNat, slot := BitVec.ofNat 3 (Config.freeWord (128 * n + 1)).toNat
                      code := BitVec.ofNat 8 (Config.freeWord (128 * n + 2)).toNat }
           addr := Config.freeWord (128 * n + 3), bundle := Config.freeWord (128 * n + 4)
           snapLen := BitVec.ofNat 16 (Config.freeWord (128 * n + 5)).toNat } }

/-- The task's system registers that every bind sets (R35, R93, R187, R307). -/
def bindZ (l : Launch) (phase : Nat) (t : Task) (fresh det : Bool) (z : ZRegs) : ZRegs :=
  { z with
    stat := { z.stat with det := det, af := t.affine }
    budget := if fresh then BitVec.ofNat 32 l.budget else z.budget
    wcount := if fresh then t.wcount else z.wcount
    abortPage := if fresh then t.abort.1 else z.abortPage
    abortCount := if fresh then t.abort.2 else z.abortCount
    graph := BitVec.ofNat 32 l.graph, phase := BitVec.ofNat 32 phase, job := BitVec.ofNat 32 l.job
    rkey := BitVec.ofNat 64 l.seed, rstr := BitVec.ofNat 64 (l.ctrBase + t.index), rpos := 0 }

/-- The pending counts of the save area (R14, R132). -/
def savedCounts (bs : List Byte) : Tab Stat :=
  (List.range 256).filterMap fun n =>
    let a : Stat := ⟨at' bs (16 * n) 4, at' bs (16 * n + 4) 4, at' bs (16 * n + 8) 4, at' bs (16 * n + 12) 4⟩
    if a = {} then none else some (n, a)

/-- Bytes of one page through the bound task's view, for the bind (R128, R187): `none` when the access fails. -/
def bindPage (s : State) (ia n : Nat) : State × Option (List Byte) :=
  if n = 0 then (s, some [])
  else
    let (s, w) := s.walk s.myDie ia
    match w with
    | .page pa _ =>
      let (s, g) := s.viewRead ia pa n
      (s, if g.lost then none else some g.data)
    | _ => (s, none)

/-- Read at most 4 KiB through the bound task's view, for the bind (R128, R187): `none` when the access fails. -/
def bindRead (s : State) (c va n : Nat) : State × Option (List Byte) :=
  match s.supIa c va n .rd with
  | none => (s, none)
  | some ia =>
    let k := min n (65536 - ia % 65536)
    match s.bindPage ia k with
    | (s, none) => (s, none)
    | (s, some a) =>
      let (s, b) := s.bindPage (ia + k) (n - k)
      (s, b.map fun b => a ++ b)

/-- Load the bound image, when the launch names one (R128). (Open points: DEDUCED, log 45.) -/
def loadBounds (s : State) (l : Launch) : State × Option Cause :=
  if l.bounds = 0 then (s, none)
  else
    match s.bindRead l.ctx l.bounds 4096 with
    | (s, none) => (s, some (badRecord l.bounds 0))
    | (s, some bs) =>
      (s.modVec fun v => { v with bounds := (List.range 256).map fun n =>
        (n, (({} : BoundEntry).write false (BitVec.ofNat 64 (at' bs (16 * n) 8))).write true (BitVec.ofNat 64 (at' bs (16 * n + 8) 8))) }, none)

/-- Load the stream state, when the launch names a table (R187, R421). (Open points: DEDUCED, log 45, 102.) -/
def loadStream (s : State) (l : Launch) (index : Nat) : State × Option Cause :=
  if l.streams = 0 then (s, none)
  else
    match s.bindRead l.ctx (l.streams + 32 * index) 32 with
    | (s, none) => (s, some (badRecord (l.streams + 32 * index) 7))
    | (s, some bs) =>
      (s.modZ fun z => { z with rkey := BitVec.ofNat 64 (at' bs 0 8), rstr := BitVec.ofNat 64 (at' bs 8 8), rpos := BitVec.ofNat 64 (at' bs 16 8) }, none)

/-- What pick-up finds in a record (R12): the resume address, its kind and the LINK and SAVE fields, or the number of the check that fails. -/
def recordCheck (bs : List Byte) : Option Nat :=
  let a := at' bs 0 8 / 4 * 4
  let r := at' bs 8 8
  let link := at' bs 16 8
  let save := at' bs 24 8
  if 2 ^ 57 ≤ a ∨ 2 ^ 57 ≤ r ∨ r % 4 ≠ 0 then some 1
  else if link.testBit 1 then some 2
  else if fld save 35 3 ≠ 0 then some 3
  else if link.testBit 0 ∧ 256 < fld save 56 8 + fld save 48 8 + 1 then some 4
  else none

/-- The lowest free resident number of the current core (R193). -/
def freeNumber (s : State) : Nat := (firstTo 8 fun r => (tget? s.core.copy.resid r).isNone).getD 7

/-- A non-affine task finds undefined contents in its range (R190): only the resident partitions keep their bytes. -/
def scrub (s : State) : State :=
  let ps := s.partitions s.coreId
  s.modCore fun c => { c with spad := c.spad.filter fun b => ps.any fun p => decide (p.1 * 8192 ≤ b.1) && decide (b.1 < (p.1 + p.2) * 8192) }

/-- Bind a task that has passed its pick-up on the current core (R17, R18, R265). -/
def bindChecked (s : State) (t : Task) (l : Launch) (bs save : List Byte) : State :=
  let link := at' bs 16 8
  let kind := at' bs 0 1 % 4
  let full := link.testBit 2
  let n := s.free
  let live := fun k : Nat => BitVec.ofNat 64 (at' bs (32 + 8 * k) 8)
  let regs := if kind = 0 then freshRegs n live else savedRegs n full live save
  let phase := ((s.graph? l.graph).map Graph.phase).getD 0
  let slice := (s.ctx t.ctx).slice.toNat
  let minSlice := (s.die t.die).minSlice.toNat
  let first := t.lastCore != some s.coreId
  let s := s.nextFree
  let s := s.modTaskRec t.launch t.index fun t => { t with state := .bound s.coreId, home := if t.affine then some s.coreId else none, wakeAcq := none, stays := t.stays + 1
                                                           held := none, sstep := none, copyErr := [], overdue := none
                                                           epoch := if t.affine ∧ t.home.isSome then t.epoch else n }
  let (s, ok) := if t.affine ∧ t.home = none then
      s.supWrite t.die t.ctx (t.recVa.toNat + 24) (leBytes 8 (saveWord (fld (at' bs 24 8) 56 8) (fld (at' bs 24 8) 48 8) (some s.coreId) (at' bs 24 8)))
    else (s, true)
  let s := s.modCore fun c => { c with
    regs := { regs with z := bindZ l phase t (kind == 0) (link.testBit 5) regs.z }
    task := some { launch := t.launch, index := t.index, ctx := t.ctx, prio := t.prio, affine := t.affine, pbase := fld (at' bs 24 8) 56 8
                   plen := fld (at' bs 24 8) 48 8, recVa := t.recVa, save := at' bs 24 8 % 2 ^ 35 * 32768, rstart := BitVec.ofNat 64 (at' bs 8 8)
                   mark := c.seq.toNat, vp := max t.vp t.lastRel, va := max t.va t.lastRel, vf := t.vf, lastRel := t.lastRel
                   lastSeq := (tget {} t.seqs s.coreId).last, relSeq := (tget {} t.seqs s.coreId).rel, seq0 := c.seq.toNat
                   stay := t.stays + 1, wake := t.wakeAcq
                   idem := t.rsIdem, posLoaded := false, slice := if slice = 0 then 0 else max slice minSlice
                   epoch := if t.affine ∧ t.home.isSome then t.epoch else n }
    front := { freeze := c.front.freeze, step := c.front.step, latched := some (.addr (BitVec.ofNat 64 (at' bs 0 8 / 4 * 4))), idemNext := t.idem }
    copy := { c.copy with
      resid := if c.copy.resid.any fun kv => kv.2 == (t.launch, t.index) then c.copy.resid else tset c.copy.resid s.freeNumber (t.launch, t.index)
      err := t.copyErr }
    vec := { c.vec with dq := [], pcounts := if kind ≠ 0 ∧ link.testBit 5 then savedCounts (save.drop 0x2400) else [] }
    sstep := t.sstep, preempt := false, bindTick := s.time, skew := max c.skew (s.time - ticksOf c.cycle) }
  let s := if t.affine then s else s.scrub
  let s := if slice ≠ 0 ∧ slice < minSlice then s.modStat fun z => { z with sliceup := true } else s
  let s := if first then s.freshen else s
  if !ok then s.killBound (badRecord t.recVa.toNat 9) 0
  else
  match s.loadStream l t.index with
  | (s, some c) => s.killBound c 0
  | (s, none) =>
    match (s.modTask fun b => { b with posLoaded := true }).loadBounds l with
    | (s, some c) => s.killBound c 0
    | (s, none) =>
      match t.held with
      | some h =>
        if h.trap then s.takeTrap h.cause 2 0 h.bundle.toNat (at' bs 0 8 / 4 * 4) else s
      | none => s

/-- Pick a READY task up on the current core (R12, R17, R38). (Open points: DESIGN CHOICE, log 10, 101; DEDUCED, log 88.) -/
def pickUp (s : State) (t : Task) : State :=
  let cancelled := fun (s : State) (lv : Nat) => s.endKilled t.launch t.index { code := 0x17, detail := BitVec.ofNat 32 lv } 0
  match t.cancel with
  | some lv => cancelled s lv
  | none =>
    match s.supRead t.die t.ctx t.recVa.toNat 64 with
    | (s, none) => s.endKilled t.launch t.index (badRecord t.recVa.toNat 5) 0
    | (s, some bs) =>
      if (at' bs 16 1).testBit 4 then cancelled s 1
      else
        match t.held.filter fun h => !h.trap with
        | some h => s.endKilled t.launch t.index h.cause 2
        | none =>
          match recordCheck bs with
          | some n => s.endKilled t.launch t.index (badRecord t.recVa.toNat n) 0
          | none =>
            match s.sched.launches.find? fun l => l.id == t.launch && !l.complete with
            | none => s
            | some l =>
              if at' bs 0 1 % 4 = 0 then s.bindChecked t l bs []
              else
                let ia := s.localIa (at' bs 24 8 % 2 ^ 35 * 32768)
                match s.readIa t.die ia (if (at' bs 16 1).testBit 2 then 32768 else 0x3400) 4 with
                | (s, none) => s.endKilled t.launch t.index (badRecord ia 6) 0
                | (s, some save) => s.bindChecked t l bs save

/-- The scheduler gives a core the task it chooses, where placement chooses that core for it; on any other core or task nothing happens (R296 to R300). -/
def bindOn (s : State) (core launch index : Nat) : State :=
  match s.choice core with
  | none => s
  | some t =>
    if t.launch = launch ∧ t.index = index ∧ s.placement t = some core then
      let keep := s.coreId
      ((s.decide' t core).focus core |>.pickUp t).focus keep
    else s

/-- Ask a core to pre-empt (R305); a request to any coupled member reaches every one (R249). -/
def askPreempt (s : State) (core : Nat) : State :=
  let g := (s.cluster (clusterOf core)).groups.find? fun g => g.coupled.getLsbD (lowCore core)
  let s := s.modCoreAt core fun c => { c with preempt := true }
  match g with
  | none => s
  | some g => (List.range 4).foldl (fun s i =>
      if g.coupled.getLsbD i then s.modCoreAt (clusterOf core * 4 + i) fun c => { c with preempt := true } else s) s

/-- Has the bound task of a core used its slice, with a READY task eligible for the core at its level or above (R305)? -/
def sliceOver (s : State) (core : Nat) : Bool :=
  match (s.coreAt core).task with
  | none => false
  | some b =>
    let level := match s.task? b.launch b.index with
      | some t => t.level
      | none => b.prio
    b.slice != 0 && decide ((s.coreAt core).bindTick + b.slice ≤ s.time) &&
    (s.sched.tasks.any fun t => s.eligible t core && decide (level ≤ t.level))

end State

end Sys2Proof.Machine
end

