-- ==== Sys2Proof/Machine/Rings.lean ====
section
/-! DEFINITION. Rings: the control words at home and the producer steps (spec 13_package.md R346, R347; 03_scalar_control.md R101, R102;
15_collectives_network.md R388, R389). -/

namespace Sys2Proof.Machine

/-- BASE and LOG2S of a ring register (R346, R388). -/
def ringBase (w : Word) : Nat := fld w.toNat 6 58 * 64
def ringLog (w : Word) : Nat := fld w.toNat 0 4

/-- The address of entry `k` (R347). -/
def ringEntry (w : Word) (k : Nat) : Nat := ringBase w + 64 + 64 * (k % 2 ^ ringLog w)

namespace State

/-- A doubleword at home at a local intermediate address. -/
def homeWord (s : State) (d ia : Nat) : State × Option Nat :=
  let (s, r) := s.readIa d ia 8 2
  (s, r.map leNat)

/-- An atomic write of a doubleword at home: released records on it are compacted first (R281). -/
def setHomeWord (s : State) (d ia v stamp : Nat) : State × Bool :=
  let s := (s.compactAt ia 8).1
  let (s, w) := s.walk d ia
  match w with
  | .page pa _ => (s.request pa).atomicWrite ia pa (leBytes 8 v) stamp
  | _ => (s, false)

/-- RES, PUB and CON of a ring (R347). -/
def ringWords (s : State) (d : Nat) (w : Word) : State × Option (Nat × Nat × Nat) :=
  let (s, r) := s.readIa d (ringBase w) 24 2
  (s, r.map fun bs => (at' bs 0 8, at' bs 8 8, at' bs 16 8))

/-- Steps 1 and 2 of R347: reserve slot `k` and write the entry; nothing happens while the page of the entry is not there. (Open points: DEDUCED, log 27.) -/
def ringReserve (s : State) (d : Nat) (w : Word) (k : Nat) (bs : List Byte) : State × Bool :=
  match s.writeIa d (ringEntry w k) bs 2 with
  | (s, false) => (s, false)
  | (s, true) =>
    let (s, st) := s.takeStamp
    s.setHomeWord d (ringBase w) ((k + 1) % 2 ^ 64) st

/-- The CAS on PUB by the bound task: the release part, the new PUB, and the acquire part, for which every compaction is complete (R101, R281, R347). -/
def ringPublish (s : State) (w : Word) (k : Nat) : State :=
  let d := s.myDie
  let a := ringBase w + 8
  let (s, st) := s.takeStamp
  let s := (wordsOf (s.mem.recs.filter s.covers)).foldl (fun s x => s.takeOwner x st) s
  let s := s.release st
  let (s, _) := s.setHomeWord d a ((k + 1) % 2 ^ 64) st
  match s.peekPa? a with
  | some pa => (((s.latest (s.syncDie pa) a d st)).acquirePart a false (s.sourcesOf (s.syncDie pa) a) false).1
  | none => s

/-- What the CAS on PUB waits for: room for PUB at its sync home, and the compaction that its acquire part forces (R270, R272). -/
def ringReady (s : State) (w : Word) : State × Bool :=
  let a := ringBase w + 8
  match s.peekPa? a with
  | none => (s, true)
  | some pa =>
    match s.syncRoom (s.syncDie pa) a s.myDie with
    | (s, false) => (s, false)
    | (s, true) => s.forceAll a ((s.sourcesOf (s.syncDie pa) a).filter fun kv => kv.1 != s.myDie)

/-- A held syllable has completed: it does not execute again. -/
def finishHeld (s : State) : State :=
  (s.modRun fun r => { r with todo := r.todo.tail }).modFront fun f => { f with hold := .none }

/-- Step 3 and 4 of R347 for the slot that the core has reserved in a ring; true when it has published. (Open points: DEDUCED, log 27.) -/
def ringTry (s : State) (w : Word) (k : Nat) : State × Bool :=
  let (s, r) := s.ringWords s.myDie w
  match r with
  | some (_, pub, _) =>
    if pub ≠ k then (s, false)
    else
      match s.ringReady w with
      | (s, true) => ((s.ringPublish w k).modCore fun c => { c with slotHeld := none, published := some k }, true)
      | (s, false) => (s, false)
  | none => (s, false)

end State

end Sys2Proof.Machine
end

