-- ==== Sys2Proof/Machine/Control.lean ====
section
/-! DEFINITION. Control flow, loops, suspension, traps and snapshots (spec 03_scalar_control.md R78 to R98). -/

namespace Sys2Proof.Machine

namespace State

/-- The position of the issuing bundle, and the current segment. -/
def pos (s : State) : Nat := (s.core.front.run.map Run.pos).getD s.core.front.pos
def segBundles (s : State) : List Stored := (s.core.front.cur.map Segment.bundles).getD []

/-- Latch a target (R78). -/
def latch (s : State) (t : Target) : State := s.modRun fun r => { r with latched := some t }

/-- The return address of CALL and JRL (R79). -/
def returnAddr (s : State) : Word :=
  match s.core.front.cur with
  | none => 0
  | some g =>
    BitVec.ofNat 64 (match g.bundles[s.pos + 1]? with
      | some b => g.frame + b.off
      | none => if g.next ≠ 0 then g.next + 16 else g.frame + g.len)

/-- Resolve a branch by `o` positions, then continue (R50). -/
def branch (s : State) (o : BitVec 21) (k : State → State) : State :=
  let t := (s.pos : Int) + o.toInt
  let nb := s.segBundles.length
  if t < 0 then s.illegal
  else if t.toNat < nb then k (s.latch (.pos false t.toNat))
  else if (s.core.front.cur.map Segment.next).getD 0 = 0 then s.illegal
  else
    match s.core.front.succ with
    | none => s.hold
    | some g =>
      if g.bad.isSome then k (s.latch (.pos true 1))
      else if t.toNat < nb + g.bundles.length then k (s.latch (.pos true (t.toNat - nb)))
      else s.illegal

/-- Start a loop level (R82). -/
def startLoop (s : State) (l : BitVec 2) (imm cnt : Nat) : State :=
  let start := s.pos + 1
  let stop := start + imm
  if s.segBundles.length ≤ stop then s.illegal
  else if cnt = 0 then
    (s.modFront fun f => { f with loops := terase f.loops l.toNat }).modRun fun r => { r with skipTo := some (stop + 1) }
  else s.modFront fun f => { f with loops := tset f.loops l.toNat ⟨start, stop, cnt⟩ }

/-- What a suspending syllable meets first: a load that the task leaves behind is bad (R90, R208); its copy jobs end first, and a cause that one of
them holds is raised at this slot (R220, R222). -/
def beforeLeaving (s : State) (k : State → State) : State :=
  match s.badMiss? with
  | some m => s.raiseMiss m
  | none =>
    if !s.core.copy.jobs.isEmpty then s.hold
    else
      match s.core.copy.err with
      | e :: rest => (s.modCopy fun c => { c with err := rest }).raise e.cause
      | [] => k s

/-- The task suspends once the bundle has committed (R90). -/
def suspend (s : State) (a : After) : State := s.beforeLeaving fun s => s.modRun fun r => { r with after := some a }

end State

/-! ### Transfers (R79 to R81) -/

def execBra (q : BitVec 3) (o : BitVec 21) (s : State) : Out := .next (s.guarded q fun s => s.branch o id)

def execCall (q : BitVec 3) (o : BitVec 21) (s : State) : Out :=
  .next (s.guarded q fun s => s.branch o fun s => s.setX 1 s.returnAddr 1)

def execJr (a : BitVec 6) (q : BitVec 3) (s : State) : Out := .next (s.guarded q fun s => s.latch (.addr (s.x a)))

def execJrl (d a : BitVec 6) (q : BitVec 3) (s : State) : Out :=
  .next (s.guarded q fun s => (s.latch (.addr (s.x a))).setX d s.returnAddr 1)

def execRet (q : BitVec 3) (s : State) : Out := .next (s.guarded q fun s => s.latch (.addr (s.x 1)))

/-- Read a table entry through the view: `none` for every failure of R81. -/
def State.readView64 (s : State) (va : Word) : State × Option Word :=
  match (s.ctx s.bound.ctx).translate? va.toNat .rd with
  | none => (s, none)
  | some a =>
    if va.toNat % 8 ≠ 0 ∨ s.isRemote a.ia then (s, none)
    else
      let (s, w) := s.walk s.myDie a.ia
      match w with
      | .page pa _ =>
        let (s, g) := s.viewRead a.ia pa 8
        (s, if g.lost then none else some (BitVec.ofNat 64 (leNat g.data)))
      | _ => (s, none)

def execJtab (d a b : BitVec 6) (q : BitVec 3) (s : State) : Out :=
  .next (s.guarded q fun s =>
    if (s.x d).toNat ≤ (s.x a).toNat then s.modStat fun t => { t with joor := true }
    else
      let e := s.x b + 8 * s.x a
      match s.readView64 e with
      | (s, some t) => s.latch (.addr t)
      | (s, none) => s.raise { code := 0x0D, addr := e })

/-! ### Loops (R82, R86) -/

def execLoop (l : BitVec 2) (a : BitVec 6) (i : BitVec 13) (s : State) : Out := .next (s.startLoop l i.toNat (s.x a).toNat)

def execLoopi (l : BitVec 2) (n : BitVec 6) (i : BitVec 13) (s : State) : Out := .next (s.startLoop l i.toNat (n.toNat + 1))

def execLoopsr (a b : BitVec 6) (l : BitVec 2) (q : BitVec 3) (s : State) : Out :=
  .next (s.guarded q fun s =>
    s.withRecord (s.x a) fun s bs =>
      s.startLoop l (fld (s.x b).toNat 0 13) (at' bs (8 + 4 * fld (s.x b).toNat 13 2) 4))

/-! ### The record cache and IDEM (R87, R89) -/

def execRfence (q : BitVec 3) (s : State) : Out := .next (s.guarded q fun s => s.modCore fun c => { c with rcache := [] })

def execRfenceA (a : BitVec 6) (q : BitVec 3) (s : State) : Out :=
  .next (s.guarded q fun s =>
    let va := (s.x a).toNat
    let c := s.ctx s.bound.ctx
    match c.cover? va with
    | none => s
    | some w =>
      let ia := ((tget {} c.aws w).ibase * 65536 + (va - (tget {} c.aws w).vbase * 65536)) / 64 * 64
      s.modCore fun k => { k with rcache := k.rcache.filter fun e => e.1 != ia })

def execIdem (s : State) : Out := .next (s.modRun fun r => { r with idem := true })

/-! ### Suspension (R90, R91) -/

def execSuspYield (q : BitVec 3) (s : State) : Out :=
  .next (s.guarded q fun s =>
    if s.core.regs.z.stat.tm then s.suspendMasked
    else if !s.core.front.loops.isEmpty then s.illegal
    else s.suspend .yield)

/-- Open points: DEDUCED, log 25. -/
def execSuspPark (a : BitVec 6) (q : BitVec 3) (s : State) : Out :=
  .next (s.guarded q fun s =>
    if s.core.regs.z.stat.tm then s.suspendMasked
    else if !s.core.front.loops.isEmpty || !s.core.regs.z.stat.af then s.illegal
    else
      match (s.ctx s.bound.ctx).translate? (s.x a).toNat .rd with
      | none => s.noWindow (s.x a)
      | some c =>
        if (s.x a).toNat % 8 ≠ 0 then s.misalign (s.x a) 8
        else if s.isRemote c.ia then s.illegal
        else s.suspend (.park (BitVec.ofNat 64 c.ia) (s.x 8)))

def execSuspExit (q : BitVec 3) (s : State) : Out :=
  .next (s.guarded q fun s => if s.core.regs.z.stat.tm then s.suspendMasked else s.suspend .exit)

/-! ### Traps (R94, R95) -/

/-- A software trap: it counts as committed, so the re-entry slot is 1 (R94, R95). -/
def State.softTrap (s : State) (code : BitVec 8) (imm : BitVec 13) : State :=
  s.takeTrap { code := code, detail := imm.zeroExtend 32 } 0 1 s.bundleAddr s.bundleAddr

def execTrap (c : BitVec 13) (s : State) : Out := .next (s.softTrap 0x0F c)

def execTrapNz (a : BitVec 6) (c : BitVec 13) (s : State) : Out := .next (if s.x a = 0 then s else s.softTrap 0x0F c)

def execBrk (c : BitVec 13) (s : State) : Out := .next (s.softTrap 0x10 c)

/-! ### The snapshot image (R25, R97, R98) -/

/-- The bytes of a stored image (R97). (Open points: DESIGN CHOICE, log 21.) -/
def Archived.bytes (i : Archived) : List Byte :=
  leBytes 4 i.len ++ leBytes 4 i.snap.slot ++ leBytes 8 i.snap.addr.toNat ++ ((List.range (i.len - 16)).map fun k => Config.imageByte i.key k)

/-- The image that a damaged one restores: every operand is free (R25). (Open points: DESIGN CHOICE, log 21.) -/
def damagedImage (n : Nat) : RegImage :=
  { x := (List.range 64).map fun i => (i, Config.freeWord (128 * n + i))
    p := (List.range 16).map fun i => (i, BitVec.ofNat 128 (Config.freeVec (64 * n + i)).toNat)
    v := (List.range 32).map fun i => (i, Config.freeVec (64 * n + 16 + i))
    sc := (List.range 16).map fun i => (i, Config.freeScale (16 * n + i))
    h := (List.range 16).map fun i => (i, Handle.ofWords (Config.freeWord (128 * n + 64 + 2 * i)) (Config.freeWord (128 * n + 65 + 2 * i)))
    shape := (List.range 8).map fun i => (i, (Config.freeShape (16 * n + 2 * i), Config.freeShape (16 * n + 2 * i + 1)))
    z := [0x0000, 0x0005, 0x0006, 0x0020, 0x0021, 0x0022].mapIdx fun i sel => (sel, Config.freeWord (128 * n + 96 + i)) }

/-- The snapshot that the buffer holds, or that a pending fill is bringing into it (R97). (Open points: DEDUCED, log 22.) -/
def State.snapNow (s : State) : Option Snap :=
  (s.core.snapOps.findSome? fun o => match o with
    | .ld p _ => some p
    | .st _ _ _ => none).or s.core.snap

/-- Open points: DESIGN CHOICE, log 21; DEDUCED, log 22. -/
def execSnapst (a : BitVec 6) (s : State) : Out :=
  let at64 := (s.x a).toNat
  let len := s.core.regs.z.snapLen.toNat
  match s.snapNow with
  | none => .next s.illegal
  | some p =>
    if !s.core.regs.z.stat.sv || at64 % 64 != 0 || !s.spadOk at64 len then .next s.illegal
    else
      let im : Archived := { key := s.free, len := len, snap := p }
      .next ((({ s.nextFree with archive := im :: s.archive } : State).modCore fun c => { c with snapOps := c.snapOps ++ [.st at64 im 36] }).modStat
        fun t => { t with ss := true })

/-- Open points: DESIGN CHOICE, log 21; DEDUCED, log 22. -/
def execSnapld (a : BitVec 6) (s : State) : Out :=
  let at64 := (s.x a).toNat
  if s.core.regs.z.stat.tm || at64 % 64 != 0 || !s.spadOk at64 64 then .next s.illegal
  else
    let head := s.spadBytes at64 64
    let len := at' head 0 2
    let slot := at' head 4 1
    if len % 64 ≠ 0 ∨ len < 64 ∨ 16384 < len ∨ 7 < slot ∨ !s.spadOk at64 len then .next s.illegal
    else
      let body := (s.spadBytes at64 len).drop 16
      let found := s.archive.find? fun i => i.len == len && body == (List.range (len - 16)).map fun k => Config.imageByte i.key k
      let snap : Snap := match found with
        | some i => { i.snap with addr := BitVec.ofNat 64 (at' head 8 8), slot := slot }
        | none => { addr := BitVec.ofNat 64 (at' head 8 8), slot := slot, image := damagedImage s.free, flight := [], queue := [], drain := none
                    loops := [], latched := none, after := none, idem := false, wrote := [], skipTo := none, completes := true }
      .next ((s.nextFree.modCore fun c => { c with snapOps := c.snapOps.filter SnapOp.isStore ++ [.ld snap 36] }).modStat
        fun t => { t with sv := true })

def execTret (s : State) : Out :=
  .next (if !s.core.regs.z.stat.sv then s.illegal
    else if s.core.snapOps.any fun o => !o.isStore then s.hold
    else s.returnFromTrap.modRun fun r => { r with tret := true, unmasked := !s.core.regs.z.stat.tm })

def execSnaprel (s : State) : Out :=
  .next (if !s.core.regs.z.stat.ss then s.illegal else s.modRun fun r => { r with snaprel := true })

end Sys2Proof.Machine
end

