-- ==== Sys2Proof/Machine/Foot.lean ====
section
/-! DEFINITION. Tag-table reads, handle roles and their updates, footprints and their conflicts (spec 07_core_memory.md R193, R198, R202, R223 to
R226; 06_matrix.md R168). -/

namespace Sys2Proof.Machine

/-- One read of a slot (R193). -/
def TagEntry.read (t : TagEntry) : TagEntry :=
  if t.valid && !t.lock && t.reads != 0 then { t with reads := t.reads - 1, valid := t.reads != 1 } else t

/-- Lowest address at which two ranges overlap. -/
def Range.meet (a b : Range) : Option Nat :=
  if a.glob = b.glob ∧ a.lo < b.hi ∧ b.lo < a.hi then some (max a.lo b.lo) else none

/-- The least of two optional addresses. -/
def minOpt : Option Nat → Option Nat → Option Nat
  | none, b => b
  | a, none => a
  | some a, some b => some (min a b)

/-- Lowest address at which some range of one list meets one of another. -/
def meetAll (xs ys : List Range) : Option Nat := xs.foldl (fun m x => ys.foldl (fun m y => minOpt m (x.meet y)) m) none

/-- Lowest address at which a command's footprint conflicts with another's (R225): reads never conflict with reads. -/
def Foot.conflict (c e : Foot) : Option Nat := minOpt (meetAll c.writes (e.reads ++ e.writes)) (meetAll c.reads e.writes)

/-- Bytes of `n` elements of a format class (R167). -/
def classBytes (cls n : Nat) : Nat :=
  match cls with
  | 0 => 2 * n
  | 2 => (n + 1) / 2
  | _ => n

/-- Elements of a block of a scale kind: 8 for DB4, 32 for MX (R167). -/
def blockLen (skind : Nat) : Nat := if skind = 1 then 8 else 32

/-- The source, scale and band bytes of an MLOAD (R168), as scratchpad ranges. (Open points: DEDUCED, log 38.) -/
def MxCmd.reads (c : MxCmd) : List Range :=
  if c.rows = 0 ∨ c.cols = 0 then []
  else
    ((List.range c.rows).map fun r => ⟨false, c.base + r * c.stride, c.base + r * c.stride + classBytes c.cls c.cols⟩) ++
    (if c.skind = 0 then []
     else (List.range c.rows).map fun r => ⟨false, c.soff + r * c.sstride, c.soff + r * c.sstride + c.cols / blockLen c.skind⟩) ++
    (if c.skind = 1 then [⟨false, c.bandoff, c.bandoff + 4⟩] else [])

/-- An engine command's update takes effect (R198). -/
def Handle.ended (h : Handle) (producer : Bool) : Handle :=
  if producer then { h.produce 1 with pp := h.pp - 1 } else { h.consume 1 with cp := h.cp - 1 }

namespace State

/-- Count one read of each slot that the bytes of a list of ranges touch (R193). -/
def readSlots (s : State) (rs : List (Nat × Nat)) : State :=
  let slots := (rs.flatMap fun r => (List.range ((r.2 + 2047) / 2048 - r.1 / 2048)).map fun i => r.1 / 2048 + i).eraseDups
  slots.foldl (fun s n =>
    match tget? s.core.copy.tags n with
    | none => s
    | some t => s.modCopy fun c => { c with tags := tset c.tags n t.read }) s

/-! ### Handles (R198, R202) -/

/-- Tickets of the outstanding commands of a role on a handle. -/
def roleTickets (s : State) (hd : Nat) (producer : Bool) : List Nat :=
  (s.core.copy.jobs.filter fun j => j.hd == hd && j.produces == producer).map Job.ticket ++
  (if producer then [] else (s.mloads.filter fun c => c.hd == hd).map MxCmd.ticket)

/-- Apply the updates that no earlier command of their role holds back, in order of issue (R198). -/
def settleHandles (s : State) : State :=
  (sortBy HUpdate.ticket s.core.copy.updates).foldl (fun s u =>
    if (s.roleTickets u.hd u.producer).any fun t => decide (t < u.ticket) then s
    else
      (s.modH u.hd fun h => Handle.ended h u.producer).modCopy fun c => { c with updates := c.updates.filter fun x => x != u }) s

/-- A command that named a handle has ended. -/
def handleEnd (s : State) (hd : Nat) (producer : Bool) (ticket : Nat) : State :=
  (if hd = 0 then s else s.modCopy fun c => { c with updates := c.updates ++ [⟨hd, producer, ticket⟩] }).settleHandles

/-- Is a command in the opposite role outstanding (R202)? Opposite to a wait for Avail are the producers. -/
def oppositeOut (s : State) (hd : Nat) (waitAvail : Bool) : Bool :=
  let h := s.core.regs.h[hd]?.getD {}
  if waitAvail then h.pp != 0 else h.cp != 0

/-- A handle wait for `n` slots: false when it must stall, `none` when it is ILLEGAL (R198, R199, R202). -/
def handleWait (s : State) (h : BitVec 4) (waitAvail : Bool) (n : Nat) : Option Bool :=
  let v := s.h h
  if v.count = 0 ∨ v.count < n then none
  else if n ≤ (if waitAvail then v.avail else v.free) then some true
  else if s.oppositeOut h.toNat waitAvail then some false
  else none

/-- The handle wait of an engine command, then what follows (R198). -/
def withHandle (s : State) (hd : BitVec 4) (waitAvail : Bool) (k : State → State) : State :=
  if hd = 0 then k s
  else
    match s.handleWait hd waitAvail 1 with
    | none => s.illegal
    | some false => s.modFront fun f => { f with hold := .stall }
    | some true => k s

/-- A command on a handle has issued (R198). -/
def handleStart (s : State) (hd : Nat) (producer : Bool) : State :=
  if hd = 0 then s else s.modH hd fun h => if producer then { h with pp := h.pp + 1 } else { h with cp := h.cp + 1 }

/-- The next place in the order of issue. -/
def takeTicket (s : State) : State × Nat := ({ s with ticket := s.ticket + 1 }, s.ticket)

/-! ### Footprints (R223 to R226) -/

/-- The footprints of the outstanding commands: engine code, place in the order of issue, and sets (R223). -/
def commandFoots (s : State) : List (Nat × Nat × Foot) :=
  (s.core.copy.jobs.map fun j => (1, j.ticket, j.foot)) ++
  (s.mloads.map fun c => (2, c.ticket, { reads := c.reads })) ++
  (s.net.work.map fun w => (3, w.ticket, w.foot))

/-- Every outstanding footprint that bears on this core: the declared sets and the commands' (R223). -/
def foots (s : State) : List (Nat × Nat × Foot) :=
  (s.core.copy.footProg.map fun d => (0, d.ticket, d.foot)) ++ (s.core.copy.footNet.map fun d => (3, d.ticket, d.foot)) ++ s.commandFoots

/-- The first conflict of a party's footprint with an earlier one of another party: lowest address, engine code (R225). -/
def firstConflict (es : List (Nat × Nat × Foot)) (code ticket : Nat) (f : Foot) : Option (Nat × Nat) :=
  es.foldl (fun best e =>
    if e.1 = code ∨ ticket ≤ e.2.1 then best
    else
      match f.conflict e.2.2, best with
      | none, b => b
      | some a, none => some (a, e.1)
      | some a, some b => if a < b.1 then some (a, e.1) else some b) none

/-- The conflict of a command with an outstanding footprint of another party (R225). -/
def conflict? (s : State) (code ticket : Nat) (f : Foot) : Option (Nat × Nat) := firstConflict s.foots code ticket f

/-- FOOTPRINT in a deterministic launch whose footprint conflicts with one of `es`, else what follows (R226). -/
def withFoots (s : State) (es : List (Nat × Nat × Foot)) (code : Nat) (f : Foot) (k : State → State) : State :=
  if s.det then
    match firstConflict es code s.ticket f with
    | some (a, e) => s.raise { code := 0x04, addr := BitVec.ofNat 64 a, detail := BitVec.ofNat 32 (e * 16 + code) }
    | none => k s
  else k s

/-- The test of a command, against every outstanding footprint (R226). -/
def withFootprint (s : State) (code : Nat) (f : Foot) (k : State → State) : State := s.withFoots s.foots code f k

/-- The test of a declaration, against the outstanding commands (R226). -/
def withCommands (s : State) (code : Nat) (f : Foot) (k : State → State) : State := s.withFoots s.commandFoots code f k

end State

end Sys2Proof.Machine
end

