-- ==== Sys2Proof/Machine/Stream.lean ====
section
/-! DEFINITION. The Philox stream of a task (spec 04_numbers.md R114; 06_matrix.md R186). -/

namespace Sys2Proof.Machine

/-- One round of Philox4x32: the four words of the counter and the two of the key (R186). -/
def philoxRound (c : Nat × Nat × Nat × Nat) (k0 k1 : Nat) : Nat × Nat × Nat × Nat :=
  let (c0, c1, c2, c3) := c
  let p0 := 0xD2511F53 * c0
  let p1 := 0xCD9E8D57 * c2
  ((p1 / 2 ^ 32) ^^^ c1 ^^^ k0, p1 % 2 ^ 32, (p0 / 2 ^ 32) ^^^ c3 ^^^ k1, p0 % 2 ^ 32)

/-- Rounds with the key raised by the increments after each (R186). -/
def philoxRounds : Nat → Nat × Nat × Nat × Nat → Nat → Nat → Nat × Nat × Nat × Nat
  | 0, c, _, _ => c
  | n + 1, c, k0, k1 => philoxRounds n (philoxRound c k0 k1) ((k0 + 0x9E3779B9) % 2 ^ 32) ((k1 + 0xBB67AE85) % 2 ^ 32)

/-- Draw number `d` of a stream (R186). -/
def philoxDraw (key stream d : Nat) : Nat :=
  let b := d / 4 % 2 ^ 64
  let (w0, w1, w2, w3) := philoxRounds 10 (b % 2 ^ 32, b / 2 ^ 32, stream % 2 ^ 32, stream / 2 ^ 32 % 2 ^ 32) (key % 2 ^ 32) (key / 2 ^ 32 % 2 ^ 32)
  match d % 4 with
  | 0 => w0
  | 1 => w1
  | 2 => w2
  | _ => w3

namespace State

/-- Draw `i` of a syllable that draws from POS on (R186). -/
def draw (s : State) (i : Nat) : Nat :=
  let z := s.core.regs.z
  philoxDraw z.rkey.toNat z.rstr.toNat ((z.rpos.toNat + i) % 2 ^ 64)

/-- A syllable has consumed `n` draws (R186). -/
def drawn (s : State) (n : Nat) : State := s.modZ fun z => { z with rpos := z.rpos + BitVec.ofNat 64 n }

end State

end Sys2Proof.Machine
end

