-- ==== Sys2Proof/Machine/Vector.lean ====
section
/-! DEFINITION. The vector instructions of V0 and V1 (spec 05_vector.md R135 to R162; 04_numbers.md R112 to R123). -/

namespace Sys2Proof.Machine

/-- Element `e` of width `w` of a vector register (R107). -/
def vElem (w : Nat) (v : VReg) (e : Nat) : Nat := elemOf w v.toNat e

/-- Elements of width `w` in a lane (R135). -/
def perLane (w : Nat) : Nat := 32 / w

namespace State

/-- Write elements of width `w` to the enabled lanes, and count the events of those lanes (R137, R140). -/
def setElems (s : State) (d : BitVec 5) (w : Nat) (m : Pred) (lat : Nat) (f : Nat → Nat × Ev) : State :=
  (s.countEv (Ev.sumTo (128 * perLane w) fun e => if m.getLsbD (e / perLane w) then (f e).2 else {})).setV d m (ofElems w fun e => (f e).1) lat

/-- An operation on pairs of elements (R142). -/
def vmap2 (s : State) (d a b : BitVec 5) (t : VTy) (p : BitVec 4) (lat : Nat) (fp : FFmt → Nat → Nat → Nat × Ev) (int : IFmt → Nat → Nat → Nat) : State :=
  let w := (VTy.width t)
  s.setElems d w (s.p p) lat fun e =>
    match VTy.fmt s.f8 t with
    | .fp f => fp f (vElem w (s.v a) e) (vElem w (s.v b) e)
    | .int f => (int f (vElem w (s.v a) e) (vElem w (s.v b) e) % 2 ^ w, {})

end State

/-! ### Arithmetic (R142, R143) -/

def execVadd (d a b : BitVec 5) (t : VTy) (p : BitVec 4) (s : State) : Out :=
  .next (s.vmap2 d a b t p 3 FFmt.add fun _ x y => x + y)

def execVsub (d a b : BitVec 5) (t : VTy) (p : BitVec 4) (s : State) : Out :=
  .next (s.vmap2 d a b t p 3 FFmt.sub fun f x y => x + (2 ^ f.width - y % 2 ^ f.width))

def execVmul (d a b : BitVec 5) (t : VTy) (p : BitVec 4) (s : State) : Out :=
  .next (s.vmap2 d a b t p 5 FFmt.mul fun _ x y => x * y)

def execVminmaxMin (d a b : BitVec 5) (t : VTy) (p : BitVec 4) (s : State) : Out :=
  .next (s.vmap2 d a b t p 3 (fun f x y => (f.min x y, {})) fun f x y => if f.decode x ≤ f.decode y then x else y)

def execVminmaxMax (d a b : BitVec 5) (t : VTy) (p : BitVec 4) (s : State) : Out :=
  .next (s.vmap2 d a b t p 3 (fun f x y => (f.max x y, {})) fun f x y => if f.decode x ≤ f.decode y then y else x)

/-- An operation on single elements that counts nothing (R143). -/
def State.vmap1 (s : State) (d a : BitVec 5) (t : VTy) (p : BitVec 4) (fp : FFmt → Nat → Nat) (int : IFmt → Nat → Nat) : State :=
  let w := (VTy.width t)
  s.setElems d w (s.p p) 3 fun e =>
    (match VTy.fmt s.f8 t with
     | .fp f => if (f.decode (vElem w (s.v a) e)).isNaN then f.nanCode else fp f (vElem w (s.v a) e)
     | .int f => int f (vElem w (s.v a) e) % 2 ^ w, {})

def execVabs (d a : BitVec 5) (t : VTy) (p : BitVec 4) (s : State) : Out :=
  .next (s.vmap1 d a t p (fun f x => x % 2 ^ (f.width - 1)) fun f x => ofSval f.width ((f.decode x).natAbs : Int))

def execVneg (d a : BitVec 5) (t : VTy) (p : BitVec 4) (s : State) : Out :=
  .next (s.vmap1 d a t p (fun f x => x ^^^ 2 ^ (f.width - 1)) fun f x => 2 ^ f.width - x % 2 ^ f.width)

/-- VFMA, VFMS and VFNMA (R144). -/
def State.vfused (s : State) (d a b c : BitVec 5) (y : Bool) (p : BitVec 4) (negProd negC : Bool) : State :=
  let sg := fun (n : Bool) (v : FVal) => if n then v.neg else v
  s.setElems d 32 (s.p p) 5 fun i =>
    let terms :=
      if y then
        [0, 1].map fun j => sg negProd ((bf16.decode (vElem 16 (s.v a) (2 * i + j))).mul (bf16.decode (vElem 16 (s.v b) (2 * i + j))))
      else [sg negProd ((fp32.decode (vElem 32 (s.v a) i)).mul (fp32.decode (vElem 32 (s.v b) i)))]
    fusedSum terms (sg negC (fp32.decode (vElem 32 (s.v c) i)))

def execVfma (d a b c : BitVec 5) (y : Bool) (p : BitVec 4) (s : State) : Out := .next (s.vfused d a b c y p false false)
def execVfms (d a b c : BitVec 5) (y : Bool) (p : BitVec 4) (s : State) : Out := .next (s.vfused d a b c y p false true)
def execVfnma (d a b c : BitVec 5) (y : Bool) (p : BitVec 4) (s : State) : Out := .next (s.vfused d a b c y p true false)

/-! ### Logic and shifts (R145) -/

/-- VLOGIC: whole lanes, whatever the type. -/
def State.vlogic (s : State) (d a b : BitVec 5) (p : BitVec 4) (f : VReg → VReg → VReg) : State := s.setV d (s.p p) (f (s.v a) (s.v b)) 3

def execVlogicAnd (d a b : BitVec 5) (_ : VTy) (p : BitVec 4) (s : State) : Out := .next (s.vlogic d a b p fun x y => x &&& y)
def execVlogicOr (d a b : BitVec 5) (_ : VTy) (p : BitVec 4) (s : State) : Out := .next (s.vlogic d a b p fun x y => x ||| y)
def execVlogicXor (d a b : BitVec 5) (_ : VTy) (p : BitVec 4) (s : State) : Out := .next (s.vlogic d a b p fun x y => x ^^^ y)
def execVlogicAndn (d a b : BitVec 5) (_ : VTy) (p : BitVec 4) (s : State) : Out := .next (s.vlogic d a b p fun x y => x &&& ~~~y)
def execVlogicNot (d a : BitVec 5) (_ : VTy) (p : BitVec 4) (s : State) : Out := .next (s.vlogic d a a p fun x _ => ~~~x)

/-- VSHIFT: the amount is the low bits of the element of vb (R145). -/
def State.vshift (s : State) (d a b : BitVec 5) (t : VTy) (p : BitVec 4) (f : Nat → Nat → Nat → Nat) : State :=
  let w := (VTy.width t)
  s.setElems d w (s.p p) 3 fun e => (f w (vElem w (s.v a) e) (vElem w (s.v b) e % w) % 2 ^ w, {})

def execVshiftShl (d a b : BitVec 5) (t : VTy) (p : BitVec 4) (s : State) : Out := .next (s.vshift d a b t p fun _ x n => x * 2 ^ n)
def execVshiftShr (d a b : BitVec 5) (t : VTy) (p : BitVec 4) (s : State) : Out := .next (s.vshift d a b t p fun _ x n => x / 2 ^ n)
def execVshiftSra (d a b : BitVec 5) (t : VTy) (p : BitVec 4) (s : State) : Out :=
  .next (s.vshift d a b t p fun w x n => ofSval w (sval w x / (2 ^ n : Nat)))

/-! ### Comparison and selection (R146, R147) -/

/-- VCMP: the relation must hold for every element of an enabled lane (R146). -/
def State.vcompare (s : State) (pd : BitVec 4) (a b : BitVec 5) (t : VTy) (g : BitVec 4) (fp : FVal → FVal → Bool) (int : Int → Int → Bool) : State :=
  let w := (VTy.width t)
  let m := s.p g
  s.setP pd (ofBits fun i => m.getLsbD i && allTo (perLane w) fun j =>
    let x := vElem w (s.v a) (i * perLane w + j)
    let y := vElem w (s.v b) (i * perLane w + j)
    match VTy.fmt s.f8 t with
    | .fp f => fp (f.decode x) (f.decode y)
    | .int f => int (f.decode x) (f.decode y)) 2

def execVcmpEq (p : BitVec 4) (a b : BitVec 5) (t : VTy) (g : BitVec 4) (s : State) : Out :=
  .next (s.vcompare p a b t g FVal.eq fun x y => x == y)
def execVcmpNe (p : BitVec 4) (a b : BitVec 5) (t : VTy) (g : BitVec 4) (s : State) : Out :=
  .next (s.vcompare p a b t g (fun x y => !x.eq y) fun x y => x != y)
def execVcmpLt (p : BitVec 4) (a b : BitVec 5) (t : VTy) (g : BitVec 4) (s : State) : Out :=
  .next (s.vcompare p a b t g FVal.lt fun x y => decide (x < y))
def execVcmpLe (p : BitVec 4) (a b : BitVec 5) (t : VTy) (g : BitVec 4) (s : State) : Out :=
  .next (s.vcompare p a b t g FVal.le fun x y => decide (x ≤ y))
def execVcmpGt (p : BitVec 4) (a b : BitVec 5) (t : VTy) (g : BitVec 4) (s : State) : Out :=
  .next (s.vcompare p a b t g (fun x y => y.lt x) fun x y => decide (y < x))
def execVcmpGe (p : BitVec 4) (a b : BitVec 5) (t : VTy) (g : BitVec 4) (s : State) : Out :=
  .next (s.vcompare p a b t g (fun x y => y.le x) fun x y => decide (y ≤ x))

def execVsel (d a b : BitVec 5) (p : BitVec 4) (s : State) : Out :=
  .next (s.setV d (BitVec.allOnes 128) (mergeLanes (s.p p) (s.v b) (s.v a)) 2)

/-! ### Conversion (R148) -/

/-- VCVT: source type `src`, destination type `dst`; one draw for each converted element in stochastic mode (R114). -/
def execVcvt (d a : BitVec 5) (r : RMode) (src dst : VTy) (p : BitVec 4) (s : State) : Out :=
  let n := 128 * min (perLane (VTy.width src)) (perLane (VTy.width dst))
  let t := s.setElems d (VTy.width dst) (s.p p) 3 fun e =>
    if e < n then convertElem (VTy.fmt s.f8 src) (VTy.fmt s.f8 dst) r (if r = .rs then s.draw e else 0) (vElem (VTy.width src) (s.v a) e) else (0, {})
  .next (if r = .rs then t.drawn n else t)

/-! ### Reductions and scans (R149, R150) -/

/-- One level of the tree of R122: neighbours are combined. -/
def pairUp {α : Type} (f : α → α → α) : List α → List α
  | a :: b :: rest => f a b :: pairUp f rest
  | l => l

/-- The tree of R122 over 128 values. -/
def tree128 {α : Type} (f : α → α → α) (l : List α) : List α := (List.range 7).foldl (fun l _ => pairUp f l) l

/-- One step of the scan of R123 at distance `n`. -/
def scanStep {α : Type} (f : α → α → α) (n : Nat) (l : List α) : List α := l.take n ++ List.zipWith f l (l.drop n)

/-- The parallel prefix of R123. -/
def scan128 {α : Type} (f : α → α → α) (l : List α) : List α := [1, 2, 4, 8, 16, 32, 64].foldl (fun l n => scanStep f n l) l

/-- The sum of VRED.ADD and VSCAN with its events (R122). -/
def sumLane (fl : Bool) (x y : Nat × Ev) : Nat × Ev :=
  if fl then
    let (v, e) := fp32.add x.1 y.1
    (v, (x.2.add y.2).add e)
  else ((x.1 + y.1) % 2 ^ 32, {})

namespace State

/-- The lanes of a source, disabled ones as an identity (R122). -/
def lanesOr (s : State) (a : BitVec 5) (p : BitVec 4) (identity : Nat) : List Nat :=
  (List.range 128).map fun i => if (s.p p).getLsbD i then vElem 32 (s.v a) i else identity

/-- VRED: the tree's result goes to lane 0, whatever the predicate (R149). -/
def vreduce (s : State) (d a : BitVec 5) (p : BitVec 4) (identity : Nat) (f : Nat × Ev → Nat × Ev → Nat × Ev) : State :=
  let r := ((tree128 f ((s.lanesOr a p identity).map fun x => (x, ({} : Ev)))).head?).getD (identity, {})
  (s.countEv r.2).setV d 1 (BitVec.ofNat 4096 (r.1 % 2 ^ 32)) 7

end State

/-- Is the type floating-point FP32 (R136)? -/
def VTy.isF32 (t : VTy) : Bool := t == .f32

def execVredAdd (d a : BitVec 5) (t : VTy) (p : BitVec 4) (s : State) : Out :=
  .next (s.vreduce d a p (if VTy.isF32 t then 0x80000000 else 0) (sumLane (VTy.isF32 t)))

def execVredMax (d a : BitVec 5) (t : VTy) (p : BitVec 4) (s : State) : Out :=
  .next (s.vreduce d a p (if VTy.isF32 t then 0xFF800000 else 0x80000000) fun x y =>
    (if VTy.isF32 t then fp32.max x.1 y.1 else if sval 32 x.1 ≤ sval 32 y.1 then y.1 else x.1, {}))

def execVredMin (d a : BitVec 5) (t : VTy) (p : BitVec 4) (s : State) : Out :=
  .next (s.vreduce d a p (if VTy.isF32 t then 0x7F800000 else 0x7FFFFFFF) fun x y =>
    (if VTy.isF32 t then fp32.min x.1 y.1 else if sval 32 x.1 ≤ sval 32 y.1 then x.1 else y.1, {}))

def execVscan (d a : BitVec 5) (t : VTy) (p : BitVec 4) (s : State) : Out :=
  let fl := VTy.isF32 t
  let l := scan128 (sumLane fl) ((s.lanesOr a p (if fl then 0x80000000 else 0)).map fun x => (x, ({} : Ev)))
  .next (s.setElems d 32 (s.p p) 9 fun i =>
    let x := l.getD i (0, {})
    (if fl then fp32.canon x.1 else x.1, x.2))

/-! ### Movement (R151 to R154) -/

/-- Whole lanes of enabled positions (R151). -/
def State.vmove (s : State) (d : BitVec 5) (p : BitVec 4) (f : Nat → BitVec 32) (lat : Nat) : State := s.setV d (s.p p) (ofLanes f) lat

def execVpermIdx (d a b : BitVec 5) (p : BitVec 4) (s : State) : Out :=
  .next (s.vmove d p (fun i => lane (s.v a) ((lane (s.v b) i).toNat % 128)) 4)

def execVpermRot (d a b : BitVec 5) (p : BitVec 4) (s : State) : Out :=
  .next (s.vmove d p (fun i => lane (s.v a) ((i + (s.x (b.zeroExtend 6)).toNat) % 128)) 4)

def execVpermPsh (d a b : BitVec 5) (p : BitVec 4) (s : State) : Out :=
  .next (s.vmove d p (fun i => if i % 2 = 0 then lane (s.v a) (i / 2) else lane (s.v b) (i / 2)) 4)

def execVbcast (d a : BitVec 5) (t : VTy) (p : BitVec 4) (s : State) : Out :=
  .next (s.setElems d (VTy.width t) (s.p p) 3 fun _ => ((s.x (a.zeroExtend 6)).toNat % 2 ^ (VTy.width t), {}))

def execVext (d a b : BitVec 5) (t : VTy) (s : State) : Out :=
  let w := (VTy.width t)
  let v := vElem w (s.v a) ((s.x (b.zeroExtend 6)).toNat % (128 * perLane w))
  .next (s.setX (d.zeroExtend 6) (if t = .i32 ∨ t = .i16 ∨ t = .i8 then BitVec.ofInt 64 (sval w v) else BitVec.ofNat 64 v) 3)

def execViota (d : BitVec 5) (t : VTy) (p : BitVec 4) (s : State) : Out :=
  .next (s.setElems d (VTy.width t) (s.p p) 2 fun e => (if VTy.isF32 t then (fp32.roundNE false e 1).1 else e % 2 ^ (VTy.width t), {}))

/-- Lanes set in two predicates, lowest first. -/
def State.bothLanes (s : State) (a p : BitVec 4) : List Nat := (List.range 128).filter fun i => (s.p a).getLsbD i && (s.p p).getLsbD i

def execVmaskPopc (d : BitVec 5) (a p : BitVec 4) (s : State) : Out :=
  .next (s.setX (d.zeroExtend 6) (BitVec.ofNat 64 (s.bothLanes a p).length) 2)

def execVmaskFirst (d : BitVec 5) (a p : BitVec 4) (s : State) : Out :=
  .next (s.setX (d.zeroExtend 6) (BitVec.ofNat 64 ((s.bothLanes a p).head?.getD 128)) 2)

def execVmaskCompress (d a : BitVec 5) (p : BitVec 4) (s : State) : Out :=
  let on := (List.range 128).filter fun i => (s.p p).getLsbD i
  .next (s.setV d (BitVec.allOnes 128) (ofLanes fun i => match on[i]? with
    | some j => lane (s.v a) j
    | none => 0) 4)

def execVmaskExpand (d a : BitVec 5) (p : BitVec 4) (s : State) : Out :=
  let m := s.p p
  .next (s.vmove d p (fun i => lane (s.v a) (sumTo i fun j => (m.getLsbD j).toNat)) 4)

/-! ### Functions and division (R155, R156) -/

/-- VTRANS (R155). -/
def State.vtrans (s : State) (fn : TransFn) (d a : BitVec 5) (p : BitVec 4) : State :=
  s.setElems d 32 (s.p p) 12 fun i => transLane fn (vElem 32 (s.v a) i)

def execVtransRcp (d a : BitVec 5) (p : BitVec 4) (s : State) : Out := .next (s.vtrans .rcp d a p)
def execVtransRsq (d a : BitVec 5) (p : BitVec 4) (s : State) : Out := .next (s.vtrans .rsq d a p)
def execVtransExp2 (d a : BitVec 5) (p : BitVec 4) (s : State) : Out := .next (s.vtrans .exp2 d a p)
def execVtransLog2 (d a : BitVec 5) (p : BitVec 4) (s : State) : Out := .next (s.vtrans .log2 d a p)
def execVtransTanh (d a : BitVec 5) (p : BitVec 4) (s : State) : Out := .next (s.vtrans .tanh d a p)
def execVtransSin (d a : BitVec 5) (p : BitVec 4) (s : State) : Out := .next (s.vtrans .sin d a p)
def execVtransCos (d a : BitVec 5) (p : BitVec 4) (s : State) : Out := .next (s.vtrans .cos d a p)
def execVtransSqrt (d a : BitVec 5) (p : BitVec 4) (s : State) : Out := .next (s.vtrans .sqrt d a p)

/-- The signed quotient toward zero; a divisor of 0 gives all ones (R156). -/
def divLane (x y : Nat) : Nat :=
  if y % 2 ^ 32 = 0 then 2 ^ 32 - 1 else ofSval 32 (Int.tdiv (sval 32 x) (sval 32 y))

def execVdiv (d a b : BitVec 5) (t : VTy) (p : BitVec 4) (s : State) : Out :=
  .next (s.vmap2 d a b t p 20 FFmt.div fun _ x y => divLane x y)

/-! ### The forwarding latch (R157, R158) -/

/-- The row in the latch in the issue cycle: the (8 + r)-th advancing cycle after the MDRAIN's holds row r (R157). -/
def Mx.row? (m : Mx) : Option (Nat × Nat) :=
  match m.drain with
  | some d => if 8 ≤ d.age ∧ d.age < 136 then some (d.plane, d.age - 8) else none
  | none => none

/-- Row `r` of a plane as a vector (R158, R163). -/
def Mx.rowOf (m : Mx) (plane r : Nat) : VReg := tget 0 (tget {} m.planes plane).rows r

def execVrow (d : BitVec 5) (p : BitVec 4) (s : State) : Out :=
  .next (match s.core.mx.row? with
    | some (plane, r) => (s.setV d (s.p p) (s.core.mx.rowOf plane r) 2).modRun fun r => { r with rowRead := true }
    | none => s.modVec fun v => { v with empty := BitVec.ofNat 32 (satAdd 32 v.empty.toNat 1) })

/-! ### Bound test and deferral (R160 to R162) -/

def execVbnd (pd : BitVec 4) (a : BitVec 5) (t : VTy) (g : BitVec 4) (s : State) : Out :=
  let w := (VTy.width t)
  let m := s.p g
  let e := tget {} s.core.vec.bounds s.tid
  let lo := fp32.decode e.lo.toNat
  let hi := fp32.decode e.hi.toNat
  .next (s.setP pd (ofBits fun i => m.getLsbD i && !(allTo (perLane w) fun j =>
    !(violates ((VTy.fmt s.f8 t).decode (vElem w (s.v a) (i * perLane w + j))) lo hi))) 2)

/-- The enabled lanes that find room in the queue: the lowest (R161). -/
def State.deferLanes (s : State) (m : Pred) : List Nat :=
  ((List.range 128).filter fun i => m.getLsbD i).take (4096 - s.core.vec.dq.length)

def execVdefDefer (pd : BitVec 4) (a : BitVec 5) (g : BitVec 4) (s : State) : Out :=
  let m := s.p g
  let on := s.deferLanes m
  let got := ofBits fun i => on.contains i
  let s' := s.modVec fun v => { v with dq := v.dq ++ on.map fun i => lane (s.v a) i }
  .next ((if got = m then s' else s'.modStat fun t => { t with defov := true }).setP pd got 2)

def execVdefRefill (d : BitVec 5) (p : BitVec 4) (s : State) : Out :=
  let on := ((List.range 128).filter fun i => (s.p p).getLsbD i).take s.core.vec.dq.length
  let m := s.p p
  let val := ofLanes fun i => if m.getLsbD i then s.core.vec.dq.getD (sumTo i fun j => (m.getLsbD j).toNat) 0 else 0
  .next ((s.modVec fun v => { v with dq := v.dq.drop on.length }).setV d (ofBits fun i => on.contains i) val 3)

def execVdefCount (d : BitVec 5) (s : State) : Out :=
  .next (s.setX (d.zeroExtend 6) (BitVec.ofNat 64 s.core.vec.dq.length) 2)

end Sys2Proof.Machine
end

