-- ==== Sys2Proof/Machine/Scale.lean ====
section
/-! DEFINITION. The scale slot: SCLD, QCVT, RNDG and STATC (spec 06_matrix.md R180 to R189; 04_numbers.md R107 to R117). -/

namespace Sys2Proof.Machine

/-- Byte `m` of the byte image of a scale register (R180). -/
def scByte (r : ScReg) (m : Nat) : Nat := elemOf 8 r.toNat m

/-- Entry `e` of a scale register (R180). -/
def scEntry (r : ScReg) (e : Nat) : Nat := elemOf 16 r.toNat e

/-! ### SCLD (R181) -/

/-- The address of SCLD, then the load of `n` bytes, which an LDV must be able to read (R181). -/
def State.scload (s : State) (d : BitVec 4) (a : BitVec 6) (o : BitVec 9) (n : Nat) (f : Nat → Nat → Nat) : State :=
  let b := s.x a + o.signExtend 64 * 32
  if b.toNat % 32 ≠ 0 then s.misalign b 32
  else if !s.spadOk b.toNat n then s.illegal
  else
    let m := s.spadNat b.toNat n
    (s.readSlots [(b.toNat, b.toNat + n)]).setSc d (BitVec.ofNat 2048 (packElems 16 128 (f m))) 4

def execScldBlk (d : BitVec 4) (a : BitVec 6) (o : BitVec 9) (s : State) : Out := .next (s.scload d a o 256 fun m e => elemOf 16 m e)
def execScldBand (d : BitVec 4) (a : BitVec 6) (o : BitVec 9) (s : State) : Out := .next (s.scload d a o 4 fun m e => elemOf 16 m (e / 64))

/-! ### QCVT (R182 to R185) -/

/-- The FP8 kind of bit [9] (R182). -/
def fp8Kind (k : Bool) : FFmt := if k then e5m2 else e4m3

/-- A block-converted register: the element codes, the scale bytes, and the events (R182). -/
structure Blocks where
  code : Nat → Nat × Ev
  scale : Nat → Nat
  /-- element width and number of blocks -/
  width : Nat
  count : Nat

/-- The register's byte image: elements from byte 0, scales from byte 128, every other byte 0 (R182). -/
def Blocks.image (b : Blocks) : VReg :=
  BitVec.ofNat 4096 (packElems b.width 128 (fun e => (b.code e).1) + packElems 8 b.count b.scale * 2 ^ 1024)

/-- Largest magnitude of the finite elements of a block (R183). -/
def amaxOf (val : Nat → FVal) (first n : Nat) : Nat :=
  (List.range n).foldl (fun m i => match val (first + i) with
    | .fin _ x => max m x
    | _ => m) 0

/-- Does a block hold an element of the kind? -/
def blockAny (val : Nat → FVal) (first n : Nat) (p : FVal → Bool) : Bool := (List.range n).any fun i => p (val (first + i))

/-- The exponent X of an MX block (R183). -/
def mxExp (emax amax : Nat) : Int := if amax = 0 then 0 else max (-127) (min 127 ((Nat.log2 amax : Int) - quantBits - emax))

/-- EMAX (R183). -/
def emaxOf (f : FFmt) : Nat := if f = e2m1 then 2 else if f = e4m3 then 8 else 15

/-- MXFP8 and MXFP4 (R183, R116). -/
def mxBlocks (f : FFmt) (mode : RMode) (draw : Nat → Nat) (val : Nat → FVal) : Blocks :=
  let dead := fun b : Nat => f.nanCode == 0 && blockAny val (32 * b) 32 FVal.isNaN
  let x := fun b : Nat => mxExp (emaxOf f) (amaxOf val (32 * b) 32)
  { code := fun e => if dead (e / 32) then (0, {}) else f.convert mode (draw e) (quantBits + x (e / 32)).toNat (val e)
    scale := fun b => if dead b then 0xFF else (x b + 127).toNat
    width := f.width, count := 4 }

/-- The scale code of a DB4 block: the least E3M5 value at or above amax / (6 |β|) (R184). -/
def db4Scale (beta amax : Nat) (inf : Bool) : Nat :=
  if inf then 0xFE
  else if amax = 0 then 0
  else (firstTo 255 fun c => decide (amax * 2 ^ 7 ≤ 6 * beta * (e3m5 c).getD 0)).getD 0xFE

/-- DB4 under a band scale (R184, R116). -/
def db4Blocks (band : Nat) (mode : RMode) (draw : Nat → Nat) (val : Nat → FVal) : Blocks :=
  let beta := bf16.decode band
  let (bneg, bm) := match beta with
    | .fin n m => (n, m)
    | _ => (false, 0)
  let dead := fun b : Nat => bm == 0 || blockAny val (8 * b) 8 FVal.isNaN
  let sc := fun b : Nat => db4Scale bm (amaxOf val (8 * b) 8) (blockAny val (8 * b) 8 fun v => v.isInf false || v.isInf true)
  { code := fun e =>
      let b := e / 8
      if dead b || sc b == 0 then (0, {})
      else
        match val e with
        | .fin n m => e2m1.narrow mode (draw e) (n != bneg) (m * 2 ^ 7) ((e3m5 (sc b)).getD 1 * bm)
        | .inf n => (e2m1.signBit (n != bneg) + e2m1.maxCode, { sat := 1 })
        | .nan => (0, {})
    scale := fun b => if dead b then 0xFF else sc b
    width := 4, count := 16 }

namespace State

/-- Pack 128 lanes: disabled ones enter as +0, every lane is written, and stochastic mode takes 128 draws (R182). -/
def qpack (s : State) (d a : BitVec 5) (r : RMode) (p : BitVec 4) (f : (Nat → Nat) → (Nat → FVal) → Blocks) : State :=
  let m := s.p p
  let v := s.v a
  let b := f (fun e => if r = .rs then s.draw e else 0) fun e => if m.getLsbD e then fp32.decode (vElem 32 v e) else .fin false 0
  let t := (s.countEv (Ev.sumTo 128 fun e => (b.code e).2)).setV d (BitVec.allOnes 128) b.image 6
  if r = .rs then t.drawn 128 else t

end State

def execQcvtF8 (d a : BitVec 5) (k : Bool) (r : RMode) (p : BitVec 4) (s : State) : Out :=
  .next (s.qpack d a r p (mxBlocks (fp8Kind k) r))

def execQcvtMx4 (d a : BitVec 5) (r : RMode) (p : BitVec 4) (s : State) : Out := .next (s.qpack d a r p (mxBlocks e2m1 r))

def execQcvtDb4 (d a : BitVec 5) (c : BitVec 4) (r : RMode) (p : BitVec 4) (s : State) : Out :=
  .next (s.qpack d a r p (db4Blocks (scEntry (s.sc c) 0) r))

def execQcvtUnp (d a : BitVec 5) (c : BitVec 4) (k : Bool) (p : BitVec 4) (s : State) : Out :=
  .next (s.setV d (s.p p) (ofElems 32 fun e =>
    (fp32.encode quantBits (mxValue (fp8Kind k) (vElem 8 (s.v a) e) (scByte (s.sc c) (e / 32)))).1) 6)

/-! ### RNDG and STATC (R188, R189) -/

/-- RNDG: 128 draws, whatever the predicate (R188). -/
def State.rndg (s : State) (d : BitVec 5) (p : BitVec 4) (f : Nat → Nat) : State :=
  (s.setV d (s.p p) (ofElems 32 fun i => f (s.draw i)) 3).drawn 128

def execRndgInt (d : BitVec 5) (p : BitVec 4) (s : State) : Out := .next (s.rndg d p id)
def execRndgUni (d : BitVec 5) (p : BitVec 4) (s : State) : Out := .next (s.rndg d p fun u => (fp32.roundNE false (u / 256) (2 ^ 24)).1)

/-- A counter of a tensor, by its number (R189). -/
def Stat.field (a : Stat) : Nat → Nat
  | 0 => a.sat
  | 1 => a.flush
  | 2 => a.nan
  | _ => a.viol

def execStatc (d : BitVec 5) (p : BitVec 4) (s : State) : Out :=
  let cs := ((s.core.front.run.bind Run.counts).getD s.core.vec.counts)
  let g := s.tid / 32 * 32
  .next (s.setV d (s.p p) (ofElems 32 fun i => (tget {} cs (g + i / 4)).field (i % 4)) 2)

end Sys2Proof.Machine
end

