-- ==== Sys2Proof/Machine/LoadStore.lean ====
section
/-! DEFINITION. Scratchpad and global loads and stores (spec 07_core_memory.md R203 to R211; 10_memory_model.md R261; 14_fabric.md R362, R363). -/

namespace Sys2Proof.Machine

/-- Bytes of an access size, and is the loaded value sign-extended (R203)? -/
def MSize.bytes : MSize → Nat
  | .b | .bu => 1
  | .h | .hu => 2
  | .w | .wu => 4
  | .d => 8
def MSize.signed : MSize → Bool
  | .b | .h | .w => true
  | _ => false

/-- The register value of loaded bytes (R203). -/
def extendLoad (signed : Bool) (n v : Nat) : Word := if signed then BitVec.ofInt 64 (sval (8 * n) v) else BitVec.ofNat 64 (v % 2 ^ (8 * n))

/-- An SM address: X(xa) + offset × size (R203). -/
def smAddr {n : Nat} (s : State) (a : BitVec 6) (o : BitVec n) (z : MSize) : Word := s.x a + o.signExtend 64 * BitVec.ofNat 64 (MSize.bytes z)

/-- Lanes of a predicate, lowest first. -/
def lanesOf (m : Pred) : List Nat := (List.range 128).filter fun i => m.getLsbD i

/-! ### Scratchpad (R203 to R205) -/

def execLd (d a : BitVec 6) (z : MSize) (o : BitVec 10) (s : State) : Out :=
  let va := smAddr s a o z
  let n := MSize.bytes z
  .next (if va.toNat % n ≠ 0 then s.misalign va n
    else if !s.spadOk va.toNat n then s.illegal
    else (s.readSlots [(va.toNat, va.toNat + n)]).setX d (extendLoad (MSize.signed z) n (s.spadNat va.toNat n)) 4)

def execSt (r a : BitVec 6) (z : MSize) (o : BitVec 10) (s : State) : Out :=
  let va := smAddr s a o z
  let n := MSize.bytes z
  .next (if va.toNat % n ≠ 0 then s.misalign va n
    else if !s.spadOk va.toNat n then s.illegal
    else s.spadPut va.toNat (leBytes n (s.x r).toNat))

namespace State

/-- Are the 4 bytes of every enabled lane in the task's range (R204)? -/
def lanesOk (s : State) (m : Pred) (addr : Nat → Nat) : Bool := (lanesOf m).all fun i => s.spadOk (addr i) 4

/-- The lowest misaligned address of the enabled lanes (R204). -/
def laneMisaligned (m : Pred) (addr : Nat → Nat) : Option Nat :=
  (lanesOf m).foldl (fun b i => if addr i % 4 = 0 then b else some (match b with
    | some x => min x (addr i)
    | none => addr i)) none

/-- Load the enabled lanes from scratchpad addresses (R204, R205). -/
def loadLanes (s : State) (d : BitVec 5) (m : Pred) (addr : Nat → Nat) (lat : Nat) : State :=
  if !s.lanesOk m addr then s.illegal
  else
    let val := ofLanes fun i => if m.getLsbD i then BitVec.ofNat 32 (s.spadNat (addr i) 4) else 0
    (s.readSlots ((lanesOf m).map fun i => (addr i, addr i + 4))).setV d m val lat

/-- Store the enabled lanes to scratchpad addresses with the bound check; of two lanes at one byte the higher is written (R129, R204). -/
def storeLanes (s : State) (m : Pred) (val : VReg) (addr : Nat → Nat) : State :=
  if !s.lanesOk m addr then s.illegal
  else
    let last := fun i : Nat => (List.range (127 - i)).all fun k => !(m.getLsbD (i + 1 + k) && addr (i + 1 + k) == addr i)
    let ws := ((lanesOf m).filter last).map fun i =>
      ({ addr := addr i, val := (lane val i).toNat, id := (tget {} s.core.copy.tags (addr i / 2048)).tid } : SWord)
    match s.boundCheck ws with
    | (s, .error (a, id)) => s.boundTrap a id
    | (s, .ok ws) => s.spadCells (ws.flatMap SWord.cells)

/-- The aligned base of the contiguous and broadcast forms, then the access (R204). -/
def vmBase (s : State) (a : BitVec 6) (o : BitVec 8) (k : State → Nat → State) : State :=
  let b := s.x a + o.signExtend 64 * 32
  if b.toNat % 32 ≠ 0 then s.misalign b 32 else k s b.toNat

/-- The lane addresses of the strided form, each aligned, then the access (R204). -/
def vmStrided (s : State) (a x : BitVec 6) (m : Pred) (k : State → (Nat → Nat) → State) : State :=
  let addr := fun i : Nat => (s.x a + BitVec.ofNat 64 i * s.x x).toNat
  match laneMisaligned m addr with
  | some b => s.misalign (BitVec.ofNat 64 b) 4
  | none => k s addr

end State

def execLdv (d : BitVec 5) (a : BitVec 6) (o : BitVec 8) (p : BitVec 4) (s : State) : Out :=
  .next (s.vmBase a o fun s b => s.loadLanes d (s.p p) (fun i => (b + 4 * i) % 2 ^ 64) 6)

def execLdvS (d : BitVec 5) (a x : BitVec 6) (p : BitVec 4) (s : State) : Out :=
  .next (s.vmStrided a x (s.p p) fun s addr => s.loadLanes d (s.p p) addr 6)

def execLdvB (d : BitVec 5) (a : BitVec 6) (o : BitVec 8) (p : BitVec 4) (s : State) : Out :=
  .next (s.vmBase a o fun s b => s.loadLanes d (s.p p) (fun i => (b + 4 * (i % 8)) % 2 ^ 64) 6)

def execStv (v : BitVec 5) (a : BitVec 6) (o : BitVec 8) (p : BitVec 4) (s : State) : Out :=
  .next (s.vmBase a o fun s b => s.storeLanes (s.p p) (s.v v) fun i => (b + 4 * i) % 2 ^ 64)

def execStvS (v : BitVec 5) (a x : BitVec 6) (p : BitVec 4) (s : State) : Out :=
  .next (s.vmStrided a x (s.p p) fun s addr => s.storeLanes (s.p p) (s.v v) addr)

namespace State

/-- The lane addresses of GATH and SCAT, then the access; the type is 000 or 011 (R205). -/
def indexed (s : State) (a b : BitVec 5) (t : VTy) (m : Pred) (k : State → (Nat → Nat) → State) : State :=
  if t ≠ .f32 ∧ t ≠ .i32 then s.illegal
  else
    let base := s.x (b.zeroExtend 6)
    let va := s.v a
    let addr := fun i : Nat => (base + (lane va i).zeroExtend 64).toNat
    match laneMisaligned m addr with
    | some x => s.misalign (BitVec.ofNat 64 x) 4
    | none => k s addr

end State

def execGath (d a b : BitVec 5) (t : VTy) (p : BitVec 4) (s : State) : Out :=
  .next (s.indexed a b t (s.p p) fun s addr => s.loadLanes d (s.p p) addr 8)

def execScat (r a b : BitVec 5) (t : VTy) (p : BitVec 4) (s : State) : Out :=
  .next (s.indexed a b t (s.p p) fun s addr => s.storeLanes (s.p p) (s.v r) addr)

/-! ### Global memory (R206 to R209) -/

namespace State

/-- Is the window constant for the running launch (R211)? -/
def constWin (s : State) (w : Nat) : Bool := (s.boundLaunch.map fun l => l.constMask.testBit w).getD false

def constWrite (s : State) (va w : Nat) : State :=
  s.raise { code := 0x07, addr := BitVec.ofNat 64 va, detail := BitVec.ofNat 32 w }

/-- The check of R362 at issue, then the access. -/
def remoteGate (s : State) (ia : Nat) (inc : BitVec 16) (k : State → State) : State :=
  let p := s.peer (s.holderOf ia)
  match p.state with
  | .up => if p.inc = inc then k s else s.raise (s.goneCause ia)
  | .none => s.raise (s.unreachableCause ia)
  | .refused => s.raise (s.unreachableCause ia)
  | _ => k s

/-- A load from another device: the task parks when the bundle has committed (R17, R85, R206). `near` loads the lanes that this device holds; lost
data among them raises its fault here, at the slot that suspends (R207, R208). -/
def remoteLoad (s : State) (l : RemoteLoad) (near : (State → State) → State → State) : State :=
  if !s.core.front.loops.isEmpty then s.illegal
  else if s.core.regs.z.stat.tm then s.suspendMasked
  else
    let park := fun s : State => match s.badMiss? with
      | some m => s.raiseMiss m
      | none => s.modRun fun r => { r with after := some (.remote { l with tick := s.time }) }
    (l.toRemotePart :: l.rest).foldr (fun p k s => State.remoteGate s p.ia p.inc k) (fun s => s.beforeLeaving (near park)) s

/-- A load that missed: its write waits for the data, and its destination counts as written (R206, R208, R23). (Open points: DEDUCED, log 15.) -/
def addMiss (s : State) (m : Miss) : State :=
  (s.modCore fun c => { c with misses := c.misses ++ [m] }).modRun fun r => { r with wrote := m.w :: r.wrote }

/-- Deliver a loaded scalar after `lat` cycles on a hit, or on arrival. -/
def deliverX (s : State) (d : BitVec 6) (val : Word) (ia : Nat) (late bad : Bool) (lat : Nat) : State :=
  if d = 0 ∧ !(late && bad) then s
  else if late then s.addMiss { ia := ia, vec := false, reg := d.toNat, w := .x d.toNat val, bad := bad }
  else s.setX d val lat

/-- Translate and test an access of the LS slot (R206): window, alignment, then what follows. -/
def lsAccess (s : State) (va : Word) (n : Nat) (p : Perm) (k : State → Access → State) : State :=
  match (s.ctx s.bound.ctx).translate? va.toNat p with
  | none => s.noWindow va
  | some a => if va.toNat % n ≠ 0 then s.misalign va n else k s a

/-- The page of a local address at the memory side, then what follows (R293). -/
def withPage (s : State) (ia : Nat) (k : State → Nat → Bool → State) : State :=
  let (s, w) := s.walk s.myDie ia
  match w with
  | .page pa miss => k s pa miss
  | w => (s.walkFails ia w).getD s

/-- Room in the log for a record of `size` bytes, else the full-store-log stall and LOGFULL (R261). -/
def withLogRoom (s : State) (va : Word) (size : Nat) (k : State → State) : State :=
  match s.logRoom size with
  | (s, true) => k (s.modFront fun f => { f with logSince := none, logDue := false })
  | (s, false) =>
    let since := s.core.front.logSince.getD s.time
    if s.core.front.logDue then
      (s.modFront fun f => { f with logSince := none, logDue := false }).raise
        { code := 0x06, addr := va, detail := BitVec.ofNat 32 (s.time - since) }
    else
      let s := if s.core.front.logSince.isSome then s
        else s.modZ fun z => { z with logStalls := BitVec.ofNat 16 (satAdd 16 z.logStalls.toNat 1) }
      s.modFront fun f => { f with hold := .stall, logSince := some since }

end State

def execLdg (d a : BitVec 6) (z : MSize) (o : BitVec 9) (s : State) : Out :=
  let va := smAddr s a o z
  let n := MSize.bytes z
  .next (s.lsAccess va n .rd fun s c =>
    if s.isRemote c.ia then
      s.remoteLoad { ia := c.ia, inc := c.inc, size := n, vec := false, reg := d.toNat, signed := MSize.signed z
                     bundle := BitVec.ofNat 64 s.bundleAddr } id
    else
      s.withPage c.ia fun s pa miss =>
        let (s, g) := s.viewRead c.ia pa n
        if g.lost && !g.missed then s.uncorrectable c.ia pa
        else s.deliverX d (extendLoad (MSize.signed z) n (leNat g.data)) c.ia (miss || g.missed) g.lost 24)

/-- The words of a scalar store: its bytes by aligned 4-byte words (R129). -/
def scalarWords (va n v id : Nat) : List SWord :=
  if n = 8 then [{ addr := va, val := v % 2 ^ 32, id := id }, { addr := va + 4, val := v / 2 ^ 32 % 2 ^ 32, id := id }]
  else [{ addr := va / 4 * 4, val := v % 2 ^ (8 * n) * 2 ^ (8 * (va % 4)), mask := BitVec.ofNat 4 ((2 ^ n - 1) * 2 ^ (va % 4)), id := id }]

def execStg (r a : BitVec 6) (z : MSize) (o : BitVec 9) (s : State) : Out :=
  let va := smAddr s a o z
  let n := MSize.bytes z
  .next (s.lsAccess va n .w fun s c =>
    if s.constWin c.win then s.constWrite va.toNat c.win
    else
      let store := fun s : State =>
        s.withLogRoom va 64 fun s =>
          match s.boundCheck (scalarWords va.toNat n (s.x r).toNat s.tid) with
          | (s, .error (x, id)) => s.boundTrap x id
          | (s, .ok ws) => s.append c.ia n ((ws.flatMap SWord.cells).map fun b => (b.1 - va.toNat + c.ia, b.2)) false c.inc
      if s.isRemote c.ia then s.remoteGate c.ia c.inc store else s.withPage c.ia fun s _ _ => store s)

/-! ### Vector forms (R207) -/

/-- The 32-byte chunks of 8 lanes in which a lane is enabled. -/
def chunksOf (m : Pred) : List Nat := (List.range 16).filter fun k => m.toNat / 2 ^ (8 * k) % 256 != 0

/-- First enabled lane of a chunk. -/
def chunkLane (m : Pred) (k : Nat) : Nat := 8 * k + (firstTo 8 fun i => m.getLsbD (8 * k + i)).getD 0

namespace State

/-- Translate every chunk, lowest first: NO_WINDOW names the first lane that fails. -/
def chunkAccess (s : State) (b : Nat) (m : Pred) (p : Perm) : Except Nat (List (Nat × Access)) :=
  (chunksOf m).foldl (fun acc k =>
    match acc with
    | .error x => .error x
    | .ok l =>
      match (s.ctx s.bound.ctx).translate? (b + 32 * k) p with
      | none => .error (b + 4 * chunkLane m k)
      | some a => .ok (l ++ [(k, a)])) (.ok [])

/-- Read the chunks that are left: the loaded lanes, did one miss, and the address of lost data. (Open points: DEDUCED, log 81.) -/
def readChunks (m : Pred) (k : State → List (Nat × List Byte) → Bool → Option Nat → State) :
    List (Nat × Access) → State → List (Nat × List Byte) → Bool → Option Nat → State
  | [], s, got, late, lost => k s got late lost
  | (c, a) :: rest, s, got, late, lost =>
    s.withPage a.ia fun s pa miss =>
      let (s, g) := s.viewRead a.ia pa 32
      if g.lost && !g.missed then s.uncorrectable a.ia pa
      else readChunks m k rest s (got ++ [(c, g.data)]) (late || miss || g.missed)
        (if lost.isSome then lost else if g.lost then some a.ia else none)

/-- Test the pages of the chunks that are left. -/
def pageChunks (k : State → State) : List (Nat × Access) → State → State
  | [], s => k s
  | (_, a) :: rest, s => if s.isRemote a.ia then s.remoteGate a.ia a.inc (pageChunks k rest) else s.withPage a.ia fun s _ _ => pageChunks k rest s

end State

/-- The lanes of a set of chunks. -/
def chunkMask (m : Pred) (ks : List Nat) : Pred := ofBits fun i => m.getLsbD i && ks.contains (i / 8)

/-- The lanes of an LDGV that other devices hold, one part for each run of chunks that the windows leave contiguous (R207). -/
def farParts (m : Pred) (cs : List (Nat × Access)) : List RemotePart :=
  let base := fun c : Nat × Access => ((c.2.ia : Int) - 32 * c.1, c.2.inc)
  (cs.map base).eraseDups.filterMap fun b =>
    let mine := cs.filter fun c => base c == b
    match mine.head?, mine.getLast? with
    | some x, some y =>
      some { ia := x.2.ia, inc := x.2.inc, size := 32 * (y.1 + 1 - x.1), mask := chunkMask m (mine.map Prod.fst), lane0 := 8 * x.1 }
    | _, _ => none

/-- Load the lanes of the chunks that this device holds, then what follows (R206, R207). -/
def loadNear (d : BitVec 5) (m : Pred) (cs : List (Nat × Access)) (k : State → State) (s : State) : State :=
  State.readChunks m (fun s got late lost =>
    let lanes := chunkMask m (got.map Prod.fst)
    let val := ofLanes fun i =>
      match tget? got (i / 8) with
      | some bs => BitVec.ofNat 32 (at' bs (4 * (i % 8)) 4)
      | none => 0
    if got.isEmpty then k s
    else if late then k (s.addMiss { ia := lost.getD 0, vec := true, reg := d.toNat, w := .v d.toNat lanes val, bad := lost.isSome })
    else k (s.setV d lanes val 24)) cs s [] false none

/-- Open points: DEDUCED, log 31, 81. -/
def execLdgv (d : BitVec 5) (a : BitVec 6) (o : BitVec 9) (p : BitVec 4) (s : State) : Out :=
  let b := s.x a + o.signExtend 64 * 32
  let m := s.p p
  .next (if b.toNat % 32 ≠ 0 then s.misalign b 32
    else
      match s.chunkAccess b.toNat m .rd with
      | .error x => s.noWindow (BitVec.ofNat 64 x)
      | .ok cs =>
        let near := cs.filter fun c => !s.isRemote c.2.ia
        match farParts m (cs.filter fun c => s.isRemote c.2.ia) with
        | a :: rest =>
          s.remoteLoad { a with vec := true, reg := d.toNat, signed := false, rest := rest, bundle := BitVec.ofNat 64 s.bundleAddr }
            (loadNear d m near)
        | [] => loadNear d m near id s)

def execStgv (r : BitVec 5) (a : BitVec 6) (o : BitVec 9) (p : BitVec 4) (s : State) : Out :=
  let b := s.x a + o.signExtend 64 * 32
  let m := s.p p
  .next (if b.toNat % 32 ≠ 0 then s.misalign b 32
    else
      match s.chunkAccess b.toNat m .w with
      | .error x => s.noWindow (BitVec.ofNat 64 x)
      | .ok [] => s
      | .ok cs =>
        match cs.find? fun c => s.constWin c.2.win with
        | some (k, c) => s.constWrite (b.toNat + 4 * chunkLane m k) c.win
        | none =>
          State.pageChunks (fun s =>
            s.withLogRoom b 544 fun s =>
              let val := s.v r
              let ws := (lanesOf m).map fun i => ({ addr := b.toNat + 4 * i, val := (lane val i).toNat, id := s.tid } : SWord)
              match s.boundCheck ws with
              | (s, .error (x, id)) => s.boundTrap x id
              | (s, .ok ws) =>
                let cells := ws.flatMap SWord.cells
                -- one record for each run of chunks that the windows leave contiguous
                let bases := (cs.map fun c => (c.2.ia - 32 * c.1, c.2.inc)).eraseDups
                bases.foldl (fun s base =>
                  let mine := cells.filter fun c => (cs.any fun k => k.1 == (c.1 - b.toNat) / 32 && k.2.ia - 32 * k.1 == base.1)
                  let moved := mine.map fun c => (c.1 - b.toNat + base.1, c.2)
                  match moved.head?, moved.getLast? with
                  | some x, some y => s.append x.1 (y.1 + 1 - x.1) moved false base.2
                  | _, _ => s) s) cs s)

/-! ### The constant path (R209) -/

namespace State

/-- A 64-byte line of the launch's constant path: is it in the broadcast cache, and its bytes; `none` when lost. -/
def constLine (s : State) (ia pa : Nat) : State × Bool × Option (List Byte) :=
  let c := clusterOf s.coreId
  let base := ia / 64 * 64
  match (s.cluster c).bcast.find? fun l => l.launch == s.bound.launch && l.ia == base with
  | some l => (s, true, if s.homeLost ia pa then none else some l.data)
  | none =>
    let (s, r) := s.homeRead base (pa / 64 * 64) 64
    match r with
    | none => (s, false, none)
    | some bs => (s.modCluster c fun x => { x with bcast := { launch := s.bound.launch, ia := base, data := bs } :: x.bcast }, false, some bs)

end State

def execLdc (d a : BitVec 6) (z : MSize) (o : BitVec 10) (s : State) : Out :=
  let va := smAddr s a o z
  let n := MSize.bytes z
  .next (
    match (s.ctx s.bound.ctx).translate? va.toNat .rd with
    | none => s.noWindow va
    | some c =>
      if !s.constWin c.win then s.noWindow va
      else if va.toNat % n ≠ 0 then s.misalign va n
      else if s.isRemote c.ia then s.illegal
      else
        s.withPage c.ia fun s pa miss =>
          match s.constLine c.ia pa with
          | (s, hit, some bs) => s.deliverX d (extendLoad (MSize.signed z) n (at' bs (c.ia % 64) n)) c.ia (miss || !hit) false 12
          | (s, hit, none) => if hit && !miss then s.uncorrectable c.ia pa else s.deliverX d 0 c.ia true true 12)

end Sys2Proof.Machine
end

