-- ==== Sys2Proof/Machine/Copy.lean ====
section
/-! DEFINITION. The copy engine: jobs, their issue, their run and their end (spec 07_core_memory.md R195, R211, R216 to R222; 10_memory_model.md R282;
14_fabric.md R363). -/

namespace Sys2Proof.Machine

/-- Address of an element, in the 64 bits of an address. -/
def elemAddr (base : Nat) (str : List Int) (i : List Nat) : Nat :=
  (((base : Int) + (List.zipWith (fun s k => s * (k : Int)) str i).foldl (· + ·) 0) % 2 ^ 64).toNat

/-- The indices of the loop nest in its order, dimension 0 innermost (R217). -/
def loopIndices (ext : List Nat) : List (List Nat) :=
  let e := fun d : Nat => List.range (ext.getD d 1)
  (e 3).flatMap fun i3 => (e 2).flatMap fun i2 => (e 1).flatMap fun i1 => (e 0).map fun i0 => [i0, i1, i2, i3]

/-- The interval that one side touches: least address and end; `none` when an extent is 0 (R218). -/
def interval (base : Nat) (ext : List Nat) (str : List Int) (w : Nat) : Option (Int × Int) :=
  if ext.any fun e => e == 0 then none
  else
    let span := List.zipWith (fun (s : Int) (e : Nat) => s * ((e : Int) - 1)) str ext
    let lo := (base : Int) + (span.map fun x => min x 0).foldl (· + ·) 0
    let hi := (base : Int) + (span.map fun x => max x 0).foldl (· + ·) 0
    some (lo, hi + w)

/-- A side of a job as the checks leave it: its base in its own space, its interval, and the incarnation of a window. -/
structure Side where
  glob : Bool
  base : Nat
  lo : Nat
  hi : Nat
  inc : BitVec 16 := 0
  deriving DecidableEq, Repr

/-- The ranges of a side. -/
def Side.range (a : Side) : List Range := if a.lo < a.hi then [⟨a.glob, a.lo, a.hi⟩] else []

namespace State

/-- First byte of [lo, hi) that the window of `lo` does not cover with the permission (R218): page by page. -/
def firstUncovered (s : State) (lo hi : Nat) (p : Perm) : Nat :=
  match (s.ctx s.bound.ctx).translate? lo p with
  | none => lo
  | some a =>
    let w := tget {} (s.ctx s.bound.ctx).aws a.win
    min hi ((w.vbase + w.len) * 65536)

/-- First byte of a virtual interval that lies in a constant window of the launch, with the window (R211). -/
def constTouch (s : State) (lo hi : Nat) : Option (Nat × Nat) :=
  (List.range 8).foldl (fun best w =>
    let a := tget {} (s.ctx s.bound.ctx).aws w
    let b := max lo (a.vbase * 65536)
    if s.constWin w && a.a.getLsbD 0 && a.len != 0 && decide (b < min hi ((a.vbase + a.len) * 65536)) then
      (match best with
       | none => some (b, w)
       | some x => if b < x.1 then some (b, w) else best)
    else best) none

/-- The checks of a global side (R218 item 4), then what follows. -/
def globalSide (s : State) (va : Nat) (iv : Option (Int × Int)) (p : Perm) (k : State → Side → State) : State :=
  match iv with
  | none => k s { glob := true, base := 0, lo := 0, hi := 0 }
  | some (lo, hi) =>
    if lo < 0 then s.noWindow (BitVec.ofInt 64 lo)
    else
      let l := lo.toNat
      let h := hi.toNat
      let bad := s.firstUncovered l h p
      if bad ≠ h then s.noWindow (BitVec.ofNat 64 bad)
      else
        match (if p = .w then s.constTouch l h else none), (s.ctx s.bound.ctx).translate? l p with
        | some (b, w), _ => s.constWrite b w
        | none, none => s.noWindow (BitVec.ofNat 64 l)
        | none, some a => k s { glob := true, base := va - l + a.ia, lo := a.ia, hi := a.ia + (h - l), inc := a.inc }

/-- The checks of a scratchpad side (R218 item 4), then what follows. -/
def spadSide (s : State) (a : Nat) (iv : Option (Int × Int)) (k : State → Side → State) : State :=
  match iv with
  | none => k s { glob := false, base := a, lo := 0, hi := 0 }
  | some (lo, hi) =>
    if lo < 0 ∨ !s.spadOk lo.toNat (hi - lo).toNat then s.illegal
    else k s { glob := false, base := a, lo := lo.toNat, hi := hi.toNat }

/-- Pages of a global side, lowest first, as intermediate addresses. -/
def sidePages (a : Side) : List Nat :=
  if a.glob && decide (a.lo < a.hi) then
    (List.range ((a.hi - 1) / 65536 - a.lo / 65536 + 1)).map fun i => max a.lo ((a.lo / 65536 + i) * 65536)
  else []

/-- Translate every page of a job's sides (R218 item 5), then what follows. -/
def walkPages (inc : Nat → BitVec 16) (k : State → State) : List Nat → State → State
  | [], s => k s
  | ia :: rest, s =>
    if s.isRemote ia then s.remoteGate ia (inc ia) (walkPages inc k rest) else s.withPage ia fun s _ _ => walkPages inc k rest s

/-- Issue a job whose sides have passed (R216, R218 items 5 and 6): pages, footprints, and a place in the queue. -/
def issueJob (s : State) (j : Job) (src dst : Side) (commit : State → State) : State :=
  let foot : Foot := { reads := src.range, writes := dst.range }
  walkPages (fun ia => if src.glob && decide (src.lo ≤ ia) && decide (ia < src.hi) then src.inc else dst.inc) (fun s =>
    s.withFootprint 1 foot fun s =>
      if 16 ≤ s.core.copy.jobs.length then s.hold
      else
        let s := (commit s).handleStart j.hd j.produces
        let (s, t) := s.takeTicket
        s.modCopy fun c => { c with jobs := c.jobs ++
          [{ j with src := src.base, dst := dst.base, foot := foot, ticket := t, region := s.bound.region, srcInc := src.inc, dstInc := dst.inc }] })
    (sidePages src ++ sidePages dst) s

/-- The geometry of a copy and its checks (R218), then the job. `src` and `dst` are register values. (Open points: DEDUCED, log 28.) -/
def copyIssue (s : State) (dir : JobDir) (src dst : Word) (ext : List Nat) (str dstr : List Int) (w : Nat) (hd : BitVec 4) (swap : Bool) : State :=
  let j : Job := { dir := dir, src := 0, dst := 0, w := w, ext := ext, str := str, dstr := dstr, hd := hd.toNat, region := 0, foot := {} }
  s.withHandle hd (!j.produces) fun s =>
    let hv := s.h hd
    let src := (src.toNat + (if hd ≠ 0 ∧ !j.produces then hv.headSlot else 0)) % 2 ^ 64
    let dst := (dst.toNat + (if hd ≠ 0 ∧ j.produces then hv.tailSlot else 0)) % 2 ^ 64
    if src % w ≠ 0 ∨ dst % w ≠ 0 ∨ (str ++ dstr).any fun x => x % (w : Int) != 0 then
      s.misalign (BitVec.ofNat 64 (if src % w ≠ 0 then src else dst)) w
    else
      let sgl := dir == .hs || dir == .rm
      let dgl := dir == .sh || dir == .rm
      let srcSide := fun k => if sgl then s.globalSide src (interval src ext str w) .rd k else s.spadSide src (interval src ext str w) k
      let dstSide := fun k => if dgl then s.globalSide dst (interval dst ext dstr w) .w k else s.spadSide dst (interval dst ext dstr w) k
      let go := fun (s : State) a b => s.issueJob j a b fun s => if swap then s.result 1 (.swap true 0xF) else s
      if dir = .hs then dstSide fun _ b => srcSide fun s a => go s a b
      else srcSide fun _ a => dstSide fun s b => go s a b

/-- The active copy of a gy register after the swap of the syllable (R214, R217). -/
def geometry (s : State) (g : BitVec 2) (swap : Bool) : Nat :=
  let c := s.shapes (4 + g.toNat)
  (if swap then c.2 else c.1).toNat

/-- CPY (R217). -/
def copy (s : State) (dir : JobDir) (g : BitVec 2) (a b : BitVec 6) (w : Bool) (c : CWidth) (h : BitVec 4) : State :=
  let r := s.geometry g w
  s.copyIssue dir (s.x a) (s.x b) ((List.range 4).map fun d => elemOf 32 r d) ((List.range 4).map fun d => sval 32 (elemOf 32 r (4 + d)))
    ((List.range 4).map fun d => sval 32 (elemOf 32 r (8 + d))) (match c with | .e1 => 1 | .e2 => 2 | .e4 => 4) h w

/-- CPYR: the geometry is that of a record (R215, R219). -/
def copyRec (s : State) (dir : JobDir) (a b : BitVec 6) (w : Bool) (c : CWidth) (h : BitVec 4) : State :=
  s.withRecord (s.x a) fun s bs =>
    s.copyIssue dir (BitVec.ofNat 64 (at' bs 0 8)) (s.x b) ((List.range 4).map fun d => at' bs (8 + 4 * d) 4)
      ((List.range 4).map fun d => sval 32 (at' bs (24 + 4 * d) 4)) ((List.range 4).map fun d => sval 32 (at' bs (40 + 4 * d) 4))
      (match c with | .e1 => 1 | .e2 => 2 | .e4 => 4) h w

end State

def execCpyHs (g : BitVec 2) (a b : BitVec 6) (w : Bool) (c : CWidth) (h : BitVec 4) (s : State) : Out := .next (s.copy .hs g a b w c h)
def execCpySh (g : BitVec 2) (a b : BitVec 6) (w : Bool) (c : CWidth) (h : BitVec 4) (s : State) : Out := .next (s.copy .sh g a b w c h)
def execCpySs (g : BitVec 2) (a b : BitVec 6) (w : Bool) (c : CWidth) (h : BitVec 4) (s : State) : Out := .next (s.copy .ss g a b w c h)
def execCpyRm (g : BitVec 2) (a b : BitVec 6) (w : Bool) (c : CWidth) (s : State) : Out := .next (s.copy .rm g a b w c 0)
def execCpyrHs (a b : BitVec 6) (w : Bool) (c : CWidth) (h : BitVec 4) (s : State) : Out := .next (s.copyRec .hs a b w c h)
def execCpyrSh (a b : BitVec 6) (w : Bool) (c : CWidth) (h : BitVec 4) (s : State) : Out := .next (s.copyRec .sh a b w c h)
def execCpyrSs (a b : BitVec 6) (w : Bool) (c : CWidth) (h : BitVec 4) (s : State) : Out := .next (s.copyRec .ss a b w c h)
def execCpyrRm (a b : BitVec 6) (w : Bool) (c : CWidth) (s : State) : Out := .next (s.copyRec .rm a b w c 0)

/-! ### The run of a job (R216, R217, R222) -/

namespace State

/-- The next queued job starts, unless an earlier footprint holds it back (R216, R225); its scratchpad source counts as read (R193). -/
def jobStart (s : State) : State :=
  match s.core.copy.jobs with
  | [] => s
  | j :: js =>
    if j.running || s.frozen then s
    else if !s.det && (s.conflict? 1 j.ticket j.foot).isSome then s
    else
      let s := s.modCopy fun c => { c with jobs := { j with running := true, tick := s.time } :: js }
      if j.dir = .sh ∨ j.dir = .ss ∨ j.dir = .tevict then
        s.readSlots ((loopIndices j.ext).map fun i => (elemAddr j.src j.str i, elemAddr j.src j.str i + j.w))
      else s

/-- What a running job has read and written so far. -/
structure JobRunState where
  s : State
  /-- scratchpad and global bytes written, by address -/
  glob : Tab Byte
  lost : Option Cause
  wait : Bool

/-- The bytes of a global source at an intermediate address: through the view here, free on another device (R217, R363). (Open points: DESIGN CHOICE, log 11, 29.) -/
def globalSource (s : State) (ia n : Nat) : State × List Byte × Option Cause × Bool :=
  if s.isRemote ia then
    let d := s.holderOf ia
    (s.sendReq d (wireAddr ia) (s.peer d).inc (.copy n), s.remoteOverlay ia ((List.range n).map fun i => Config.remoteByte s.free (ia + i)), none, false)
  else
    let (s, w) := s.walk s.myDie ia
    match w with
    | .page pa _ =>
      let (s, g) := s.copyRead ia pa n
      (s, g.data, if g.lost then some (s.lossCause ia pa) else none, false)
    | w => (s, [], s.walkCause ia w, true)

/-- One element: read, then written; `stop` is an address at which a read fails (R217, R220). (Open points: DESIGN CHOICE, log 29.) -/
def jobElem (j : Job) (stop : Option Nat) (r : JobRunState) (i : List Nat) : JobRunState :=
  let a := elemAddr j.src j.str i
  let d := elemAddr j.dst j.dstr i
  if r.lost.isSome || r.wait then r
  else if stop.any fun x => decide (a ≤ x) && decide (x < a + j.w) then { r with lost := some { code := 0x0A } }
  else
    let (s, bs, lost, wait) :=
      if j.dir = .hs ∨ j.dir = .rm ∨ j.dir = .tfill then r.s.globalSource a j.w else (r.s, r.s.spadBytes a j.w, none, false)
    let bs := if j.dir = .rm then (List.range bs.length).map fun k => (tget? r.glob (a + k)).getD (bs.getD k 0) else bs
    if lost.isSome || wait then { r with s := s, lost := lost, wait := wait }
    else if j.dir = .sh ∨ j.dir = .rm ∨ j.dir = .tevict then
      { r with s := s, glob := (List.range bs.length).foldl (fun t k => tset t (d + k) (bs.getD k 0)) r.glob }
    else { r with s := s.spadPut d bs }

/-- Contiguous runs of cells, each of at most 4 KiB (R217). -/
def runsOf : List Host.Cell → List (List Host.Cell)
  | [] => []
  | c :: cs =>
    match runsOf cs with
    | (d :: ds) :: rest => if d.1 = c.1 + 1 ∧ ds.length + 1 < 4096 then (c :: d :: ds) :: rest else [c] :: (d :: ds) :: rest
    | rest => [c] :: rest

/-- Append the records of an ended job (R217, R282); false when the log has no room (R261). (Open points: DESIGN CHOICE, log 29.) -/
def jobRecords (s : State) (inc : BitVec 16) : List (List Host.Cell) → State × Bool
  | [] => (s, true)
  | r :: rs =>
    let n := r.length
    match s.logRoom (32 + (n + 31) / 32 * 32) with
    | (s, false) => (s, false)
    | (s, true) => (s.append ((r.head?.map Prod.fst).getD 0) n r true inc).jobRecords inc rs

/-- The job at the head leaves the queue; its handle is updated when it has ended well (R220, R222). -/
def jobGone (s : State) (j : Job) (update : Bool) : State :=
  let s := s.modCopy fun c => { c with jobs := c.jobs.tail }
  if update then s.handleEnd j.hd j.produces j.ticket
  else (s.modRegs fun r => r.dropReservation j.hd j.produces).settleHandles

/-- A running job: its elements in order, up to one that cannot be read (R217). -/
def jobRun (s : State) (j : Job) (stop : Option Nat) : JobRunState := (loopIndices j.ext).foldl (jobElem j stop) ⟨s.nextFree, [], none, false⟩

/-- A running job fails: what it has written stays, it writes nothing further, and its cause is held; records that find no room in the log hold it
back (R217, R220, R261). (Open points: DESIGN CHOICE, log 29.) -/
def jobFail (s : State) (j : Job) (c : Cause) (r : JobRunState) : State :=
  match r.s.jobRecords j.dstInc (runsOf r.glob) with
  | (_, false) => s
  | (t, true) => (t.jobGone j false).modCopy fun e => { e with err := e.err ++ [⟨c, j.hd⟩] }

/-- A running job fails at the address of a cause (R220). -/
def jobFailAt (s : State) (c : Cause) : State :=
  match s.core.copy.jobs with
  | [] => s
  | j :: _ =>
    if !j.running then s
    else
      let r := s.jobRun j (some c.addr.toNat)
      if r.lost.isSome then s.jobFail j c r else s.jobFail j c ⟨s, [], none, false⟩

/-- What a job whose source lies on another device meets there: nothing, a wait for the session, or the cause that it fails with
(R220, R362, R363). -/
def jobReach (s : State) (j : Job) : Option (Option Cause) :=
  if (j.dir = .hs ∨ j.dir = .rm ∨ j.dir = .tfill) ∧ s.isRemote j.src then
    let p := s.peer (s.holderOf j.src)
    match p.state with
    | .up => if p.inc = j.srcInc then none else some (some (s.goneCause j.src))
    | .none => some (some (s.unreachableCause j.src))
    | .refused => some (some (s.unreachableCause j.src))
    | _ => some none
  else none

/-- A running job ends: its bytes are written, its records appended, and its handle updated (R217, R195, R228); it fails on lost data (R220),
and waits for room in the log and for a page that is not there. (Open points: DESIGN CHOICE, log 29.) -/
def jobEnd (s : State) : State :=
  match s.core.copy.jobs with
  | [] => s
  | j :: _ =>
    if !j.running || s.frozen then s
    else if let some w := s.jobReach j then (match w with
      | some c => s.jobFail j c ⟨s, [], none, false⟩
      | none => s)
    else
      let r := s.jobRun j none
      match r.lost with
      | some c => s.jobFail j c r
      | none =>
        if r.wait then s
        else
          match r.s.jobRecords j.dstInc (runsOf r.glob) with
          | (_, false) => s
          | (t, true) =>
            let t := t.modCopy fun c => { c with bytes := c.bytes + BitVec.ofNat 64 (j.w * (j.ext.foldl (· * ·) 1)) }
            let t := match j.dir with
              | .tfill => t.modCopy fun c => { c with tags := tmod {} c.tags j.slot fun e => { e with valid := true } }
              | .tevict => t.modCopy fun c => { c with tags := tmod {} c.tags j.slot fun e => if e.lock then e else { e with valid := false } }
              | _ => t
            t.jobGone j true

end State

/-- The first held cause of a failed job that the syllable names (R220). -/
def State.copyHeld? (s : State) (h : Nat) : Option CopyHeld := s.core.copy.err.find? fun e => h == 0 || e.hd == h

def execCpyw (h : BitVec 4) (s : State) : Out :=
  .next (if s.core.copy.jobs.any fun j => h == 0 || j.hd == h.toNat then s.hold
    else
      match s.copyHeld? h.toNat with
      | some e => (s.modCopy fun c => { c with err := c.err.erase e }).raise e.cause
      | none => s)

/-! ### Slots (R194 to R196) -/

/-- X(xa)[9:0] as a slot, whose bytes must lie in the task's range (R190). -/
def State.withSlot (s : State) (w : Word) (k : State → Nat → State) : State :=
  let n := w.toNat % 1024
  if s.spadOk (2048 * n) 2048 then k s n else s.illegal

def execTlook (d a : BitVec 6) (q : BitVec 3) (s : State) : Out :=
  .next (s.guarded q fun s =>
    match (s.ctx s.bound.ctx).translate? (s.x a).toNat .rd with
    | none => s.noWindow (s.x a)
    | some c =>
      let hit := s.core.copy.tags.find? fun kv => kv.2.valid && kv.2.tag == c.ia / 2048 && s.spadOk (2048 * kv.1) 2048
      s.setX d (match hit with
        | some kv => BitVec.ofNat 64 kv.1
        | none => BitVec.allOnes 64) 4)

/-- A 2 KiB job between a slot and a granule: 512 words of 4 bytes. -/
def slotJob (dir : JobDir) (slot : Nat) : Job :=
  { dir := dir, src := 0, dst := 0, w := 4, ext := [512, 1, 1, 1], str := [4, 0, 0, 0], dstr := [4, 0, 0, 0], slot := slot, region := 0, foot := {} }

def execTfill (a b : BitVec 6) (q : BitVec 3) (s : State) : Out :=
  .next (s.guarded q fun s =>
    let va := s.x a
    let w := (s.x b).toNat
    match (s.ctx s.bound.ctx).translate? va.toNat .rd with
    | none => s.noWindow va
    | some c =>
      if c.ia % 2048 ≠ 0 then s.misalign va 2048
      else
        s.withSlot (s.x b) fun s n =>
          s.issueJob (slotJob .tfill n) { glob := true, base := c.ia, lo := c.ia, hi := c.ia + 2048, inc := c.inc }
            { glob := false, base := 2048 * n, lo := 2048 * n, hi := 2048 * n + 2048 } fun s =>
              let own := s.resNo
              s.modCopy fun e => { e with tags := tmod {} e.tags n fun t =>
                { t with tag := c.ia / 2048, tid := fld w 26 8, reads := fld w 10 16, owner := own, valid := false } })

/-- First byte of the granule that lies in a constant window, with the window: TEVICT (R211). -/
def State.constGranule (s : State) (ia : Nat) : Option (Nat × Nat) :=
  (List.range 8).foldl (fun best w =>
    let a := tget {} (s.ctx s.bound.ctx).aws w
    let lo := max ia (a.ibase * 65536)
    if best.isNone && s.constWin w && a.a.getLsbD 0 && a.len != 0 && decide (lo < min (ia + 2048) ((a.ibase + a.len) * 65536)) then
      some (lo - a.ibase * 65536 + a.vbase * 65536, w)
    else best) none

/-- Open points: DEDUCED, log 77. -/
def execTevict (a : BitVec 6) (q : BitVec 3) (s : State) : Out :=
  .next (s.guarded q fun s =>
    s.withSlot (s.x a) fun s n =>
      let t := tget {} s.core.copy.tags n
      let ia := t.tag * 2048
      if !t.valid then s
      else
        match s.constGranule ia with
        | some (va, w) => s.constWrite va w
        | none =>
          s.issueJob (slotJob .tevict n) { glob := false, base := 2048 * n, lo := 2048 * n, hi := 2048 * n + 2048 }
            { glob := true, base := ia, lo := ia, hi := ia + 2048, inc := (s.peer (s.holderOf ia)).inc } id)

def execTinv (a : BitVec 6) (q : BitVec 3) (s : State) : Out :=
  .next (s.guarded q fun s =>
    s.withSlot (s.x a) fun s n =>
      if (tget {} s.core.copy.tags n).lock then s
      else s.modCopy fun c => { c with tags := tmod {} c.tags n fun t => { t with valid := false, reads := 0 } })

/-- Locks that a context's tasks hold on the core (R196). -/
def State.locksHeld (s : State) (ctx : Nat) : Nat :=
  (s.core.copy.tags.filter fun kv => kv.2.lock &&
    (match tget? s.core.copy.resid kv.2.owner with
     | some (l, i) => ((s.task? l i).map Task.ctx) == some ctx
     | none => false)).length

def execTlock (d a : BitVec 6) (q : BitVec 3) (s : State) : Out :=
  .next (s.guarded q fun s =>
    s.withSlot (s.x a) fun s n =>
      if (tget {} s.core.copy.tags n).lock then s.setX d 1 1
      else if (s.ctx s.bound.ctx).lockq.toNat ≤ s.locksHeld s.bound.ctx then s.setX d 2 1
      else
        let own := s.resNo
        (s.modCopy fun c => { c with tags := tmod {} c.tags n fun t => { t with lock := true, owner := own } }).setX d 0 1)

def execTunlock (d a : BitVec 6) (q : BitVec 3) (s : State) : Out :=
  .next (s.guarded q fun s =>
    s.withSlot (s.x a) fun s n =>
      if (tget {} s.core.copy.tags n).lock then
        (s.modCopy fun c => { c with tags := tmod {} c.tags n fun t => { t with lock := false } }).setX d 0 1
      else s.setX d 1 1)

end Sys2Proof.Machine
end

