-- ==== Sys2Proof/Machine/Sync.lean ====
section
/-! DEFINITION. ACQ, REL, FENCE, the atomics, LOGCMP, LOGMARK, LOGTRUNC and SSTEP (spec 10_memory_model.md R265 to R288; 14_fabric.md R362, R363). -/

namespace Sys2Proof.Machine

/-- The word of a variable's address: a variable is an aligned 8-byte word (R270). (Open points: DEDUCED, log 32.) -/
def varOf (ia : Nat) : Nat := ia / 8 * 8

/-- The scope of the field `scope code − 4` (R281). -/
def scopeOf (s : BitVec 3) : Scope := [Scope.die, .package, .host, .peer, .domain, .group, .network, .system].getD s.toNat .die

/-- Does a scope's fence variable belong to the die (R273)? -/
def Scope.ofDie : Scope → Bool
  | .task | .core | .pair | .cluster | .die => true
  | _ => false

namespace State

/-- A region-ending syllable has committed (R28). (Open points: DEDUCED, log 91.) -/
def endRegion (s : State) : State := s.modRun fun r => { r with ended := true }

/-- Is an earlier load of the task still on its way (R271)? Lost data has arrived, and its fault waits for a consumer (R208). -/
def loadsOut (s : State) : Bool := s.core.misses.any fun m => !m.bad

/-- A release stamp of a source becomes the variable's latest (R270, R271). -/
def publish (s : State) (ia src stamp : Nat) : State :=
  match s.peekPa? (varOf ia) with
  | none => s
  | some pa => s.latest (s.syncDie pa) (varOf ia) src stamp

/-- Room for a release of a source at the sync home of a variable of this device: false while a drop waits (R270). -/
def publishRoom (s : State) (ia src : Nat) : State × Bool :=
  match s.peekPa? (varOf ia) with
  | none => (s, true)
  | some pa => s.syncRoom (s.syncDie pa) (varOf ia) src

/-- The stamps of this device's dies on a variable of another device (R264, R272). (Open points: DEDUCED, log 33.) -/
def farSources (s : State) (ia : Nat) : Tab Nat := ((s.rsync.find? fun v => v.ia == varOf ia).map SyncVar.sources).getD []

/-- A release of the current die on a variable of another device. (Open points: DEDUCED, log 33.) -/
def publishFar (s : State) (ia stamp : Nat) : State :=
  { s with rsync := { ia := varOf ia, sources := tset (s.farSources ia) s.myDie stamp } :: s.rsync.filter fun v => v.ia != varOf ia }

/-- The sources of a variable of this device (R270). -/
def varSources (s : State) (ia : Nat) : Tab Nat :=
  match s.peekPa? (varOf ia) with
  | some pa => s.sourcesOf (s.syncDie pa) (varOf ia)
  | none => []

/-- The checks of R275 that come before the page: window and permission, alignment, constant window, the reach of the scope. -/
def syncAccess (s : State) (va : Word) (n : Nat) (p : Perm) (sc : Scope) (k : State → Access → State) : State :=
  s.lsAccess va n p fun s c =>
    if p = .rdw && s.constWin c.win then s.constWrite va.toNat c.win
    else if s.isRemote c.ia && !(Scope.remoteOk sc) then s.illegal
    else k s c

/-- The page and the data of a variable of this device (R275), then what follows with its bytes. -/
def syncWord (s : State) (ia n : Nat) (k : State → Nat → List Byte → State) : State :=
  s.withPage ia fun s pa _ =>
    match s.homeRead ia pa n with
    | (s, none) => s.uncorrectable ia pa
    | (s, some bs) => k s pa bs

/-- CheckWriteOwners on what a release would cover (R278, R279): the race it finds. -/
def releaseCheck (s : State) : State × Option Cause :=
  match s.conflicts (wordsOf (s.mem.recs.filter s.covers)) with
  | (w, i) :: rest => (((w, i) :: rest).foldl (fun s c => s.takeOwner c.1 s.bound.va) s, some (raceCause 2 w i))
  | [] => (s, none)

/-- A release part, once, with what it publishes; an eager one holds until its die is compacted; then what follows, with the hold that comes back to it
without a second release (R271). (Open points: DEDUCED, log 34.) -/
def withRelease (s : State) (eager : Bool) (pub : State → Nat → State × Word) (k : State → Word → (State → State) → State) : State :=
  let finish := fun (s : State) (st : Nat) (v : Word) =>
    let again := fun s : State => (s.modCore fun c => { c with released := some (st, v) }).hold
    let r := if eager then s.forceDie s.myDie st else (s, true)
    if r.2 then k (r.1.modCore fun c => { c with released := none }) v again else again r.1
  match s.core.released with
  | some (st, v) => finish s st v
  | none =>
    match s.releasePart with
    | (s, _, some c) => s.raise c
    | (s, st, none) =>
      let (s, v) := pub s st
      finish s st v

/-- Room at the sync home of a variable of this device before a release on it, which holds while a drop waits (R270). -/
def withRoom (s : State) (ia : Nat) (k : State → State) : State :=
  if s.core.released.isSome then k s
  else
    match s.publishRoom ia s.myDie with
    | (s, true) => k s
    | (s, false) => s.hold

/-- The release part on a variable of another device, whose answer has come with the value `v`: the records take a stamp of this package; the
syllable goes on as `withRelease` does once it has released (R264, R271). (Open points: DEDUCED, log 34.) -/
def releaseFar (s : State) (ia : Nat) (v : Word) : State :=
  let (s, st) := s.takeStamp
  let s := ((wordsOf (s.mem.recs.filter s.covers)).foldl (fun s w => s.takeOwner w st) s).release st
  (s.publishFar ia st).modCore fun c => { c with released := some (st, v) }

/-- A release on a variable of another device: the check, the request, and what follows its answer (R271, R274, R363). (Open points: DEDUCED, log 34.) -/
def withFarRelease (s : State) (c : Access) (req : ReqOp) (eager : Bool) (k : State → Word → (State → State) → State) : State :=
  let go := fun s : State => s.withRelease eager (fun s _ => (s, 0)) k
  let send := fun s : State => s.ask c.ia c.inc req fun s r =>
    match r with
    | .sync v _ => go (s.releaseFar c.ia v)
    | .value _ => s
    | .error e x => s.raise (replyCause c.ia e x)
  match s.core.released, s.core.asked with
  | some _, _ => go s
  | none, some (_, true) => send s
  | none, _ =>
    match s.releaseCheck with
    | (s, some e) => s.raise e
    | (s, none) => send s

/-- The acquire part on a variable's sources, then what follows; a race is raised, and a compaction that waits holds as `again` does (R272, R279).
(Open points: DEDUCED, log 33.) -/
def withAcquire (s : State) (ia : Nat) (far : Bool) (sources : Tab Nat) (sc : Scope) (again : State → State) (k : State → State) : State :=
  match s.acquirePart ia far sources (Scope.eager sc) with
  | (s, .done) => k s
  | (s, .race c) => s.raise c
  | (s, .wait) => again s

end State

/-! ### ACQ, REL, FENCE (R271 to R273) -/

/-- An answer of another device to an ACQ is kept while a compaction of this device's own releases waits. (Open points: DEDUCED, log 33.) -/
def execAcq (d a : BitVec 6) (sc : Scope) (q : BitVec 3) (s : State) : Out :=
  .next (s.guarded q fun s =>
    s.syncAccess (s.x a) 8 .rd sc fun s c =>
      if s.isRemote c.ia then
        let go := fun (s : State) (v : Word) =>
          (s.modCore fun c => { c with released := none }).withAcquire (varOf c.ia) true (s.farSources c.ia) sc
            (fun s => (s.modCore fun c => { c with released := some (0, v) }).hold) fun s => s.setX d v 1
        match s.core.released with
        | some (_, v) => go s v
        | none =>
          s.ask c.ia c.inc .acq fun s r =>
            match r with
            | .sync v _ => go s v
            | .value _ => s
            | .error e x => s.raise (State.replyCause c.ia e x)
      else
        s.syncWord c.ia 8 fun s _ bs =>
          s.withAcquire (varOf c.ia) false (s.varSources c.ia) sc State.hold fun s => s.setX d (BitVec.ofNat 64 (leNat bs)) 1)

def execRel (d a : BitVec 6) (sc : Scope) (q : BitVec 3) (s : State) : Out :=
  .next (s.guarded q fun s =>
    s.syncAccess (s.x a) 8 .rdw sc fun s c =>
      if s.loadsOut then s.hold
      else if s.isRemote c.ia then s.withFarRelease c .rel (Scope.eager sc) fun s v _ => (s.setX d v 1).endRegion
      else
        s.syncWord c.ia 8 fun s pa bs =>
          if s.core.released.isNone && s.imageWait c.ia then s.hold
          else
            s.withRoom c.ia fun s =>
              s.withRelease (Scope.eager sc) (fun s st =>
                let v := (leNat bs + 1) % 2 ^ 64
                (((s.atomicWrite c.ia pa (leBytes 8 v) st).1).publish c.ia s.myDie st, BitVec.ofNat 64 v))
                fun s v _ => (s.setX d v 1).endRegion)

/-- The fence variable of a scope: the latest stamp of each source (R273). -/
def State.fenceSources (s : State) (sc : Scope) : Tab Nat := if Scope.ofDie sc then (s.die s.myDie).fence else s.fence

/-- Record a release on the fence variable of a scope (R273). -/
def State.fencePublish (s : State) (sc : Scope) (stamp : Nat) : State :=
  if Scope.ofDie sc then s.modDie s.myDie fun d => { d with fence := tset d.fence s.myDie stamp }
  else { s with fence := tset s.fence s.myDie stamp }

/-- Open points: DEDUCED, log 34. -/
def execFence (sc : Scope) (q : BitVec 3) (s : State) : Out :=
  .next (s.guarded q fun s =>
    if s.loadsOut then s.hold
    else
      s.withRelease (Scope.eager sc) (fun s st => (s.fencePublish sc st, 0)) fun s _ again =>
        s.withAcquire 0 false (s.fenceSources sc) sc again State.endRegion)

/-! ### AMO and CAS (R281) -/

/-- The atomic operations, in the order of their codes (R281). -/
inductive AmoOp where
  | add | and | or | xor | min | max | minu | maxu | swap | fadd
  deriving DecidableEq, Repr

/-- Bytes of the word that an operation acts on (R281). -/
def AmoOp.bytes : AmoOp → Nat
  | .fadd => 4
  | _ => 8

/-- The code of an operation (R281). -/
def AmoOp.code : AmoOp → Nat
  | .add => 0
  | .and => 1
  | .or => 2
  | .xor => 3
  | .min => 4
  | .max => 5
  | .minu => 6
  | .maxu => 7
  | .swap => 8
  | .fadd => 9

/-- The new value of the word (R281). -/
def AmoOp.apply (op : AmoOp) (old b : Word) : Word :=
  match op with
  | .add => old + b
  | .and => old &&& b
  | .or => old ||| b
  | .xor => old ^^^ b
  | .min => if old.toInt ≤ b.toInt then old else b
  | .max => if old.toInt ≤ b.toInt then b else old
  | .minu => if old.toNat ≤ b.toNat then old else b
  | .maxu => if old.toNat ≤ b.toNat then b else old
  | .swap => b
  | .fadd => BitVec.ofNat 64 (fp32.add (old.toNat % 2 ^ 32) (b.toNat % 2 ^ 32)).1

namespace State

/-- The operation at the home atomic unit: `f` gives the new value, or nothing to write; the old value (R281, R91). -/
def atomicAt (s : State) (ia pa n : Nat) (f : Word → Option Word) : State × Word :=
  let s := (s.compactAt ia n).1
  let (s, st) := s.takeStamp
  let old := BitVec.ofNat 64 (leNat (s.mem.bytes pa n))
  match f old with
  | none => (s, old)
  | some v =>
    let s := (s.atomicWrite ia pa (leBytes n v.toNat) st).1
    (s.wakeCounter (varOf ia) (leNat (s.mem.bytes (pa / 8 * 8) 8)), old)

/-- The operation once every released record that writes the word is compacted, then what follows (R281). -/
def withAtomic (s : State) (ia pa n : Nat) (f : Word → Option Word) (again : State → State) (k : State → Word → State) : State :=
  match s.compactAt ia n with
  | (s, false) => again s
  | (s, true) =>
    let r := s.atomicAt ia pa n f
    k r.1 r.2

/-- AMO and CAS: a release, then an acquire and the operation at one moment, on one word (R281). -/
def atomic (s : State) (d a : BitVec 6) (sc : Scope) (n : Nat) (req : ReqOp) (f : Word → Option Word) : State :=
  s.syncAccess (s.x a) n .rdw sc fun s c =>
    if s.loadsOut then s.hold
    else if s.isRemote c.ia then
      s.withFarRelease c req (Scope.eager sc) fun s v again =>
        s.withAcquire (varOf c.ia) true (s.farSources c.ia) sc again fun s => (s.setX d v 1).endRegion
    else
      s.syncWord c.ia n fun s pa _ =>
        if s.core.released.isNone && s.imageWait c.ia then s.hold
        else
          s.withRoom c.ia fun s =>
            s.withRelease (Scope.eager sc) (fun s st => (s.publish c.ia s.myDie st, 0)) fun s _ again =>
              s.withAcquire (varOf c.ia) false (s.varSources c.ia) sc again fun s =>
                s.withAtomic c.ia pa n f again fun s old => (s.setX d old 1).endRegion

/-- AMO (R281). (Open points: DEDUCED, log 32.) -/
def amo (s : State) (op : AmoOp) (d a b : BitVec 6) (sc : BitVec 3) : State :=
  s.atomic d a (scopeOf sc) op.bytes (.amo op.code (s.x b)) fun old => some (op.apply old (s.x b))

end State

def execAmoAdd (d a b : BitVec 6) (sc : BitVec 3) (s : State) : Out := .next (s.amo .add d a b sc)
def execAmoAnd (d a b : BitVec 6) (sc : BitVec 3) (s : State) : Out := .next (s.amo .and d a b sc)
def execAmoOr (d a b : BitVec 6) (sc : BitVec 3) (s : State) : Out := .next (s.amo .or d a b sc)
def execAmoXor (d a b : BitVec 6) (sc : BitVec 3) (s : State) : Out := .next (s.amo .xor d a b sc)
def execAmoMin (d a b : BitVec 6) (sc : BitVec 3) (s : State) : Out := .next (s.amo .min d a b sc)
def execAmoMax (d a b : BitVec 6) (sc : BitVec 3) (s : State) : Out := .next (s.amo .max d a b sc)
def execAmoMinu (d a b : BitVec 6) (sc : BitVec 3) (s : State) : Out := .next (s.amo .minu d a b sc)
def execAmoMaxu (d a b : BitVec 6) (sc : BitVec 3) (s : State) : Out := .next (s.amo .maxu d a b sc)
def execAmoSwap (d a b : BitVec 6) (sc : BitVec 3) (s : State) : Out := .next (s.amo .swap d a b sc)
def execAmoFadd (d a b : BitVec 6) (sc : BitVec 3) (s : State) : Out := .next (s.amo .fadd d a b sc)

def execCas (d a b : BitVec 6) (sc : BitVec 3) (s : State) : Out :=
  .next (s.atomic d a (scopeOf sc) 8 (.cas (s.x d) (s.x b)) fun old => if old = s.x d then some (s.x b) else none)

/-! ### The log (R284, R285) -/

/-- The latest stamp that the die has released on a variable, wherever its sync home is (R284). -/
def State.dieStamp (s : State) (ia : Nat) : Nat :=
  (List.range 4).foldl (fun m d => max m (tget 0 (s.sourcesOf d (varOf ia)) s.myDie)) (tget 0 (s.farSources ia) s.myDie)

namespace State

/-- Compact this die's records up to a stamp under a fetch hold; their number is that at the issue (R284). (Open points: DEDUCED, log 34.) -/
def logCompact (s : State) (d : BitVec 6) (bound : Nat) : State :=
  let (b, n) := s.core.compacted.getD (bound, (s.mem.releasedIn s.myDie 0 bound).length)
  match s.forceDie s.myDie b with
  | (s, true) => (s.modCore fun c => { c with compacted := none }).setX d (BitVec.ofNat 64 n) 1
  | (s, false) => (s.modCore fun c => { c with compacted := some (b, n) }).hold

end State

/-- Open points: DEDUCED, log 35. -/
def execLogcmp (d a : BitVec 6) (q : BitVec 3) (s : State) : Out :=
  .next (s.guarded q fun s =>
    if a = 0 then s.logCompact d s.bound.lastRel
    else s.lsAccess (s.x a) 8 .rd fun s c => s.logCompact d (s.dieStamp c.ia))

/-- A log position (R260). (Open points: DEDUCED, log 35.) -/
def logPos (core seq : Nat) : Word := BitVec.ofNat 64 (core * 2 ^ 55 + seq % 2 ^ 55)

/-- May the task use LOGMARK and LOGTRUNC (R285)? -/
def State.logPriv (s : State) : Bool := (s.ctx s.bound.ctx).logPriv

/-- Open points: DEDUCED, log 35. -/
def execLogmark (d : BitVec 6) (q : BitVec 3) (s : State) : Out :=
  .next (s.guarded q fun s => if s.logPriv then s.setX d (logPos s.coreId s.bound.lastSeq) 1 else s.illegal)

/-- Has a record of the bound task that it wrote after a position of another core been released (R285)? (Open points: DEDUCED, log 35.) -/
def State.releasedSince (s : State) (core pos : Nat) : Bool :=
  let b := s.bound
  let seqs := ((s.task? b.launch b.index).map Task.seqs).getD []
  let e := tget {} seqs core
  decide (pos < e.rel) || (seqs.any fun kv => kv.1 != core && decide (e.stay < kv.2.relStay)) || decide (b.seq0 < b.relSeq)

/-- Open points: DEDUCED, log 35. -/
def execLogtrunc (d a : BitVec 6) (q : BitVec 3) (s : State) : Out :=
  .next (s.guarded q fun s =>
    if !s.logPriv then s.illegal
    else if s.core.copy.jobs.any fun j => j.dir == .sh || j.dir == .rm || j.dir == .tevict then s.hold
    else
      let p := (s.x a).toNat
      let here := decide (p / 2 ^ 55 = s.coreId)
      let pos := if here then p % 2 ^ 55 else s.bound.seq0
      let stays := if here then decide (pos < s.bound.relSeq) else s.releasedSince (p / 2 ^ 55) (p % 2 ^ 55)
      ((s.discard fun r => decide (pos < r.seq)).modTask fun b => { b with mark := min b.mark pos }).setX d (if stays then 1 else 0) 1)

/-! ### SSTEP (R283) -/

/-- The superstep variable's key: a die, or 4 for the package. -/
def State.stepKey (s : State) (pkg : Bool) : Nat := if pkg then 4 else s.myDie

/-- A superstep variable of a launch (R283). -/
def State.superStep (s : State) (launch key : Nat) : SuperStep := tget {} (((s.launch? launch).map Launch.ssteps).getD []) key

def State.modStep (s : State) (launch key : Nat) (f : SuperStep → SuperStep) : State :=
  s.modLaunch launch fun l => { l with ssteps := tmod {} l.ssteps key f }

/-- SSTEP (R283): the release once, the task's SENDs, then the arrival; the next bundle waits. -/
def State.sstep (s : State) (pkg : Bool) : State :=
  let key := s.stepKey pkg
  let l := s.bound.launch
  let arrive := fun s : State =>
    if s.chanPending s.resNo then (s.modCore fun c => { c with released := some (0, 0) }).hold
    else
      let g := (s.superStep l key).gen
      (((s.modCore fun c => { c with released := none, sstep := some (pkg, g) }).modStep l key fun v =>
        { v with arrived := s.bound.index :: v.arrived.filter fun i => i != s.bound.index }).endRegion)
  match s.core.released with
  | some _ => arrive s
  | none =>
    if s.loadsOut then s.hold
    else
      match s.releasePart with
      | (s, _, some c) => s.raise c
      | (s, st, none) => arrive (s.modStep l key fun v => { v with sources := tset v.sources s.myDie st })

def execSstepDie (q : BitVec 3) (s : State) : Out := .next (s.guarded q fun s => s.sstep false)
def execSstepPackage (q : BitVec 3) (s : State) : Out := .next (s.guarded q fun s => s.sstep true)

namespace State

/-- Participants of a launch's superstep (R283): its tasks that are neither DONE nor KILLED. -/
def participants (s : State) (launch key : Nat) : List Nat :=
  (s.sched.tasks.filter fun t => t.launch == launch && t.state != .done && t.state != .killed && (key == 4 || t.die == key)).map Task.index

/-- The write-owner tables of a die, or of the package, are emptied (R278). -/
def clearOwners (s : State) (key : Nat) : State :=
  s.ctrls.foldl (fun s kv => if key = 4 ∨ kv.1 / 4 = key then s.modCtrl kv.1 fun c => { c with owners := [] } else s) s

/-- Every participant has arrived: records released before it are compacted, and the generation ends (R276, R278, R283). -/
def sstepRelease (s : State) (launch key : Nat) : State :=
  let v := s.superStep launch key
  if v.arrived ≠ [] ∧ (s.participants launch key).all fun i => v.arrived.contains i then
    let dies := if key = 4 then [0, 1, 2, 3] else [key]
    let s := dies.foldl (fun s d => (s.compactDie d s.mem.clock).1) s
    (s.clearOwners key).modStep launch key fun v => { v with gen := v.gen + 1, arrived := [] }
  else s

/-- What the task's next bundle waits for at entry: the acquire of a counter on which it was parked (R91), and after an SSTEP its superstep's end and the
acquire of step 5, which waits for the compaction that it forces (R283). -/
def entryAcquire (s : State) : State × Acq :=
  let (s, w) := match s.bound.wake with
    | none => (s, Acq.done)
    | some ia => s.acquirePart (varOf ia) false (s.varSources ia) false
  match w with
  | .done =>
    let s := s.modTask fun b => { b with wake := none }
    match s.core.sstep with
    | none => (s, .done)
    | some (pkg, g) =>
      let v := s.superStep s.bound.launch (s.stepKey pkg)
      if v.gen ≤ g ∧ (s.launch? s.bound.launch).isSome then (s, .wait)
      else
        match s.acquirePart 0 false v.sources pkg with
        | (s, .done) => (s.modCore fun c => { c with sstep := none }, .done)
        | r => r
  | w => (s, w)

end State

end Sys2Proof.Machine
end

