-- ==== Sys2Proof/Machine/Channel.lean ====
section
/-! DEFINITION. The channel syllables of the CM slot (spec 15_collectives_network.md R372 to R380). -/

namespace Sys2Proof.Machine

/-- The cause of a broken channel (R376). (Open points: DEDUCED, log 41.) -/
def State.brokenCause (s : State) (c : Chan) : State :=
  match c.err with
  | 2 => s.raise { code := 0x0B, detail := (s.peer c.dev).inc.zeroExtend 32 }
  | 3 => s.raise { code := 0x0C, detail := BitVec.ofNat 32 (if c.kind = 2 then c.dev else s.devNum) }
  | _ => s.illegal

/-- The slot stalls issue (R20). -/
def State.stall (s : State) : State := s.modFront fun f => { f with hold := .stall }

/-- The checks that SEND, RECV, RADD and CHWAIT share, then the syllable on an open entry (R376, R378). -/
def State.chanUse (s : State) (c : BitVec 6) (ok : Chan → Bool) (k : State → Chan → State) : State :=
  let e := s.chan c
  if e.state = .closed || !ok e then s.illegal
  else if e.state = .broken then s.brokenCause e
  else if e.state = .opening then s.stall
  else k s e

/-- The lanes from `B` on that an element takes (R376). -/
def Chan.fits (e : Chan) (l : BitVec 6) : Bool := decide (2 * l.toNat + e.lanes ≤ 128)

/-- One more element in the transfer count (R372). -/
def Chan.counted (e : Chan) : Chan := { e with xfer := BitVec.ofNat 32 (satAdd 32 e.xfer.toNat 1) }

def execSend (c : BitVec 6) (v : BitVec 5) (l : BitVec 6) (p : BitVec 4) (s : State) : Out :=
  .next (s.chanUse c (fun e => !e.recv && e.fits l) fun s e =>
    if e.cred = 0 then s.stall
    else
      let b := 2 * l.toNat
      let m := s.p p
      let elem : ChanElem := { lanes := (List.range e.lanes).map fun j => if m.getLsbD (b + j) then lane (s.v v) (b + j) else 0
                               stamp := if e.proto then BitVec.ofNat 8 e.rank else 0 }
      let s := s.modChan c.toNat fun e => { e.counted with cred := e.cred - 1, pending := e.pending ++ [elem] }
      (if e.kind = 2 then s.post e.dev (.element e.dev (e.peerCore s.coreId % 352) e.pch elem) else s).endRegion)

/-- Consume the head element of a receive channel and write its lanes (R376). -/
def State.consume (s : State) (c : BitVec 6) (l : BitVec 6) (v : BitVec 5) (p : BitVec 4) (lat : Nat) (e : Chan)
    (add : BitVec 32 → BitVec 32 → Nat × Ev) (stampOk : ChanElem → Bool) : State :=
  if e.held.length = e.depth then s.illegal
  else
    match e.buf with
    | [] => s.stall
    | x :: rest =>
      if !stampOk x then s.illegal
      else
        let b := 2 * l.toNat
        let m := s.p p
        let old := s.v v
        let on := fun i : Nat => m.getLsbD i && decide (b ≤ i) && decide (i < b + e.lanes)
        let f := fun i : Nat => add (x.lanes.getD (i - b) 0) (lane old i)
        let s := s.modChan c.toNat fun e => { e.counted with buf := rest, held := e.held ++ [x] }
        (s.countEv (Ev.sumTo 128 fun i => if on i then (f i).2 else {})).setV v (ofBits on)
          (ofLanes fun i => if on i then BitVec.ofNat 32 (f i).1 else 0) lat

def execRecv (c : BitVec 6) (v : BitVec 5) (l : BitVec 6) (p : BitVec 4) (s : State) : Out :=
  .next (s.chanUse c (fun e => e.recv && e.fits l) fun s e => s.consume c l v p 6 e (fun x _ => (x.toNat, {})) fun _ => true)

/-- RADD: the incoming element is the left operand, and a deterministic chain checks its stamp (R377). (Open points: DEDUCED, log 41.) -/
def State.radd (s : State) (c : BitVec 6) (v : BitVec 5) (l : BitVec 6) (p : BitVec 4) (ty : Nat) (add : BitVec 32 → BitVec 32 → Nat × Ev) : State :=
  s.chanUse c (fun e => e.recv && e.fits l && e.proto && e.ty == ty) fun s e =>
    s.consume c l v p 9 e add fun x => !s.det || x.stamp.toNat + 1 == e.rank

def execRaddF32 (c : BitVec 6) (v : BitVec 5) (l : BitVec 6) (p : BitVec 4) (s : State) : Out :=
  .next (s.radd c v l p 0 fun x y => fp32.add x.toNat y.toNat)

/-- The two BF16 sums of a lane (R377). -/
def addBf16 (x y : BitVec 32) : Nat × Ev :=
  let a := bf16.add (x.toNat % 2 ^ 16) (y.toNat % 2 ^ 16)
  let b := bf16.add (x.toNat / 2 ^ 16) (y.toNat / 2 ^ 16)
  (a.1 + b.1 * 2 ^ 16, a.2.add b.2)

def execRaddBf16 (c : BitVec 6) (v : BitVec 5) (l : BitVec 6) (p : BitVec 4) (s : State) : Out := .next (s.radd c v l p 1 addBf16)

def execChwait (c n : BitVec 6) (s : State) : Out :=
  .next (s.chanUse c (fun _ => true) fun s e =>
    let k := n.toNat
    if e.recv then
      (if k = 0 then s else if e.depth - e.held.length < k then s.illegal else if k ≤ e.buf.length then s else s.stall)
    else if k = 0 then (if e.cred = e.depthPeer then s else s.stall)
    else if e.depthPeer < k then s.illegal
    else if k ≤ e.cred then s
    else s.stall)

end Sys2Proof.Machine
end

