-- ==== Sys2Proof/Machine/Cluster.lean ====
section
/-! DEFINITION. Fused groups and the spire's syllables (spec 09_cluster.md R240 to R257). -/

namespace Sys2Proof.Machine

/-- The mask bit of a core of a cluster. -/
def lowBit (n : Nat) : BitVec 4 := BitVec.ofNat 4 (2 ^ n)

/-- The group that core `n` of a cluster is a member of (R240). -/
def Cluster.groupOf (c : Cluster) (n : Nat) : Option FuseGroup := c.groups.find? fun g => g.mask.getLsbD n

/-- Change the group of core `n`. -/
def Cluster.modGroup (c : Cluster) (n : Nat) (f : FuseGroup → FuseGroup) : Cluster :=
  { c with groups := modFirst (fun g => g.mask.getLsbD n) f c.groups }

/-- The cores of a mask. -/
def members (m : BitVec 4) : List Nat := (List.range 4).filter fun i => m.getLsbD i

/-! ### The boundary of a coupled group (R243, R244, R248) -/

/-- Has every coupled member reached the boundary, with no trapped member still to complete its bundle (R248)? -/
def FuseGroup.ready (g : FuseGroup) : Bool :=
  g.coupled != 0 && (g.trapped &&& g.coupled) == 0 && (members g.coupled).all fun i => (tget? g.arrived i).isSome

/-- Do the coupled members' next bundles agree with the leader's (R244)? -/
def FuseGroup.same (g : FuseGroup) : Bool :=
  match members g.coupled with
  | [] => true
  | i :: rest => rest.all fun j => tget? g.arrived j == tget? g.arrived i

/-- DIVCNT of a core advances by one (R244, R250). -/
def Core.diverge (c : Core) : Core :=
  { c with regs := { c.regs with z := { c.regs.z with divcnt := BitVec.ofNat 16 (satAdd 16 c.regs.z.divcnt.toNat 1) } } }

/-- The end of the FUSE wait of core `i`, if the line gives one (R242). -/
def Cluster.fuseEnd (c : Cluster) (i : Nat) (mask : BitVec 4) (addr : Nat) : Option Nat :=
  let others := (members mask).filter (· != i)
  let bad := others.any fun j => (c.groupOf j).isSome || (match tget? c.line j with
    | some (.fuse m a _ _) => m != mask || a != addr
    | _ => false)
  let all := others.all fun j => match tget? c.line j with
    | some (.fuse m a _ _) => m == mask && a == addr
    | _ => false
  if bad then some 1 else if all then some 0 else none

/-- The end of the REJN wait of a member of `g`, if the line gives one (R246). -/
def Cluster.rejnEnd (c : Cluster) (g : Option FuseGroup) (addr : Nat) : Option Nat :=
  match g with
  | none => some 2
  | some g =>
    let at? := fun j => match tget? c.line j with
      | some (.rejn a _) => some a
      | _ => none
    if (members g.mask).all fun j => (at? j).isSome then
      some (if (members g.mask).all fun j => at? j == some addr then 0 else 1)
    else none

/-- Every wait on the line that ends now, with the register of its status. -/
def Cluster.lineEnds (c : Cluster) : List (Nat × Nat × Nat) :=
  c.line.filterMap fun kv => match kv.2 with
    | .fuse m a d _ => (c.fuseEnd kv.1 m a).map fun st => (kv.1, d, st)
    | .rejn a d => (c.rejnEnd (c.groupOf kv.1) a).map fun st => (kv.1, d, st)

/-- The cluster after the waits on the line that end (R242, R246). -/
def Cluster.endLine (c : Cluster) : Cluster :=
  let ends := c.lineEnds
  let ended := fun i => ends.any fun e => e.1 == i
  let formed := (c.line.filterMap fun kv => match kv.2 with
    | .fuse m _ _ _ => if ends.any (fun e => e.1 == kv.1 && e.2.2 == 0) then some m else none
    | .rejn _ _ => none).foldl (fun l m => if l.contains m then l else l ++ [m]) []
  let groups := c.groups.filterMap fun g =>
    if (members g.mask).any ended then
      if (members g.mask).all fun i => ends.any fun e => e.1 == i && e.2.2 == 0 then some { mask := g.mask, coupled := g.mask } else none
    else some g
  { c with groups := groups ++ formed.map fun m => { mask := m, coupled := m }, line := c.line.filter fun kv => !ended kv.1 }

namespace State

/-- A coupled member reaches the boundary with this next bundle (R244, R248). -/
def fuseArrive (s : State) (next : Nat) : State :=
  let n := lowCore s.coreId
  s.modCluster (clusterOf s.coreId) fun c => c.modGroup n fun g =>
    if g.coupled.getLsbD n then { g with arrived := tset g.arrived n next, trapped := g.trapped &&& ~~~lowBit n } else g

/-- Groups of a cluster whose coupled members have all reached the boundary go on, coupled or decoupled (R244, R245). -/
def fuseSettle (s : State) (k : Nat) : State :=
  let go := (s.cluster k).groups.filter FuseGroup.ready
  let s := s.modCluster k fun c => { c with groups := c.groups.map fun g =>
    if g.ready then (if g.same && !g.split then { g with arrived := [], entry := 0 } else { g with arrived := [], entry := 0, coupled := 0, split := false }) else g }
  (go.flatMap fun g => if g.split || g.same then [] else members g.coupled).foldl (fun s i => s.modCoreAt (4 * k + i) Core.diverge) s

/-- A coupled member stands at the entry of its next bundle: free to issue it, or stalled or held there (R243). -/
def fuseEntry (s : State) (free : Bool) : State :=
  let n := lowCore s.coreId
  s.modCluster (clusterOf s.coreId) fun c => c.modGroup n fun g =>
    if g.coupled.getLsbD n then { g with entry := if free then g.entry ||| lowBit n else g.entry &&& ~~~lowBit n } else g

/-- May the current core issue as far as the coupled members of its group go: all that no trap stops are free to issue (R243, R248)? -/
def fuseGo (s : State) : Bool :=
  match (s.cluster (clusterOf s.coreId)).groupOf (lowCore s.coreId) with
  | some g => !g.coupled.getLsbD (lowCore s.coreId) || g.trapped.getLsbD (lowCore s.coreId) || (g.coupled &&& ~~~(g.entry ||| g.trapped)) == 0
  | none => true

/-- Waits on the line of a cluster that end now write their status and release their cores (R241, R242, R246). -/
def lineSettle (s : State) (k : Nat) : State :=
  let ends := (s.cluster k).lineEnds
  let s := s.modCluster k Cluster.endLine
  ends.foldl (fun s e => if e.2.1 = 0 then s else s.modCoreAt (4 * k + e.1) fun c =>
    { c with regs := { c.regs with x := c.regs.x.setIfInBounds e.2.1 (BitVec.ofNat 64 e.2.2) } }) s

/-- The fused groups and the line of a cluster after anything that its cores have done. -/
def clusterSettle (s : State) (k : Nat) : State :=
  let s := s.fuseSettle k
  s.lineSettle k

/-- Must the current core wait before its next bundle: on the line, or for the coupled members of its group (R242, R246, R248)? -/
def clusterHeld (s : State) : Bool :=
  let c := s.cluster (clusterOf s.coreId)
  let n := lowCore s.coreId
  (tget? c.line n).isSome || (match c.groupOf n with
    | some g => g.coupled.getLsbD n && !g.trapped.getLsbD n && (tget? g.arrived n).isSome
    | none => false)

/-- A register of the bundle that the line writes later: the image of a trap in this bundle keeps its entry value (R23, R241). -/
def lineDest (s : State) (d : BitVec 6) : State := if d = 0 then s else s.modRun fun r => { r with wrote := .x d.toNat 0 :: r.wrote }

/-- The core waits on the line; a member that a trap had stopped is back at the boundary (R246, R248). (Open points: DEDUCED, log 19.) -/
def waitOn (s : State) (w : LineWait) : State :=
  let n := lowCore s.coreId
  s.modCluster (clusterOf s.coreId) fun c =>
    { c.modGroup n fun g => { g with trapped := g.trapped &&& ~~~lowBit n } with line := tset c.line n w }

/-- FUSE or REJN has committed: the core waits on the line from the end of this bundle. (Open points: DEDUCED, log 19.) -/
def joinLine (s : State) (w : LineWait) : State := s.modRun fun r => { r with line := some w }

/-- A message to the spire leaves the core (R252, R253). (Open points: DEDUCED, log 43.) -/
def toSpire (s : State) (g : BitVec 7) (value : Option Word) (dest : BitVec 6) : State :=
  s.modCore fun c => { c with spireOut := c.spireOut ++ [⟨g.toNat, value, dest.toNat, if g.toNat < 64 then 64 else 192⟩] }

/-- May a BARW on the group go on (R254)? GEN has passed the value, or the group gives no generation: what it writes. -/
def barrierResult (s : State) (g : Nat) (target : Word) : Option Word :=
  let m := tget {} (s.cluster (clusterOf s.coreId)).mirror g
  if target < m.gen then some m.gen
  else if target = BitVec.allOnes 64 ∨ m.n = 0 then some (BitVec.allOnes 64)
  else none

end State

def execFuse (d a : BitVec 6) (s : State) : Out :=
  let m := BitVec.ofNat 4 (s.x a).toNat
  let n := lowCore s.coreId
  .next (if !(m == 0b0011 || m == 0b1100 || m == 0b1111) || !m.getLsbD n || ((s.cluster (clusterOf s.coreId)).groupOf n).isSome then s.illegal
    else (s.lineDest d).joinLine (.fuse m s.bundleAddr d.toNat s.time))

/-- Open points: DEDUCED, log 19. -/
def execDecpl (s : State) : Out :=
  let n := lowCore s.coreId
  .next (s.modCluster (clusterOf s.coreId) fun c => c.modGroup n fun g => if g.coupled.getLsbD n then { g with split := true } else g)

def execRejn (d : BitVec 6) (s : State) : Out :=
  let n := lowCore s.coreId
  .next (match (s.cluster (clusterOf s.coreId)).groupOf n with
    | none => s.setX d 2 1
    | some _ => (s.lineDest d).joinLine (.rejn s.bundleAddr d.toNat))

/-- A message ahead of whose result the reply is written into the register file (R253): its destination joins the image (R23). -/
def execBarr (d : BitVec 6) (g : BitVec 7) (s : State) : Out :=
  .next (((s.lineDest d).toSpire g none d).endRegion)

def execBarw (d : BitVec 6) (g : BitVec 7) (s : State) : Out :=
  .next (match s.barrierResult g.toNat (s.x d) with
    | some w => s.setX d w 1
    | none => s.hold)

def execBarm (a : BitVec 6) (g : BitVec 7) (s : State) : Out :=
  let w := s.x a
  let reserved : Word := if g.toNat < 64 then 0xFFFF0000FFC00000 else 0xFFFF0000FFFFFFF0
  .next (if (w &&& reserved) != 0 || (fld w.toNat 32 16 != 0 && fld w.toNat 0 22 == 0) then s.illegal else s.toSpire g (some w) 0)

end Sys2Proof.Machine
end

