-- ==== Sys2Proof/WellFormed.lean ====
section
/-! DEFINITION. The checks that the encoding alone decides: operand codes that no form of the instruction admits (spec 02_encoding.md R58, R59;
05_vector.md R136; 07_core_memory.md R203, R205, R206; 06_matrix.md R169; 09_cluster.md R252), and the ranges of an event's arguments. -/

namespace Sys2Proof

/-- Codes 0b000 to 0b110 (R136). -/
def notF8 (t : VTy) : Bool := t != .f8

/-- Codes 0b000 to 0b101 (R136). -/
def signedOrFloat (t : VTy) : Bool := t != .f8 && t != .u8

/-- Codes 0b011 to 0b110 (R136). -/
def integer (t : VTy) : Bool := t == .i32 || t == .i16 || t == .i8 || t == .u8

/-- Codes 0b000 and 0b011 (R136, R205). -/
def fullLane (t : VTy) : Bool := t == .f32 || t == .i32

/-- Codes 0b000, 0b011, 0b100 and 0b110 (R136). -/
def iotaTy (t : VTy) : Bool := t == .f32 || t == .i32 || t == .i16 || t == .u8

/-- The sizes a store names: B, H, W and D (R203, R206). -/
def storeSize (z : MSize) : Bool := z == .b || z == .h || z == .w || z == .d

/-- Is the instruction one that its encoding, or for an event the numbering of the part, admits? -/
def Instr.wf : Instr → Bool
  | .add _ _ _ _ => true
  | .addW _ _ _ _ => true
  | .sub _ _ _ _ => true
  | .subW _ _ _ _ => true
  | .and _ _ _ _ => true
  | .andW _ _ _ _ => true
  | .or _ _ _ _ => true
  | .orW _ _ _ _ => true
  | .xor _ _ _ _ => true
  | .xorW _ _ _ _ => true
  | .shl _ _ _ _ => true
  | .shlW _ _ _ _ => true
  | .shr _ _ _ _ => true
  | .shrW _ _ _ _ => true
  | .sra _ _ _ _ => true
  | .sraW _ _ _ _ => true
  | .addi _ _ _ => true
  | .andi _ _ _ => true
  | .ori _ _ _ => true
  | .xori _ _ _ => true
  | .shli _ _ n => decide (n.toNat < 64)
  | .shri _ _ n => decide (n.toNat < 64)
  | .srai _ _ n => decide (n.toNat < 64)
  | .lui _ _ => true
  | .aub _ _ => true
  | .mul _ _ _ _ => true
  | .mulh _ _ _ _ => true
  | .mulhu _ _ _ _ => true
  | .div _ _ _ _ => true
  | .divu _ _ _ _ => true
  | .rem _ _ _ _ => true
  | .remu _ _ _ _ => true
  | .min _ _ _ _ => true
  | .max _ _ _ _ => true
  | .minu _ _ _ _ => true
  | .maxu _ _ _ _ => true
  | .slt _ _ _ _ => true
  | .sltu _ _ _ _ => true
  | .seq _ _ _ _ => true
  | .sne _ _ _ _ => true
  | .slti _ _ _ => true
  | .sltiu _ _ _ => true
  | .sel _ _ _ _ _ => true
  | .clz _ _ _ => true
  | .ctz _ _ _ => true
  | .popc _ _ _ => true
  | .bfx _ _ _ _ => true
  | .bfxu _ _ _ _ => true
  | .bfi _ _ _ _ => true
  | .madd _ _ _ _ => true
  | .addsc _ _ _ _ _ => true
  | .fadd _ _ _ _ => true
  | .fsub _ _ _ _ => true
  | .fmul _ _ _ _ => true
  | .fmin _ _ _ _ => true
  | .fmax _ _ _ _ => true
  | .feq _ _ _ _ => true
  | .flt _ _ _ _ => true
  | .fle _ _ _ _ => true
  | .fcvtFi _ _ _ => true
  | .fcvtIf _ _ _ => true
  | .fcvtFu _ _ _ => true
  | .fcvtUf _ _ _ => true
  | .setpEq _ _ _ _ => true
  | .setpNe _ _ _ _ => true
  | .setpLt _ _ _ _ => true
  | .setpLtu _ _ _ _ => true
  | .setpGe _ _ _ _ => true
  | .setpGeu _ _ _ _ => true
  | .pand _ _ _ _ => true
  | .por _ _ _ _ => true
  | .pxor _ _ _ _ => true
  | .pnot _ _ _ => true
  | .pmov _ _ _ => true
  | .bra _ _ => true
  | .call _ _ => true
  | .jr _ _ => true
  | .jrl _ _ _ => true
  | .ret _ => true
  | .jtab _ _ _ _ => true
  | .loop _ _ _ => true
  | .loopi _ _ _ => true
  | .loopsr _ _ _ _ => true
  | .rfence _ => true
  | .rfenceA _ _ => true
  | .idem => true
  | .suspYield _ => true
  | .suspPark _ _ => true
  | .suspExit _ => true
  | .mfs _ _ => true
  | .mts _ _ => true
  | .trap _ => true
  | .trapNz _ _ => true
  | .tret => true
  | .snapst _ => true
  | .snapld _ => true
  | .snaprel => true
  | .brk _ => true
  | .launch _ _ => true
  | .cancel _ _ => true
  | .ld _ _ _ _ => true
  | .st _ _ z _ => storeSize z
  | .ldv _ _ _ _ => true
  | .ldvS _ _ _ _ => true
  | .ldvB _ _ _ _ => true
  | .stv _ _ _ _ => true
  | .stvS _ _ _ _ => true
  | .gath _ _ _ t _ => fullLane t
  | .scat _ _ _ t _ => fullLane t
  | .ldg _ _ _ _ => true
  | .stg _ _ z _ => storeSize z
  | .ldgv _ _ _ _ => true
  | .stgv _ _ _ _ => true
  | .ldc _ _ _ _ => true
  | .tlook _ _ _ => true
  | .tfill _ _ _ => true
  | .tevict _ _ => true
  | .tinv _ _ => true
  | .tlock _ _ _ => true
  | .tunlock _ _ _ => true
  | .hwait _ _ => true
  | .hwaitf _ _ => true
  | .hadvp _ _ => true
  | .hadvc _ _ => true
  | .hset _ _ _ _ => true
  | .footr _ _ _ _ _ => true
  | .footw _ _ _ _ _ => true
  | .footclr _ _ => true
  | .spfence _ => true
  | .acq _ _ _ _ => true
  | .rel _ _ _ _ => true
  | .fence _ _ => true
  | .amoAdd _ _ _ _ => true
  | .amoAnd _ _ _ _ => true
  | .amoOr _ _ _ _ => true
  | .amoXor _ _ _ _ => true
  | .amoMin _ _ _ _ => true
  | .amoMax _ _ _ _ => true
  | .amoMinu _ _ _ _ => true
  | .amoMaxu _ _ _ _ => true
  | .amoSwap _ _ _ _ => true
  | .amoFadd _ _ _ _ => true
  | .cas _ _ _ _ => true
  | .logcmp _ _ _ => true
  | .logmark _ _ => true
  | .logtrunc _ _ _ => true
  | .sstepDie _ => true
  | .sstepPackage _ => true
  | .gset _ _ _ _ => true
  | .gswap _ _ => true
  | .cpyHs _ _ _ _ _ _ => true
  | .cpySh _ _ _ _ _ _ => true
  | .cpySs _ _ _ _ _ _ => true
  | .cpyRm _ _ _ _ _ => true
  | .cpyrHs _ _ _ _ _ => true
  | .cpyrSh _ _ _ _ _ => true
  | .cpyrSs _ _ _ _ _ => true
  | .cpyrRm _ _ _ _ => true
  | .cpyw _ => true
  | .engw _ _ => true
  | .engr _ _ => true
  | .tseq _ => true
  | .ccadd _ _ => true
  | .ccwait _ _ => true
  | .vadd _ _ _ t _ => notF8 t
  | .vsub _ _ _ t _ => notF8 t
  | .vmul _ _ _ t _ => notF8 t
  | .vminmaxMin _ _ _ t _ => notF8 t
  | .vminmaxMax _ _ _ t _ => notF8 t
  | .vfma _ _ _ _ _ _ => true
  | .vfms _ _ _ _ _ _ => true
  | .vfnma _ _ _ _ _ _ => true
  | .vlogicAnd _ _ _ t _ => integer t
  | .vlogicOr _ _ _ t _ => integer t
  | .vlogicXor _ _ _ t _ => integer t
  | .vlogicAndn _ _ _ t _ => integer t
  | .vlogicNot _ _ t _ => integer t
  | .vshiftShl _ _ _ t _ => integer t
  | .vshiftShr _ _ _ t _ => integer t
  | .vshiftSra _ _ _ t _ => integer t
  | .vcmpEq _ _ _ t _ => notF8 t
  | .vcmpNe _ _ _ t _ => notF8 t
  | .vcmpLt _ _ _ t _ => notF8 t
  | .vcmpLe _ _ _ t _ => notF8 t
  | .vcmpGt _ _ _ t _ => notF8 t
  | .vcmpGe _ _ _ t _ => notF8 t
  | .vsel _ _ _ _ => true
  | .vcvt _ _ _ s u _ => s != u
  | .vredAdd _ _ t _ => fullLane t
  | .vredMax _ _ t _ => fullLane t
  | .vredMin _ _ t _ => fullLane t
  | .vscan _ _ t _ => fullLane t
  | .vpermIdx _ _ _ _ => true
  | .vpermRot _ _ _ _ => true
  | .vpermPsh _ _ _ _ => true
  | .vbcast _ _ _ _ => true
  | .vext _ _ _ _ => true
  | .vtransRcp _ _ _ => true
  | .vtransRsq _ _ _ => true
  | .vtransExp2 _ _ _ => true
  | .vtransLog2 _ _ _ => true
  | .vtransTanh _ _ _ => true
  | .vtransSin _ _ _ => true
  | .vtransCos _ _ _ => true
  | .vtransSqrt _ _ _ => true
  | .vdiv _ _ _ t _ => fullLane t
  | .vrow _ _ => true
  | .viota _ t _ => iotaTy t
  | .vmaskPopc _ _ _ => true
  | .vmaskCompress _ _ _ => true
  | .vmaskExpand _ _ _ => true
  | .vmaskFirst _ _ _ => true
  | .vbnd _ _ _ _ => true
  | .vabs _ _ t _ => signedOrFloat t
  | .vneg _ _ t _ => signedOrFloat t
  | .vdefDefer _ _ _ => true
  | .vdefRefill _ _ => true
  | .vdefCount _ => true
  | .mclaim => true
  | .mrel => true
  | .mloadA _ _ _ _ _ => true
  | .mloadB _ _ _ _ _ => true
  | .mloadBt _ _ _ _ _ => true
  | .mma _ _ _ _ _ => true
  | .mmaAcc _ _ _ _ _ => true
  | .mmaqF4 _ _ _ _ _ => true
  | .mmaqF4Acc _ _ _ _ _ => true
  | .mmaqI4 _ _ _ _ _ => true
  | .mmaqI4Acc _ _ _ _ _ => true
  | .mdrain _ _ => true
  | .mcfg b a p => (p == .fp8) || (!b && !a)
  | .mzero _ => true
  | .scldBlk _ _ _ => true
  | .scldBand _ _ _ => true
  | .qcvtF8 _ _ _ _ _ => true
  | .qcvtDb4 _ _ _ _ _ => true
  | .qcvtMx4 _ _ _ _ => true
  | .qcvtUnp _ _ _ _ _ => true
  | .rndgInt _ _ => true
  | .rndgUni _ _ => true
  | .statc _ _ => true
  | .send _ _ _ _ => true
  | .recv _ _ _ _ => true
  | .raddBf16 _ _ _ _ => true
  | .raddF32 _ _ _ _ => true
  | .chwait _ _ => true
  | .barr _ g => decide (g.toNat < 80)
  | .barw _ g => decide (g.toNat < 80)
  | .barm _ g => decide (g.toNat < 80)
  | .fuse _ _ => true
  | .decpl => true
  | .rejn _ => true
  | .wdog _ _ => true
  | .prot _ => true
  | .unprot _ => true
  | .rprep _ _ => true
  | .rcomm _ _ => true
  | .rstat _ _ => true
  | .netpost _ _ => true
  | .netwait _ _ => true
  | .emptyBundle _ => true
  | .bindTask core _ _ => decide (core < 352)
  | .preemptTake core => decide (core < 352)
  | .sliceExpire core => decide (core < 352)
  | .watchdogExpire core => decide (core < 352)
  | .remoteReply _ _ _ => true
  | .loadArrive core _ => decide (core < 352)
  | .recordCacheFill core _ => decide (core < 352)
  | .segmentExpand core _ => decide (core < 352)
  | .snapstWrite core => decide (core < 352)
  | .snapldFill core => decide (core < 352)
  | .logfullTimeout core => decide (core < 352)
  | .resurfacerCompact die _ => decide (die < 4)
  | .syncOpComplete core _ => decide (core < 352 + 256)
  | .sstepRelease _ die _ => decide (die < 4)
  | .ringPubWaitEnd core => decide (core < 352)
  | .mxCommandStart core => decide (core < 352)
  | .mxCommandEnd core => decide (core < 352)
  | .drainRow core => decide (core < 352)
  | .copyJobStart core => decide (core < 352)
  | .copyJobEnd core => decide (core < 352)
  | .copyJobFail core _ => decide (core < 352)
  | .channelOpen core ch => decide (core < 352) && decide (ch < 64)
  | .channelClose core ch => decide (core < 352) && decide (ch < 64)
  | .channelPair core ch _ _ => decide (core < 352) && decide (ch < 64)
  | .channelRouteTimeout core ch => decide (core < 352) && decide (ch < 64)
  | .channelElementArrive core ch _ => decide (core < 352) && decide (ch < 64)
  | .channelCreditReturn core ch => decide (core < 352) && decide (ch < 64)
  | .barrierArrival core group => decide (core < 352) && decide (group.toNat < 80)
  | .barmApply core group _ => decide (core < 352) && decide (group.toNat < 80)
  | .spireMirrorUpdate die cluster group => decide (die < 4) && decide (cluster < 22) && decide (group < 80)
  | .fuseTimeout core => decide (core < 352)
  | .ringPollVisit => true
  | .launchComplete _ => true
  | .graphNodeActivate _ _ => true
  | .phaseStart _ => true
  | .jobSubmit ctx master _ => decide (ctx < 16) && decide (master < 4)
  | .unitCancel ctx master _ => decide (ctx < 16) && decide (master < 4)
  | .fltqPop die master => decide (die < 4) && decide (master < 4)
  | .tlbInvalidate die master _ => decide (die < 4) && decide (master < 4)
  | .pageDone die master _ => decide (die < 4) && decide (master < 4)
  | .ptrootWrite master _ => decide (master < 4)
  | .awaWrite ctx w master _ => decide (ctx < 16) && decide (w < 8) && decide (master < 4)
  | .registerWrite _ master _ => decide (master < 4)
  | .journalMirrorWrite _ => true
  | .jidxWrite master _ => decide (master < 4)
  | .dbgctlWrite core _ => decide (core < 352)
  | .devnumSet _ => true
  | .powerOnReset _ => true
  | .hostLinkUp => true
  | .stageAdvanceCompute _ => true
  | .stageAdvanceFabric => true
  | .stageAdvanceGroup => true
  | .stageAdvanceTimeout => true
  | .thermalCut => true
  | .thermalThrottle _ => true
  | .dieLinkFail d1 d2 => decide (d1 < 6) && decide (d2 < 6)
  | .owncasClaim master _ => decide (master < 4)
  | .ownhandWrite master _ => decide (master < 4)
  | .ownbeatRenew master => decide (master < 4)
  | .leaseLapse => true
  | .retireTrigger master _ => decide (master < 4)
  | .autoRetireTrigger stack => decide (stack < 16)
  | .reloclistGo master _ => decide (master < 4)
  | .relocGranuleCopy => true
  | .sweepGranuleMove => true
  | .travlossZeroFill master => decide (master < 4)
  | .travlossReread master => decide (master < 4)
  | .memRequest op => match op with
    | .read _ => true
    | .hostLoad a n => (n == 1 || n == 2 || n == 4 || n == 8) && a % n == 0 && decide (a < 2 ^ 50)
    | .hostStore a bs => decide (1 ≤ bs.length) && decide (bs.length ≤ 64) && decide (a / 64 = (a + bs.length - 1) / 64) && decide (a < 2 ^ 50)
    | .hostAmo a o _ => decide (o < 10) && a % (if o = 9 then 4 else 8) == 0 && decide (a < 2 ^ 50)
    | .hostCas a _ _ => a % 8 == 0 && decide (a < 2 ^ 50)
    | .upset d _ _ => decide (d < 4)
  | .rfmHoldEnd ctrl bank => decide (ctrl < 16) && decide (bank < 1024)
  | .periodicRefresh ctrl bank => decide (ctrl < 16) && decide (bank < 1024)
  | .refreshWindowClear ctrl => decide (ctrl < 16)
  | .frameReceive plane lambda f => decide (plane < 8) && decide (lambda < 128) && decide (f.payload.length = 32 * f.flits.toNat)
  | .streamAckTimeout plane peer => decide (plane < 8) && decide (peer < 128)
  | .streamProbe plane peer _ => decide (plane < 8) && decide (peer < 128)
  | .sessionSetup peer => decide (peer < 128)
  | .sessionUp peer _ _ _ => decide (peer < 128)
  | .sessionLivenessTimeout peer => decide (peer < 128)
  | .keyUpdate peer => decide (peer < 128)
  | .acceptWrite master k word _ => decide (master < 4) && decide (k < 4) && decide (word < 6)
  | .portLock master k => decide (master < 4) && decide (k < 8)
  | .portRun master k => decide (master < 4) && decide (k < 8)
  | .portUnlock master k => decide (master < 4) && decide (k < 8)
  | .portOpticalFault k => decide (k < 8)
  | .portMeasCheck k _ => decide (k < 8)
  | .reachAdvert peer _ => decide (peer < 128)
  | .rerouteTimeout peer _ => decide (peer < 128)
  | .remoteRequest src _ => decide (src < 128)
  | .roamMoveRequest _ asker core _ => decide (asker < 128) && decide (core < 352)
  | .roamCopyEnd _ holder _ => decide (holder < 128)
  | .migwinWrite master => decide (master < 4)
  | .reduceContribution group _ _ rank _ _ _ => decide (group < 16) && decide (rank < 128)
  | .reduceFlush group _ _ => decide (group < 16)
  | .lapStepStart ctx => decide (ctx < 16)
  | .lapStepEnd ctx _ => decide (ctx < 16)
  | .netRingPoll _ => true
  | .msgPacketReceive _ => true
  | .sackSend _ => true
  | .sackReceive _ _ => true
  | .rtoExpire _ => true
  | .groupJoin master slot => decide (master < 4) && decide (slot < 8)
  | .groupForm slot _ => decide (slot < 8)
  | .groupFormTimeout slot => decide (slot < 8)
  | .groupLeave master slot => decide (master < 4) && decide (slot < 8)
  | .rebuildStart x => decide (x.slot < 8) && decide (x.index < 16)
  | .rebuildResume master slot => decide (master < 4) && decide (slot < 8)
  | .deltaReceive slot _ => decide (slot < 8)
  | .deltaAckReceive slot _ => decide (slot < 8)
  | .preparedReceive slot _ _ _ => decide (slot < 8)
  | .decisionReceive slot x => decide (slot < 8) && decide (x.src < 16)
  | .memberDeadTimeout slot member _ => decide (slot < 8) && decide (member < 16)
  | .rebuildShareReceive slot _ => decide (slot < 8)
  | .debuggerContinue core => decide (core < 352)
  | .debuggerAttach _ => true
  | .standbySupplyLoss => true
  | .ueportLinkChange k _ => decide (k < 8)
  | .packetErrorAnswer _ _ => true
  | .tlbinvComplete die => decide (die < 4)

end Sys2Proof
end

