-- ==== Sys2Proof/Decode.lean ====
section
/-! DEFINITION. Decoding of a syllable, its encoding, and the slots an opcode admits (spec 02_encoding.md R54 to R59). -/

namespace Sys2Proof

open Sys2Proof.Machine (fld leNat leBytes)

/-- Why a word is no instruction (R57, R58). -/
inductive DecodeError where
  /-- opcodes 0x00 and 0x7F (R57) -/
  | guardOpcode
  /-- a form-selecting field holds an unassigned value (R58) -/
  | unassignedForm
  /-- a reserved field is not 0 (R58) -/
  | reservedField
  /-- an operand code that the form does not admit (R58, R136) -/
  | operandNotAccepted
  /-- not four bytes -/
  | notAWord
  deriving DecidableEq, Repr

/-- The VTy of a code. -/
def vTyOf : Nat → Option VTy
  | 0 => some .f32
  | 1 => some .bf16
  | 2 => some .f16
  | 3 => some .i32
  | 4 => some .i16
  | 5 => some .i8
  | 6 => some .u8
  | 7 => some .f8
  | _ => none

/-- The code of a VTy. -/
def vTyCode : VTy → Nat
  | .f32 => 0
  | .bf16 => 1
  | .f16 => 2
  | .i32 => 3
  | .i16 => 4
  | .i8 => 5
  | .u8 => 6
  | .f8 => 7

/-- The MSize of a code. -/
def mSizeOf : Nat → Option MSize
  | 0 => some .b
  | 1 => some .bu
  | 2 => some .h
  | 3 => some .hu
  | 4 => some .w
  | 5 => some .wu
  | 6 => some .d
  | _ => none

/-- The code of a MSize. -/
def mSizeCode : MSize → Nat
  | .b => 0
  | .bu => 1
  | .h => 2
  | .hu => 3
  | .w => 4
  | .wu => 5
  | .d => 6

/-- The RMode of a code. -/
def rModeOf : Nat → Option RMode
  | 0 => some .rne
  | 1 => some .rz
  | 2 => some .rs
  | _ => none

/-- The code of a RMode. -/
def rModeCode : RMode → Nat
  | .rne => 0
  | .rz => 1
  | .rs => 2

/-- The Scope of a code. -/
def scopeOf : Nat → Option Scope
  | 0 => some .task
  | 1 => some .core
  | 2 => some .pair
  | 3 => some .cluster
  | 4 => some .die
  | 5 => some .package
  | 6 => some .host
  | 7 => some .peer
  | 8 => some .domain
  | 9 => some .group
  | 10 => some .network
  | 11 => some .system
  | _ => none

/-- The code of a Scope. -/
def scopeCode : Scope → Nat
  | .task => 0
  | .core => 1
  | .pair => 2
  | .cluster => 3
  | .die => 4
  | .package => 5
  | .host => 6
  | .peer => 7
  | .domain => 8
  | .group => 9
  | .network => 10
  | .system => 11

/-- The CWidth of a code. -/
def cWidthOf : Nat → Option CWidth
  | 0 => some .e1
  | 1 => some .e2
  | 2 => some .e4
  | _ => none

/-- The code of a CWidth. -/
def cWidthCode : CWidth → Nat
  | .e1 => 0
  | .e2 => 1
  | .e4 => 2

/-- The FClass of a code. -/
def fClassOf : Nat → Option FClass
  | 0 => some .b16
  | 1 => some .fp8
  | 2 => some .fp4
  | 3 => some .int8
  | _ => none

/-- The code of a FClass. -/
def fClassCode : FClass → Nat
  | .b16 => 0
  | .fp8 => 1
  | .fp4 => 2
  | .int8 => 3

/-- The MPair of a code. -/
def mPairOf : Nat → Option MPair
  | 0 => some .bf16
  | 1 => some .fp16
  | 2 => some .fp8
  | 3 => some .db4
  | 4 => some .mx4
  | 5 => some .int8
  | _ => none

/-- The code of a MPair. -/
def mPairCode : MPair → Nat
  | .bf16 => 0
  | .fp16 => 1
  | .fp8 => 2
  | .db4 => 3
  | .mx4 => 4
  | .int8 => 5

/-- The CLevel of a code. -/
def cLevelOf : Nat → Option CLevel
  | 1 => some .launch
  | 2 => some .graph
  | 3 => some .phase
  | 4 => some .job
  | _ => none

/-- The code of a CLevel. -/
def cLevelCode : CLevel → Nat
  | .launch => 1
  | .graph => 2
  | .phase => 3
  | .job => 4

/-- 1 for true. -/
def bitCode (b : Bool) : Nat := if b then 1 else 0

/-- The forms that Lean's runtime cannot build as values of `Instr`, whose constructors past the 244th may hold no field there.
The machine runs them from this copy; `Syl.toInstr` says which instruction each one is. -/
inductive Late where
  | chwait (c : BitVec 6) (n : BitVec 6)
  | rejn (d : BitVec 6)
  | wdog (d : BitVec 6) (a : BitVec 6)
  | prot (a : BitVec 6)
  | unprot (a : BitVec 6)
  | rprep (a : BitVec 6) (b : BitVec 6)
  | rcomm (a : BitVec 6) (b : BitVec 6)
  | rstat (a : BitVec 6) (b : BitVec 6)
  | netpost (a : BitVec 6) (b : BitVec 6)
  | netwait (a : BitVec 6) (b : BitVec 6)
  deriving DecidableEq, Repr

/-- A decoded syllable. -/
inductive Syl where
  | instr (i : Instr)
  | late (l : Late)
  deriving DecidableEq, Repr

/-- The instruction of a late form. -/
noncomputable def Late.toInstr : Late → Instr
  | .chwait c n => .chwait c n
  | .rejn d => .rejn d
  | .wdog d a => .wdog d a
  | .prot a => .prot a
  | .unprot a => .unprot a
  | .rprep a b => .rprep a b
  | .rcomm a b => .rcomm a b
  | .rstat a b => .rstat a b
  | .netpost a b => .netpost a b
  | .netwait a b => .netwait a b

/-- The instruction that a syllable is. -/
noncomputable def Syl.toInstr : Syl → Instr
  | .instr i => i
  | .late l => l.toInstr

/-- Accept an instruction if its operands are of a form that it admits. -/
def accept (i : Instr) : Except DecodeError Syl := if i.wf then .ok (.instr i) else .error .operandNotAccepted

/-- A form with its reserved fields checked. -/
def withReserved (zero : Bool) (r : Except DecodeError Syl) : Except DecodeError Syl :=
  if zero then r else .error .reservedField

/-- Opcode 0x1: ADD, ADD_W (R59). -/
def decodeOp01 (w : Nat) : Except DecodeError Syl :=
  match fld w 3 1 with
  | 0 => withReserved (fld w 4 3 == 0) (accept (.add (BitVec.ofNat 6 (fld w 19 6)) (BitVec.ofNat 6 (fld w 13 6)) (BitVec.ofNat 6 (fld w 7 6)) (BitVec.ofNat 3 (fld w 0 3))))
  | 1 => withReserved (fld w 4 3 == 0) (accept (.addW (BitVec.ofNat 6 (fld w 19 6)) (BitVec.ofNat 6 (fld w 13 6)) (BitVec.ofNat 6 (fld w 7 6)) (BitVec.ofNat 3 (fld w 0 3))))
  | _ => .error .unassignedForm

/-- Opcode 0x2: SUB, SUB_W (R59). -/
def decodeOp02 (w : Nat) : Except DecodeError Syl :=
  match fld w 3 1 with
  | 0 => withReserved (fld w 4 3 == 0) (accept (.sub (BitVec.ofNat 6 (fld w 19 6)) (BitVec.ofNat 6 (fld w 13 6)) (BitVec.ofNat 6 (fld w 7 6)) (BitVec.ofNat 3 (fld w 0 3))))
  | 1 => withReserved (fld w 4 3 == 0) (accept (.subW (BitVec.ofNat 6 (fld w 19 6)) (BitVec.ofNat 6 (fld w 13 6)) (BitVec.ofNat 6 (fld w 7 6)) (BitVec.ofNat 3 (fld w 0 3))))
  | _ => .error .unassignedForm

/-- Opcode 0x3: AND, AND_W (R59). -/
def decodeOp03 (w : Nat) : Except DecodeError Syl :=
  match fld w 3 1 with
  | 0 => withReserved (fld w 4 3 == 0) (accept (.and (BitVec.ofNat 6 (fld w 19 6)) (BitVec.ofNat 6 (fld w 13 6)) (BitVec.ofNat 6 (fld w 7 6)) (BitVec.ofNat 3 (fld w 0 3))))
  | 1 => withReserved (fld w 4 3 == 0) (accept (.andW (BitVec.ofNat 6 (fld w 19 6)) (BitVec.ofNat 6 (fld w 13 6)) (BitVec.ofNat 6 (fld w 7 6)) (BitVec.ofNat 3 (fld w 0 3))))
  | _ => .error .unassignedForm

/-- Opcode 0x4: OR, OR_W (R59). -/
def decodeOp04 (w : Nat) : Except DecodeError Syl :=
  match fld w 3 1 with
  | 0 => withReserved (fld w 4 3 == 0) (accept (.or (BitVec.ofNat 6 (fld w 19 6)) (BitVec.ofNat 6 (fld w 13 6)) (BitVec.ofNat 6 (fld w 7 6)) (BitVec.ofNat 3 (fld w 0 3))))
  | 1 => withReserved (fld w 4 3 == 0) (accept (.orW (BitVec.ofNat 6 (fld w 19 6)) (BitVec.ofNat 6 (fld w 13 6)) (BitVec.ofNat 6 (fld w 7 6)) (BitVec.ofNat 3 (fld w 0 3))))
  | _ => .error .unassignedForm

/-- Opcode 0x5: XOR, XOR_W (R59). -/
def decodeOp05 (w : Nat) : Except DecodeError Syl :=
  match fld w 3 1 with
  | 0 => withReserved (fld w 4 3 == 0) (accept (.xor (BitVec.ofNat 6 (fld w 19 6)) (BitVec.ofNat 6 (fld w 13 6)) (BitVec.ofNat 6 (fld w 7 6)) (BitVec.ofNat 3 (fld w 0 3))))
  | 1 => withReserved (fld w 4 3 == 0) (accept (.xorW (BitVec.ofNat 6 (fld w 19 6)) (BitVec.ofNat 6 (fld w 13 6)) (BitVec.ofNat 6 (fld w 7 6)) (BitVec.ofNat 3 (fld w 0 3))))
  | _ => .error .unassignedForm

/-- Opcode 0x6: SHL, SHL_W (R59). -/
def decodeOp06 (w : Nat) : Except DecodeError Syl :=
  match fld w 3 1 with
  | 0 => withReserved (fld w 4 3 == 0) (accept (.shl (BitVec.ofNat 6 (fld w 19 6)) (BitVec.ofNat 6 (fld w 13 6)) (BitVec.ofNat 6 (fld w 7 6)) (BitVec.ofNat 3 (fld w 0 3))))
  | 1 => withReserved (fld w 4 3 == 0) (accept (.shlW (BitVec.ofNat 6 (fld w 19 6)) (BitVec.ofNat 6 (fld w 13 6)) (BitVec.ofNat 6 (fld w 7 6)) (BitVec.ofNat 3 (fld w 0 3))))
  | _ => .error .unassignedForm

/-- Opcode 0x7: SHR, SHR_W (R59). -/
def decodeOp07 (w : Nat) : Except DecodeError Syl :=
  match fld w 3 1 with
  | 0 => withReserved (fld w 4 3 == 0) (accept (.shr (BitVec.ofNat 6 (fld w 19 6)) (BitVec.ofNat 6 (fld w 13 6)) (BitVec.ofNat 6 (fld w 7 6)) (BitVec.ofNat 3 (fld w 0 3))))
  | 1 => withReserved (fld w 4 3 == 0) (accept (.shrW (BitVec.ofNat 6 (fld w 19 6)) (BitVec.ofNat 6 (fld w 13 6)) (BitVec.ofNat 6 (fld w 7 6)) (BitVec.ofNat 3 (fld w 0 3))))
  | _ => .error .unassignedForm

/-- Opcode 0x8: SRA, SRA_W (R59). -/
def decodeOp08 (w : Nat) : Except DecodeError Syl :=
  match fld w 3 1 with
  | 0 => withReserved (fld w 4 3 == 0) (accept (.sra (BitVec.ofNat 6 (fld w 19 6)) (BitVec.ofNat 6 (fld w 13 6)) (BitVec.ofNat 6 (fld w 7 6)) (BitVec.ofNat 3 (fld w 0 3))))
  | 1 => withReserved (fld w 4 3 == 0) (accept (.sraW (BitVec.ofNat 6 (fld w 19 6)) (BitVec.ofNat 6 (fld w 13 6)) (BitVec.ofNat 6 (fld w 7 6)) (BitVec.ofNat 3 (fld w 0 3))))
  | _ => .error .unassignedForm

/-- Opcode 0x9: ADDI (R59). -/
def decodeOp09 (w : Nat) : Except DecodeError Syl :=
  accept (.addi (BitVec.ofNat 6 (fld w 19 6)) (BitVec.ofNat 6 (fld w 13 6)) (BitVec.ofNat 13 (fld w 0 13)))

/-- Opcode 0xa: ANDI (R59). -/
def decodeOp0A (w : Nat) : Except DecodeError Syl :=
  accept (.andi (BitVec.ofNat 6 (fld w 19 6)) (BitVec.ofNat 6 (fld w 13 6)) (BitVec.ofNat 13 (fld w 0 13)))

/-- Opcode 0xb: ORI (R59). -/
def decodeOp0B (w : Nat) : Except DecodeError Syl :=
  accept (.ori (BitVec.ofNat 6 (fld w 19 6)) (BitVec.ofNat 6 (fld w 13 6)) (BitVec.ofNat 13 (fld w 0 13)))

/-- Opcode 0xc: XORI (R59). -/
def decodeOp0C (w : Nat) : Except DecodeError Syl :=
  accept (.xori (BitVec.ofNat 6 (fld w 19 6)) (BitVec.ofNat 6 (fld w 13 6)) (BitVec.ofNat 13 (fld w 0 13)))

/-- Opcode 0xd: SHLI, SHRI, SRAI (R59). -/
def decodeOp0D (w : Nat) : Except DecodeError Syl :=
  match fld w 11 2 with
  | 0 => withReserved (fld w 7 4 == 0) (accept (.shli (BitVec.ofNat 6 (fld w 19 6)) (BitVec.ofNat 6 (fld w 13 6)) (BitVec.ofNat 7 (fld w 0 7))))
  | 1 => withReserved (fld w 7 4 == 0) (accept (.shri (BitVec.ofNat 6 (fld w 19 6)) (BitVec.ofNat 6 (fld w 13 6)) (BitVec.ofNat 7 (fld w 0 7))))
  | 2 => withReserved (fld w 7 4 == 0) (accept (.srai (BitVec.ofNat 6 (fld w 19 6)) (BitVec.ofNat 6 (fld w 13 6)) (BitVec.ofNat 7 (fld w 0 7))))
  | _ => .error .unassignedForm

/-- Opcode 0xe: LUI (R59). -/
def decodeOp0E (w : Nat) : Except DecodeError Syl :=
  accept (.lui (BitVec.ofNat 6 (fld w 19 6)) (BitVec.ofNat 19 (fld w 0 19)))

/-- Opcode 0xf: AUB (R59). -/
def decodeOp0F (w : Nat) : Except DecodeError Syl :=
  accept (.aub (BitVec.ofNat 6 (fld w 19 6)) (BitVec.ofNat 19 (fld w 0 19)))

/-- Opcode 0x10: MUL, MULH, MULHU (R59). -/
def decodeOp10 (w : Nat) : Except DecodeError Syl :=
  match fld w 3 2 with
  | 0 => withReserved (fld w 5 2 == 0) (accept (.mul (BitVec.ofNat 6 (fld w 19 6)) (BitVec.ofNat 6 (fld w 13 6)) (BitVec.ofNat 6 (fld w 7 6)) (BitVec.ofNat 3 (fld w 0 3))))
  | 1 => withReserved (fld w 5 2 == 0) (accept (.mulh (BitVec.ofNat 6 (fld w 19 6)) (BitVec.ofNat 6 (fld w 13 6)) (BitVec.ofNat 6 (fld w 7 6)) (BitVec.ofNat 3 (fld w 0 3))))
  | 2 => withReserved (fld w 5 2 == 0) (accept (.mulhu (BitVec.ofNat 6 (fld w 19 6)) (BitVec.ofNat 6 (fld w 13 6)) (BitVec.ofNat 6 (fld w 7 6)) (BitVec.ofNat 3 (fld w 0 3))))
  | _ => .error .unassignedForm

/-- Opcode 0x11: DIV, DIVU, REM, REMU (R59). -/
def decodeOp11 (w : Nat) : Except DecodeError Syl :=
  match fld w 3 2 with
  | 0 => withReserved (fld w 5 2 == 0) (accept (.div (BitVec.ofNat 6 (fld w 19 6)) (BitVec.ofNat 6 (fld w 13 6)) (BitVec.ofNat 6 (fld w 7 6)) (BitVec.ofNat 3 (fld w 0 3))))
  | 1 => withReserved (fld w 5 2 == 0) (accept (.divu (BitVec.ofNat 6 (fld w 19 6)) (BitVec.ofNat 6 (fld w 13 6)) (BitVec.ofNat 6 (fld w 7 6)) (BitVec.ofNat 3 (fld w 0 3))))
  | 2 => withReserved (fld w 5 2 == 0) (accept (.rem (BitVec.ofNat 6 (fld w 19 6)) (BitVec.ofNat 6 (fld w 13 6)) (BitVec.ofNat 6 (fld w 7 6)) (BitVec.ofNat 3 (fld w 0 3))))
  | 3 => withReserved (fld w 5 2 == 0) (accept (.remu (BitVec.ofNat 6 (fld w 19 6)) (BitVec.ofNat 6 (fld w 13 6)) (BitVec.ofNat 6 (fld w 7 6)) (BitVec.ofNat 3 (fld w 0 3))))
  | _ => .error .unassignedForm

/-- Opcode 0x12: MIN, MAX, MINU, MAXU (R59). -/
def decodeOp12 (w : Nat) : Except DecodeError Syl :=
  match fld w 3 2 with
  | 0 => withReserved (fld w 5 2 == 0) (accept (.min (BitVec.ofNat 6 (fld w 19 6)) (BitVec.ofNat 6 (fld w 13 6)) (BitVec.ofNat 6 (fld w 7 6)) (BitVec.ofNat 3 (fld w 0 3))))
  | 1 => withReserved (fld w 5 2 == 0) (accept (.max (BitVec.ofNat 6 (fld w 19 6)) (BitVec.ofNat 6 (fld w 13 6)) (BitVec.ofNat 6 (fld w 7 6)) (BitVec.ofNat 3 (fld w 0 3))))
  | 2 => withReserved (fld w 5 2 == 0) (accept (.minu (BitVec.ofNat 6 (fld w 19 6)) (BitVec.ofNat 6 (fld w 13 6)) (BitVec.ofNat 6 (fld w 7 6)) (BitVec.ofNat 3 (fld w 0 3))))
  | 3 => withReserved (fld w 5 2 == 0) (accept (.maxu (BitVec.ofNat 6 (fld w 19 6)) (BitVec.ofNat 6 (fld w 13 6)) (BitVec.ofNat 6 (fld w 7 6)) (BitVec.ofNat 3 (fld w 0 3))))
  | _ => .error .unassignedForm

/-- Opcode 0x13: SLT, SLTU, SEQ, SNE (R59). -/
def decodeOp13 (w : Nat) : Except DecodeError Syl :=
  match fld w 3 2 with
  | 0 => withReserved (fld w 5 2 == 0) (accept (.slt (BitVec.ofNat 6 (fld w 19 6)) (BitVec.ofNat 6 (fld w 13 6)) (BitVec.ofNat 6 (fld w 7 6)) (BitVec.ofNat 3 (fld w 0 3))))
  | 1 => withReserved (fld w 5 2 == 0) (accept (.sltu (BitVec.ofNat 6 (fld w 19 6)) (BitVec.ofNat 6 (fld w 13 6)) (BitVec.ofNat 6 (fld w 7 6)) (BitVec.ofNat 3 (fld w 0 3))))
  | 2 => withReserved (fld w 5 2 == 0) (accept (.seq (BitVec.ofNat 6 (fld w 19 6)) (BitVec.ofNat 6 (fld w 13 6)) (BitVec.ofNat 6 (fld w 7 6)) (BitVec.ofNat 3 (fld w 0 3))))
  | 3 => withReserved (fld w 5 2 == 0) (accept (.sne (BitVec.ofNat 6 (fld w 19 6)) (BitVec.ofNat 6 (fld w 13 6)) (BitVec.ofNat 6 (fld w 7 6)) (BitVec.ofNat 3 (fld w 0 3))))
  | _ => .error .unassignedForm

/-- Opcode 0x14: SLTI (R59). -/
def decodeOp14 (w : Nat) : Except DecodeError Syl :=
  accept (.slti (BitVec.ofNat 6 (fld w 19 6)) (BitVec.ofNat 6 (fld w 13 6)) (BitVec.ofNat 13 (fld w 0 13)))

/-- Opcode 0x15: SLTIU (R59). -/
def decodeOp15 (w : Nat) : Except DecodeError Syl :=
  accept (.sltiu (BitVec.ofNat 6 (fld w 19 6)) (BitVec.ofNat 6 (fld w 13 6)) (BitVec.ofNat 13 (fld w 0 13)))

/-- Opcode 0x16: SEL (R59). -/
def decodeOp16 (w : Nat) : Except DecodeError Syl :=
  accept (.sel (BitVec.ofNat 6 (fld w 19 6)) (BitVec.ofNat 6 (fld w 13 6)) (BitVec.ofNat 6 (fld w 7 6)) (BitVec.ofNat 4 (fld w 3 4)) (BitVec.ofNat 3 (fld w 0 3)))

/-- Opcode 0x17: CLZ, CTZ, POPC (R59). -/
def decodeOp17 (w : Nat) : Except DecodeError Syl :=
  match fld w 3 2 with
  | 0 => withReserved (fld w 5 8 == 0) (accept (.clz (BitVec.ofNat 6 (fld w 19 6)) (BitVec.ofNat 6 (fld w 13 6)) (BitVec.ofNat 3 (fld w 0 3))))
  | 1 => withReserved (fld w 5 8 == 0) (accept (.ctz (BitVec.ofNat 6 (fld w 19 6)) (BitVec.ofNat 6 (fld w 13 6)) (BitVec.ofNat 3 (fld w 0 3))))
  | 2 => withReserved (fld w 5 8 == 0) (accept (.popc (BitVec.ofNat 6 (fld w 19 6)) (BitVec.ofNat 6 (fld w 13 6)) (BitVec.ofNat 3 (fld w 0 3))))
  | _ => .error .unassignedForm

/-- Opcode 0x18: BFX, BFXU, BFI (R59). -/
def decodeOp18 (w : Nat) : Except DecodeError Syl :=
  match fld w 3 2 with
  | 0 => withReserved (fld w 5 2 == 0) (accept (.bfx (BitVec.ofNat 6 (fld w 19 6)) (BitVec.ofNat 6 (fld w 13 6)) (BitVec.ofNat 6 (fld w 7 6)) (BitVec.ofNat 3 (fld w 0 3))))
  | 1 => withReserved (fld w 5 2 == 0) (accept (.bfxu (BitVec.ofNat 6 (fld w 19 6)) (BitVec.ofNat 6 (fld w 13 6)) (BitVec.ofNat 6 (fld w 7 6)) (BitVec.ofNat 3 (fld w 0 3))))
  | 2 => withReserved (fld w 5 2 == 0) (accept (.bfi (BitVec.ofNat 6 (fld w 19 6)) (BitVec.ofNat 6 (fld w 13 6)) (BitVec.ofNat 6 (fld w 7 6)) (BitVec.ofNat 3 (fld w 0 3))))
  | _ => .error .unassignedForm

/-- Opcode 0x19: MADD (R59). -/
def decodeOp19 (w : Nat) : Except DecodeError Syl :=
  withReserved (fld w 3 4 == 0) (accept (.madd (BitVec.ofNat 6 (fld w 19 6)) (BitVec.ofNat 6 (fld w 13 6)) (BitVec.ofNat 6 (fld w 7 6)) (BitVec.ofNat 3 (fld w 0 3))))

/-- Opcode 0x1a: ADDSC (R59). -/
def decodeOp1A (w : Nat) : Except DecodeError Syl :=
  accept (.addsc (BitVec.ofNat 6 (fld w 19 6)) (BitVec.ofNat 6 (fld w 13 6)) (BitVec.ofNat 6 (fld w 7 6)) (BitVec.ofNat 4 (fld w 3 4)) (BitVec.ofNat 3 (fld w 0 3)))

/-- Opcode 0x1b: FADD, FSUB, FMUL, FMIN, FMAX (R59). -/
def decodeOp1B (w : Nat) : Except DecodeError Syl :=
  match fld w 3 3 with
  | 0 => withReserved (fld w 6 1 == 0) (accept (.fadd (BitVec.ofNat 6 (fld w 19 6)) (BitVec.ofNat 6 (fld w 13 6)) (BitVec.ofNat 6 (fld w 7 6)) (BitVec.ofNat 3 (fld w 0 3))))
  | 1 => withReserved (fld w 6 1 == 0) (accept (.fsub (BitVec.ofNat 6 (fld w 19 6)) (BitVec.ofNat 6 (fld w 13 6)) (BitVec.ofNat 6 (fld w 7 6)) (BitVec.ofNat 3 (fld w 0 3))))
  | 2 => withReserved (fld w 6 1 == 0) (accept (.fmul (BitVec.ofNat 6 (fld w 19 6)) (BitVec.ofNat 6 (fld w 13 6)) (BitVec.ofNat 6 (fld w 7 6)) (BitVec.ofNat 3 (fld w 0 3))))
  | 3 => withReserved (fld w 6 1 == 0) (accept (.fmin (BitVec.ofNat 6 (fld w 19 6)) (BitVec.ofNat 6 (fld w 13 6)) (BitVec.ofNat 6 (fld w 7 6)) (BitVec.ofNat 3 (fld w 0 3))))
  | 4 => withReserved (fld w 6 1 == 0) (accept (.fmax (BitVec.ofNat 6 (fld w 19 6)) (BitVec.ofNat 6 (fld w 13 6)) (BitVec.ofNat 6 (fld w 7 6)) (BitVec.ofNat 3 (fld w 0 3))))
  | _ => .error .unassignedForm

/-- Opcode 0x1c: FEQ, FLT, FLE (R59). -/
def decodeOp1C (w : Nat) : Except DecodeError Syl :=
  match fld w 3 2 with
  | 0 => withReserved (fld w 5 2 == 0) (accept (.feq (BitVec.ofNat 6 (fld w 19 6)) (BitVec.ofNat 6 (fld w 13 6)) (BitVec.ofNat 6 (fld w 7 6)) (BitVec.ofNat 3 (fld w 0 3))))
  | 1 => withReserved (fld w 5 2 == 0) (accept (.flt (BitVec.ofNat 6 (fld w 19 6)) (BitVec.ofNat 6 (fld w 13 6)) (BitVec.ofNat 6 (fld w 7 6)) (BitVec.ofNat 3 (fld w 0 3))))
  | 2 => withReserved (fld w 5 2 == 0) (accept (.fle (BitVec.ofNat 6 (fld w 19 6)) (BitVec.ofNat 6 (fld w 13 6)) (BitVec.ofNat 6 (fld w 7 6)) (BitVec.ofNat 3 (fld w 0 3))))
  | _ => .error .unassignedForm

/-- Opcode 0x1d: FCVT_FI, FCVT_IF, FCVT_FU, FCVT_UF (R59). -/
def decodeOp1D (w : Nat) : Except DecodeError Syl :=
  match fld w 3 2 with
  | 0 => withReserved (fld w 5 8 == 0) (accept (.fcvtFi (BitVec.ofNat 6 (fld w 19 6)) (BitVec.ofNat 6 (fld w 13 6)) (BitVec.ofNat 3 (fld w 0 3))))
  | 1 => withReserved (fld w 5 8 == 0) (accept (.fcvtIf (BitVec.ofNat 6 (fld w 19 6)) (BitVec.ofNat 6 (fld w 13 6)) (BitVec.ofNat 3 (fld w 0 3))))
  | 2 => withReserved (fld w 5 8 == 0) (accept (.fcvtFu (BitVec.ofNat 6 (fld w 19 6)) (BitVec.ofNat 6 (fld w 13 6)) (BitVec.ofNat 3 (fld w 0 3))))
  | 3 => withReserved (fld w 5 8 == 0) (accept (.fcvtUf (BitVec.ofNat 6 (fld w 19 6)) (BitVec.ofNat 6 (fld w 13 6)) (BitVec.ofNat 3 (fld w 0 3))))
  | _ => .error .unassignedForm

/-- Opcode 0x1e: SETP_EQ, SETP_NE, SETP_LT, SETP_LTU, SETP_GE, SETP_GEU (R59). -/
def decodeOp1E (w : Nat) : Except DecodeError Syl :=
  match fld w 3 3 with
  | 0 => withReserved (fld w 6 1 == 0 && fld w 23 2 == 0) (accept (.setpEq (BitVec.ofNat 4 (fld w 19 4)) (BitVec.ofNat 6 (fld w 13 6)) (BitVec.ofNat 6 (fld w 7 6)) (BitVec.ofNat 3 (fld w 0 3))))
  | 1 => withReserved (fld w 6 1 == 0 && fld w 23 2 == 0) (accept (.setpNe (BitVec.ofNat 4 (fld w 19 4)) (BitVec.ofNat 6 (fld w 13 6)) (BitVec.ofNat 6 (fld w 7 6)) (BitVec.ofNat 3 (fld w 0 3))))
  | 2 => withReserved (fld w 6 1 == 0 && fld w 23 2 == 0) (accept (.setpLt (BitVec.ofNat 4 (fld w 19 4)) (BitVec.ofNat 6 (fld w 13 6)) (BitVec.ofNat 6 (fld w 7 6)) (BitVec.ofNat 3 (fld w 0 3))))
  | 3 => withReserved (fld w 6 1 == 0 && fld w 23 2 == 0) (accept (.setpLtu (BitVec.ofNat 4 (fld w 19 4)) (BitVec.ofNat 6 (fld w 13 6)) (BitVec.ofNat 6 (fld w 7 6)) (BitVec.ofNat 3 (fld w 0 3))))
  | 4 => withReserved (fld w 6 1 == 0 && fld w 23 2 == 0) (accept (.setpGe (BitVec.ofNat 4 (fld w 19 4)) (BitVec.ofNat 6 (fld w 13 6)) (BitVec.ofNat 6 (fld w 7 6)) (BitVec.ofNat 3 (fld w 0 3))))
  | 5 => withReserved (fld w 6 1 == 0 && fld w 23 2 == 0) (accept (.setpGeu (BitVec.ofNat 4 (fld w 19 4)) (BitVec.ofNat 6 (fld w 13 6)) (BitVec.ofNat 6 (fld w 7 6)) (BitVec.ofNat 3 (fld w 0 3))))
  | _ => .error .unassignedForm

/-- Opcode 0x1f: PAND, POR, PXOR, PNOT, PMOV (R59). -/
def decodeOp1F (w : Nat) : Except DecodeError Syl :=
  match fld w 3 3 with
  | 0 => withReserved (fld w 6 1 == 0 && fld w 11 2 == 0 && fld w 17 2 == 0 && fld w 23 2 == 0) (accept (.pand (BitVec.ofNat 4 (fld w 19 4)) (BitVec.ofNat 4 (fld w 13 4)) (BitVec.ofNat 4 (fld w 7 4)) (BitVec.ofNat 3 (fld w 0 3))))
  | 1 => withReserved (fld w 6 1 == 0 && fld w 11 2 == 0 && fld w 17 2 == 0 && fld w 23 2 == 0) (accept (.por (BitVec.ofNat 4 (fld w 19 4)) (BitVec.ofNat 4 (fld w 13 4)) (BitVec.ofNat 4 (fld w 7 4)) (BitVec.ofNat 3 (fld w 0 3))))
  | 2 => withReserved (fld w 6 1 == 0 && fld w 11 2 == 0 && fld w 17 2 == 0 && fld w 23 2 == 0) (accept (.pxor (BitVec.ofNat 4 (fld w 19 4)) (BitVec.ofNat 4 (fld w 13 4)) (BitVec.ofNat 4 (fld w 7 4)) (BitVec.ofNat 3 (fld w 0 3))))
  | 3 => withReserved (fld w 6 7 == 0 && fld w 17 2 == 0 && fld w 23 2 == 0) (accept (.pnot (BitVec.ofNat 4 (fld w 19 4)) (BitVec.ofNat 4 (fld w 13 4)) (BitVec.ofNat 3 (fld w 0 3))))
  | 4 => withReserved (fld w 6 7 == 0 && fld w 17 2 == 0 && fld w 23 2 == 0) (accept (.pmov (BitVec.ofNat 4 (fld w 19 4)) (BitVec.ofNat 4 (fld w 13 4)) (BitVec.ofNat 3 (fld w 0 3))))
  | _ => .error .unassignedForm

/-- Opcode 0x20: BRA, CALL (R59). -/
def decodeOp20 (w : Nat) : Except DecodeError Syl :=
  match fld w 21 1 with
  | 0 => accept (.bra (BitVec.ofNat 3 (fld w 22 3)) (BitVec.ofNat 21 (fld w 0 21)))
  | 1 => accept (.call (BitVec.ofNat 3 (fld w 22 3)) (BitVec.ofNat 21 (fld w 0 21)))
  | _ => .error .unassignedForm

/-- Opcode 0x21: JR, JRL, RET (R59). -/
def decodeOp21 (w : Nat) : Except DecodeError Syl :=
  match fld w 3 2 with
  | 0 => withReserved (fld w 5 8 == 0 && fld w 19 6 == 0) (accept (.jr (BitVec.ofNat 6 (fld w 13 6)) (BitVec.ofNat 3 (fld w 0 3))))
  | 1 => withReserved (fld w 5 8 == 0) (accept (.jrl (BitVec.ofNat 6 (fld w 19 6)) (BitVec.ofNat 6 (fld w 13 6)) (BitVec.ofNat 3 (fld w 0 3))))
  | 2 => withReserved (fld w 5 20 == 0) (accept (.ret (BitVec.ofNat 3 (fld w 0 3))))
  | _ => .error .unassignedForm

/-- Opcode 0x22: JTAB (R59). -/
def decodeOp22 (w : Nat) : Except DecodeError Syl :=
  withReserved (fld w 3 4 == 0) (accept (.jtab (BitVec.ofNat 6 (fld w 19 6)) (BitVec.ofNat 6 (fld w 13 6)) (BitVec.ofNat 6 (fld w 7 6)) (BitVec.ofNat 3 (fld w 0 3))))

/-- Opcode 0x23: LOOP, LOOPI (R59). -/
def decodeOp23 (w : Nat) : Except DecodeError Syl :=
  match fld w 24 1 with
  | 0 => withReserved (fld w 21 3 == 0) (accept (.loop (BitVec.ofNat 2 (fld w 19 2)) (BitVec.ofNat 6 (fld w 13 6)) (BitVec.ofNat 13 (fld w 0 13))))
  | 1 => withReserved (fld w 21 3 == 0) (accept (.loopi (BitVec.ofNat 2 (fld w 19 2)) (BitVec.ofNat 6 (fld w 13 6)) (BitVec.ofNat 13 (fld w 0 13))))
  | _ => .error .unassignedForm

/-- Opcode 0x24: LOOPSR (R59). -/
def decodeOp24 (w : Nat) : Except DecodeError Syl :=
  withReserved (fld w 5 2 == 0 && fld w 19 6 == 0) (accept (.loopsr (BitVec.ofNat 6 (fld w 13 6)) (BitVec.ofNat 6 (fld w 7 6)) (BitVec.ofNat 2 (fld w 3 2)) (BitVec.ofNat 3 (fld w 0 3))))

/-- Opcode 0x25: RFENCE, RFENCE_A (R59). -/
def decodeOp25 (w : Nat) : Except DecodeError Syl :=
  match fld w 3 1 with
  | 0 => withReserved (fld w 4 21 == 0) (accept (.rfence (BitVec.ofNat 3 (fld w 0 3))))
  | 1 => withReserved (fld w 4 9 == 0 && fld w 19 6 == 0) (accept (.rfenceA (BitVec.ofNat 6 (fld w 13 6)) (BitVec.ofNat 3 (fld w 0 3))))
  | _ => .error .unassignedForm

/-- Opcode 0x26: IDEM (R59). -/
def decodeOp26 (w : Nat) : Except DecodeError Syl :=
  withReserved (fld w 0 25 == 0) (accept .idem)

/-- Opcode 0x27: SUSP_YIELD, SUSP_PARK, SUSP_EXIT (R59). -/
def decodeOp27 (w : Nat) : Except DecodeError Syl :=
  match fld w 3 2 with
  | 0 => withReserved (fld w 5 20 == 0) (accept (.suspYield (BitVec.ofNat 3 (fld w 0 3))))
  | 1 => withReserved (fld w 5 8 == 0 && fld w 19 6 == 0) (accept (.suspPark (BitVec.ofNat 6 (fld w 13 6)) (BitVec.ofNat 3 (fld w 0 3))))
  | 2 => withReserved (fld w 5 20 == 0) (accept (.suspExit (BitVec.ofNat 3 (fld w 0 3))))
  | _ => .error .unassignedForm

/-- Opcode 0x28: MFS (R59). -/
def decodeOp28 (w : Nat) : Except DecodeError Syl :=
  withReserved (fld w 13 6 == 0) (accept (.mfs (BitVec.ofNat 6 (fld w 19 6)) (BitVec.ofNat 13 (fld w 0 13))))

/-- Opcode 0x29: MTS (R59). -/
def decodeOp29 (w : Nat) : Except DecodeError Syl :=
  withReserved (fld w 19 6 == 0) (accept (.mts (BitVec.ofNat 6 (fld w 13 6)) (BitVec.ofNat 13 (fld w 0 13))))

/-- Opcode 0x2a: TRAP, TRAP_NZ (R59). -/
def decodeOp2A (w : Nat) : Except DecodeError Syl :=
  match fld w 19 1 with
  | 0 => withReserved (fld w 13 6 == 0 && fld w 20 5 == 0) (accept (.trap (BitVec.ofNat 13 (fld w 0 13))))
  | 1 => withReserved (fld w 20 5 == 0) (accept (.trapNz (BitVec.ofNat 6 (fld w 13 6)) (BitVec.ofNat 13 (fld w 0 13))))
  | _ => .error .unassignedForm

/-- Opcode 0x2b: TRET (R59). -/
def decodeOp2B (w : Nat) : Except DecodeError Syl :=
  withReserved (fld w 0 25 == 0) (accept .tret)

/-- Opcode 0x2c: SNAPST, SNAPLD (R59). -/
def decodeOp2C (w : Nat) : Except DecodeError Syl :=
  match fld w 19 1 with
  | 0 => withReserved (fld w 0 13 == 0 && fld w 20 5 == 0) (accept (.snapst (BitVec.ofNat 6 (fld w 13 6))))
  | 1 => withReserved (fld w 0 13 == 0 && fld w 20 5 == 0) (accept (.snapld (BitVec.ofNat 6 (fld w 13 6))))
  | _ => .error .unassignedForm

/-- Opcode 0x2d: SNAPREL (R59). -/
def decodeOp2D (w : Nat) : Except DecodeError Syl :=
  withReserved (fld w 0 25 == 0) (accept .snaprel)

/-- Opcode 0x2e: BRK (R59). -/
def decodeOp2E (w : Nat) : Except DecodeError Syl :=
  withReserved (fld w 13 12 == 0) (accept (.brk (BitVec.ofNat 13 (fld w 0 13))))

/-- Opcode 0x2f: LAUNCH, CANCEL (R59). -/
def decodeOp2F (w : Nat) : Except DecodeError Syl :=
  match fld w 19 1 with
  | 0 => withReserved (fld w 6 7 == 0 && fld w 20 5 == 0) (accept (.launch (BitVec.ofNat 6 (fld w 13 6)) (BitVec.ofNat 6 (fld w 0 6))))
  | 1 => withReserved (fld w 3 10 == 0 && fld w 20 5 == 0) (match cLevelOf (fld w 0 3) with
      | some l => accept (.cancel (BitVec.ofNat 6 (fld w 13 6)) l)
      | _ => .error .unassignedForm)
  | _ => .error .unassignedForm

/-- Opcode 0x30: LD (R59). -/
def decodeOp30 (w : Nat) : Except DecodeError Syl :=
  (match mSizeOf (fld w 10 3) with
      | some z => accept (.ld (BitVec.ofNat 6 (fld w 19 6)) (BitVec.ofNat 6 (fld w 13 6)) z (BitVec.ofNat 10 (fld w 0 10)))
      | _ => .error .unassignedForm)

/-- Opcode 0x31: ST (R59). -/
def decodeOp31 (w : Nat) : Except DecodeError Syl :=
  (match mSizeOf (fld w 10 3) with
      | some z => accept (.st (BitVec.ofNat 6 (fld w 19 6)) (BitVec.ofNat 6 (fld w 13 6)) z (BitVec.ofNat 10 (fld w 0 10)))
      | _ => .error .unassignedForm)

/-- Opcode 0x32: LDV, LDV_S, LDV_B (R59). -/
def decodeOp32 (w : Nat) : Except DecodeError Syl :=
  match fld w 12 2 with
  | 0 => accept (.ldv (BitVec.ofNat 5 (fld w 20 5)) (BitVec.ofNat 6 (fld w 14 6)) (BitVec.ofNat 8 (fld w 4 8)) (BitVec.ofNat 4 (fld w 0 4)))
  | 1 => withReserved (fld w 10 2 == 0) (accept (.ldvS (BitVec.ofNat 5 (fld w 20 5)) (BitVec.ofNat 6 (fld w 14 6)) (BitVec.ofNat 6 (fld w 4 6)) (BitVec.ofNat 4 (fld w 0 4))))
  | 2 => accept (.ldvB (BitVec.ofNat 5 (fld w 20 5)) (BitVec.ofNat 6 (fld w 14 6)) (BitVec.ofNat 8 (fld w 4 8)) (BitVec.ofNat 4 (fld w 0 4)))
  | _ => .error .unassignedForm

/-- Opcode 0x33: STV, STV_S (R59). -/
def decodeOp33 (w : Nat) : Except DecodeError Syl :=
  match fld w 12 1 with
  | 0 => withReserved (fld w 13 1 == 0) (accept (.stv (BitVec.ofNat 5 (fld w 20 5)) (BitVec.ofNat 6 (fld w 14 6)) (BitVec.ofNat 8 (fld w 4 8)) (BitVec.ofNat 4 (fld w 0 4))))
  | 1 => withReserved (fld w 10 2 == 0 && fld w 13 1 == 0) (accept (.stvS (BitVec.ofNat 5 (fld w 20 5)) (BitVec.ofNat 6 (fld w 14 6)) (BitVec.ofNat 6 (fld w 4 6)) (BitVec.ofNat 4 (fld w 0 4))))
  | _ => .error .unassignedForm

/-- Opcode 0x34: GATH, SCAT (R59). -/
def decodeOp34 (w : Nat) : Except DecodeError Syl :=
  match fld w 4 1 with
  | 0 => withReserved (fld w 5 2 == 0) (match vTyOf (fld w 7 3) with
      | some t => accept (.gath (BitVec.ofNat 5 (fld w 20 5)) (BitVec.ofNat 5 (fld w 15 5)) (BitVec.ofNat 5 (fld w 10 5)) t (BitVec.ofNat 4 (fld w 0 4)))
      | _ => .error .unassignedForm)
  | 1 => withReserved (fld w 5 2 == 0) (match vTyOf (fld w 7 3) with
      | some t => accept (.scat (BitVec.ofNat 5 (fld w 20 5)) (BitVec.ofNat 5 (fld w 15 5)) (BitVec.ofNat 5 (fld w 10 5)) t (BitVec.ofNat 4 (fld w 0 4)))
      | _ => .error .unassignedForm)
  | _ => .error .unassignedForm

/-- Opcode 0x35: LDG, STG (R59). -/
def decodeOp35 (w : Nat) : Except DecodeError Syl :=
  match fld w 9 1 with
  | 0 => (match mSizeOf (fld w 10 3) with
      | some z => accept (.ldg (BitVec.ofNat 6 (fld w 19 6)) (BitVec.ofNat 6 (fld w 13 6)) z (BitVec.ofNat 9 (fld w 0 9)))
      | _ => .error .unassignedForm)
  | 1 => (match mSizeOf (fld w 10 3) with
      | some z => accept (.stg (BitVec.ofNat 6 (fld w 19 6)) (BitVec.ofNat 6 (fld w 13 6)) z (BitVec.ofNat 9 (fld w 0 9)))
      | _ => .error .unassignedForm)
  | _ => .error .unassignedForm

/-- Opcode 0x36: LDGV, STGV (R59). -/
def decodeOp36 (w : Nat) : Except DecodeError Syl :=
  match fld w 13 1 with
  | 0 => accept (.ldgv (BitVec.ofNat 5 (fld w 20 5)) (BitVec.ofNat 6 (fld w 14 6)) (BitVec.ofNat 9 (fld w 4 9)) (BitVec.ofNat 4 (fld w 0 4)))
  | 1 => accept (.stgv (BitVec.ofNat 5 (fld w 20 5)) (BitVec.ofNat 6 (fld w 14 6)) (BitVec.ofNat 9 (fld w 4 9)) (BitVec.ofNat 4 (fld w 0 4)))
  | _ => .error .unassignedForm

/-- Opcode 0x37: LDC (R59). -/
def decodeOp37 (w : Nat) : Except DecodeError Syl :=
  (match mSizeOf (fld w 10 3) with
      | some z => accept (.ldc (BitVec.ofNat 6 (fld w 19 6)) (BitVec.ofNat 6 (fld w 13 6)) z (BitVec.ofNat 10 (fld w 0 10)))
      | _ => .error .unassignedForm)

/-- Opcode 0x38: TLOOK (R59). -/
def decodeOp38 (w : Nat) : Except DecodeError Syl :=
  withReserved (fld w 3 10 == 0) (accept (.tlook (BitVec.ofNat 6 (fld w 19 6)) (BitVec.ofNat 6 (fld w 13 6)) (BitVec.ofNat 3 (fld w 0 3))))

/-- Opcode 0x39: TFILL, TEVICT, TINV (R59). -/
def decodeOp39 (w : Nat) : Except DecodeError Syl :=
  match fld w 3 2 with
  | 0 => withReserved (fld w 5 2 == 0 && fld w 19 6 == 0) (accept (.tfill (BitVec.ofNat 6 (fld w 13 6)) (BitVec.ofNat 6 (fld w 7 6)) (BitVec.ofNat 3 (fld w 0 3))))
  | 1 => withReserved (fld w 5 8 == 0 && fld w 19 6 == 0) (accept (.tevict (BitVec.ofNat 6 (fld w 13 6)) (BitVec.ofNat 3 (fld w 0 3))))
  | 2 => withReserved (fld w 5 8 == 0 && fld w 19 6 == 0) (accept (.tinv (BitVec.ofNat 6 (fld w 13 6)) (BitVec.ofNat 3 (fld w 0 3))))
  | _ => .error .unassignedForm

/-- Opcode 0x3a: TLOCK, TUNLOCK (R59). -/
def decodeOp3A (w : Nat) : Except DecodeError Syl :=
  match fld w 3 1 with
  | 0 => withReserved (fld w 4 9 == 0) (accept (.tlock (BitVec.ofNat 6 (fld w 19 6)) (BitVec.ofNat 6 (fld w 13 6)) (BitVec.ofNat 3 (fld w 0 3))))
  | 1 => withReserved (fld w 4 9 == 0) (accept (.tunlock (BitVec.ofNat 6 (fld w 19 6)) (BitVec.ofNat 6 (fld w 13 6)) (BitVec.ofNat 3 (fld w 0 3))))
  | _ => .error .unassignedForm

/-- Opcode 0x3b: HWAIT, HWAITF (R59). -/
def decodeOp3B (w : Nat) : Except DecodeError Syl :=
  match fld w 24 1 with
  | 0 => withReserved (fld w 13 6 == 0 && fld w 23 1 == 0) (accept (.hwait (BitVec.ofNat 4 (fld w 19 4)) (BitVec.ofNat 13 (fld w 0 13))))
  | 1 => withReserved (fld w 13 6 == 0 && fld w 23 1 == 0) (accept (.hwaitf (BitVec.ofNat 4 (fld w 19 4)) (BitVec.ofNat 13 (fld w 0 13))))
  | _ => .error .unassignedForm

/-- Opcode 0x3c: HADVP, HADVC (R59). -/
def decodeOp3C (w : Nat) : Except DecodeError Syl :=
  match fld w 24 1 with
  | 0 => withReserved (fld w 13 6 == 0 && fld w 23 1 == 0) (accept (.hadvp (BitVec.ofNat 4 (fld w 19 4)) (BitVec.ofNat 13 (fld w 0 13))))
  | 1 => withReserved (fld w 13 6 == 0 && fld w 23 1 == 0) (accept (.hadvc (BitVec.ofNat 4 (fld w 19 4)) (BitVec.ofNat 13 (fld w 0 13))))
  | _ => .error .unassignedForm

/-- Opcode 0x3d: HSET (R59). -/
def decodeOp3D (w : Nat) : Except DecodeError Syl :=
  withReserved (fld w 3 4 == 0 && fld w 23 2 == 0) (accept (.hset (BitVec.ofNat 4 (fld w 19 4)) (BitVec.ofNat 6 (fld w 13 6)) (BitVec.ofNat 6 (fld w 7 6)) (BitVec.ofNat 3 (fld w 0 3))))

/-- Opcode 0x3e: FOOTR, FOOTW, FOOTCLR (R59). -/
def decodeOp3E (w : Nat) : Except DecodeError Syl :=
  match fld w 3 2 with
  | 0 => withReserved (fld w 5 2 == 0 && fld w 20 4 == 0) (accept (.footr (fld w 24 1 == 1) (fld w 19 1 == 1) (BitVec.ofNat 6 (fld w 13 6)) (BitVec.ofNat 6 (fld w 7 6)) (BitVec.ofNat 3 (fld w 0 3))))
  | 1 => withReserved (fld w 5 2 == 0 && fld w 20 4 == 0) (accept (.footw (fld w 24 1 == 1) (fld w 19 1 == 1) (BitVec.ofNat 6 (fld w 13 6)) (BitVec.ofNat 6 (fld w 7 6)) (BitVec.ofNat 3 (fld w 0 3))))
  | 2 => withReserved (fld w 5 14 == 0 && fld w 20 5 == 0) (accept (.footclr (fld w 19 1 == 1) (BitVec.ofNat 3 (fld w 0 3))))
  | _ => .error .unassignedForm

/-- Opcode 0x3f: SPFENCE (R59). -/
def decodeOp3F (w : Nat) : Except DecodeError Syl :=
  withReserved (fld w 3 22 == 0) (accept (.spfence (BitVec.ofNat 3 (fld w 0 3))))

/-- Opcode 0x40: ACQ (R59). -/
def decodeOp40 (w : Nat) : Except DecodeError Syl :=
  withReserved (fld w 7 6 == 0) (match scopeOf (fld w 3 4) with
      | some s => accept (.acq (BitVec.ofNat 6 (fld w 19 6)) (BitVec.ofNat 6 (fld w 13 6)) s (BitVec.ofNat 3 (fld w 0 3)))
      | _ => .error .unassignedForm)

/-- Opcode 0x41: REL (R59). -/
def decodeOp41 (w : Nat) : Except DecodeError Syl :=
  withReserved (fld w 7 6 == 0) (match scopeOf (fld w 3 4) with
      | some s => accept (.rel (BitVec.ofNat 6 (fld w 19 6)) (BitVec.ofNat 6 (fld w 13 6)) s (BitVec.ofNat 3 (fld w 0 3)))
      | _ => .error .unassignedForm)

/-- Opcode 0x42: FENCE (R59). -/
def decodeOp42 (w : Nat) : Except DecodeError Syl :=
  withReserved (fld w 7 18 == 0) (match scopeOf (fld w 3 4) with
      | some s => accept (.fence s (BitVec.ofNat 3 (fld w 0 3)))
      | _ => .error .unassignedForm)

/-- Opcode 0x43: AMO_ADD, AMO_AND, AMO_OR, AMO_XOR, AMO_MIN, AMO_MAX, AMO_MINU, AMO_MAXU, AMO_SWAP, AMO_FADD (R59). -/
def decodeOp43 (w : Nat) : Except DecodeError Syl :=
  match fld w 3 4 with
  | 0 => accept (.amoAdd (BitVec.ofNat 6 (fld w 19 6)) (BitVec.ofNat 6 (fld w 13 6)) (BitVec.ofNat 6 (fld w 7 6)) (BitVec.ofNat 3 (fld w 0 3)))
  | 1 => accept (.amoAnd (BitVec.ofNat 6 (fld w 19 6)) (BitVec.ofNat 6 (fld w 13 6)) (BitVec.ofNat 6 (fld w 7 6)) (BitVec.ofNat 3 (fld w 0 3)))
  | 2 => accept (.amoOr (BitVec.ofNat 6 (fld w 19 6)) (BitVec.ofNat 6 (fld w 13 6)) (BitVec.ofNat 6 (fld w 7 6)) (BitVec.ofNat 3 (fld w 0 3)))
  | 3 => accept (.amoXor (BitVec.ofNat 6 (fld w 19 6)) (BitVec.ofNat 6 (fld w 13 6)) (BitVec.ofNat 6 (fld w 7 6)) (BitVec.ofNat 3 (fld w 0 3)))
  | 4 => accept (.amoMin (BitVec.ofNat 6 (fld w 19 6)) (BitVec.ofNat 6 (fld w 13 6)) (BitVec.ofNat 6 (fld w 7 6)) (BitVec.ofNat 3 (fld w 0 3)))
  | 5 => accept (.amoMax (BitVec.ofNat 6 (fld w 19 6)) (BitVec.ofNat 6 (fld w 13 6)) (BitVec.ofNat 6 (fld w 7 6)) (BitVec.ofNat 3 (fld w 0 3)))
  | 6 => accept (.amoMinu (BitVec.ofNat 6 (fld w 19 6)) (BitVec.ofNat 6 (fld w 13 6)) (BitVec.ofNat 6 (fld w 7 6)) (BitVec.ofNat 3 (fld w 0 3)))
  | 7 => accept (.amoMaxu (BitVec.ofNat 6 (fld w 19 6)) (BitVec.ofNat 6 (fld w 13 6)) (BitVec.ofNat 6 (fld w 7 6)) (BitVec.ofNat 3 (fld w 0 3)))
  | 8 => accept (.amoSwap (BitVec.ofNat 6 (fld w 19 6)) (BitVec.ofNat 6 (fld w 13 6)) (BitVec.ofNat 6 (fld w 7 6)) (BitVec.ofNat 3 (fld w 0 3)))
  | 9 => accept (.amoFadd (BitVec.ofNat 6 (fld w 19 6)) (BitVec.ofNat 6 (fld w 13 6)) (BitVec.ofNat 6 (fld w 7 6)) (BitVec.ofNat 3 (fld w 0 3)))
  | _ => .error .unassignedForm

/-- Opcode 0x44: CAS (R59). -/
def decodeOp44 (w : Nat) : Except DecodeError Syl :=
  withReserved (fld w 3 4 == 0) (accept (.cas (BitVec.ofNat 6 (fld w 19 6)) (BitVec.ofNat 6 (fld w 13 6)) (BitVec.ofNat 6 (fld w 7 6)) (BitVec.ofNat 3 (fld w 0 3))))

/-- Opcode 0x45: LOGCMP (R59). -/
def decodeOp45 (w : Nat) : Except DecodeError Syl :=
  withReserved (fld w 3 10 == 0) (accept (.logcmp (BitVec.ofNat 6 (fld w 19 6)) (BitVec.ofNat 6 (fld w 13 6)) (BitVec.ofNat 3 (fld w 0 3))))

/-- Opcode 0x46: LOGMARK, LOGTRUNC (R59). -/
def decodeOp46 (w : Nat) : Except DecodeError Syl :=
  match fld w 3 1 with
  | 0 => withReserved (fld w 4 15 == 0) (accept (.logmark (BitVec.ofNat 6 (fld w 19 6)) (BitVec.ofNat 3 (fld w 0 3))))
  | 1 => withReserved (fld w 4 9 == 0) (accept (.logtrunc (BitVec.ofNat 6 (fld w 19 6)) (BitVec.ofNat 6 (fld w 13 6)) (BitVec.ofNat 3 (fld w 0 3))))
  | _ => .error .unassignedForm

/-- Opcode 0x47: SSTEP_DIE, SSTEP_PACKAGE (R59). -/
def decodeOp47 (w : Nat) : Except DecodeError Syl :=
  match fld w 3 1 with
  | 0 => withReserved (fld w 4 21 == 2) (accept (.sstepDie (BitVec.ofNat 3 (fld w 0 3))))
  | 1 => withReserved (fld w 4 21 == 2) (accept (.sstepPackage (BitVec.ofNat 3 (fld w 0 3))))
  | _ => .error .unassignedForm

/-- Opcode 0x48: GSET (R59). -/
def decodeOp48 (w : Nat) : Except DecodeError Syl :=
  withReserved (fld w 4 9 == 0 && fld w 19 3 == 0) (accept (.gset (fld w 24 1 == 1) (BitVec.ofNat 2 (fld w 22 2)) (BitVec.ofNat 6 (fld w 13 6)) (BitVec.ofNat 4 (fld w 0 4))))

/-- Opcode 0x49: GSWAP (R59). -/
def decodeOp49 (w : Nat) : Except DecodeError Syl :=
  withReserved (fld w 0 19 == 0 && fld w 23 1 == 0) (accept (.gswap (fld w 24 1 == 1) (BitVec.ofNat 4 (fld w 19 4))))

/-- Opcode 0x4a: CPY_HS, CPY_SH, CPY_SS, CPY_RM (R59). -/
def decodeOp4A (w : Nat) : Except DecodeError Syl :=
  match fld w 19 2 with
  | 0 => withReserved (fld w 23 2 == 0) (match cWidthOf (fld w 4 2) with
      | some c => accept (.cpyHs (BitVec.ofNat 2 (fld w 21 2)) (BitVec.ofNat 6 (fld w 13 6)) (BitVec.ofNat 6 (fld w 7 6)) (fld w 6 1 == 1) c (BitVec.ofNat 4 (fld w 0 4)))
      | _ => .error .unassignedForm)
  | 1 => withReserved (fld w 23 2 == 0) (match cWidthOf (fld w 4 2) with
      | some c => accept (.cpySh (BitVec.ofNat 2 (fld w 21 2)) (BitVec.ofNat 6 (fld w 13 6)) (BitVec.ofNat 6 (fld w 7 6)) (fld w 6 1 == 1) c (BitVec.ofNat 4 (fld w 0 4)))
      | _ => .error .unassignedForm)
  | 2 => withReserved (fld w 23 2 == 0) (match cWidthOf (fld w 4 2) with
      | some c => accept (.cpySs (BitVec.ofNat 2 (fld w 21 2)) (BitVec.ofNat 6 (fld w 13 6)) (BitVec.ofNat 6 (fld w 7 6)) (fld w 6 1 == 1) c (BitVec.ofNat 4 (fld w 0 4)))
      | _ => .error .unassignedForm)
  | 3 => withReserved (fld w 0 4 == 0 && fld w 23 2 == 0) (match cWidthOf (fld w 4 2) with
      | some c => accept (.cpyRm (BitVec.ofNat 2 (fld w 21 2)) (BitVec.ofNat 6 (fld w 13 6)) (BitVec.ofNat 6 (fld w 7 6)) (fld w 6 1 == 1) c)
      | _ => .error .unassignedForm)
  | _ => .error .unassignedForm

/-- Opcode 0x4b: CPYR_HS, CPYR_SH, CPYR_SS, CPYR_RM (R59). -/
def decodeOp4B (w : Nat) : Except DecodeError Syl :=
  match fld w 19 2 with
  | 0 => withReserved (fld w 21 4 == 0) (match cWidthOf (fld w 4 2) with
      | some c => accept (.cpyrHs (BitVec.ofNat 6 (fld w 13 6)) (BitVec.ofNat 6 (fld w 7 6)) (fld w 6 1 == 1) c (BitVec.ofNat 4 (fld w 0 4)))
      | _ => .error .unassignedForm)
  | 1 => withReserved (fld w 21 4 == 0) (match cWidthOf (fld w 4 2) with
      | some c => accept (.cpyrSh (BitVec.ofNat 6 (fld w 13 6)) (BitVec.ofNat 6 (fld w 7 6)) (fld w 6 1 == 1) c (BitVec.ofNat 4 (fld w 0 4)))
      | _ => .error .unassignedForm)
  | 2 => withReserved (fld w 21 4 == 0) (match cWidthOf (fld w 4 2) with
      | some c => accept (.cpyrSs (BitVec.ofNat 6 (fld w 13 6)) (BitVec.ofNat 6 (fld w 7 6)) (fld w 6 1 == 1) c (BitVec.ofNat 4 (fld w 0 4)))
      | _ => .error .unassignedForm)
  | 3 => withReserved (fld w 0 4 == 0 && fld w 21 4 == 0) (match cWidthOf (fld w 4 2) with
      | some c => accept (.cpyrRm (BitVec.ofNat 6 (fld w 13 6)) (BitVec.ofNat 6 (fld w 7 6)) (fld w 6 1 == 1) c)
      | _ => .error .unassignedForm)
  | _ => .error .unassignedForm

/-- Opcode 0x4c: CPYW (R59). -/
def decodeOp4C (w : Nat) : Except DecodeError Syl :=
  withReserved (fld w 4 21 == 0) (accept (.cpyw (BitVec.ofNat 4 (fld w 0 4))))

/-- Opcode 0x4d: ENGW, ENGR (R59). -/
def decodeOp4D (w : Nat) : Except DecodeError Syl :=
  match fld w 19 1 with
  | 0 => withReserved (fld w 0 7 == 0 && fld w 20 5 == 0) (accept (.engw (BitVec.ofNat 6 (fld w 13 6)) (BitVec.ofNat 6 (fld w 7 6))))
  | 1 => withReserved (fld w 0 7 == 0 && fld w 20 5 == 0) (accept (.engr (BitVec.ofNat 6 (fld w 13 6)) (BitVec.ofNat 6 (fld w 7 6))))
  | _ => .error .unassignedForm

/-- Opcode 0x4e: TSEQ (R59). -/
def decodeOp4E (w : Nat) : Except DecodeError Syl :=
  withReserved (fld w 0 13 == 0 && fld w 19 6 == 0) (accept (.tseq (BitVec.ofNat 6 (fld w 13 6))))

/-- Opcode 0x4f: CCADD, CCWAIT (R59). -/
def decodeOp4F (w : Nat) : Except DecodeError Syl :=
  match fld w 19 1 with
  | 0 => withReserved (fld w 0 7 == 0 && fld w 20 5 == 0) (accept (.ccadd (BitVec.ofNat 6 (fld w 13 6)) (BitVec.ofNat 6 (fld w 7 6))))
  | 1 => withReserved (fld w 0 7 == 0 && fld w 20 5 == 0) (accept (.ccwait (BitVec.ofNat 6 (fld w 13 6)) (BitVec.ofNat 6 (fld w 7 6))))
  | _ => .error .unassignedForm

/-- Opcode 0x50: VADD (R59). -/
def decodeOp50 (w : Nat) : Except DecodeError Syl :=
  withReserved (fld w 4 3 == 0) (match vTyOf (fld w 7 3) with
      | some t => accept (.vadd (BitVec.ofNat 5 (fld w 20 5)) (BitVec.ofNat 5 (fld w 15 5)) (BitVec.ofNat 5 (fld w 10 5)) t (BitVec.ofNat 4 (fld w 0 4)))
      | _ => .error .unassignedForm)

/-- Opcode 0x51: VSUB (R59). -/
def decodeOp51 (w : Nat) : Except DecodeError Syl :=
  withReserved (fld w 4 3 == 0) (match vTyOf (fld w 7 3) with
      | some t => accept (.vsub (BitVec.ofNat 5 (fld w 20 5)) (BitVec.ofNat 5 (fld w 15 5)) (BitVec.ofNat 5 (fld w 10 5)) t (BitVec.ofNat 4 (fld w 0 4)))
      | _ => .error .unassignedForm)

/-- Opcode 0x52: VMUL (R59). -/
def decodeOp52 (w : Nat) : Except DecodeError Syl :=
  withReserved (fld w 4 3 == 0) (match vTyOf (fld w 7 3) with
      | some t => accept (.vmul (BitVec.ofNat 5 (fld w 20 5)) (BitVec.ofNat 5 (fld w 15 5)) (BitVec.ofNat 5 (fld w 10 5)) t (BitVec.ofNat 4 (fld w 0 4)))
      | _ => .error .unassignedForm)

/-- Opcode 0x53: VMINMAX_MIN, VMINMAX_MAX (R59). -/
def decodeOp53 (w : Nat) : Except DecodeError Syl :=
  match fld w 4 1 with
  | 0 => withReserved (fld w 5 2 == 0) (match vTyOf (fld w 7 3) with
      | some t => accept (.vminmaxMin (BitVec.ofNat 5 (fld w 20 5)) (BitVec.ofNat 5 (fld w 15 5)) (BitVec.ofNat 5 (fld w 10 5)) t (BitVec.ofNat 4 (fld w 0 4)))
      | _ => .error .unassignedForm)
  | 1 => withReserved (fld w 5 2 == 0) (match vTyOf (fld w 7 3) with
      | some t => accept (.vminmaxMax (BitVec.ofNat 5 (fld w 20 5)) (BitVec.ofNat 5 (fld w 15 5)) (BitVec.ofNat 5 (fld w 10 5)) t (BitVec.ofNat 4 (fld w 0 4)))
      | _ => .error .unassignedForm)
  | _ => .error .unassignedForm

/-- Opcode 0x54: VFMA (R59). -/
def decodeOp54 (w : Nat) : Except DecodeError Syl :=
  accept (.vfma (BitVec.ofNat 5 (fld w 20 5)) (BitVec.ofNat 5 (fld w 15 5)) (BitVec.ofNat 5 (fld w 10 5)) (BitVec.ofNat 5 (fld w 5 5)) (fld w 4 1 == 1) (BitVec.ofNat 4 (fld w 0 4)))

/-- Opcode 0x55: VFMS (R59). -/
def decodeOp55 (w : Nat) : Except DecodeError Syl :=
  accept (.vfms (BitVec.ofNat 5 (fld w 20 5)) (BitVec.ofNat 5 (fld w 15 5)) (BitVec.ofNat 5 (fld w 10 5)) (BitVec.ofNat 5 (fld w 5 5)) (fld w 4 1 == 1) (BitVec.ofNat 4 (fld w 0 4)))

/-- Opcode 0x56: VFNMA (R59). -/
def decodeOp56 (w : Nat) : Except DecodeError Syl :=
  accept (.vfnma (BitVec.ofNat 5 (fld w 20 5)) (BitVec.ofNat 5 (fld w 15 5)) (BitVec.ofNat 5 (fld w 10 5)) (BitVec.ofNat 5 (fld w 5 5)) (fld w 4 1 == 1) (BitVec.ofNat 4 (fld w 0 4)))

/-- Opcode 0x57: VLOGIC_AND, VLOGIC_OR, VLOGIC_XOR, VLOGIC_ANDN, VLOGIC_NOT (R59). -/
def decodeOp57 (w : Nat) : Except DecodeError Syl :=
  match fld w 4 3 with
  | 0 => (match vTyOf (fld w 7 3) with
      | some t => accept (.vlogicAnd (BitVec.ofNat 5 (fld w 20 5)) (BitVec.ofNat 5 (fld w 15 5)) (BitVec.ofNat 5 (fld w 10 5)) t (BitVec.ofNat 4 (fld w 0 4)))
      | _ => .error .unassignedForm)
  | 1 => (match vTyOf (fld w 7 3) with
      | some t => accept (.vlogicOr (BitVec.ofNat 5 (fld w 20 5)) (BitVec.ofNat 5 (fld w 15 5)) (BitVec.ofNat 5 (fld w 10 5)) t (BitVec.ofNat 4 (fld w 0 4)))
      | _ => .error .unassignedForm)
  | 2 => (match vTyOf (fld w 7 3) with
      | some t => accept (.vlogicXor (BitVec.ofNat 5 (fld w 20 5)) (BitVec.ofNat 5 (fld w 15 5)) (BitVec.ofNat 5 (fld w 10 5)) t (BitVec.ofNat 4 (fld w 0 4)))
      | _ => .error .unassignedForm)
  | 3 => (match vTyOf (fld w 7 3) with
      | some t => accept (.vlogicAndn (BitVec.ofNat 5 (fld w 20 5)) (BitVec.ofNat 5 (fld w 15 5)) (BitVec.ofNat 5 (fld w 10 5)) t (BitVec.ofNat 4 (fld w 0 4)))
      | _ => .error .unassignedForm)
  | 4 => withReserved (fld w 10 5 == 0) (match vTyOf (fld w 7 3) with
      | some t => accept (.vlogicNot (BitVec.ofNat 5 (fld w 20 5)) (BitVec.ofNat 5 (fld w 15 5)) t (BitVec.ofNat 4 (fld w 0 4)))
      | _ => .error .unassignedForm)
  | _ => .error .unassignedForm

/-- Opcode 0x58: VSHIFT_SHL, VSHIFT_SHR, VSHIFT_SRA (R59). -/
def decodeOp58 (w : Nat) : Except DecodeError Syl :=
  match fld w 4 2 with
  | 0 => withReserved (fld w 6 1 == 0) (match vTyOf (fld w 7 3) with
      | some t => accept (.vshiftShl (BitVec.ofNat 5 (fld w 20 5)) (BitVec.ofNat 5 (fld w 15 5)) (BitVec.ofNat 5 (fld w 10 5)) t (BitVec.ofNat 4 (fld w 0 4)))
      | _ => .error .unassignedForm)
  | 1 => withReserved (fld w 6 1 == 0) (match vTyOf (fld w 7 3) with
      | some t => accept (.vshiftShr (BitVec.ofNat 5 (fld w 20 5)) (BitVec.ofNat 5 (fld w 15 5)) (BitVec.ofNat 5 (fld w 10 5)) t (BitVec.ofNat 4 (fld w 0 4)))
      | _ => .error .unassignedForm)
  | 2 => withReserved (fld w 6 1 == 0) (match vTyOf (fld w 7 3) with
      | some t => accept (.vshiftSra (BitVec.ofNat 5 (fld w 20 5)) (BitVec.ofNat 5 (fld w 15 5)) (BitVec.ofNat 5 (fld w 10 5)) t (BitVec.ofNat 4 (fld w 0 4)))
      | _ => .error .unassignedForm)
  | _ => .error .unassignedForm

/-- Opcode 0x59: VCMP_EQ, VCMP_NE, VCMP_LT, VCMP_LE, VCMP_GT, VCMP_GE (R59). -/
def decodeOp59 (w : Nat) : Except DecodeError Syl :=
  match fld w 4 3 with
  | 0 => withReserved (fld w 24 1 == 0) (match vTyOf (fld w 7 3) with
      | some t => accept (.vcmpEq (BitVec.ofNat 4 (fld w 20 4)) (BitVec.ofNat 5 (fld w 15 5)) (BitVec.ofNat 5 (fld w 10 5)) t (BitVec.ofNat 4 (fld w 0 4)))
      | _ => .error .unassignedForm)
  | 1 => withReserved (fld w 24 1 == 0) (match vTyOf (fld w 7 3) with
      | some t => accept (.vcmpNe (BitVec.ofNat 4 (fld w 20 4)) (BitVec.ofNat 5 (fld w 15 5)) (BitVec.ofNat 5 (fld w 10 5)) t (BitVec.ofNat 4 (fld w 0 4)))
      | _ => .error .unassignedForm)
  | 2 => withReserved (fld w 24 1 == 0) (match vTyOf (fld w 7 3) with
      | some t => accept (.vcmpLt (BitVec.ofNat 4 (fld w 20 4)) (BitVec.ofNat 5 (fld w 15 5)) (BitVec.ofNat 5 (fld w 10 5)) t (BitVec.ofNat 4 (fld w 0 4)))
      | _ => .error .unassignedForm)
  | 3 => withReserved (fld w 24 1 == 0) (match vTyOf (fld w 7 3) with
      | some t => accept (.vcmpLe (BitVec.ofNat 4 (fld w 20 4)) (BitVec.ofNat 5 (fld w 15 5)) (BitVec.ofNat 5 (fld w 10 5)) t (BitVec.ofNat 4 (fld w 0 4)))
      | _ => .error .unassignedForm)
  | 4 => withReserved (fld w 24 1 == 0) (match vTyOf (fld w 7 3) with
      | some t => accept (.vcmpGt (BitVec.ofNat 4 (fld w 20 4)) (BitVec.ofNat 5 (fld w 15 5)) (BitVec.ofNat 5 (fld w 10 5)) t (BitVec.ofNat 4 (fld w 0 4)))
      | _ => .error .unassignedForm)
  | 5 => withReserved (fld w 24 1 == 0) (match vTyOf (fld w 7 3) with
      | some t => accept (.vcmpGe (BitVec.ofNat 4 (fld w 20 4)) (BitVec.ofNat 5 (fld w 15 5)) (BitVec.ofNat 5 (fld w 10 5)) t (BitVec.ofNat 4 (fld w 0 4)))
      | _ => .error .unassignedForm)
  | _ => .error .unassignedForm

/-- Opcode 0x5a: VSEL (R59). -/
def decodeOp5A (w : Nat) : Except DecodeError Syl :=
  withReserved (fld w 4 6 == 0) (accept (.vsel (BitVec.ofNat 5 (fld w 20 5)) (BitVec.ofNat 5 (fld w 15 5)) (BitVec.ofNat 5 (fld w 10 5)) (BitVec.ofNat 4 (fld w 0 4))))

/-- Opcode 0x5b: VCVT (R59). -/
def decodeOp5B (w : Nat) : Except DecodeError Syl :=
  withReserved (fld w 12 3 == 0) (match rModeOf (fld w 10 2), vTyOf (fld w 7 3), vTyOf (fld w 4 3) with
      | some r, some s, some u => accept (.vcvt (BitVec.ofNat 5 (fld w 20 5)) (BitVec.ofNat 5 (fld w 15 5)) r s u (BitVec.ofNat 4 (fld w 0 4)))
      | _, _, _ => .error .unassignedForm)

/-- Opcode 0x5c: VRED_ADD, VRED_MAX, VRED_MIN (R59). -/
def decodeOp5C (w : Nat) : Except DecodeError Syl :=
  match fld w 4 2 with
  | 0 => withReserved (fld w 6 1 == 0 && fld w 10 5 == 0) (match vTyOf (fld w 7 3) with
      | some t => accept (.vredAdd (BitVec.ofNat 5 (fld w 20 5)) (BitVec.ofNat 5 (fld w 15 5)) t (BitVec.ofNat 4 (fld w 0 4)))
      | _ => .error .unassignedForm)
  | 1 => withReserved (fld w 6 1 == 0 && fld w 10 5 == 0) (match vTyOf (fld w 7 3) with
      | some t => accept (.vredMax (BitVec.ofNat 5 (fld w 20 5)) (BitVec.ofNat 5 (fld w 15 5)) t (BitVec.ofNat 4 (fld w 0 4)))
      | _ => .error .unassignedForm)
  | 2 => withReserved (fld w 6 1 == 0 && fld w 10 5 == 0) (match vTyOf (fld w 7 3) with
      | some t => accept (.vredMin (BitVec.ofNat 5 (fld w 20 5)) (BitVec.ofNat 5 (fld w 15 5)) t (BitVec.ofNat 4 (fld w 0 4)))
      | _ => .error .unassignedForm)
  | _ => .error .unassignedForm

/-- Opcode 0x5d: VSCAN (R59). -/
def decodeOp5D (w : Nat) : Except DecodeError Syl :=
  withReserved (fld w 4 3 == 0 && fld w 10 5 == 0) (match vTyOf (fld w 7 3) with
      | some t => accept (.vscan (BitVec.ofNat 5 (fld w 20 5)) (BitVec.ofNat 5 (fld w 15 5)) t (BitVec.ofNat 4 (fld w 0 4)))
      | _ => .error .unassignedForm)

/-- Opcode 0x5e: VPERM_IDX, VPERM_ROT, VPERM_PSH (R59). -/
def decodeOp5E (w : Nat) : Except DecodeError Syl :=
  match fld w 4 2 with
  | 0 => withReserved (fld w 6 4 == 0) (accept (.vpermIdx (BitVec.ofNat 5 (fld w 20 5)) (BitVec.ofNat 5 (fld w 15 5)) (BitVec.ofNat 5 (fld w 10 5)) (BitVec.ofNat 4 (fld w 0 4))))
  | 1 => withReserved (fld w 6 4 == 0) (accept (.vpermRot (BitVec.ofNat 5 (fld w 20 5)) (BitVec.ofNat 5 (fld w 15 5)) (BitVec.ofNat 5 (fld w 10 5)) (BitVec.ofNat 4 (fld w 0 4))))
  | 2 => withReserved (fld w 6 4 == 0) (accept (.vpermPsh (BitVec.ofNat 5 (fld w 20 5)) (BitVec.ofNat 5 (fld w 15 5)) (BitVec.ofNat 5 (fld w 10 5)) (BitVec.ofNat 4 (fld w 0 4))))
  | _ => .error .unassignedForm

/-- Opcode 0x5f: VBCAST, VEXT (R59). -/
def decodeOp5F (w : Nat) : Except DecodeError Syl :=
  match fld w 4 1 with
  | 0 => withReserved (fld w 5 2 == 0 && fld w 10 5 == 0) (match vTyOf (fld w 7 3) with
      | some t => accept (.vbcast (BitVec.ofNat 5 (fld w 20 5)) (BitVec.ofNat 5 (fld w 15 5)) t (BitVec.ofNat 4 (fld w 0 4)))
      | _ => .error .unassignedForm)
  | 1 => withReserved (fld w 0 4 == 0 && fld w 5 2 == 0) (match vTyOf (fld w 7 3) with
      | some t => accept (.vext (BitVec.ofNat 5 (fld w 20 5)) (BitVec.ofNat 5 (fld w 15 5)) (BitVec.ofNat 5 (fld w 10 5)) t)
      | _ => .error .unassignedForm)
  | _ => .error .unassignedForm

/-- Opcode 0x60: VTRANS_RCP, VTRANS_RSQ, VTRANS_EXP2, VTRANS_LOG2, VTRANS_TANH, VTRANS_SIN, VTRANS_COS, VTRANS_SQRT (R59). -/
def decodeOp60 (w : Nat) : Except DecodeError Syl :=
  match fld w 4 3 with
  | 0 => withReserved (fld w 7 8 == 0) (accept (.vtransRcp (BitVec.ofNat 5 (fld w 20 5)) (BitVec.ofNat 5 (fld w 15 5)) (BitVec.ofNat 4 (fld w 0 4))))
  | 1 => withReserved (fld w 7 8 == 0) (accept (.vtransRsq (BitVec.ofNat 5 (fld w 20 5)) (BitVec.ofNat 5 (fld w 15 5)) (BitVec.ofNat 4 (fld w 0 4))))
  | 2 => withReserved (fld w 7 8 == 0) (accept (.vtransExp2 (BitVec.ofNat 5 (fld w 20 5)) (BitVec.ofNat 5 (fld w 15 5)) (BitVec.ofNat 4 (fld w 0 4))))
  | 3 => withReserved (fld w 7 8 == 0) (accept (.vtransLog2 (BitVec.ofNat 5 (fld w 20 5)) (BitVec.ofNat 5 (fld w 15 5)) (BitVec.ofNat 4 (fld w 0 4))))
  | 4 => withReserved (fld w 7 8 == 0) (accept (.vtransTanh (BitVec.ofNat 5 (fld w 20 5)) (BitVec.ofNat 5 (fld w 15 5)) (BitVec.ofNat 4 (fld w 0 4))))
  | 5 => withReserved (fld w 7 8 == 0) (accept (.vtransSin (BitVec.ofNat 5 (fld w 20 5)) (BitVec.ofNat 5 (fld w 15 5)) (BitVec.ofNat 4 (fld w 0 4))))
  | 6 => withReserved (fld w 7 8 == 0) (accept (.vtransCos (BitVec.ofNat 5 (fld w 20 5)) (BitVec.ofNat 5 (fld w 15 5)) (BitVec.ofNat 4 (fld w 0 4))))
  | 7 => withReserved (fld w 7 8 == 0) (accept (.vtransSqrt (BitVec.ofNat 5 (fld w 20 5)) (BitVec.ofNat 5 (fld w 15 5)) (BitVec.ofNat 4 (fld w 0 4))))
  | _ => .error .unassignedForm

/-- Opcode 0x61: VDIV (R59). -/
def decodeOp61 (w : Nat) : Except DecodeError Syl :=
  withReserved (fld w 4 3 == 0) (match vTyOf (fld w 7 3) with
      | some t => accept (.vdiv (BitVec.ofNat 5 (fld w 20 5)) (BitVec.ofNat 5 (fld w 15 5)) (BitVec.ofNat 5 (fld w 10 5)) t (BitVec.ofNat 4 (fld w 0 4)))
      | _ => .error .unassignedForm)

/-- Opcode 0x62: VROW (R59). -/
def decodeOp62 (w : Nat) : Except DecodeError Syl :=
  withReserved (fld w 4 16 == 0) (accept (.vrow (BitVec.ofNat 5 (fld w 20 5)) (BitVec.ofNat 4 (fld w 0 4))))

/-- Opcode 0x63: VIOTA (R59). -/
def decodeOp63 (w : Nat) : Except DecodeError Syl :=
  withReserved (fld w 4 3 == 0 && fld w 10 10 == 0) (match vTyOf (fld w 7 3) with
      | some t => accept (.viota (BitVec.ofNat 5 (fld w 20 5)) t (BitVec.ofNat 4 (fld w 0 4)))
      | _ => .error .unassignedForm)

/-- Opcode 0x64: VMASK_POPC, VMASK_COMPRESS, VMASK_EXPAND, VMASK_FIRST (R59). -/
def decodeOp64 (w : Nat) : Except DecodeError Syl :=
  match fld w 4 2 with
  | 0 => withReserved (fld w 6 9 == 0 && fld w 19 1 == 0) (accept (.vmaskPopc (BitVec.ofNat 5 (fld w 20 5)) (BitVec.ofNat 4 (fld w 15 4)) (BitVec.ofNat 4 (fld w 0 4))))
  | 1 => withReserved (fld w 6 9 == 0) (accept (.vmaskCompress (BitVec.ofNat 5 (fld w 20 5)) (BitVec.ofNat 5 (fld w 15 5)) (BitVec.ofNat 4 (fld w 0 4))))
  | 2 => withReserved (fld w 6 9 == 0) (accept (.vmaskExpand (BitVec.ofNat 5 (fld w 20 5)) (BitVec.ofNat 5 (fld w 15 5)) (BitVec.ofNat 4 (fld w 0 4))))
  | 3 => withReserved (fld w 6 9 == 0 && fld w 19 1 == 0) (accept (.vmaskFirst (BitVec.ofNat 5 (fld w 20 5)) (BitVec.ofNat 4 (fld w 15 4)) (BitVec.ofNat 4 (fld w 0 4))))
  | _ => .error .unassignedForm

/-- Opcode 0x65: VBND (R59). -/
def decodeOp65 (w : Nat) : Except DecodeError Syl :=
  withReserved (fld w 4 3 == 0 && fld w 10 5 == 0 && fld w 24 1 == 0) (match vTyOf (fld w 7 3) with
      | some t => accept (.vbnd (BitVec.ofNat 4 (fld w 20 4)) (BitVec.ofNat 5 (fld w 15 5)) t (BitVec.ofNat 4 (fld w 0 4)))
      | _ => .error .unassignedForm)

/-- Opcode 0x66: VABS, VNEG (R59). -/
def decodeOp66 (w : Nat) : Except DecodeError Syl :=
  match fld w 4 1 with
  | 0 => withReserved (fld w 5 2 == 0 && fld w 10 5 == 0) (match vTyOf (fld w 7 3) with
      | some t => accept (.vabs (BitVec.ofNat 5 (fld w 20 5)) (BitVec.ofNat 5 (fld w 15 5)) t (BitVec.ofNat 4 (fld w 0 4)))
      | _ => .error .unassignedForm)
  | 1 => withReserved (fld w 5 2 == 0 && fld w 10 5 == 0) (match vTyOf (fld w 7 3) with
      | some t => accept (.vneg (BitVec.ofNat 5 (fld w 20 5)) (BitVec.ofNat 5 (fld w 15 5)) t (BitVec.ofNat 4 (fld w 0 4)))
      | _ => .error .unassignedForm)
  | _ => .error .unassignedForm

/-- Opcode 0x67: VDEF_DEFER, VDEF_REFILL, VDEF_COUNT (R59). -/
def decodeOp67 (w : Nat) : Except DecodeError Syl :=
  match fld w 4 2 with
  | 0 => withReserved (fld w 6 9 == 0 && fld w 24 1 == 0) (accept (.vdefDefer (BitVec.ofNat 4 (fld w 20 4)) (BitVec.ofNat 5 (fld w 15 5)) (BitVec.ofNat 4 (fld w 0 4))))
  | 1 => withReserved (fld w 6 14 == 0) (accept (.vdefRefill (BitVec.ofNat 5 (fld w 20 5)) (BitVec.ofNat 4 (fld w 0 4))))
  | 2 => withReserved (fld w 0 4 == 0 && fld w 6 14 == 0) (accept (.vdefCount (BitVec.ofNat 5 (fld w 20 5))))
  | _ => .error .unassignedForm

/-- Opcode 0x68: MCLAIM (R59). -/
def decodeOp68 (w : Nat) : Except DecodeError Syl :=
  withReserved (fld w 0 25 == 0) (accept .mclaim)

/-- Opcode 0x69: MREL (R59). -/
def decodeOp69 (w : Nat) : Except DecodeError Syl :=
  withReserved (fld w 0 25 == 0) (accept .mrel)

/-- Opcode 0x6a: MLOAD_A, MLOAD_B, MLOAD_BT (R59). -/
def decodeOp6A (w : Nat) : Except DecodeError Syl :=
  match fld w 7 2 with
  | 0 => withReserved (fld w 9 4 == 0) (match fClassOf (fld w 4 2) with
      | some c => accept (.mloadA (BitVec.ofNat 6 (fld w 19 6)) (BitVec.ofNat 6 (fld w 13 6)) (fld w 6 1 == 1) c (BitVec.ofNat 4 (fld w 0 4)))
      | _ => .error .unassignedForm)
  | 1 => withReserved (fld w 9 4 == 0) (match fClassOf (fld w 4 2) with
      | some c => accept (.mloadB (BitVec.ofNat 6 (fld w 19 6)) (BitVec.ofNat 6 (fld w 13 6)) (fld w 6 1 == 1) c (BitVec.ofNat 4 (fld w 0 4)))
      | _ => .error .unassignedForm)
  | 2 => withReserved (fld w 9 4 == 0) (match fClassOf (fld w 4 2) with
      | some c => accept (.mloadBt (BitVec.ofNat 6 (fld w 19 6)) (BitVec.ofNat 6 (fld w 13 6)) (fld w 6 1 == 1) c (BitVec.ofNat 4 (fld w 0 4)))
      | _ => .error .unassignedForm)
  | _ => .error .unassignedForm

/-- Opcode 0x6b: MMA, MMA_ACC (R59). -/
def decodeOp6B (w : Nat) : Except DecodeError Syl :=
  match fld w 8 1 with
  | 0 => withReserved (fld w 0 4 == 0 && fld w 9 4 == 0) (match fClassOf (fld w 4 2) with
      | some c => accept (.mma (BitVec.ofNat 6 (fld w 19 6)) (BitVec.ofNat 6 (fld w 13 6)) (fld w 7 1 == 1) (fld w 6 1 == 1) c)
      | _ => .error .unassignedForm)
  | 1 => withReserved (fld w 0 4 == 0 && fld w 9 4 == 0) (match fClassOf (fld w 4 2) with
      | some c => accept (.mmaAcc (BitVec.ofNat 6 (fld w 19 6)) (BitVec.ofNat 6 (fld w 13 6)) (fld w 7 1 == 1) (fld w 6 1 == 1) c)
      | _ => .error .unassignedForm)
  | _ => .error .unassignedForm

/-- Opcode 0x6c: MMAQ_F4, MMAQ_F4_ACC, MMAQ_I4, MMAQ_I4_ACC (R59). -/
def decodeOp6C (w : Nat) : Except DecodeError Syl :=
  match fld w 8 2 with
  | 0 => withReserved (fld w 4 2 == 0 && fld w 10 3 == 0) (accept (.mmaqF4 (BitVec.ofNat 6 (fld w 19 6)) (BitVec.ofNat 6 (fld w 13 6)) (fld w 7 1 == 1) (fld w 6 1 == 1) (BitVec.ofNat 4 (fld w 0 4))))
  | 1 => withReserved (fld w 4 2 == 0 && fld w 10 3 == 0) (accept (.mmaqF4Acc (BitVec.ofNat 6 (fld w 19 6)) (BitVec.ofNat 6 (fld w 13 6)) (fld w 7 1 == 1) (fld w 6 1 == 1) (BitVec.ofNat 4 (fld w 0 4))))
  | 2 => withReserved (fld w 4 2 == 0 && fld w 10 3 == 0) (accept (.mmaqI4 (BitVec.ofNat 6 (fld w 19 6)) (BitVec.ofNat 6 (fld w 13 6)) (fld w 7 1 == 1) (fld w 6 1 == 1) (BitVec.ofNat 4 (fld w 0 4))))
  | 3 => withReserved (fld w 4 2 == 0 && fld w 10 3 == 0) (accept (.mmaqI4Acc (BitVec.ofNat 6 (fld w 19 6)) (BitVec.ofNat 6 (fld w 13 6)) (fld w 7 1 == 1) (fld w 6 1 == 1) (BitVec.ofNat 4 (fld w 0 4))))
  | _ => .error .unassignedForm

/-- Opcode 0x6d: MDRAIN (R59). -/
def decodeOp6D (w : Nat) : Except DecodeError Syl :=
  withReserved (fld w 0 6 == 0 && fld w 8 17 == 0) (accept (.mdrain (fld w 7 1 == 1) (fld w 6 1 == 1)))

/-- Opcode 0x6e: MCFG (R59). -/
def decodeOp6E (w : Nat) : Except DecodeError Syl :=
  withReserved (fld w 0 19 == 0 && fld w 24 1 == 0) (match mPairOf (fld w 19 3) with
      | some p => accept (.mcfg (fld w 23 1 == 1) (fld w 22 1 == 1) p)
      | _ => .error .unassignedForm)

/-- Opcode 0x6f: MZERO (R59). -/
def decodeOp6F (w : Nat) : Except DecodeError Syl :=
  withReserved (fld w 0 7 == 0 && fld w 8 17 == 0) (accept (.mzero (fld w 7 1 == 1)))

/-- Opcode 0x70: SCLD_BLK, SCLD_BAND (R59). -/
def decodeOp70 (w : Nat) : Except DecodeError Syl :=
  match fld w 13 1 with
  | 0 => withReserved (fld w 0 4 == 0 && fld w 24 1 == 0) (accept (.scldBlk (BitVec.ofNat 4 (fld w 20 4)) (BitVec.ofNat 6 (fld w 14 6)) (BitVec.ofNat 9 (fld w 4 9))))
  | 1 => withReserved (fld w 0 4 == 0 && fld w 24 1 == 0) (accept (.scldBand (BitVec.ofNat 4 (fld w 20 4)) (BitVec.ofNat 6 (fld w 14 6)) (BitVec.ofNat 9 (fld w 4 9))))
  | _ => .error .unassignedForm

/-- Opcode 0x71: QCVT_F8, QCVT_DB4, QCVT_MX4, QCVT_UNP (R59). -/
def decodeOp71 (w : Nat) : Except DecodeError Syl :=
  match fld w 4 2 with
  | 0 => withReserved (fld w 6 1 == 0 && fld w 10 5 == 0) (match rModeOf (fld w 7 2) with
      | some r => accept (.qcvtF8 (BitVec.ofNat 5 (fld w 20 5)) (BitVec.ofNat 5 (fld w 15 5)) (fld w 9 1 == 1) r (BitVec.ofNat 4 (fld w 0 4)))
      | _ => .error .unassignedForm)
  | 1 => withReserved (fld w 6 1 == 0 && fld w 9 1 == 0 && fld w 14 1 == 0) (match rModeOf (fld w 7 2) with
      | some r => accept (.qcvtDb4 (BitVec.ofNat 5 (fld w 20 5)) (BitVec.ofNat 5 (fld w 15 5)) (BitVec.ofNat 4 (fld w 10 4)) r (BitVec.ofNat 4 (fld w 0 4)))
      | _ => .error .unassignedForm)
  | 2 => withReserved (fld w 6 1 == 0 && fld w 9 6 == 0) (match rModeOf (fld w 7 2) with
      | some r => accept (.qcvtMx4 (BitVec.ofNat 5 (fld w 20 5)) (BitVec.ofNat 5 (fld w 15 5)) r (BitVec.ofNat 4 (fld w 0 4)))
      | _ => .error .unassignedForm)
  | 3 => withReserved (fld w 6 3 == 0 && fld w 14 1 == 0) (accept (.qcvtUnp (BitVec.ofNat 5 (fld w 20 5)) (BitVec.ofNat 5 (fld w 15 5)) (BitVec.ofNat 4 (fld w 10 4)) (fld w 9 1 == 1) (BitVec.ofNat 4 (fld w 0 4))))
  | _ => .error .unassignedForm

/-- Opcode 0x72: RNDG_INT, RNDG_UNI (R59). -/
def decodeOp72 (w : Nat) : Except DecodeError Syl :=
  match fld w 4 1 with
  | 0 => withReserved (fld w 5 15 == 0) (accept (.rndgInt (BitVec.ofNat 5 (fld w 20 5)) (BitVec.ofNat 4 (fld w 0 4))))
  | 1 => withReserved (fld w 5 15 == 0) (accept (.rndgUni (BitVec.ofNat 5 (fld w 20 5)) (BitVec.ofNat 4 (fld w 0 4))))
  | _ => .error .unassignedForm

/-- Opcode 0x73: STATC (R59). -/
def decodeOp73 (w : Nat) : Except DecodeError Syl :=
  withReserved (fld w 4 16 == 0) (accept (.statc (BitVec.ofNat 5 (fld w 20 5)) (BitVec.ofNat 4 (fld w 0 4))))

/-- Opcode 0x74: SEND (R59). -/
def decodeOp74 (w : Nat) : Except DecodeError Syl :=
  withReserved (fld w 10 4 == 0) (accept (.send (BitVec.ofNat 6 (fld w 19 6)) (BitVec.ofNat 5 (fld w 14 5)) (BitVec.ofNat 6 (fld w 4 6)) (BitVec.ofNat 4 (fld w 0 4))))

/-- Opcode 0x75: RECV (R59). -/
def decodeOp75 (w : Nat) : Except DecodeError Syl :=
  withReserved (fld w 10 4 == 0) (accept (.recv (BitVec.ofNat 6 (fld w 19 6)) (BitVec.ofNat 5 (fld w 14 5)) (BitVec.ofNat 6 (fld w 4 6)) (BitVec.ofNat 4 (fld w 0 4))))

/-- Opcode 0x76: RADD_BF16, RADD_F32 (R59). -/
def decodeOp76 (w : Nat) : Except DecodeError Syl :=
  match fld w 10 1 with
  | 0 => withReserved (fld w 11 3 == 0) (accept (.raddBf16 (BitVec.ofNat 6 (fld w 19 6)) (BitVec.ofNat 5 (fld w 14 5)) (BitVec.ofNat 6 (fld w 4 6)) (BitVec.ofNat 4 (fld w 0 4))))
  | 1 => withReserved (fld w 11 3 == 0) (accept (.raddF32 (BitVec.ofNat 6 (fld w 19 6)) (BitVec.ofNat 5 (fld w 14 5)) (BitVec.ofNat 6 (fld w 4 6)) (BitVec.ofNat 4 (fld w 0 4))))
  | _ => .error .unassignedForm

/-- Opcode 0x77: CHWAIT (R59). -/
def decodeOp77 (w : Nat) : Except DecodeError Syl :=
  withReserved (fld w 0 4 == 0 && fld w 10 9 == 0) (.ok (.late (.chwait (BitVec.ofNat 6 (fld w 19 6)) (BitVec.ofNat 6 (fld w 4 6)))))

/-- Opcode 0x78: BARR, BARW (R59). -/
def decodeOp78 (w : Nat) : Except DecodeError Syl :=
  match fld w 12 1 with
  | 0 => withReserved (fld w 7 5 == 0 && fld w 13 6 == 0) (accept (.barr (BitVec.ofNat 6 (fld w 19 6)) (BitVec.ofNat 7 (fld w 0 7))))
  | 1 => withReserved (fld w 7 5 == 0 && fld w 13 6 == 0) (accept (.barw (BitVec.ofNat 6 (fld w 19 6)) (BitVec.ofNat 7 (fld w 0 7))))
  | _ => .error .unassignedForm

/-- Opcode 0x79: BARM (R59). -/
def decodeOp79 (w : Nat) : Except DecodeError Syl :=
  withReserved (fld w 7 6 == 0 && fld w 19 6 == 0) (accept (.barm (BitVec.ofNat 6 (fld w 13 6)) (BitVec.ofNat 7 (fld w 0 7))))

/-- Opcode 0x7a: FUSE, DECPL, REJN (R59). -/
def decodeOp7A (w : Nat) : Except DecodeError Syl :=
  match fld w 3 2 with
  | 0 => withReserved (fld w 0 3 == 0 && fld w 5 8 == 0) (accept (.fuse (BitVec.ofNat 6 (fld w 19 6)) (BitVec.ofNat 6 (fld w 13 6))))
  | 1 => withReserved (fld w 0 3 == 0 && fld w 5 20 == 0) (accept .decpl)
  | 2 => withReserved (fld w 0 3 == 0 && fld w 5 14 == 0) (.ok (.late (.rejn (BitVec.ofNat 6 (fld w 19 6)))))
  | _ => .error .unassignedForm

/-- Opcode 0x7b: WDOG (R59). -/
def decodeOp7B (w : Nat) : Except DecodeError Syl :=
  withReserved (fld w 0 13 == 0) (.ok (.late (.wdog (BitVec.ofNat 6 (fld w 19 6)) (BitVec.ofNat 6 (fld w 13 6)))))

/-- Opcode 0x7c: PROT, UNPROT (R59). -/
def decodeOp7C (w : Nat) : Except DecodeError Syl :=
  match fld w 19 1 with
  | 0 => withReserved (fld w 0 13 == 0 && fld w 20 5 == 0) (.ok (.late (.prot (BitVec.ofNat 6 (fld w 13 6)))))
  | 1 => withReserved (fld w 0 13 == 0 && fld w 20 5 == 0) (.ok (.late (.unprot (BitVec.ofNat 6 (fld w 13 6)))))
  | _ => .error .unassignedForm

/-- Opcode 0x7d: RPREP, RCOMM, RSTAT (R59). -/
def decodeOp7D (w : Nat) : Except DecodeError Syl :=
  match fld w 19 2 with
  | 0 => withReserved (fld w 0 7 == 0 && fld w 21 4 == 0) (.ok (.late (.rprep (BitVec.ofNat 6 (fld w 13 6)) (BitVec.ofNat 6 (fld w 7 6)))))
  | 1 => withReserved (fld w 0 7 == 0 && fld w 21 4 == 0) (.ok (.late (.rcomm (BitVec.ofNat 6 (fld w 13 6)) (BitVec.ofNat 6 (fld w 7 6)))))
  | 2 => withReserved (fld w 0 7 == 0 && fld w 21 4 == 0) (.ok (.late (.rstat (BitVec.ofNat 6 (fld w 13 6)) (BitVec.ofNat 6 (fld w 7 6)))))
  | _ => .error .unassignedForm

/-- Opcode 0x7e: NETPOST, NETWAIT (R59). -/
def decodeOp7E (w : Nat) : Except DecodeError Syl :=
  match fld w 19 1 with
  | 0 => withReserved (fld w 0 7 == 0 && fld w 20 5 == 0) (.ok (.late (.netpost (BitVec.ofNat 6 (fld w 13 6)) (BitVec.ofNat 6 (fld w 7 6)))))
  | 1 => withReserved (fld w 0 7 == 0 && fld w 20 5 == 0) (.ok (.late (.netwait (BitVec.ofNat 6 (fld w 13 6)) (BitVec.ofNat 6 (fld w 7 6)))))
  | _ => .error .unassignedForm

/-- The syllable of a 32-bit word (R57, R58, R59). -/
def decodeSyl (w : Nat) : Except DecodeError Syl :=
  match fld w 25 7 with
  | 1 => decodeOp01 w
  | 2 => decodeOp02 w
  | 3 => decodeOp03 w
  | 4 => decodeOp04 w
  | 5 => decodeOp05 w
  | 6 => decodeOp06 w
  | 7 => decodeOp07 w
  | 8 => decodeOp08 w
  | 9 => decodeOp09 w
  | 10 => decodeOp0A w
  | 11 => decodeOp0B w
  | 12 => decodeOp0C w
  | 13 => decodeOp0D w
  | 14 => decodeOp0E w
  | 15 => decodeOp0F w
  | 16 => decodeOp10 w
  | 17 => decodeOp11 w
  | 18 => decodeOp12 w
  | 19 => decodeOp13 w
  | 20 => decodeOp14 w
  | 21 => decodeOp15 w
  | 22 => decodeOp16 w
  | 23 => decodeOp17 w
  | 24 => decodeOp18 w
  | 25 => decodeOp19 w
  | 26 => decodeOp1A w
  | 27 => decodeOp1B w
  | 28 => decodeOp1C w
  | 29 => decodeOp1D w
  | 30 => decodeOp1E w
  | 31 => decodeOp1F w
  | 32 => decodeOp20 w
  | 33 => decodeOp21 w
  | 34 => decodeOp22 w
  | 35 => decodeOp23 w
  | 36 => decodeOp24 w
  | 37 => decodeOp25 w
  | 38 => decodeOp26 w
  | 39 => decodeOp27 w
  | 40 => decodeOp28 w
  | 41 => decodeOp29 w
  | 42 => decodeOp2A w
  | 43 => decodeOp2B w
  | 44 => decodeOp2C w
  | 45 => decodeOp2D w
  | 46 => decodeOp2E w
  | 47 => decodeOp2F w
  | 48 => decodeOp30 w
  | 49 => decodeOp31 w
  | 50 => decodeOp32 w
  | 51 => decodeOp33 w
  | 52 => decodeOp34 w
  | 53 => decodeOp35 w
  | 54 => decodeOp36 w
  | 55 => decodeOp37 w
  | 56 => decodeOp38 w
  | 57 => decodeOp39 w
  | 58 => decodeOp3A w
  | 59 => decodeOp3B w
  | 60 => decodeOp3C w
  | 61 => decodeOp3D w
  | 62 => decodeOp3E w
  | 63 => decodeOp3F w
  | 64 => decodeOp40 w
  | 65 => decodeOp41 w
  | 66 => decodeOp42 w
  | 67 => decodeOp43 w
  | 68 => decodeOp44 w
  | 69 => decodeOp45 w
  | 70 => decodeOp46 w
  | 71 => decodeOp47 w
  | 72 => decodeOp48 w
  | 73 => decodeOp49 w
  | 74 => decodeOp4A w
  | 75 => decodeOp4B w
  | 76 => decodeOp4C w
  | 77 => decodeOp4D w
  | 78 => decodeOp4E w
  | 79 => decodeOp4F w
  | 80 => decodeOp50 w
  | 81 => decodeOp51 w
  | 82 => decodeOp52 w
  | 83 => decodeOp53 w
  | 84 => decodeOp54 w
  | 85 => decodeOp55 w
  | 86 => decodeOp56 w
  | 87 => decodeOp57 w
  | 88 => decodeOp58 w
  | 89 => decodeOp59 w
  | 90 => decodeOp5A w
  | 91 => decodeOp5B w
  | 92 => decodeOp5C w
  | 93 => decodeOp5D w
  | 94 => decodeOp5E w
  | 95 => decodeOp5F w
  | 96 => decodeOp60 w
  | 97 => decodeOp61 w
  | 98 => decodeOp62 w
  | 99 => decodeOp63 w
  | 100 => decodeOp64 w
  | 101 => decodeOp65 w
  | 102 => decodeOp66 w
  | 103 => decodeOp67 w
  | 104 => decodeOp68 w
  | 105 => decodeOp69 w
  | 106 => decodeOp6A w
  | 107 => decodeOp6B w
  | 108 => decodeOp6C w
  | 109 => decodeOp6D w
  | 110 => decodeOp6E w
  | 111 => decodeOp6F w
  | 112 => decodeOp70 w
  | 113 => decodeOp71 w
  | 114 => decodeOp72 w
  | 115 => decodeOp73 w
  | 116 => decodeOp74 w
  | 117 => decodeOp75 w
  | 118 => decodeOp76 w
  | 119 => decodeOp77 w
  | 120 => decodeOp78 w
  | 121 => decodeOp79 w
  | 122 => decodeOp7A w
  | 123 => decodeOp7B w
  | 124 => decodeOp7C w
  | 125 => decodeOp7D w
  | 126 => decodeOp7E w
  | _ => .error .guardOpcode

/-- The instruction of a 32-bit word (R57, R58, R59). -/
noncomputable def decode (w : Nat) : Except DecodeError Instr :=
  match decodeSyl w with
  | .ok y => .ok y.toInstr
  | .error e => .error e

/-- Decoding of bytes: a syllable is four little-endian bytes (R4, R54). -/
noncomputable def decodeBytes (bs : List Byte) : Except DecodeError Instr :=
  if bs.length = 4 then decode (leNat bs) else .error .notAWord

/-- The word of a syllable; an event has none. -/
def encode : Instr → Option Nat
  | .add d a b q => some (33554432 + d.toNat * 524288 + a.toNat * 8192 + b.toNat * 128 + q.toNat)
  | .addW d a b q => some (33554440 + d.toNat * 524288 + a.toNat * 8192 + b.toNat * 128 + q.toNat)
  | .sub d a b q => some (67108864 + d.toNat * 524288 + a.toNat * 8192 + b.toNat * 128 + q.toNat)
  | .subW d a b q => some (67108872 + d.toNat * 524288 + a.toNat * 8192 + b.toNat * 128 + q.toNat)
  | .and d a b q => some (100663296 + d.toNat * 524288 + a.toNat * 8192 + b.toNat * 128 + q.toNat)
  | .andW d a b q => some (100663304 + d.toNat * 524288 + a.toNat * 8192 + b.toNat * 128 + q.toNat)
  | .or d a b q => some (134217728 + d.toNat * 524288 + a.toNat * 8192 + b.toNat * 128 + q.toNat)
  | .orW d a b q => some (134217736 + d.toNat * 524288 + a.toNat * 8192 + b.toNat * 128 + q.toNat)
  | .xor d a b q => some (167772160 + d.toNat * 524288 + a.toNat * 8192 + b.toNat * 128 + q.toNat)
  | .xorW d a b q => some (167772168 + d.toNat * 524288 + a.toNat * 8192 + b.toNat * 128 + q.toNat)
  | .shl d a b q => some (201326592 + d.toNat * 524288 + a.toNat * 8192 + b.toNat * 128 + q.toNat)
  | .shlW d a b q => some (201326600 + d.toNat * 524288 + a.toNat * 8192 + b.toNat * 128 + q.toNat)
  | .shr d a b q => some (234881024 + d.toNat * 524288 + a.toNat * 8192 + b.toNat * 128 + q.toNat)
  | .shrW d a b q => some (234881032 + d.toNat * 524288 + a.toNat * 8192 + b.toNat * 128 + q.toNat)
  | .sra d a b q => some (268435456 + d.toNat * 524288 + a.toNat * 8192 + b.toNat * 128 + q.toNat)
  | .sraW d a b q => some (268435464 + d.toNat * 524288 + a.toNat * 8192 + b.toNat * 128 + q.toNat)
  | .addi d a i => some (301989888 + d.toNat * 524288 + a.toNat * 8192 + i.toNat)
  | .andi d a i => some (335544320 + d.toNat * 524288 + a.toNat * 8192 + i.toNat)
  | .ori d a i => some (369098752 + d.toNat * 524288 + a.toNat * 8192 + i.toNat)
  | .xori d a i => some (402653184 + d.toNat * 524288 + a.toNat * 8192 + i.toNat)
  | .shli d a n => some (436207616 + d.toNat * 524288 + a.toNat * 8192 + n.toNat)
  | .shri d a n => some (436209664 + d.toNat * 524288 + a.toNat * 8192 + n.toNat)
  | .srai d a n => some (436211712 + d.toNat * 524288 + a.toNat * 8192 + n.toNat)
  | .lui d i => some (469762048 + d.toNat * 524288 + i.toNat)
  | .aub d i => some (503316480 + d.toNat * 524288 + i.toNat)
  | .mul d a b q => some (536870912 + d.toNat * 524288 + a.toNat * 8192 + b.toNat * 128 + q.toNat)
  | .mulh d a b q => some (536870920 + d.toNat * 524288 + a.toNat * 8192 + b.toNat * 128 + q.toNat)
  | .mulhu d a b q => some (536870928 + d.toNat * 524288 + a.toNat * 8192 + b.toNat * 128 + q.toNat)
  | .div d a b q => some (570425344 + d.toNat * 524288 + a.toNat * 8192 + b.toNat * 128 + q.toNat)
  | .divu d a b q => some (570425352 + d.toNat * 524288 + a.toNat * 8192 + b.toNat * 128 + q.toNat)
  | .rem d a b q => some (570425360 + d.toNat * 524288 + a.toNat * 8192 + b.toNat * 128 + q.toNat)
  | .remu d a b q => some (570425368 + d.toNat * 524288 + a.toNat * 8192 + b.toNat * 128 + q.toNat)
  | .min d a b q => some (603979776 + d.toNat * 524288 + a.toNat * 8192 + b.toNat * 128 + q.toNat)
  | .max d a b q => some (603979784 + d.toNat * 524288 + a.toNat * 8192 + b.toNat * 128 + q.toNat)
  | .minu d a b q => some (603979792 + d.toNat * 524288 + a.toNat * 8192 + b.toNat * 128 + q.toNat)
  | .maxu d a b q => some (603979800 + d.toNat * 524288 + a.toNat * 8192 + b.toNat * 128 + q.toNat)
  | .slt d a b q => some (637534208 + d.toNat * 524288 + a.toNat * 8192 + b.toNat * 128 + q.toNat)
  | .sltu d a b q => some (637534216 + d.toNat * 524288 + a.toNat * 8192 + b.toNat * 128 + q.toNat)
  | .seq d a b q => some (637534224 + d.toNat * 524288 + a.toNat * 8192 + b.toNat * 128 + q.toNat)
  | .sne d a b q => some (637534232 + d.toNat * 524288 + a.toNat * 8192 + b.toNat * 128 + q.toNat)
  | .slti d a i => some (671088640 + d.toNat * 524288 + a.toNat * 8192 + i.toNat)
  | .sltiu d a i => some (704643072 + d.toNat * 524288 + a.toNat * 8192 + i.toNat)
  | .sel d a b p q => some (738197504 + d.toNat * 524288 + a.toNat * 8192 + b.toNat * 128 + p.toNat * 8 + q.toNat)
  | .clz d a q => some (771751936 + d.toNat * 524288 + a.toNat * 8192 + q.toNat)
  | .ctz d a q => some (771751944 + d.toNat * 524288 + a.toNat * 8192 + q.toNat)
  | .popc d a q => some (771751952 + d.toNat * 524288 + a.toNat * 8192 + q.toNat)
  | .bfx d a b q => some (805306368 + d.toNat * 524288 + a.toNat * 8192 + b.toNat * 128 + q.toNat)
  | .bfxu d a b q => some (805306376 + d.toNat * 524288 + a.toNat * 8192 + b.toNat * 128 + q.toNat)
  | .bfi d a b q => some (805306384 + d.toNat * 524288 + a.toNat * 8192 + b.toNat * 128 + q.toNat)
  | .madd d a b q => some (838860800 + d.toNat * 524288 + a.toNat * 8192 + b.toNat * 128 + q.toNat)
  | .addsc d a b s q => some (872415232 + d.toNat * 524288 + a.toNat * 8192 + b.toNat * 128 + s.toNat * 8 + q.toNat)
  | .fadd d a b q => some (905969664 + d.toNat * 524288 + a.toNat * 8192 + b.toNat * 128 + q.toNat)
  | .fsub d a b q => some (905969672 + d.toNat * 524288 + a.toNat * 8192 + b.toNat * 128 + q.toNat)
  | .fmul d a b q => some (905969680 + d.toNat * 524288 + a.toNat * 8192 + b.toNat * 128 + q.toNat)
  | .fmin d a b q => some (905969688 + d.toNat * 524288 + a.toNat * 8192 + b.toNat * 128 + q.toNat)
  | .fmax d a b q => some (905969696 + d.toNat * 524288 + a.toNat * 8192 + b.toNat * 128 + q.toNat)
  | .feq d a b q => some (939524096 + d.toNat * 524288 + a.toNat * 8192 + b.toNat * 128 + q.toNat)
  | .flt d a b q => some (939524104 + d.toNat * 524288 + a.toNat * 8192 + b.toNat * 128 + q.toNat)
  | .fle d a b q => some (939524112 + d.toNat * 524288 + a.toNat * 8192 + b.toNat * 128 + q.toNat)
  | .fcvtFi d a q => some (973078528 + d.toNat * 524288 + a.toNat * 8192 + q.toNat)
  | .fcvtIf d a q => some (973078536 + d.toNat * 524288 + a.toNat * 8192 + q.toNat)
  | .fcvtFu d a q => some (973078544 + d.toNat * 524288 + a.toNat * 8192 + q.toNat)
  | .fcvtUf d a q => some (973078552 + d.toNat * 524288 + a.toNat * 8192 + q.toNat)
  | .setpEq p a b q => some (1006632960 + p.toNat * 524288 + a.toNat * 8192 + b.toNat * 128 + q.toNat)
  | .setpNe p a b q => some (1006632968 + p.toNat * 524288 + a.toNat * 8192 + b.toNat * 128 + q.toNat)
  | .setpLt p a b q => some (1006632976 + p.toNat * 524288 + a.toNat * 8192 + b.toNat * 128 + q.toNat)
  | .setpLtu p a b q => some (1006632984 + p.toNat * 524288 + a.toNat * 8192 + b.toNat * 128 + q.toNat)
  | .setpGe p a b q => some (1006632992 + p.toNat * 524288 + a.toNat * 8192 + b.toNat * 128 + q.toNat)
  | .setpGeu p a b q => some (1006633000 + p.toNat * 524288 + a.toNat * 8192 + b.toNat * 128 + q.toNat)
  | .pand p a b q => some (1040187392 + p.toNat * 524288 + a.toNat * 8192 + b.toNat * 128 + q.toNat)
  | .por p a b q => some (1040187400 + p.toNat * 524288 + a.toNat * 8192 + b.toNat * 128 + q.toNat)
  | .pxor p a b q => some (1040187408 + p.toNat * 524288 + a.toNat * 8192 + b.toNat * 128 + q.toNat)
  | .pnot p a q => some (1040187416 + p.toNat * 524288 + a.toNat * 8192 + q.toNat)
  | .pmov p a q => some (1040187424 + p.toNat * 524288 + a.toNat * 8192 + q.toNat)
  | .bra q o => some (1073741824 + q.toNat * 4194304 + o.toNat)
  | .call q o => some (1075838976 + q.toNat * 4194304 + o.toNat)
  | .jr a q => some (1107296256 + a.toNat * 8192 + q.toNat)
  | .jrl d a q => some (1107296264 + d.toNat * 524288 + a.toNat * 8192 + q.toNat)
  | .ret q => some (1107296272 + q.toNat)
  | .jtab d a b q => some (1140850688 + d.toNat * 524288 + a.toNat * 8192 + b.toNat * 128 + q.toNat)
  | .loop l a i => some (1174405120 + l.toNat * 524288 + a.toNat * 8192 + i.toNat)
  | .loopi l n i => some (1191182336 + l.toNat * 524288 + n.toNat * 8192 + i.toNat)
  | .loopsr a b l q => some (1207959552 + a.toNat * 8192 + b.toNat * 128 + l.toNat * 8 + q.toNat)
  | .rfence q => some (1241513984 + q.toNat)
  | .rfenceA a q => some (1241513992 + a.toNat * 8192 + q.toNat)
  | .idem => some (1275068416)
  | .suspYield q => some (1308622848 + q.toNat)
  | .suspPark a q => some (1308622856 + a.toNat * 8192 + q.toNat)
  | .suspExit q => some (1308622864 + q.toNat)
  | .mfs d s => some (1342177280 + d.toNat * 524288 + s.toNat)
  | .mts a s => some (1375731712 + a.toNat * 8192 + s.toNat)
  | .trap c => some (1409286144 + c.toNat)
  | .trapNz a c => some (1409810432 + a.toNat * 8192 + c.toNat)
  | .tret => some (1442840576)
  | .snapst a => some (1476395008 + a.toNat * 8192)
  | .snapld a => some (1476919296 + a.toNat * 8192)
  | .snaprel => some (1509949440)
  | .brk c => some (1543503872 + c.toNat)
  | .launch a r => some (1577058304 + a.toNat * 8192 + r.toNat)
  | .cancel a l => some (1577582592 + a.toNat * 8192 + cLevelCode l)
  | .ld d a z o => some (1610612736 + d.toNat * 524288 + a.toNat * 8192 + mSizeCode z * 1024 + o.toNat)
  | .st s a z o => some (1644167168 + s.toNat * 524288 + a.toNat * 8192 + mSizeCode z * 1024 + o.toNat)
  | .ldv d a o p => some (1677721600 + d.toNat * 1048576 + a.toNat * 16384 + o.toNat * 16 + p.toNat)
  | .ldvS d a s p => some (1677725696 + d.toNat * 1048576 + a.toNat * 16384 + s.toNat * 16 + p.toNat)
  | .ldvB d a o p => some (1677729792 + d.toNat * 1048576 + a.toNat * 16384 + o.toNat * 16 + p.toNat)
  | .stv v a o p => some (1711276032 + v.toNat * 1048576 + a.toNat * 16384 + o.toNat * 16 + p.toNat)
  | .stvS v a s p => some (1711280128 + v.toNat * 1048576 + a.toNat * 16384 + s.toNat * 16 + p.toNat)
  | .gath d a b t p => some (1744830464 + d.toNat * 1048576 + a.toNat * 32768 + b.toNat * 1024 + vTyCode t * 128 + p.toNat)
  | .scat s a b t p => some (1744830480 + s.toNat * 1048576 + a.toNat * 32768 + b.toNat * 1024 + vTyCode t * 128 + p.toNat)
  | .ldg d a z o => some (1778384896 + d.toNat * 524288 + a.toNat * 8192 + mSizeCode z * 1024 + o.toNat)
  | .stg s a z o => some (1778385408 + s.toNat * 524288 + a.toNat * 8192 + mSizeCode z * 1024 + o.toNat)
  | .ldgv d a o p => some (1811939328 + d.toNat * 1048576 + a.toNat * 16384 + o.toNat * 16 + p.toNat)
  | .stgv s a o p => some (1811947520 + s.toNat * 1048576 + a.toNat * 16384 + o.toNat * 16 + p.toNat)
  | .ldc d a z o => some (1845493760 + d.toNat * 524288 + a.toNat * 8192 + mSizeCode z * 1024 + o.toNat)
  | .tlook d a q => some (1879048192 + d.toNat * 524288 + a.toNat * 8192 + q.toNat)
  | .tfill a b q => some (1912602624 + a.toNat * 8192 + b.toNat * 128 + q.toNat)
  | .tevict a q => some (1912602632 + a.toNat * 8192 + q.toNat)
  | .tinv a q => some (1912602640 + a.toNat * 8192 + q.toNat)
  | .tlock d a q => some (1946157056 + d.toNat * 524288 + a.toNat * 8192 + q.toNat)
  | .tunlock d a q => some (1946157064 + d.toNat * 524288 + a.toNat * 8192 + q.toNat)
  | .hwait h n => some (1979711488 + h.toNat * 524288 + n.toNat)
  | .hwaitf h n => some (1996488704 + h.toNat * 524288 + n.toNat)
  | .hadvp h n => some (2013265920 + h.toNat * 524288 + n.toNat)
  | .hadvc h n => some (2030043136 + h.toNat * 524288 + n.toNat)
  | .hset h a b q => some (2046820352 + h.toNat * 524288 + a.toNat * 8192 + b.toNat * 128 + q.toNat)
  | .footr g y a b q => some (2080374784 + bitCode g * 16777216 + bitCode y * 524288 + a.toNat * 8192 + b.toNat * 128 + q.toNat)
  | .footw g y a b q => some (2080374792 + bitCode g * 16777216 + bitCode y * 524288 + a.toNat * 8192 + b.toNat * 128 + q.toNat)
  | .footclr y q => some (2080374800 + bitCode y * 524288 + q.toNat)
  | .spfence q => some (2113929216 + q.toNat)
  | .acq d a s q => some (2147483648 + d.toNat * 524288 + a.toNat * 8192 + scopeCode s * 8 + q.toNat)
  | .rel d a s q => some (2181038080 + d.toNat * 524288 + a.toNat * 8192 + scopeCode s * 8 + q.toNat)
  | .fence s q => some (2214592512 + scopeCode s * 8 + q.toNat)
  | .amoAdd d a b s => some (2248146944 + d.toNat * 524288 + a.toNat * 8192 + b.toNat * 128 + s.toNat)
  | .amoAnd d a b s => some (2248146952 + d.toNat * 524288 + a.toNat * 8192 + b.toNat * 128 + s.toNat)
  | .amoOr d a b s => some (2248146960 + d.toNat * 524288 + a.toNat * 8192 + b.toNat * 128 + s.toNat)
  | .amoXor d a b s => some (2248146968 + d.toNat * 524288 + a.toNat * 8192 + b.toNat * 128 + s.toNat)
  | .amoMin d a b s => some (2248146976 + d.toNat * 524288 + a.toNat * 8192 + b.toNat * 128 + s.toNat)
  | .amoMax d a b s => some (2248146984 + d.toNat * 524288 + a.toNat * 8192 + b.toNat * 128 + s.toNat)
  | .amoMinu d a b s => some (2248146992 + d.toNat * 524288 + a.toNat * 8192 + b.toNat * 128 + s.toNat)
  | .amoMaxu d a b s => some (2248147000 + d.toNat * 524288 + a.toNat * 8192 + b.toNat * 128 + s.toNat)
  | .amoSwap d a b s => some (2248147008 + d.toNat * 524288 + a.toNat * 8192 + b.toNat * 128 + s.toNat)
  | .amoFadd d a b s => some (2248147016 + d.toNat * 524288 + a.toNat * 8192 + b.toNat * 128 + s.toNat)
  | .cas d a b s => some (2281701376 + d.toNat * 524288 + a.toNat * 8192 + b.toNat * 128 + s.toNat)
  | .logcmp d a q => some (2315255808 + d.toNat * 524288 + a.toNat * 8192 + q.toNat)
  | .logmark d q => some (2348810240 + d.toNat * 524288 + q.toNat)
  | .logtrunc d a q => some (2348810248 + d.toNat * 524288 + a.toNat * 8192 + q.toNat)
  | .sstepDie q => some (2382364704 + q.toNat)
  | .sstepPackage q => some (2382364712 + q.toNat)
  | .gset k r a f => some (2415919104 + bitCode k * 16777216 + r.toNat * 4194304 + a.toNat * 8192 + f.toNat)
  | .gswap k m => some (2449473536 + bitCode k * 16777216 + m.toNat * 524288)
  | .cpyHs g a b w c h => some (2483027968 + g.toNat * 2097152 + a.toNat * 8192 + b.toNat * 128 + bitCode w * 64 + cWidthCode c * 16 + h.toNat)
  | .cpySh g a b w c h => some (2483552256 + g.toNat * 2097152 + a.toNat * 8192 + b.toNat * 128 + bitCode w * 64 + cWidthCode c * 16 + h.toNat)
  | .cpySs g a b w c h => some (2484076544 + g.toNat * 2097152 + a.toNat * 8192 + b.toNat * 128 + bitCode w * 64 + cWidthCode c * 16 + h.toNat)
  | .cpyRm g a b w c => some (2484600832 + g.toNat * 2097152 + a.toNat * 8192 + b.toNat * 128 + bitCode w * 64 + cWidthCode c * 16)
  | .cpyrHs a b w c h => some (2516582400 + a.toNat * 8192 + b.toNat * 128 + bitCode w * 64 + cWidthCode c * 16 + h.toNat)
  | .cpyrSh a b w c h => some (2517106688 + a.toNat * 8192 + b.toNat * 128 + bitCode w * 64 + cWidthCode c * 16 + h.toNat)
  | .cpyrSs a b w c h => some (2517630976 + a.toNat * 8192 + b.toNat * 128 + bitCode w * 64 + cWidthCode c * 16 + h.toNat)
  | .cpyrRm a b w c => some (2518155264 + a.toNat * 8192 + b.toNat * 128 + bitCode w * 64 + cWidthCode c * 16)
  | .cpyw h => some (2550136832 + h.toNat)
  | .engw a b => some (2583691264 + a.toNat * 8192 + b.toNat * 128)
  | .engr a b => some (2584215552 + a.toNat * 8192 + b.toNat * 128)
  | .tseq a => some (2617245696 + a.toNat * 8192)
  | .ccadd a b => some (2650800128 + a.toNat * 8192 + b.toNat * 128)
  | .ccwait a b => some (2651324416 + a.toNat * 8192 + b.toNat * 128)
  | .vadd d a b t p => some (2684354560 + d.toNat * 1048576 + a.toNat * 32768 + b.toNat * 1024 + vTyCode t * 128 + p.toNat)
  | .vsub d a b t p => some (2717908992 + d.toNat * 1048576 + a.toNat * 32768 + b.toNat * 1024 + vTyCode t * 128 + p.toNat)
  | .vmul d a b t p => some (2751463424 + d.toNat * 1048576 + a.toNat * 32768 + b.toNat * 1024 + vTyCode t * 128 + p.toNat)
  | .vminmaxMin d a b t p => some (2785017856 + d.toNat * 1048576 + a.toNat * 32768 + b.toNat * 1024 + vTyCode t * 128 + p.toNat)
  | .vminmaxMax d a b t p => some (2785017872 + d.toNat * 1048576 + a.toNat * 32768 + b.toNat * 1024 + vTyCode t * 128 + p.toNat)
  | .vfma d a b c y p => some (2818572288 + d.toNat * 1048576 + a.toNat * 32768 + b.toNat * 1024 + c.toNat * 32 + bitCode y * 16 + p.toNat)
  | .vfms d a b c y p => some (2852126720 + d.toNat * 1048576 + a.toNat * 32768 + b.toNat * 1024 + c.toNat * 32 + bitCode y * 16 + p.toNat)
  | .vfnma d a b c y p => some (2885681152 + d.toNat * 1048576 + a.toNat * 32768 + b.toNat * 1024 + c.toNat * 32 + bitCode y * 16 + p.toNat)
  | .vlogicAnd d a b t p => some (2919235584 + d.toNat * 1048576 + a.toNat * 32768 + b.toNat * 1024 + vTyCode t * 128 + p.toNat)
  | .vlogicOr d a b t p => some (2919235600 + d.toNat * 1048576 + a.toNat * 32768 + b.toNat * 1024 + vTyCode t * 128 + p.toNat)
  | .vlogicXor d a b t p => some (2919235616 + d.toNat * 1048576 + a.toNat * 32768 + b.toNat * 1024 + vTyCode t * 128 + p.toNat)
  | .vlogicAndn d a b t p => some (2919235632 + d.toNat * 1048576 + a.toNat * 32768 + b.toNat * 1024 + vTyCode t * 128 + p.toNat)
  | .vlogicNot d a t p => some (2919235648 + d.toNat * 1048576 + a.toNat * 32768 + vTyCode t * 128 + p.toNat)
  | .vshiftShl d a b t p => some (2952790016 + d.toNat * 1048576 + a.toNat * 32768 + b.toNat * 1024 + vTyCode t * 128 + p.toNat)
  | .vshiftShr d a b t p => some (2952790032 + d.toNat * 1048576 + a.toNat * 32768 + b.toNat * 1024 + vTyCode t * 128 + p.toNat)
  | .vshiftSra d a b t p => some (2952790048 + d.toNat * 1048576 + a.toNat * 32768 + b.toNat * 1024 + vTyCode t * 128 + p.toNat)
  | .vcmpEq p a b t g => some (2986344448 + p.toNat * 1048576 + a.toNat * 32768 + b.toNat * 1024 + vTyCode t * 128 + g.toNat)
  | .vcmpNe p a b t g => some (2986344464 + p.toNat * 1048576 + a.toNat * 32768 + b.toNat * 1024 + vTyCode t * 128 + g.toNat)
  | .vcmpLt p a b t g => some (2986344480 + p.toNat * 1048576 + a.toNat * 32768 + b.toNat * 1024 + vTyCode t * 128 + g.toNat)
  | .vcmpLe p a b t g => some (2986344496 + p.toNat * 1048576 + a.toNat * 32768 + b.toNat * 1024 + vTyCode t * 128 + g.toNat)
  | .vcmpGt p a b t g => some (2986344512 + p.toNat * 1048576 + a.toNat * 32768 + b.toNat * 1024 + vTyCode t * 128 + g.toNat)
  | .vcmpGe p a b t g => some (2986344528 + p.toNat * 1048576 + a.toNat * 32768 + b.toNat * 1024 + vTyCode t * 128 + g.toNat)
  | .vsel d a b p => some (3019898880 + d.toNat * 1048576 + a.toNat * 32768 + b.toNat * 1024 + p.toNat)
  | .vcvt d a r s u p => some (3053453312 + d.toNat * 1048576 + a.toNat * 32768 + rModeCode r * 1024 + vTyCode s * 128 + vTyCode u * 16 + p.toNat)
  | .vredAdd d a t p => some (3087007744 + d.toNat * 1048576 + a.toNat * 32768 + vTyCode t * 128 + p.toNat)
  | .vredMax d a t p => some (3087007760 + d.toNat * 1048576 + a.toNat * 32768 + vTyCode t * 128 + p.toNat)
  | .vredMin d a t p => some (3087007776 + d.toNat * 1048576 + a.toNat * 32768 + vTyCode t * 128 + p.toNat)
  | .vscan d a t p => some (3120562176 + d.toNat * 1048576 + a.toNat * 32768 + vTyCode t * 128 + p.toNat)
  | .vpermIdx d a b p => some (3154116608 + d.toNat * 1048576 + a.toNat * 32768 + b.toNat * 1024 + p.toNat)
  | .vpermRot d a b p => some (3154116624 + d.toNat * 1048576 + a.toNat * 32768 + b.toNat * 1024 + p.toNat)
  | .vpermPsh d a b p => some (3154116640 + d.toNat * 1048576 + a.toNat * 32768 + b.toNat * 1024 + p.toNat)
  | .vbcast d a t p => some (3187671040 + d.toNat * 1048576 + a.toNat * 32768 + vTyCode t * 128 + p.toNat)
  | .vext d a b t => some (3187671056 + d.toNat * 1048576 + a.toNat * 32768 + b.toNat * 1024 + vTyCode t * 128)
  | .vtransRcp d a p => some (3221225472 + d.toNat * 1048576 + a.toNat * 32768 + p.toNat)
  | .vtransRsq d a p => some (3221225488 + d.toNat * 1048576 + a.toNat * 32768 + p.toNat)
  | .vtransExp2 d a p => some (3221225504 + d.toNat * 1048576 + a.toNat * 32768 + p.toNat)
  | .vtransLog2 d a p => some (3221225520 + d.toNat * 1048576 + a.toNat * 32768 + p.toNat)
  | .vtransTanh d a p => some (3221225536 + d.toNat * 1048576 + a.toNat * 32768 + p.toNat)
  | .vtransSin d a p => some (3221225552 + d.toNat * 1048576 + a.toNat * 32768 + p.toNat)
  | .vtransCos d a p => some (3221225568 + d.toNat * 1048576 + a.toNat * 32768 + p.toNat)
  | .vtransSqrt d a p => some (3221225584 + d.toNat * 1048576 + a.toNat * 32768 + p.toNat)
  | .vdiv d a b t p => some (3254779904 + d.toNat * 1048576 + a.toNat * 32768 + b.toNat * 1024 + vTyCode t * 128 + p.toNat)
  | .vrow d p => some (3288334336 + d.toNat * 1048576 + p.toNat)
  | .viota d t p => some (3321888768 + d.toNat * 1048576 + vTyCode t * 128 + p.toNat)
  | .vmaskPopc d s p => some (3355443200 + d.toNat * 1048576 + s.toNat * 32768 + p.toNat)
  | .vmaskCompress d a p => some (3355443216 + d.toNat * 1048576 + a.toNat * 32768 + p.toNat)
  | .vmaskExpand d a p => some (3355443232 + d.toNat * 1048576 + a.toNat * 32768 + p.toNat)
  | .vmaskFirst d s p => some (3355443248 + d.toNat * 1048576 + s.toNat * 32768 + p.toNat)
  | .vbnd p a t g => some (3388997632 + p.toNat * 1048576 + a.toNat * 32768 + vTyCode t * 128 + g.toNat)
  | .vabs d a t p => some (3422552064 + d.toNat * 1048576 + a.toNat * 32768 + vTyCode t * 128 + p.toNat)
  | .vneg d a t p => some (3422552080 + d.toNat * 1048576 + a.toNat * 32768 + vTyCode t * 128 + p.toNat)
  | .vdefDefer p a g => some (3456106496 + p.toNat * 1048576 + a.toNat * 32768 + g.toNat)
  | .vdefRefill d p => some (3456106512 + d.toNat * 1048576 + p.toNat)
  | .vdefCount d => some (3456106528 + d.toNat * 1048576)
  | .mclaim => some (3489660928)
  | .mrel => some (3523215360)
  | .mloadA s a w c h => some (3556769792 + s.toNat * 524288 + a.toNat * 8192 + bitCode w * 64 + fClassCode c * 16 + h.toNat)
  | .mloadB s a w c h => some (3556769920 + s.toNat * 524288 + a.toNat * 8192 + bitCode w * 64 + fClassCode c * 16 + h.toNat)
  | .mloadBt s a w c h => some (3556770048 + s.toNat * 524288 + a.toNat * 8192 + bitCode w * 64 + fClassCode c * 16 + h.toNat)
  | .mma s b l w c => some (3590324224 + s.toNat * 524288 + b.toNat * 8192 + bitCode l * 128 + bitCode w * 64 + fClassCode c * 16)
  | .mmaAcc s b l w c => some (3590324480 + s.toNat * 524288 + b.toNat * 8192 + bitCode l * 128 + bitCode w * 64 + fClassCode c * 16)
  | .mmaqF4 s b l w c => some (3623878656 + s.toNat * 524288 + b.toNat * 8192 + bitCode l * 128 + bitCode w * 64 + c.toNat)
  | .mmaqF4Acc s b l w c => some (3623878912 + s.toNat * 524288 + b.toNat * 8192 + bitCode l * 128 + bitCode w * 64 + c.toNat)
  | .mmaqI4 s b l w c => some (3623879168 + s.toNat * 524288 + b.toNat * 8192 + bitCode l * 128 + bitCode w * 64 + c.toNat)
  | .mmaqI4Acc s b l w c => some (3623879424 + s.toNat * 524288 + b.toNat * 8192 + bitCode l * 128 + bitCode w * 64 + c.toNat)
  | .mdrain l w => some (3657433088 + bitCode l * 128 + bitCode w * 64)
  | .mcfg b a p => some (3690987520 + bitCode b * 8388608 + bitCode a * 4194304 + mPairCode p * 524288)
  | .mzero l => some (3724541952 + bitCode l * 128)
  | .scldBlk s a o => some (3758096384 + s.toNat * 1048576 + a.toNat * 16384 + o.toNat * 16)
  | .scldBand s a o => some (3758104576 + s.toNat * 1048576 + a.toNat * 16384 + o.toNat * 16)
  | .qcvtF8 d a k r p => some (3791650816 + d.toNat * 1048576 + a.toNat * 32768 + bitCode k * 512 + rModeCode r * 128 + p.toNat)
  | .qcvtDb4 d a s r p => some (3791650832 + d.toNat * 1048576 + a.toNat * 32768 + s.toNat * 1024 + rModeCode r * 128 + p.toNat)
  | .qcvtMx4 d a r p => some (3791650848 + d.toNat * 1048576 + a.toNat * 32768 + rModeCode r * 128 + p.toNat)
  | .qcvtUnp d a s k p => some (3791650864 + d.toNat * 1048576 + a.toNat * 32768 + s.toNat * 1024 + bitCode k * 512 + p.toNat)
  | .rndgInt d p => some (3825205248 + d.toNat * 1048576 + p.toNat)
  | .rndgUni d p => some (3825205264 + d.toNat * 1048576 + p.toNat)
  | .statc d p => some (3858759680 + d.toNat * 1048576 + p.toNat)
  | .send c v l p => some (3892314112 + c.toNat * 524288 + v.toNat * 16384 + l.toNat * 16 + p.toNat)
  | .recv c v l p => some (3925868544 + c.toNat * 524288 + v.toNat * 16384 + l.toNat * 16 + p.toNat)
  | .raddBf16 c v l p => some (3959422976 + c.toNat * 524288 + v.toNat * 16384 + l.toNat * 16 + p.toNat)
  | .raddF32 c v l p => some (3959424000 + c.toNat * 524288 + v.toNat * 16384 + l.toNat * 16 + p.toNat)
  | .chwait c n => some (3992977408 + c.toNat * 524288 + n.toNat * 16)
  | .barr d g => some (4026531840 + d.toNat * 524288 + g.toNat)
  | .barw d g => some (4026535936 + d.toNat * 524288 + g.toNat)
  | .barm a g => some (4060086272 + a.toNat * 8192 + g.toNat)
  | .fuse d a => some (4093640704 + d.toNat * 524288 + a.toNat * 8192)
  | .decpl => some (4093640712)
  | .rejn d => some (4093640720 + d.toNat * 524288)
  | .wdog d a => some (4127195136 + d.toNat * 524288 + a.toNat * 8192)
  | .prot a => some (4160749568 + a.toNat * 8192)
  | .unprot a => some (4161273856 + a.toNat * 8192)
  | .rprep a b => some (4194304000 + a.toNat * 8192 + b.toNat * 128)
  | .rcomm a b => some (4194828288 + a.toNat * 8192 + b.toNat * 128)
  | .rstat a b => some (4195352576 + a.toNat * 8192 + b.toNat * 128)
  | .netpost a b => some (4227858432 + a.toNat * 8192 + b.toNat * 128)
  | .netwait a b => some (4228382720 + a.toNat * 8192 + b.toNat * 128)
  | .emptyBundle _ => none
  | .bindTask _ _ _ => none
  | .preemptTake _ => none
  | .sliceExpire _ => none
  | .watchdogExpire _ => none
  | .remoteReply _ _ _ => none
  | .loadArrive _ _ => none
  | .recordCacheFill _ _ => none
  | .segmentExpand _ _ => none
  | .snapstWrite _ => none
  | .snapldFill _ => none
  | .logfullTimeout _ => none
  | .resurfacerCompact _ _ => none
  | .syncOpComplete _ _ => none
  | .sstepRelease _ _ _ => none
  | .ringPubWaitEnd _ => none
  | .mxCommandStart _ => none
  | .mxCommandEnd _ => none
  | .drainRow _ => none
  | .copyJobStart _ => none
  | .copyJobEnd _ => none
  | .copyJobFail _ _ => none
  | .channelOpen _ _ => none
  | .channelClose _ _ => none
  | .channelPair _ _ _ _ => none
  | .channelRouteTimeout _ _ => none
  | .channelElementArrive _ _ _ => none
  | .channelCreditReturn _ _ => none
  | .barrierArrival _ _ => none
  | .barmApply _ _ _ => none
  | .spireMirrorUpdate _ _ _ => none
  | .fuseTimeout _ => none
  | .ringPollVisit => none
  | .launchComplete _ => none
  | .graphNodeActivate _ _ => none
  | .phaseStart _ => none
  | .jobSubmit _ _ _ => none
  | .unitCancel _ _ _ => none
  | .fltqPop _ _ => none
  | .tlbInvalidate _ _ _ => none
  | .pageDone _ _ _ => none
  | .ptrootWrite _ _ => none
  | .awaWrite _ _ _ _ => none
  | .registerWrite _ _ _ => none
  | .journalMirrorWrite _ => none
  | .jidxWrite _ _ => none
  | .dbgctlWrite _ _ => none
  | .devnumSet _ => none
  | .powerOnReset _ => none
  | .hostLinkUp => none
  | .stageAdvanceCompute _ => none
  | .stageAdvanceFabric => none
  | .stageAdvanceGroup => none
  | .stageAdvanceTimeout => none
  | .thermalCut => none
  | .thermalThrottle _ => none
  | .dieLinkFail _ _ => none
  | .owncasClaim _ _ => none
  | .ownhandWrite _ _ => none
  | .ownbeatRenew _ => none
  | .leaseLapse => none
  | .retireTrigger _ _ => none
  | .autoRetireTrigger _ => none
  | .reloclistGo _ _ => none
  | .relocGranuleCopy => none
  | .sweepGranuleMove => none
  | .travlossZeroFill _ => none
  | .travlossReread _ => none
  | .memRequest _ => none
  | .rfmHoldEnd _ _ => none
  | .periodicRefresh _ _ => none
  | .refreshWindowClear _ => none
  | .frameReceive _ _ _ => none
  | .streamAckTimeout _ _ => none
  | .streamProbe _ _ _ => none
  | .sessionSetup _ => none
  | .sessionUp _ _ _ _ => none
  | .sessionLivenessTimeout _ => none
  | .keyUpdate _ => none
  | .acceptWrite _ _ _ _ => none
  | .portLock _ _ => none
  | .portRun _ _ => none
  | .portUnlock _ _ => none
  | .portOpticalFault _ => none
  | .portMeasCheck _ _ => none
  | .reachAdvert _ _ => none
  | .rerouteTimeout _ _ => none
  | .remoteRequest _ _ => none
  | .roamMoveRequest _ _ _ _ => none
  | .roamCopyEnd _ _ _ => none
  | .migwinWrite _ => none
  | .reduceContribution _ _ _ _ _ _ _ => none
  | .reduceFlush _ _ _ => none
  | .lapStepStart _ => none
  | .lapStepEnd _ _ => none
  | .netRingPoll _ => none
  | .msgPacketReceive _ => none
  | .sackSend _ => none
  | .sackReceive _ _ => none
  | .rtoExpire _ => none
  | .groupJoin _ _ => none
  | .groupForm _ _ => none
  | .groupFormTimeout _ => none
  | .groupLeave _ _ => none
  | .rebuildStart _ => none
  | .rebuildResume _ _ => none
  | .deltaReceive _ _ => none
  | .deltaAckReceive _ _ => none
  | .preparedReceive _ _ _ _ => none
  | .decisionReceive _ _ => none
  | .memberDeadTimeout _ _ _ => none
  | .rebuildShareReceive _ _ => none
  | .debuggerContinue _ => none
  | .debuggerAttach _ => none
  | .standbySupplyLoss => none
  | .ueportLinkChange _ _ => none
  | .packetErrorAnswer _ _ => none
  | .tlbinvComplete _ => none

/-- Slots 0 to 7 are S0, S1, LS, V0, V1, MX, AX, CM (R40). Does the class of the opcode admit the slot (R57)? -/
def slotAdmits (op slot : Nat) : Bool :=
  if 0x01 ≤ op ∧ op ≤ 0x1F then decide (slot = 0 ∨ slot = 1)
  else if (0x20 ≤ op ∧ op ≤ 0x2F) ∨ (0x78 ≤ op ∧ op ≤ 0x7B) then decide (slot = 0)
  else if (0x48 ≤ op ∧ op ≤ 0x4F) ∨ (0x7C ≤ op ∧ op ≤ 0x7E) then decide (slot = 1)
  else if 0x30 ≤ op ∧ op ≤ 0x47 then decide (slot = 2)
  else if 0x50 ≤ op ∧ op ≤ 0x67 then decide (slot = 3 ∨ slot = 4)
  else if 0x68 ≤ op ∧ op ≤ 0x6F then decide (slot = 5)
  else if 0x70 ≤ op ∧ op ≤ 0x73 then decide (slot = 6)
  else if 0x74 ≤ op ∧ op ≤ 0x77 then decide (slot = 7)
  else false

/-- The lowest slot that the opcode's class admits; none for the guard opcodes. -/
def firstSlot (op : Nat) : Option Nat :=
  [0, 1, 2, 3, 4, 5, 6, 7].find? (slotAdmits op)

/-- The instruction that the decoder reads from a row of the opcode table: every row with an encoding is one 32-bit word,
laid out as four little-endian bytes. -/
noncomputable def decodeTableWord (nbits w : Nat) : Option Instr :=
  if nbits = 32 then
    match decodeBytes (leBytes 4 w) with
    | .ok i => some i
    | .error _ => none
  else none

end Sys2Proof
end

