-- ==== Sys2Proof/Machine/Uses.lean ====
section
/-! DEFINITION. What a syllable's encoding says of it: the registers it writes and reads, its scalar predicate, and whether it ends a region,
can page-fault, or can stall issue (spec 01_task.md R19 to R21, R28; 02_encoding.md R55; 05_vector.md R135). -/

namespace Sys2Proof.Machine

/-- A register that a syllable names (R19, R21); shape registers gm0-gm3 are 0-3, gy0-gy3 are 4-7. -/
inductive RegName where
  | x (n : Nat)
  | p (n : Nat)
  | v (n : Nat)
  | sc (n : Nat)
  | h (n : Nat)
  | shape (k : Nat)
  deriving DecidableEq, Repr

/-- The shape registers that a swap exchanges. -/
def shapeDests (gy : Bool) (m : BitVec 4) : List RegName :=
  ((List.range 4).filter fun i => m.getLsbD i).map fun i => .shape (gy.toNat * 4 + i)

/-- The destination registers of an instruction, implicit ones included (R21). -/
def instrDests : Instr → List RegName
  | .add d _ _ _ => [.x d.toNat]
  | .addW d _ _ _ => [.x d.toNat]
  | .sub d _ _ _ => [.x d.toNat]
  | .subW d _ _ _ => [.x d.toNat]
  | .and d _ _ _ => [.x d.toNat]
  | .andW d _ _ _ => [.x d.toNat]
  | .or d _ _ _ => [.x d.toNat]
  | .orW d _ _ _ => [.x d.toNat]
  | .xor d _ _ _ => [.x d.toNat]
  | .xorW d _ _ _ => [.x d.toNat]
  | .shl d _ _ _ => [.x d.toNat]
  | .shlW d _ _ _ => [.x d.toNat]
  | .shr d _ _ _ => [.x d.toNat]
  | .shrW d _ _ _ => [.x d.toNat]
  | .sra d _ _ _ => [.x d.toNat]
  | .sraW d _ _ _ => [.x d.toNat]
  | .addi d _ _ => [.x d.toNat]
  | .andi d _ _ => [.x d.toNat]
  | .ori d _ _ => [.x d.toNat]
  | .xori d _ _ => [.x d.toNat]
  | .shli d _ _ => [.x d.toNat]
  | .shri d _ _ => [.x d.toNat]
  | .srai d _ _ => [.x d.toNat]
  | .lui d _ => [.x d.toNat]
  | .aub d _ => [.x d.toNat]
  | .mul d _ _ _ => [.x d.toNat]
  | .mulh d _ _ _ => [.x d.toNat]
  | .mulhu d _ _ _ => [.x d.toNat]
  | .div d _ _ _ => [.x d.toNat]
  | .divu d _ _ _ => [.x d.toNat]
  | .rem d _ _ _ => [.x d.toNat]
  | .remu d _ _ _ => [.x d.toNat]
  | .min d _ _ _ => [.x d.toNat]
  | .max d _ _ _ => [.x d.toNat]
  | .minu d _ _ _ => [.x d.toNat]
  | .maxu d _ _ _ => [.x d.toNat]
  | .slt d _ _ _ => [.x d.toNat]
  | .sltu d _ _ _ => [.x d.toNat]
  | .seq d _ _ _ => [.x d.toNat]
  | .sne d _ _ _ => [.x d.toNat]
  | .slti d _ _ => [.x d.toNat]
  | .sltiu d _ _ => [.x d.toNat]
  | .sel d _ _ _ _ => [.x d.toNat]
  | .clz d _ _ => [.x d.toNat]
  | .ctz d _ _ => [.x d.toNat]
  | .popc d _ _ => [.x d.toNat]
  | .bfx d _ _ _ => [.x d.toNat]
  | .bfxu d _ _ _ => [.x d.toNat]
  | .bfi d _ _ _ => [.x d.toNat]
  | .madd d _ _ _ => [.x d.toNat]
  | .addsc d _ _ _ _ => [.x d.toNat]
  | .fadd d _ _ _ => [.x d.toNat]
  | .fsub d _ _ _ => [.x d.toNat]
  | .fmul d _ _ _ => [.x d.toNat]
  | .fmin d _ _ _ => [.x d.toNat]
  | .fmax d _ _ _ => [.x d.toNat]
  | .feq d _ _ _ => [.x d.toNat]
  | .flt d _ _ _ => [.x d.toNat]
  | .fle d _ _ _ => [.x d.toNat]
  | .fcvtFi d _ _ => [.x d.toNat]
  | .fcvtIf d _ _ => [.x d.toNat]
  | .fcvtFu d _ _ => [.x d.toNat]
  | .fcvtUf d _ _ => [.x d.toNat]
  | .setpEq p _ _ _ => [.p p.toNat]
  | .setpNe p _ _ _ => [.p p.toNat]
  | .setpLt p _ _ _ => [.p p.toNat]
  | .setpLtu p _ _ _ => [.p p.toNat]
  | .setpGe p _ _ _ => [.p p.toNat]
  | .setpGeu p _ _ _ => [.p p.toNat]
  | .pand p _ _ _ => [.p p.toNat]
  | .por p _ _ _ => [.p p.toNat]
  | .pxor p _ _ _ => [.p p.toNat]
  | .pnot p _ _ => [.p p.toNat]
  | .pmov p _ _ => [.p p.toNat]
  | .call _ _ => [.x 1]
  | .jrl d _ _ => [.x d.toNat]
  | .mfs d _ => [.x d.toNat]
  | .ld d _ _ _ => [.x d.toNat]
  | .ldv d _ _ _ => [.v d.toNat]
  | .ldvS d _ _ _ => [.v d.toNat]
  | .ldvB d _ _ _ => [.v d.toNat]
  | .gath d _ _ _ _ => [.v d.toNat]
  | .ldg d _ _ _ => [.x d.toNat]
  | .ldgv d _ _ _ => [.v d.toNat]
  | .ldc d _ _ _ => [.x d.toNat]
  | .tlook d _ _ => [.x d.toNat]
  | .tlock d _ _ => [.x d.toNat]
  | .tunlock d _ _ => [.x d.toNat]
  | .hadvp h _ => [.h h.toNat]
  | .hadvc h _ => [.h h.toNat]
  | .hset h _ _ _ => [.h h.toNat]
  | .acq d _ _ _ => [.x d.toNat]
  | .rel d _ _ _ => [.x d.toNat]
  | .amoAdd d _ _ _ => [.x d.toNat]
  | .amoAnd d _ _ _ => [.x d.toNat]
  | .amoOr d _ _ _ => [.x d.toNat]
  | .amoXor d _ _ _ => [.x d.toNat]
  | .amoMin d _ _ _ => [.x d.toNat]
  | .amoMax d _ _ _ => [.x d.toNat]
  | .amoMinu d _ _ _ => [.x d.toNat]
  | .amoMaxu d _ _ _ => [.x d.toNat]
  | .amoSwap d _ _ _ => [.x d.toNat]
  | .amoFadd d _ _ _ => [.x d.toNat]
  | .cas d _ _ _ => [.x d.toNat]
  | .logcmp d _ _ => [.x d.toNat]
  | .logmark d _ => [.x d.toNat]
  | .logtrunc d _ _ => [.x d.toNat]
  | .gset k r _ _ => [.shape (k.toNat * 4 + r.toNat)]
  | .gswap k m => shapeDests k m
  | .cpyHs _ _ _ w _ _ => if w then shapeDests true 15 else []
  | .cpySh _ _ _ w _ _ => if w then shapeDests true 15 else []
  | .cpySs _ _ _ w _ _ => if w then shapeDests true 15 else []
  | .cpyRm _ _ _ w _ => if w then shapeDests true 15 else []
  | .cpyrHs _ _ w _ _ => if w then shapeDests true 15 else []
  | .cpyrSh _ _ w _ _ => if w then shapeDests true 15 else []
  | .cpyrSs _ _ w _ _ => if w then shapeDests true 15 else []
  | .cpyrRm _ _ w _ => if w then shapeDests true 15 else []
  | .engr _ b => [.x b.toNat]
  | .tseq _ => [.x 8, .x 9, .x 10]
  | .vadd d _ _ _ _ => [.v d.toNat]
  | .vsub d _ _ _ _ => [.v d.toNat]
  | .vmul d _ _ _ _ => [.v d.toNat]
  | .vminmaxMin d _ _ _ _ => [.v d.toNat]
  | .vminmaxMax d _ _ _ _ => [.v d.toNat]
  | .vfma d _ _ _ _ _ => [.v d.toNat]
  | .vfms d _ _ _ _ _ => [.v d.toNat]
  | .vfnma d _ _ _ _ _ => [.v d.toNat]
  | .vlogicAnd d _ _ _ _ => [.v d.toNat]
  | .vlogicOr d _ _ _ _ => [.v d.toNat]
  | .vlogicXor d _ _ _ _ => [.v d.toNat]
  | .vlogicAndn d _ _ _ _ => [.v d.toNat]
  | .vlogicNot d _ _ _ => [.v d.toNat]
  | .vshiftShl d _ _ _ _ => [.v d.toNat]
  | .vshiftShr d _ _ _ _ => [.v d.toNat]
  | .vshiftSra d _ _ _ _ => [.v d.toNat]
  | .vcmpEq p _ _ _ _ => [.p p.toNat]
  | .vcmpNe p _ _ _ _ => [.p p.toNat]
  | .vcmpLt p _ _ _ _ => [.p p.toNat]
  | .vcmpLe p _ _ _ _ => [.p p.toNat]
  | .vcmpGt p _ _ _ _ => [.p p.toNat]
  | .vcmpGe p _ _ _ _ => [.p p.toNat]
  | .vsel d _ _ _ => [.v d.toNat]
  | .vcvt d _ _ _ _ _ => [.v d.toNat]
  | .vredAdd d _ _ _ => [.v d.toNat]
  | .vredMax d _ _ _ => [.v d.toNat]
  | .vredMin d _ _ _ => [.v d.toNat]
  | .vscan d _ _ _ => [.v d.toNat]
  | .vpermIdx d _ _ _ => [.v d.toNat]
  | .vpermRot d _ _ _ => [.v d.toNat]
  | .vpermPsh d _ _ _ => [.v d.toNat]
  | .vbcast d _ _ _ => [.v d.toNat]
  | .vext d _ _ _ => [.x d.toNat]
  | .vtransRcp d _ _ => [.v d.toNat]
  | .vtransRsq d _ _ => [.v d.toNat]
  | .vtransExp2 d _ _ => [.v d.toNat]
  | .vtransLog2 d _ _ => [.v d.toNat]
  | .vtransTanh d _ _ => [.v d.toNat]
  | .vtransSin d _ _ => [.v d.toNat]
  | .vtransCos d _ _ => [.v d.toNat]
  | .vtransSqrt d _ _ => [.v d.toNat]
  | .vdiv d _ _ _ _ => [.v d.toNat]
  | .vrow d _ => [.v d.toNat]
  | .viota d _ _ => [.v d.toNat]
  | .vmaskPopc d _ _ => [.x d.toNat]
  | .vmaskCompress d _ _ => [.v d.toNat]
  | .vmaskExpand d _ _ => [.v d.toNat]
  | .vmaskFirst d _ _ => [.x d.toNat]
  | .vbnd p _ _ _ => [.p p.toNat]
  | .vabs d _ _ _ => [.v d.toNat]
  | .vneg d _ _ _ => [.v d.toNat]
  | .vdefDefer p _ _ => [.p p.toNat]
  | .vdefRefill d _ => [.v d.toNat]
  | .vdefCount d => [.x d.toNat]
  | .mloadA _ _ w _ _ => if w then shapeDests false 15 else []
  | .mloadB _ _ w _ _ => if w then shapeDests false 15 else []
  | .mloadBt _ _ w _ _ => if w then shapeDests false 15 else []
  | .mma _ _ _ w _ => if w then shapeDests false 15 else []
  | .mmaAcc _ _ _ w _ => if w then shapeDests false 15 else []
  | .mmaqF4 _ _ _ w _ => if w then shapeDests false 15 else []
  | .mmaqF4Acc _ _ _ w _ => if w then shapeDests false 15 else []
  | .mmaqI4 _ _ _ w _ => if w then shapeDests false 15 else []
  | .mmaqI4Acc _ _ _ w _ => if w then shapeDests false 15 else []
  | .mdrain _ w => if w then shapeDests false 15 else []
  | .scldBlk s _ _ => [.sc s.toNat]
  | .scldBand s _ _ => [.sc s.toNat]
  | .qcvtF8 d _ _ _ _ => [.v d.toNat]
  | .qcvtDb4 d _ _ _ _ => [.v d.toNat]
  | .qcvtMx4 d _ _ _ => [.v d.toNat]
  | .qcvtUnp d _ _ _ _ => [.v d.toNat]
  | .rndgInt d _ => [.v d.toNat]
  | .rndgUni d _ => [.v d.toNat]
  | .statc d _ => [.v d.toNat]
  | .recv _ v _ _ => [.v v.toNat]
  | .raddBf16 _ v _ _ => [.v v.toNat]
  | .raddF32 _ v _ _ => [.v v.toNat]
  | .barr d _ => [.x d.toNat]
  | .barw d _ => [.x d.toNat]
  | .fuse d _ => [.x d.toNat]
  | _ => []

/-- The x and v registers that an instruction reads (R20). -/
def instrReads : Instr → List RegName
  | .add _ a b _ => [.x a.toNat, .x b.toNat]
  | .addW _ a b _ => [.x a.toNat, .x b.toNat]
  | .sub _ a b _ => [.x a.toNat, .x b.toNat]
  | .subW _ a b _ => [.x a.toNat, .x b.toNat]
  | .and _ a b _ => [.x a.toNat, .x b.toNat]
  | .andW _ a b _ => [.x a.toNat, .x b.toNat]
  | .or _ a b _ => [.x a.toNat, .x b.toNat]
  | .orW _ a b _ => [.x a.toNat, .x b.toNat]
  | .xor _ a b _ => [.x a.toNat, .x b.toNat]
  | .xorW _ a b _ => [.x a.toNat, .x b.toNat]
  | .shl _ a b _ => [.x a.toNat, .x b.toNat]
  | .shlW _ a b _ => [.x a.toNat, .x b.toNat]
  | .shr _ a b _ => [.x a.toNat, .x b.toNat]
  | .shrW _ a b _ => [.x a.toNat, .x b.toNat]
  | .sra _ a b _ => [.x a.toNat, .x b.toNat]
  | .sraW _ a b _ => [.x a.toNat, .x b.toNat]
  | .addi _ a _ => [.x a.toNat]
  | .andi _ a _ => [.x a.toNat]
  | .ori _ a _ => [.x a.toNat]
  | .xori _ a _ => [.x a.toNat]
  | .shli _ a _ => [.x a.toNat]
  | .shri _ a _ => [.x a.toNat]
  | .srai _ a _ => [.x a.toNat]
  | .mul _ a b _ => [.x a.toNat, .x b.toNat]
  | .mulh _ a b _ => [.x a.toNat, .x b.toNat]
  | .mulhu _ a b _ => [.x a.toNat, .x b.toNat]
  | .div _ a b _ => [.x a.toNat, .x b.toNat]
  | .divu _ a b _ => [.x a.toNat, .x b.toNat]
  | .rem _ a b _ => [.x a.toNat, .x b.toNat]
  | .remu _ a b _ => [.x a.toNat, .x b.toNat]
  | .min _ a b _ => [.x a.toNat, .x b.toNat]
  | .max _ a b _ => [.x a.toNat, .x b.toNat]
  | .minu _ a b _ => [.x a.toNat, .x b.toNat]
  | .maxu _ a b _ => [.x a.toNat, .x b.toNat]
  | .slt _ a b _ => [.x a.toNat, .x b.toNat]
  | .sltu _ a b _ => [.x a.toNat, .x b.toNat]
  | .seq _ a b _ => [.x a.toNat, .x b.toNat]
  | .sne _ a b _ => [.x a.toNat, .x b.toNat]
  | .slti _ a _ => [.x a.toNat]
  | .sltiu _ a _ => [.x a.toNat]
  | .sel _ a b _ _ => [.x a.toNat, .x b.toNat]
  | .clz _ a _ => [.x a.toNat]
  | .ctz _ a _ => [.x a.toNat]
  | .popc _ a _ => [.x a.toNat]
  | .bfx _ a b _ => [.x a.toNat, .x b.toNat]
  | .bfxu _ a b _ => [.x a.toNat, .x b.toNat]
  | .bfi d a b _ => [.x a.toNat, .x b.toNat, .x d.toNat]
  | .madd d a b _ => [.x a.toNat, .x b.toNat, .x d.toNat]
  | .addsc _ a b _ _ => [.x a.toNat, .x b.toNat]
  | .fadd _ a b _ => [.x a.toNat, .x b.toNat]
  | .fsub _ a b _ => [.x a.toNat, .x b.toNat]
  | .fmul _ a b _ => [.x a.toNat, .x b.toNat]
  | .fmin _ a b _ => [.x a.toNat, .x b.toNat]
  | .fmax _ a b _ => [.x a.toNat, .x b.toNat]
  | .feq _ a b _ => [.x a.toNat, .x b.toNat]
  | .flt _ a b _ => [.x a.toNat, .x b.toNat]
  | .fle _ a b _ => [.x a.toNat, .x b.toNat]
  | .fcvtFi _ a _ => [.x a.toNat]
  | .fcvtIf _ a _ => [.x a.toNat]
  | .fcvtFu _ a _ => [.x a.toNat]
  | .fcvtUf _ a _ => [.x a.toNat]
  | .setpEq _ a b _ => [.x a.toNat, .x b.toNat]
  | .setpNe _ a b _ => [.x a.toNat, .x b.toNat]
  | .setpLt _ a b _ => [.x a.toNat, .x b.toNat]
  | .setpLtu _ a b _ => [.x a.toNat, .x b.toNat]
  | .setpGe _ a b _ => [.x a.toNat, .x b.toNat]
  | .setpGeu _ a b _ => [.x a.toNat, .x b.toNat]
  | .jr a _ => [.x a.toNat]
  | .jrl _ a _ => [.x a.toNat]
  | .ret _ => [.x 1]
  | .jtab d a b _ => [.x a.toNat, .x b.toNat, .x d.toNat]
  | .loop _ a _ => [.x a.toNat]
  | .loopsr a b _ _ => [.x a.toNat, .x b.toNat]
  | .rfenceA a _ => [.x a.toNat]
  | .suspPark a _ => [.x a.toNat, .x 8]
  | .mts a _ => [.x a.toNat]
  | .trapNz a _ => [.x a.toNat]
  | .snapst a => [.x a.toNat]
  | .snapld a => [.x a.toNat]
  | .launch a _ => [.x a.toNat]
  | .cancel a _ => [.x a.toNat]
  | .ld _ a _ _ => [.x a.toNat]
  | .st s a _ _ => [.x a.toNat, .x s.toNat]
  | .ldv _ a _ _ => [.x a.toNat]
  | .ldvS _ a s _ => [.x a.toNat, .x s.toNat]
  | .ldvB _ a _ _ => [.x a.toNat]
  | .stv v a _ _ => [.x a.toNat, .v v.toNat]
  | .stvS v a s _ => [.x a.toNat, .x s.toNat, .v v.toNat]
  | .gath _ a b _ _ => [.x b.toNat, .v a.toNat]
  | .scat s a b _ _ => [.x b.toNat, .v a.toNat, .v s.toNat]
  | .ldg _ a _ _ => [.x a.toNat]
  | .stg s a _ _ => [.x a.toNat, .x s.toNat]
  | .ldgv _ a _ _ => [.x a.toNat]
  | .stgv s a _ _ => [.x a.toNat, .v s.toNat]
  | .ldc _ a _ _ => [.x a.toNat]
  | .tlook _ a _ => [.x a.toNat]
  | .tfill a b _ => [.x a.toNat, .x b.toNat]
  | .tevict a _ => [.x a.toNat]
  | .tinv a _ => [.x a.toNat]
  | .tlock _ a _ => [.x a.toNat]
  | .tunlock _ a _ => [.x a.toNat]
  | .hset _ a b _ => [.x a.toNat, .x b.toNat]
  | .footr _ _ a b _ => [.x a.toNat, .x b.toNat]
  | .footw _ _ a b _ => [.x a.toNat, .x b.toNat]
  | .acq _ a _ _ => [.x a.toNat]
  | .rel _ a _ _ => [.x a.toNat]
  | .amoAdd _ a b _ => [.x a.toNat, .x b.toNat]
  | .amoAnd _ a b _ => [.x a.toNat, .x b.toNat]
  | .amoOr _ a b _ => [.x a.toNat, .x b.toNat]
  | .amoXor _ a b _ => [.x a.toNat, .x b.toNat]
  | .amoMin _ a b _ => [.x a.toNat, .x b.toNat]
  | .amoMax _ a b _ => [.x a.toNat, .x b.toNat]
  | .amoMinu _ a b _ => [.x a.toNat, .x b.toNat]
  | .amoMaxu _ a b _ => [.x a.toNat, .x b.toNat]
  | .amoSwap _ a b _ => [.x a.toNat, .x b.toNat]
  | .amoFadd _ a b _ => [.x a.toNat, .x b.toNat]
  | .cas d a b _ => [.x a.toNat, .x b.toNat, .x d.toNat]
  | .logcmp _ a _ => [.x a.toNat]
  | .logtrunc _ a _ => [.x a.toNat]
  | .gset _ _ a _ => [.x a.toNat]
  | .cpyHs _ a b _ _ _ => [.x a.toNat, .x b.toNat]
  | .cpySh _ a b _ _ _ => [.x a.toNat, .x b.toNat]
  | .cpySs _ a b _ _ _ => [.x a.toNat, .x b.toNat]
  | .cpyRm _ a b _ _ => [.x a.toNat, .x b.toNat]
  | .cpyrHs a b _ _ _ => [.x a.toNat, .x b.toNat]
  | .cpyrSh a b _ _ _ => [.x a.toNat, .x b.toNat]
  | .cpyrSs a b _ _ _ => [.x a.toNat, .x b.toNat]
  | .cpyrRm a b _ _ => [.x a.toNat, .x b.toNat]
  | .engw a b => [.x a.toNat, .x b.toNat]
  | .engr a _ => [.x a.toNat]
  | .tseq a => [.x a.toNat]
  | .ccadd a b => [.x a.toNat, .x b.toNat]
  | .ccwait a b => [.x a.toNat, .x b.toNat]
  | .vadd _ a b _ _ => [.v a.toNat, .v b.toNat]
  | .vsub _ a b _ _ => [.v a.toNat, .v b.toNat]
  | .vmul _ a b _ _ => [.v a.toNat, .v b.toNat]
  | .vminmaxMin _ a b _ _ => [.v a.toNat, .v b.toNat]
  | .vminmaxMax _ a b _ _ => [.v a.toNat, .v b.toNat]
  | .vfma _ a b c _ _ => [.v a.toNat, .v b.toNat, .v c.toNat]
  | .vfms _ a b c _ _ => [.v a.toNat, .v b.toNat, .v c.toNat]
  | .vfnma _ a b c _ _ => [.v a.toNat, .v b.toNat, .v c.toNat]
  | .vlogicAnd _ a b _ _ => [.v a.toNat, .v b.toNat]
  | .vlogicOr _ a b _ _ => [.v a.toNat, .v b.toNat]
  | .vlogicXor _ a b _ _ => [.v a.toNat, .v b.toNat]
  | .vlogicAndn _ a b _ _ => [.v a.toNat, .v b.toNat]
  | .vlogicNot _ a _ _ => [.v a.toNat]
  | .vshiftShl _ a b _ _ => [.v a.toNat, .v b.toNat]
  | .vshiftShr _ a b _ _ => [.v a.toNat, .v b.toNat]
  | .vshiftSra _ a b _ _ => [.v a.toNat, .v b.toNat]
  | .vcmpEq _ a b _ _ => [.v a.toNat, .v b.toNat]
  | .vcmpNe _ a b _ _ => [.v a.toNat, .v b.toNat]
  | .vcmpLt _ a b _ _ => [.v a.toNat, .v b.toNat]
  | .vcmpLe _ a b _ _ => [.v a.toNat, .v b.toNat]
  | .vcmpGt _ a b _ _ => [.v a.toNat, .v b.toNat]
  | .vcmpGe _ a b _ _ => [.v a.toNat, .v b.toNat]
  | .vsel _ a b _ => [.v a.toNat, .v b.toNat]
  | .vcvt _ a _ _ _ _ => [.v a.toNat]
  | .vredAdd _ a _ _ => [.v a.toNat]
  | .vredMax _ a _ _ => [.v a.toNat]
  | .vredMin _ a _ _ => [.v a.toNat]
  | .vscan _ a _ _ => [.v a.toNat]
  | .vpermIdx _ a b _ => [.v a.toNat, .v b.toNat]
  | .vpermRot _ a b _ => [.x b.toNat, .v a.toNat]
  | .vpermPsh _ a b _ => [.v a.toNat, .v b.toNat]
  | .vbcast _ a _ _ => [.x a.toNat]
  | .vext _ a b _ => [.x b.toNat, .v a.toNat]
  | .vtransRcp _ a _ => [.v a.toNat]
  | .vtransRsq _ a _ => [.v a.toNat]
  | .vtransExp2 _ a _ => [.v a.toNat]
  | .vtransLog2 _ a _ => [.v a.toNat]
  | .vtransTanh _ a _ => [.v a.toNat]
  | .vtransSin _ a _ => [.v a.toNat]
  | .vtransCos _ a _ => [.v a.toNat]
  | .vtransSqrt _ a _ => [.v a.toNat]
  | .vdiv _ a b _ _ => [.v a.toNat, .v b.toNat]
  | .vmaskCompress _ a _ => [.v a.toNat]
  | .vmaskExpand _ a _ => [.v a.toNat]
  | .vbnd _ a _ _ => [.v a.toNat]
  | .vabs _ a _ _ => [.v a.toNat]
  | .vneg _ a _ _ => [.v a.toNat]
  | .vdefDefer _ a _ => [.v a.toNat]
  | .mloadA _ a _ _ _ => [.x a.toNat]
  | .mloadB _ a _ _ _ => [.x a.toNat]
  | .mloadBt _ a _ _ _ => [.x a.toNat]
  | .scldBlk _ a _ => [.x a.toNat]
  | .scldBand _ a _ => [.x a.toNat]
  | .qcvtF8 _ a _ _ _ => [.v a.toNat]
  | .qcvtDb4 _ a _ _ _ => [.v a.toNat]
  | .qcvtMx4 _ a _ _ => [.v a.toNat]
  | .qcvtUnp _ a _ _ _ => [.v a.toNat]
  | .send _ v _ _ => [.v v.toNat]
  | .raddBf16 _ v _ _ => [.v v.toNat]
  | .raddF32 _ v _ _ => [.v v.toNat]
  | .barw d _ => [.x d.toNat]
  | .barm a _ => [.x a.toNat]
  | .fuse _ a => [.x a.toNat]
  | _ => []

/-- The sq field of an instruction; 0 where it has none (R55). -/
def instrSq : Instr → BitVec 3
  | .add _ _ _ q => q
  | .addW _ _ _ q => q
  | .sub _ _ _ q => q
  | .subW _ _ _ q => q
  | .and _ _ _ q => q
  | .andW _ _ _ q => q
  | .or _ _ _ q => q
  | .orW _ _ _ q => q
  | .xor _ _ _ q => q
  | .xorW _ _ _ q => q
  | .shl _ _ _ q => q
  | .shlW _ _ _ q => q
  | .shr _ _ _ q => q
  | .shrW _ _ _ q => q
  | .sra _ _ _ q => q
  | .sraW _ _ _ q => q
  | .mul _ _ _ q => q
  | .mulh _ _ _ q => q
  | .mulhu _ _ _ q => q
  | .div _ _ _ q => q
  | .divu _ _ _ q => q
  | .rem _ _ _ q => q
  | .remu _ _ _ q => q
  | .min _ _ _ q => q
  | .max _ _ _ q => q
  | .minu _ _ _ q => q
  | .maxu _ _ _ q => q
  | .slt _ _ _ q => q
  | .sltu _ _ _ q => q
  | .seq _ _ _ q => q
  | .sne _ _ _ q => q
  | .sel _ _ _ _ q => q
  | .clz _ _ q => q
  | .ctz _ _ q => q
  | .popc _ _ q => q
  | .bfx _ _ _ q => q
  | .bfxu _ _ _ q => q
  | .bfi _ _ _ q => q
  | .madd _ _ _ q => q
  | .addsc _ _ _ _ q => q
  | .fadd _ _ _ q => q
  | .fsub _ _ _ q => q
  | .fmul _ _ _ q => q
  | .fmin _ _ _ q => q
  | .fmax _ _ _ q => q
  | .feq _ _ _ q => q
  | .flt _ _ _ q => q
  | .fle _ _ _ q => q
  | .fcvtFi _ _ q => q
  | .fcvtIf _ _ q => q
  | .fcvtFu _ _ q => q
  | .fcvtUf _ _ q => q
  | .setpEq _ _ _ q => q
  | .setpNe _ _ _ q => q
  | .setpLt _ _ _ q => q
  | .setpLtu _ _ _ q => q
  | .setpGe _ _ _ q => q
  | .setpGeu _ _ _ q => q
  | .pand _ _ _ q => q
  | .por _ _ _ q => q
  | .pxor _ _ _ q => q
  | .pnot _ _ q => q
  | .pmov _ _ q => q
  | .bra q _ => q
  | .call q _ => q
  | .jr _ q => q
  | .jrl _ _ q => q
  | .ret q => q
  | .jtab _ _ _ q => q
  | .loopsr _ _ _ q => q
  | .rfence q => q
  | .rfenceA _ q => q
  | .suspYield q => q
  | .suspPark _ q => q
  | .suspExit q => q
  | .tlook _ _ q => q
  | .tfill _ _ q => q
  | .tevict _ q => q
  | .tinv _ q => q
  | .tlock _ _ q => q
  | .tunlock _ _ q => q
  | .hset _ _ _ q => q
  | .footr _ _ _ _ q => q
  | .footw _ _ _ _ q => q
  | .footclr _ q => q
  | .spfence q => q
  | .acq _ _ _ q => q
  | .rel _ _ _ q => q
  | .fence _ q => q
  | .logcmp _ _ q => q
  | .logmark _ q => q
  | .logtrunc _ _ q => q
  | .sstepDie q => q
  | .sstepPackage q => q
  | _ => 0

/-- Is the instruction region-ending (R28)? -/
def instrEnds : Instr → Bool
  | .launch _ _ | .rel _ _ _ _ | .fence _ _ | .amoAdd _ _ _ _ | .amoAnd _ _ _ _ | .amoOr _ _ _ _ | .amoXor _ _ _ _ | .amoMin _ _ _ _
  | .amoMax _ _ _ _ | .amoMinu _ _ _ _ | .amoMaxu _ _ _ _ | .amoSwap _ _ _ _ | .amoFadd _ _ _ _ | .cas _ _ _ _ | .sstepDie _
  | .sstepPackage _ | .tseq _ | .ccadd _ _ | .send _ _ _ _ | .barr _ _ => true
  | _ => false

/-- Can the instruction abort with a page fault (R28)? -/
def instrAborts : Instr → Bool
  | .launch _ _ | .ldg _ _ _ _ | .stg _ _ _ _ | .ldgv _ _ _ _ | .stgv _ _ _ _ | .ldc _ _ _ _ | .tfill _ _ _ | .tevict _ _
  | .acq _ _ _ _ | .rel _ _ _ _ | .amoAdd _ _ _ _ | .amoAnd _ _ _ _ | .amoOr _ _ _ _ | .amoXor _ _ _ _ | .amoMin _ _ _ _
  | .amoMax _ _ _ _ | .amoMinu _ _ _ _ | .amoMaxu _ _ _ _ | .amoSwap _ _ _ _ | .amoFadd _ _ _ _ | .cas _ _ _ _ | .cpyHs _ _ _ _ _ _
  | .cpySh _ _ _ _ _ _ | .cpySs _ _ _ _ _ _ | .cpyRm _ _ _ _ _ | .cpyrHs _ _ _ _ _ | .cpyrSh _ _ _ _ _ | .cpyrSs _ _ _ _ _
  | .cpyrRm _ _ _ _ | .tseq _ | .ccadd _ _ | .ccwait _ _ => true
  | _ => false

/-- Can the instruction stall issue for a handle, a channel, the matrix queue or the store log (R20)? -/
def instrStalls : Instr → Bool
  | .stg _ _ _ _ | .stgv _ _ _ _ | .hwait _ _ | .hwaitf _ _ | .cpyHs _ _ _ _ _ _ | .cpySh _ _ _ _ _ _ | .cpySs _ _ _ _ _ _
  | .cpyRm _ _ _ _ _ | .cpyrHs _ _ _ _ _ | .cpyrSh _ _ _ _ _ | .cpyrSs _ _ _ _ _ | .cpyrRm _ _ _ _ | .mloadA _ _ _ _ _
  | .mloadB _ _ _ _ _ | .mloadBt _ _ _ _ _ | .mma _ _ _ _ _ | .mmaAcc _ _ _ _ _ | .mmaqF4 _ _ _ _ _ | .mmaqF4Acc _ _ _ _ _
  | .mmaqI4 _ _ _ _ _ | .mmaqI4Acc _ _ _ _ _ | .mzero _ | .send _ _ _ _ | .recv _ _ _ _ | .raddBf16 _ _ _ _ | .raddF32 _ _ _ _ => true
  | _ => false

/-- The destination registers of a syllable; writes to x0 and p0 do not count (R21). -/
def sylDests (y : Syl) : List RegName :=
  (match y with
   | .instr i => instrDests i
   | .late (.rejn d) => [.x d.toNat]
   | .late (.wdog d _) => [.x d.toNat]
   | .late (.rcomm _ b) => [.x b.toNat]
   | .late (.rstat _ b) => [.x b.toNat]
   | .late _ => []).filter fun r => r != RegName.x 0 && r != RegName.p 0

/-- The x and v registers that a syllable reads (R20). -/
def sylReads : Syl → List RegName
  | .instr i => instrReads i
  | .late (.wdog _ a) => [.x a.toNat]
  | .late (.prot a) => [.x a.toNat]
  | .late (.unprot a) => [.x a.toNat]
  | .late (.rprep a b) => [.x a.toNat, .x b.toNat]
  | .late (.rcomm a _) => [.x a.toNat]
  | .late (.rstat a _) => [.x a.toNat]
  | .late (.netpost a b) => [.x a.toNat, .x b.toNat]
  | .late (.netwait a b) => [.x a.toNat, .x b.toNat]
  | .late _ => []

def sylSq : Syl → BitVec 3
  | .instr i => instrSq i
  | .late _ => 0

def sylEnds : Syl → Bool
  | .instr i => instrEnds i
  | .late (.prot _) | .late (.unprot _) | .late (.rprep _ _) | .late (.rcomm _ _) | .late (.rstat _ _) | .late (.netpost _ _) => true
  | .late _ => false

def sylAborts : Syl → Bool
  | .instr i => instrAborts i
  | .late (.prot _) | .late (.unprot _) | .late (.netpost _ _) | .late (.netwait _ _) => true
  | .late _ => false

def sylStalls : Syl → Bool
  | .instr i => instrStalls i
  | .late (.chwait _ _) => true
  | .late _ => false

/-- Is the syllable a VDEF (R135)? -/
def sylVdef : Syl → Bool
  | .instr (.vdefDefer _ _ _) | .instr (.vdefRefill _ _) | .instr (.vdefCount _) => true
  | _ => false

end Sys2Proof.Machine
end

