-- ==== Sys2Proof/Machine/Front.lean ====
section
/-! DEFINITION. The issue end: expansion of segments, the next bundle and how it is entered, the checks of a bundle's encoding, and where control
goes after it (spec 02_encoding.md R39 to R60; 03_scalar_control.md R78 to R85; 01_task.md R21, R28; 09_cluster.md R243). -/

namespace Sys2Proof.Machine

/-! ### Expansion (R39 to R47, R52, R53) -/

/-- Slots present in a bundle (R42, R43). -/
def presentSlots (hdr : Nat) : List Nat := (List.range 8).filter fun i => bitAt hdr (24 + i)

/-- Does a header syllable break R43 or the ES rule of R46? -/
def headerBad (hdr : Nat) (last : Bool) : Bool :=
  fld hdr 0 12 != 0 || (fld hdr 24 8 != 0 && fld hdr 12 6 != 0) || bitAt hdr 22 != last

/-- Read `n` stored bundles from offset `o`: the bundles and their end, or the word that is at fault (R42, R46). -/
def parseBundles (bs : List Byte) (word8 : Nat) : Nat → Nat → Except Nat (List Stored × Nat)
  | 0, o => .ok ([], o)
  | n + 1, o =>
    if bs.length < o + 4 then .error word8
    else
      let hdr := at' bs o 4
      let slots := presentSlots hdr
      if headerBad hdr (n == 0) then .error hdr
      else if bs.length < o + 4 + 4 * slots.length then .error word8
      else
        match parseBundles bs word8 n (o + 4 + 4 * slots.length) with
        | .error w => .error w
        | .ok (l, e) => .ok ({ off := o, hdr := hdr, words := (List.range slots.length).map fun i => (slots.getD i 0, at' bs (o + 4 + 4 * i) 4) } :: l, e)

/-- The lengths that a segment header gives are in range, with its reserved bits 0 (R40, R46): the word at fault otherwise. -/
def segHeaderBad (hd : List Byte) : Option Nat :=
  if fld (at' hd 0 8) 0 13 ≠ 0 then some (at' hd 0 4)
  else if fld (at' hd 10 2) 9 7 ≠ 0 ∨ at' hd 8 2 < 20 ∨ 8192 < at' hd 8 2 ∨ at' hd 8 2 % 4 ≠ 0 ∨ fld (at' hd 10 2) 0 9 < 1 ∨ 256 < fld (at' hd 10 2) 0 9
  then some (at' hd 8 4)
  else none

/-- Expand the bytes 0 to LEN − 1 of a frame (R46). (Open points: DESIGN CHOICE, log 105.) -/
def expandBytes (frame : Nat) (bs : List Byte) : Segment :=
  let g : Segment := { frame := frame, next := at' bs 0 8, len := at' bs 8 2, word0 := BitVec.ofNat 32 (at' bs 0 4), word8 := BitVec.ofNat 32 (at' bs 8 4)
                       bundles := [], bad := none }
  let fails := fun w : Nat => { g with bad := some (.malformed (BitVec.ofNat 32 w)) }
  match segHeaderBad bs with
  | some w => fails w
  | none =>
    match parseBundles bs (at' bs 8 4) (fld (at' bs 10 2) 0 9) 16 with
    | .error w => fails w
    | .ok (l, e) =>
      if e ≠ g.len then fails (at' bs 8 4)
      else if crc32c (bs.take 12 ++ [0, 0, 0, 0] ++ bs.drop 16) ≠ at' bs 12 4 then fails (at' bs 12 4)
      else { g with bundles := l }

/-- The failure of a segment as a taken branch into it reports it: a failed fetch names the frame address (R50). -/
def SegFault.at' (f : SegFault) (frame : Nat) : SegFault :=
  match f with
  | .cause c => .cause { c with addr := BitVec.ofNat 64 frame }
  | f => f

/-- A frame that could not be fetched. -/
def failedSegment (frame : Nat) (f : SegFault) : Segment :=
  { frame := frame, next := 0, len := 0, word0 := 0, word8 := 0, bundles := [], bad := some f }

namespace State

/-- The cores that the fetch for this one serves, the fetching one first: the coupled members of its group, but for one that runs its handler on its own
fetch (R243, R248). -/
def fetchCores (s : State) : List Nat :=
  let k := clusterOf s.coreId
  match (s.cluster k).groupOf (lowCore s.coreId) with
  | some g =>
    if (g.coupled &&& ~~~g.trapped).getLsbD (lowCore s.coreId) then (members (g.coupled &&& ~~~g.trapped)).map fun i => 4 * k + i else [s.coreId]
  | none => [s.coreId]

/-- The core whose prefetch engine fetches for this one: the leader of a coupled group (R243). -/
def fetchCore (s : State) : Nat := s.fetchCores.headD s.coreId

/-- Read the bytes of a frame at home for the prefetch engine (R52, R53): `n` bytes of local memory, or the reason why it failed. (Open points: DEDUCED, log 79.) -/
def fetchBytes (s : State) (ia n : Nat) : State × Except SegFault (List Byte) :=
  let (s, w) := s.walk s.myDie ia
  match w with
  | .page pa _ =>
    let (s, r) := s.homeRead ia pa n
    (s, match r with
      | some bs => .ok bs
      | none => .error (.cause (s.lossCause ia pa)))
  | .absent => (s, .error (.pageFault ia))
  | .invalid l => (s, .error (.cause { code := 0x14, addr := BitVec.ofNat 64 ia, detail := BitVec.ofNat 32 l }))
  | .integrity l => (s, .error (.cause { code := 0x12, addr := BitVec.ofNat 64 ia, detail := BitVec.ofNat 32 l }))
  | .lost => (s, .error (.cause { code := 0x13, addr := BitVec.ofNat 64 ia, detail := BitVec.ofNat 32 s.trav.lastRetired }))

/-- The segment of a frame (R46, R52). A frame on another device holds bytes that no state of this device has (assumption log 11). (Open points: DESIGN CHOICE, log 11, 105; DEDUCED, log 79.) -/
def expand (s : State) (frame : Nat) : State × Segment :=
  let c := ((s.coreAt s.fetchCore).task.map Bound.ctx).getD s.bound.ctx
  match (s.ctx c).translate? frame .x with
  | none => (s, failedSegment frame (.cause { code := 0x08, addr := BitVec.ofNat 64 frame }))
  | some a =>
    if s.isRemote a.ia then
      let rd := fun n : Nat => (List.range n).map fun i => Config.remoteByte s.free (a.ia + i)
      (s.nextFree, expandBytes frame (rd (max 16 (min 8192 (at' (rd 16) 8 2)))))
    else
      match s.fetchBytes a.ia 16 with
      | (s, .error f) => (s, failedSegment frame f)
      | (s, .ok hd) =>
        match segHeaderBad hd with
        | some _ => (s, expandBytes frame hd)
        | none =>
          match s.fetchBytes a.ia (at' hd 8 2) with
          | (s, .error f) => (s, failedSegment frame f)
          | (s, .ok bs) => (s, expandBytes frame bs)

/-- The expansion of a frame: the one that the coupled group has already made, else a new one, which every coupled member receives (R243).
(Open points: DEDUCED, log 19.) -/
def takeSegment (s : State) (frame : Nat) : State × Segment :=
  let cs := s.fetchCores
  let other := fun g : Segment => g.frame != frame
  match (if 1 < cs.length then s.core.front.given.find? fun g => g.frame == frame else none) with
  | some g => (s.modFront fun f => { f with given := f.given.filter other }, g)
  | none =>
    let (s, g) := s.expand frame
    ((cs.filter (· != s.coreId)).foldl (fun s c => s.modCoreAt c fun k =>
      { k with front := { k.front with given := g :: k.front.given.filter other } }) s, g)

/-- The prefetch engine expands the successor of the current segment (R47). -/
def expandSucc (s : State) : State :=
  match s.core.front.cur with
  | none => s
  | some g =>
    if g.bad.isNone ∧ g.next ≠ 0 ∧ s.core.front.succ = none then
      let (s, n) := s.takeSegment g.next
      s.modFront fun f => { f with succ := some n }
    else s

/-- The prefetch engine expands the frame of an address-named entry into the half that then becomes the current one (R49). -/
def expandEntry (s : State) (frame : Nat) : State :=
  let (s, g) := s.takeSegment frame
  s.modFront fun f => { f with cur := some g, succ := none }

/-! ### The next bundle (R48 to R51) -/

/-- FETCH_MALFORMED, or another cause of a bundle that is due: SRF = 0 (R46, R48, R49, R52). (Open points: DEDUCED, log 79.) -/
def fetchRaise (s : State) (c : Cause) (bundle : Nat) : State := s.takeTrap c 0 0 bundle bundle

/-- What a segment that cannot be issued from does when its bundle at `addr` is due (R46, R52). (Open points: DEDUCED, log 79.) -/
def segRaise (s : State) (g : Segment) (f : SegFault) (addr : Nat) : State :=
  match f with
  | .malformed w => s.fetchRaise { code := 0x02, addr := BitVec.ofNat 64 g.frame, detail := w } addr
  | .pageFault ia => s.abort ia
  | .cause c => s.fetchRaise c addr

/-- Where the next bundle is. -/
inductive Due where
  /-- position of the current segment -/
  | at (p : Nat)
  /-- a segment is awaited, or counted cycles pass first: the state after what this cycle does about it -/
  | wait (s : State)
  /-- the entry fails: the state after the cause -/
  | fail (s : State)

/-- The successor becomes the current segment (R48). -/
def enterSucc (s : State) (p : Nat) : State :=
  s.modFront fun f => { f with cur := f.succ, succ := none, pos := p, latched := none }

/-- The bundle at a position of the current segment, when the segment can be issued from. -/
def duePos (s : State) (p : Nat) : State × Due :=
  match s.core.front.cur with
  | none => (s, .wait s)
  | some g =>
    match g.bad with
    | some f => (s, .fail (s.segRaise g f (g.frame + ((g.bundles[p]?).map Stored.off).getD 16)))
    | none => (s.modFront fun f => { f with pos := p, latched := none, entry := none }, .at p)

/-- The position `p` of the successor is due: it becomes the current segment once expanded (R48, R50). -/
def dueSucc (s : State) (p : Nat) : State × Due :=
  match s.core.front.succ with
  | none =>
    let s := s.expandSucc
    (s, .wait (s.modFront fun f => { f with hold := .segment }))
  | some g =>
    match g.bad with
    | some f => (s, .fail (if p = 0 then s.segRaise g f (g.frame + 16) else s.segRaise g (f.at' g.frame) g.frame))
    | none => (s.enterSucc p).duePos p

/-- A byte address is due (R49, R51). -/
def dueAddr (s : State) (a : Nat) : State × Due :=
  let f := s.core.front
  let frame := a / 8192 * 8192
  let inHalf := fun h : Option Segment => (h.map Segment.frame) == some frame
  if inHalf f.cur then
    match f.cur with
    | none => (s, .wait s)
    | some g =>
      match g.bad with
      | some e => (s, .fail (s.segRaise g e a))
      | none =>
        match (List.range g.bundles.length).find? fun i => (g.bundles[i]?).map (fun b => g.frame + b.off) == some a with
        | some p => s.duePos p
        | none => (s, .fail (s.fetchRaise { code := 0x02, addr := BitVec.ofNat 64 a, detail := g.word8 } a))
  else if inHalf f.succ then (s, .wait (s.modFront fun f => { f with cur := f.succ, succ := none }))
  else if f.entry = none ∧ (f.cur.isSome ∨ f.succ.isSome) then
    (s, .wait (s.modFront fun f => { f with cur := none, succ := none, entry := some (.addr (BitVec.ofNat 64 a)), bubbles := 2, given := f.given.filter fun g => g.frame == frame }))
  else
    let s := s.expandEntry frame
    (s, .wait (s.modFront fun f => { f with hold := .segment, entry := none }))

/-- The next bundle: a latched target, or flow from the position reached (R48 to R50). -/
def due (s : State) : State × Due :=
  let f := s.core.front
  match f.latched with
  | some (.addr a) => s.dueAddr a.toNat
  | some (.pos false p) => s.duePos p
  | some (.pos true p) => s.dueSucc p
  | none =>
    match f.cur with
    | none => (s, .wait s)
    | some g =>
      if f.pos < g.bundles.length ∨ g.bad.isSome then s.duePos f.pos
      else if g.next = 0 then
        (s, .fail (s.fetchRaise { code := 0x02, addr := BitVec.ofNat 64 g.frame, detail := g.word0 } (g.frame + g.len)))
      else s.dueSucc 0

/-- The address of the bundle that is next, for RSTART and RESUME (R28, R90) and for the comparison of R244. -/
def nextAddr (s : State) : Nat :=
  let f := s.core.front
  match f.latched with
  | some (.addr a) => a.toNat
  | some (.pos false p) => (f.cur.map fun g => g.frame + ((g.bundles[p]?).map Stored.off).getD 16).getD 0
  | some (.pos true p) =>
    (match f.succ with
     | some g => g.frame + (if g.bad.isSome then (if p = 0 then 16 else 0) else ((g.bundles[p]?).map Stored.off).getD 16)
     | none => (f.cur.map fun g => g.next + 16).getD 0)
  | none =>
    (f.cur.map fun g => match g.bundles[f.pos]? with
      | some b => g.frame + b.off
      | none => if g.next = 0 then g.frame + g.len else g.next + 16).getD 0

/-! ### Where control goes after a bundle (R82 to R84) -/

/-- A position of the current segment that a target names, if it names one. -/
def targetPos (s : State) : Target → Option Nat
  | .pos false p => some p
  | .pos true _ => none
  | .addr a =>
    match s.core.front.cur with
    | none => none
    | some g => (List.range g.bundles.length).find? fun i => (g.bundles[i]?).map (fun b => g.frame + b.off) == some a.toNat

/-- A taken transfer: levels whose body it leaves become inactive (R84). -/
def transfer (s : State) (t : Target) : State :=
  let p := s.targetPos t
  s.modFront fun f => { f with
    latched := some t
    loops := f.loops.filter fun kv => match p with
      | some p => decide (kv.2.start ≤ p) && decide (p ≤ kv.2.stop)
      | none => false }

/-- The levels that end at position `p`, from the highest down (R83): the position to loop back to, and the levels left. -/
def loopBack (p : Nat) : List Nat → Tab LoopLevel → Option Nat × Tab LoopLevel
  | [], t => (none, t)
  | l :: ls, t =>
    match tget? t l with
    | none => loopBack p ls t
    | some v =>
      if v.stop ≠ p then loopBack p ls t
      else if 1 < v.rem then (some v.start, tset t l { v with rem := v.rem - 1 })
      else loopBack p ls (terase t l)

/-- Flow after the bundle at position `p` (R82, R83); past the last position every level is inactive (R84). -/
def flow (s : State) (p : Nat) (skip : Option Nat) : State :=
  let r := loopBack p [3, 2, 1, 0] s.core.front.loops
  let n := match r.1 with
    | some q => q
    | none => skip.getD (p + 1)
  s.modFront fun f => { f with pos := n, latched := none, loops := if s.segBundles.length ≤ n then [] else r.2 }

/-! ### The encoding of a bundle (R21, R24, R25, R28, R44, R45, R57 to R60, R85, R98, R135) -/

/-- A syllable of a slot, when its opcode may stand there and it decodes (R57, R58). -/
def slotSyl (w : Nat × Nat) : Option Syl :=
  if slotAdmits (fld w.2 25 7) w.1 then (match decodeSyl w.2 with
    | .ok y => some y
    | .error _ => none)
  else none

/-- The slots that name a destination of a lower slot (R21). (Open points: DEDUCED, log 97.) -/
def doubleWrites : List (Nat × Option Syl) → List RegName → List Nat
  | [], _ => []
  | (_, none) :: l, seen => doubleWrites l seen
  | (k, some y) :: l, seen => (if (sylDests y).any fun d => seen.contains d then [k] else []) ++ doubleWrites l (sylDests y ++ seen)

/-- The slots at which the region rules are broken (R28). (Open points: DEDUCED, log 97.) -/
def regionBad (l : List (Nat × Option Syl)) (ib : Bool) : List Nat :=
  let ends := l.filter fun e => e.2.any sylEnds
  let both := l.filter fun e => e.2.any fun y => sylEnds y || sylAborts y
  if ends = [] then []
  else if 1 < both.length then both.tail.map Prod.fst
  else if ib then [] else ends.map Prod.fst

/-- The lowest slot, from `first` on, at which the encoding of the bundle is ILLEGAL (R60); a second VDEF is one (R135). (Open points: DEDUCED, log 97.) -/
def staticBad (words : List (Nat × Nat)) (ib : Bool) (first : Nat) : Option Nat :=
  let l := words.map fun w => (w.1, slotSyl w)
  let undef := (l.filter fun e => e.2.isNone).map Prod.fst
  let vdefs := ((l.filter fun e => e.2.any sylVdef).tail).map Prod.fst
  ((undef ++ doubleWrites l [] ++ regionBad l ib ++ vdefs).filter fun k => decide (first ≤ k)).foldl (fun m k => minOpt m (some k)) none

/-- Does the header disagree with the bundle at S0 (R24, R25, R44, R45, R85, R98)? (Open points: DEDUCED, log 23.) -/
def headerIllegal (s : State) (hdr : Nat) (words : List (Nat × Nat)) (ib : Bool) : Bool :=
  let l := words.map fun w => slotSyl w
  let has := fun i : Instr => l.contains (some (.instr i))
  let fc := match l.head? with
    | some (some (.instr (.fuse _ _))) => 1
    | some (some (.instr .decpl)) => 2
    | some (some (.late (.rejn _))) => 3
    | _ => 0
  bitAt hdr 19 != has .snaprel || fld hdr 20 2 != fc || ((has .snaprel || has .tret) && words.length != 1) ||
  (ib && !s.core.front.loops.isEmpty)

end State

end Sys2Proof.Machine
end

