-- ==== Sys2Proof/Machine/Engine.lean ====
section
/-! DEFINITION. Handles, declared footprints, scratchpad fences, shape registers and the engine block (spec 07_core_memory.md R192, R197 to R202,
R212 to R214, R221, R224, R227, R228; 04_numbers.md R127, R134; 05_vector.md R159; 06_matrix.md R179; 15_collectives_network.md R372). -/

namespace Sys2Proof.Machine

/-! ### Handles (R199 to R201) -/

/-- HWAIT and HWAITF (R199). -/
def State.waitHandle (s : State) (h : BitVec 4) (avail : Bool) (n : Nat) : State :=
  match s.handleWait h avail n with
  | none => s.illegal
  | some false => s.modFront fun f => { f with hold := .stall }
  | some true => s

def execHwait (h : BitVec 4) (n : BitVec 13) (s : State) : Out := .next (s.waitHandle h true n.toNat)
def execHwaitf (h : BitVec 4) (n : BitVec 13) (s : State) : Out := .next (s.waitHandle h false n.toNat)

def execHadvp (h : BitVec 4) (n : BitVec 13) (s : State) : Out :=
  .next (if (s.h h).count = 0 ∨ (s.h h).free < n.toNat then s.illegal else s.result 1 (.hadv h.toNat true n.toNat))

def execHadvc (h : BitVec 4) (n : BitVec 13) (s : State) : Out :=
  .next (if (s.h h).count = 0 ∨ (s.h h).avail < n.toNat then s.illegal else s.result 1 (.hadv h.toNat false n.toNat))

/-- May the two words be a handle of the task (R201)? -/
def State.handleOk (s : State) (w0 w1 : Word) : Bool :=
  let h := Handle.ofWords w0 w1
  h.word0 == w0 && h.word1 == w1 && h.base % 32 == 0 && h.ssize % 32 == 0 && decide (32 ≤ h.ssize) && decide (h.ssize ≤ 2 ^ 20) &&
  decide (1 ≤ h.count) && decide (h.count ≤ 256) && decide (h.head < h.count) && decide (h.tail < h.count) && decide (h.fill ≤ h.count) &&
  s.spadOk h.base (h.count * h.ssize)

def execHset (h : BitVec 4) (a b : BitVec 6) (q : BitVec 3) (s : State) : Out :=
  .next (s.guarded q fun s =>
    if !s.handleOk (s.x a) (s.x b) || (s.h h).pp != 0 || (s.h h).cp != 0 then s.illegal
    else s.result 1 (.hset h.toNat (s.x a) (s.x b)))

/-! ### Footprints and fences (R221, R224) -/

/-- Declare a range of a party's read or write set (R224, R226). (Open points: DEDUCED, log 30.) -/
def State.declare (s : State) (net write : Bool) (r : Range) : State :=
  let code := if net then 3 else 0
  let f : Foot := if write then { writes := [r] } else { reads := [r] }
  s.withCommands code f fun s =>
    let (s, t) := s.takeTicket
    s.modCopy fun c => if net then { c with footNet := c.footNet ++ [⟨t, f⟩] } else { c with footProg := c.footProg ++ [⟨t, f⟩] }

/-- FOOTR and FOOTW (R224). -/
def State.foot (s : State) (glob net write : Bool) (a n : Word) : State :=
  if n = 0 then s
  else if 8 ≤ (if net then s.core.copy.footNet else s.core.copy.footProg).length then s.illegal
  else if glob then
    match (s.ctx s.bound.ctx).rangeIn? a.toNat n.toNat (if write then .w else .rd) with
    | none => s.noWindow a
    | some c => s.declare net write ⟨true, c.ia, c.ia + n.toNat⟩
  else if s.spadOk a.toNat n.toNat then s.declare net write ⟨false, a.toNat, a.toNat + n.toNat⟩
  else s.illegal

def execFootr (g y : Bool) (a b : BitVec 6) (q : BitVec 3) (s : State) : Out :=
  .next (s.guarded q fun s => s.foot g y false (s.x a) (s.x b))

def execFootw (g y : Bool) (a b : BitVec 6) (q : BitVec 3) (s : State) : Out :=
  .next (s.guarded q fun s => s.foot g y true (s.x a) (s.x b))

def execFootclr (y : Bool) (q : BitVec 3) (s : State) : Out :=
  .next (s.guarded q fun s => s.modCopy fun c => if y then { c with footNet := [] } else { c with footProg := [] })

/-- Has a job a scratchpad side? -/
def Job.onSpad (j : Job) : Bool := j.dir != .rm

def execSpfence (q : BitVec 3) (s : State) : Out :=
  .next (s.guarded q fun s =>
    if (s.core.copy.jobs.any Job.onSpad) || (s.core.mx.inWork.any fun c => c.op == .mload) || s.core.snapOps.any SnapOp.isStore
    then s.hold else s)

/-! ### Shape registers (R213, R214) -/

def execGset (k : Bool) (r : BitVec 2) (a : BitVec 6) (f : BitVec 4) (s : State) : Out :=
  .next (s.result 1 (.gset (k.toNat * 4 + r.toNat) f.toNat ((s.x a).truncate 32)))

def execGswap (k : Bool) (m : BitVec 4) (s : State) : Out := .next (s.result 1 (.swap k m))

/-! ### The engine block (R227) -/

/-- Is the offset in the map of R227? -/
def engMap (o : Nat) : Bool :=
  (decide (0x4000 ≤ o) && decide (o < 0x6018)) || o == 0x6100 || (decide (0x7000 ≤ o) && decide (o < 0x7100)) ||
  (decide (0x7800 ≤ o) && decide (o < 0x7C18)) || (decide (0x8000 ≤ o) && decide (o < 0xD000)) || o == 0xD000

/-- The code of a plane kind in MXSTAT (R179). -/
def PlaneKind.code : PlaneKind → Nat
  | .none => 0
  | .zero => 1
  | .fp32 => 2
  | .int32 => 3

def Mx.kind (m : Mx) (p : Nat) : PlaneKind := (tget {} m.planes p).kind

/-- MXSTAT (R179). -/
def Mx.statWord (m : Mx) : Word :=
  BitVec.ofNat 64 (m.claim.toNat * 2 ^ 31 + mPairCode m.pair * 2 ^ 28 + m.ae5.toNat * 2 ^ 27 + m.be5.toNat * 2 ^ 26 + m.queue.length % 4 * 2 ^ 24 +
    (m.kind 1).code * 2 ^ 22 + (m.kind 0).code * 2 ^ 20 + m.drain.isSome.toNat * 2 ^ 19 + m.array.isSome.toNat * 2 ^ 18 + m.load.isSome.toNat * 2 ^ 17)

/-- Two live counters (R134). -/
def Stat.word (a : Stat) (hi : Bool) : Word :=
  BitVec.ofNat 64 (if hi then a.nan + a.viol * 2 ^ 32 else a.sat + a.flush * 2 ^ 32)

/-- A tag-table entry as words (R192). -/
def TagEntry.word (t : TagEntry) (hi : Bool) : Word :=
  if hi then BitVec.ofNat 64 (t.reads % 2 ^ 16 + t.lock.toNat * 2 ^ 22 + t.valid.toNat * 2 ^ 23 + t.tid % 256 * 2 ^ 24 + t.owner % 8 * 2 ^ 32)
  else BitVec.ofNat 64 (t.tag % 2 ^ 46 * 2 ^ 11)

/-- A doubleword of the engine block as it reads (R227). -/
def State.engRead (s : State) (o : Nat) : Word :=
  let hi := o / 8 % 2 == 1
  let c := s.core
  if o < 0x5000 then (tget {} c.vec.bounds ((o - 0x4000) / 16)).word hi
  else if o < 0x6000 then (tget {} c.vec.counts ((o - 0x5000) / 16)).word hi
  else if o = 0x6000 then c.vec.lost.zeroExtend 64
  else if o = 0x6008 then c.vec.empty.zeroExtend 64
  else if o = 0x6010 then BitVec.ofNat 64 c.vec.dq.length
  else if o = 0x6100 then c.mx.statWord
  else if o < 0x7100 then
    let h := s.h (BitVec.ofNat 4 ((o - 0x7000) / 16))
    if hi then h.word1 else h.word0
  else if o < 0x7C00 then
    let g := s.shapes ((o - 0x7800) / 128)
    BitVec.ofNat 64 (fld (if (o - 0x7800) % 128 < 64 then g.1 else g.2).toNat (8 * ((o - 0x7800) % 64)) 64)
  else if o = 0x7C00 then BitVec.ofNat 64 (min 16 c.copy.jobs.length + (!c.copy.err.isEmpty).toNat * 2 ^ 16)
  else if o = 0x7C08 then c.copy.bytes
  else if o = 0x7C10 then BitVec.ofNat 64 (s.locksHeld s.bound.ctx + (s.ctx s.bound.ctx).lockq.toNat * 2 ^ 32)
  else if o < 0xC000 then (tget {} c.copy.tags ((o - 0x8000) / 16)).word hi
  else if o < 0xD000 then
    let ch : Chan := tget {} c.chans ((o - 0xC000) / 64)
    match (o - 0xC000) % 64 with
    | 0 => ch.word0
    | 8 => ch.peer &&& chanPeerMask
    | 16 => ch.word2
    | _ => 0
  else c.chdrop.zeroExtend 64

/-- The offset of an ENGW or ENGR, then the access (R227). -/
def State.engAccess (s : State) (w : Word) (k : State → Nat → State) : State :=
  if w.toNat % 8 ≠ 0 then s.misalign w 8 else if engMap w.toNat then k s w.toNat else s.illegal

/-- Would the write open a channel entry that may not open (R373)? -/
def State.badOpen (s : State) (o : Nat) (w : Word) : Bool :=
  let c : Chan := tget {} s.core.chans ((o - 0xC000) / 64)
  decide (0xC000 ≤ o) && decide (o < 0xD000) && (o - 0xC000) % 64 == 0 && w.getLsbD 0 && c.state == .closed &&
  !({ c with ctl := w }.openable s.coreId s.devNum)

def execEngw (a b : BitVec 6) (s : State) : Out :=
  .next (s.engAccess (s.x a) fun s o => if s.badOpen o (s.x b) then s.illegal else s.result 1 (.eng o (s.x b)))

def execEngr (a b : BitVec 6) (s : State) : Out := .next (s.engAccess (s.x a) fun s o => s.setX b (s.engRead o) 4)

end Sys2Proof.Machine
end

