-- ==== Sys2Proof/Machine/Matrix.lean ====
section
/-! DEFINITION. The matrix engine: claim, tags, commands, the array's arithmetic and the run of the units (spec 06_matrix.md R163 to R179;
04_numbers.md R104 to R120). -/

namespace Sys2Proof.Machine

/-- The fc code of a class (R55). -/
def FClass.code : FClass → Nat
  | .b16 => 0
  | .fp8 => 1
  | .fp4 => 2
  | .int8 => 3

/-- Element width and chunk length of a class (R165). -/
def clsBits (cls : Nat) : Nat := if cls = 0 then 16 else if cls = 2 then 4 else 8
def clsChunk (cls : Nat) : Nat := if cls = 0 then 128 else if cls = 2 then 512 else 256

/-- The class of a pair, and its plane kind (R169, R173). -/
def MPair.cls : MPair → Nat
  | .bf16 | .fp16 => 0
  | .fp8 => 1
  | .db4 | .mx4 => 2
  | .int8 => 3
def MPair.kind : MPair → PlaneKind
  | .int8 => .int32
  | _ => .fp32

/-- Does a pair accept an operand's scale kind (R169)? -/
def MPair.takes (p : MPair) (skind : Nat) : Bool :=
  match p with
  | .fp8 => skind == 0 || skind == 2
  | .db4 => skind == 1
  | .mx4 => skind == 2
  | _ => skind == 0

/-! ### Arithmetic of the array (R118 to R120, R174, R175) -/

/-- Element at position `i` of a slot (R163). -/
def OpSlot.elem (o : OpSlot) (bits i : Nat) : Nat := elemOf bits o.elems.toNat i

/-- The block scale of row `r`, block `b`, and the band scale of row `r` (R163, R167). -/
def OpSlot.scale (o : OpSlot) (r b : Nat) : Nat := elemOf 8 o.scales.toNat (r * 64 + b)
def OpSlot.band (o : OpSlot) (r : Nat) : Nat := elemOf 16 o.bands.toNat (r / 64)

/-- The exact value of an operand element, in quanta 2^-160: `r` is the row of A or the column of B, `k` the K index (R174). -/
def operand (pair : MPair) (five : Bool) (skind : Nat) (o : OpSlot) (code r k : Nat) : FVal :=
  match pair with
  | .bf16 => bf16.decode code
  | .fp16 => fp16.decode code
  | .fp8 => if skind = 2 then mxValue (fp8Kind five) code (o.scale r (k / 32)) else (fp8Kind five).decode code
  | .db4 => db4Value code (o.scale r (k / 8)) (o.band r)
  | .mx4 => mxValue e2m1 code (o.scale r (k / 32))
  | .int8 => .fin (decide (sval 8 code < 0)) (sval 8 code).natAbs

/-- The weight of an MMAQ, dequantised and rounded to BF16, with its flush (R175). -/
def weight (int4 : Bool) (code scale : Nat) : FVal × Ev :=
  let q : FVal := if int4 then .fin (decide (sval 4 code < 0)) ((sval 4 code).natAbs * 2 ^ quantBits) else e2m1.decode code
  let (c, e) := bf16.encode (2 * quantBits) (q.mul (bf16.decode scale))
  (bf16.decode c, e)

/-- One update of a cell: the accumulator's new code and its events (R118 to R120). -/
def cellStep (int : Bool) (acc : Nat) (products : List FVal) : Nat × Ev :=
  if int then
    let s := sval 32 acc + products.foldl (fun t p => t + p.toInt) 0
    if s < -2 ^ 31 then (0x80000000, { sat := 1 })
    else if 2 ^ 31 ≤ s then (0x7FFFFFFF, { sat := 1 })
    else (ofSval 32 s, {})
  else fp32.encode (2 * quantBits) (FVal.sum ((fp32.decode acc).scale quantBits :: products))

/-- K indices of cycle `n` of a chunk (R118). -/
def chunkKs (cls n : Nat) : List Nat :=
  let w := if cls = 0 then 1 else if cls = 2 then 4 else 2
  (List.range w).map fun t => n * w + t

/-- The products' factors in cycle `n`: rows of A and columns of B as lists over the cycle's K indices, with the events of dequantisation. -/
def MxCmd.factors (c : MxCmd) (a b : OpSlot) (n : Nat) : (Nat → List FVal) × (Nat → List FVal) × Ev :=
  if c.op = .mmaq then
    let ws := fun j : Nat => weight c.alt (b.elem 4 (n * 128 + j)) (scEntry c.scVal j)
    (fun i => [bf16.decode (a.elem 16 (i * 128 + n))], fun j => [(ws j).1], Ev.sumTo 128 fun j => (ws j).2)
  else
    let bits := clsBits c.cls
    let ks := chunkKs c.cls n
    (fun i => ks.map fun k => operand c.pair c.ae5 c.skind a (a.elem bits (i * clsChunk c.cls + k)) i k,
     fun j => ks.map fun k => operand c.pair c.be5 c.skindB b (b.elem bits (k * 128 + j)) j k, {})

/-- Cycle `n` of an array command on a plane: its new rows and the events (R118, R174 to R176). (Open points: DEDUCED, log 83.) -/
def MxCmd.cycle (c : MxCmd) (a b : OpSlot) (p : Plane) (n : Nat) : Plane × Ev :=
  if c.op = .mzero then ({ p with rows := [] }, {})
  else
    let int := c.op = .mma ∧ c.pair = .int8
    let f := c.factors a b n
    let cols := (List.range 128).map f.2.1
    let row := fun i : Nat =>
      let old := if n = 0 ∧ !c.acc then 0 else tget 0 p.rows i
      let av := f.1 i
      cols.foldl (fun (acc : List Nat × Ev × Nat) bv =>
        let r := cellStep int (vElem 32 old acc.2.2) (List.zipWith FVal.mul av bv)
        (r.1 :: acc.1, acc.2.1.add r.2, acc.2.2 + 1)) ([], {}, 0)
    let rows := (List.range 128).map fun i => (i, row i)
    ({ p with rows := rows.map fun r => (r.1, ofElems 32 fun j => r.2.1.getD (127 - j) 0) },
     (rows.foldl (fun e r => e.add r.2.2.1) f.2.2))

/-! ### The tile that MLOAD takes (R167) -/

/-- Element `e` of the packed bytes from `base` on. -/
def State.spadElem (s : State) (base bits e : Nat) : Nat := elemOf bits (s.spadNat (base + e * bits / 8) ((bits + 7) / 8)) (if bits = 4 then e % 2 else 0)

namespace State

/-- The command with its snapshot of the scratchpad (R167, R168). (Open points: DEDUCED, log 38.) -/
def mloadTake (s : State) (c : MxCmd) : MxCmd :=
  let bits := clsBits c.cls
  let kc := clsChunk c.cls
  let at' := fun (sr col : Nat) => if sr < c.rows ∧ col < c.cols then s.spadElem (c.base + sr * c.stride) bits col else 0
  let elems := packElems bits (128 * kc) fun i =>
    if c.formB then (if c.alt then at' (i % 128) (i / 128) else at' (i / 128) (i % 128)) else at' (i / kc) (i % kc)
  let blk := blockLen c.skind
  let scales := if c.skind = 0 then 0
    else packElems 8 8192 fun i =>
      if i / 64 < c.rows ∧ i % 64 * blk < c.cols then (s.spadByte (c.soff + i / 64 * c.sstride + i % 64)).toNat else 0
  let bands := if c.skind = 1 then s.spadNat c.bandoff 4 else 0
  { c with elems := BitVec.ofNat 262144 elems, scales := BitVec.ofNat 65536 scales, bands := BitVec.ofNat 32 bands }

/-! ### Issue -/

/-- FORMAT (R38, R173). -/
def format (s : State) (reason expected found : Nat) : State :=
  s.raise { code := 0x03, detail := BitVec.ofNat 32 (reason * 256 + expected % 16 * 16 + found % 16) }

/-- The tests that every MX syllable but MCLAIM meets (R164, R170, R178), then the syllable. -/
def mxGate (s : State) (claim : Bool) (k : State → State) : State :=
  if s.core.regs.z.stat.tm || s.core.front.released then s.illegal
  else if claim && !s.core.mx.claim then s.illegal
  else if (s.core.mx.mcfgAt.map fun c => c + 1) = some s.core.cycle then s.format 6 0xF 0xF
  else k s

/-- The exchange of the gm registers that sw asks for (R214). -/
def swapGm (s : State) (w : Bool) : State := if w then s.result 1 (.swap false 0xF) else s

/-- Field `f` of the copy of gm register `k` that a syllable reads (R166, R214). -/
def gmField (s : State) (w : Bool) (k f : Nat) : Nat :=
  let c := s.shapes k
  elemOf 32 (if w then c.2 else c.1).toNat f

/-- Queue a command; with 2 commands waiting it stalls issue (R171). -/
def mxQueue (s : State) (c : MxCmd) (k : State → State) : State :=
  if 2 ≤ s.core.mx.queue.length then s.modFront fun f => { f with hold := .stall }
  else
    let (s, t) := s.takeTicket
    k (s.modMx fun m => { m with queue := m.queue ++ [{ c with ticket := t, since := s.core.cycle, tid := s.tid, pair := s.core.mx.pair, ae5 := s.core.mx.ae5, be5 := s.core.mx.be5 }] })

/-- The tag of a slot, and the code that FORMAT reports of it: 0xF for the wrong form or none (R173). -/
def slotTag (s : State) (n : Nat) : Option SlotTag := (tget {} s.core.mx.slots n).tag
def tagFound (t : Option SlotTag) (formB : Bool) : Nat :=
  match t with
  | some g => if g.formB = formB then g.cls else 0xF
  | none => 0xF

/-- Is the tag of this form and class, with a scale kind that the pair accepts (R173)? -/
def tagOk (t : Option SlotTag) (formB : Bool) (cls : Nat) (takes : Nat → Bool) : Bool :=
  match t with
  | some g => g.formB == formB && g.cls == cls && takes g.skind
  | none => false

/-- Codes of plane kinds in FORMAT (R173). -/
def kindFound (k : PlaneKind) : Nat := 4 + k.code

/-- Has an array command been issued on the plane and not ended (R172)? (Open points: DEDUCED, log 37.) -/
def planeBusy (s : State) (p : Nat) : Bool :=
  (s.core.mx.queue ++ s.core.mx.array.toList).any fun c => c.op != .mload && c.plane == p

/-- Set the kind of a plane (R174, R176). -/
def setKind (s : State) (p : Nat) (k : PlaneKind) : State :=
  s.modMx fun m => { m with planes := tmod {} m.planes p fun q => { q with kind := k } }

/-- Accumulation into a plane of another kind, then what follows (R173, reason 5). -/
def kindCheck (s : State) (acc : Bool) (p : Nat) (want : PlaneKind) (k : State → State) : State :=
  let found := s.core.mx.kind p
  if acc ∧ found ≠ .zero ∧ found ≠ want then s.format 5 (kindFound want) (kindFound found) else k s

end State

/-- Open points: DEDUCED, log 39. -/
def execMclaim (s : State) : Out :=
  .next (s.mxGate false fun s =>
    if s.core.mx.claim then s
    else s.modMx fun m => { m with
      claim := true, pair := .bf16, ae5 := false, be5 := false
      slots := m.slots.map fun kv => (kv.1, { kv.2 with tag := none })
      planes := m.planes.map fun kv => (kv.1, { kv.2 with kind := .none }) })

def execMrel (s : State) : Out := .next (s.mxGate true State.mxRelease)

/-! ### MLOAD (R166 to R168) -/

/-- MLOAD of a form: `formB` for B and BT, `bt` for the transposing one (R167). (Open points: DEDUCED, log 38.) -/
def State.mload (s : State) (slot a : BitVec 6) (w : Bool) (fc : FClass) (hd : BitVec 4) (formB bt : Bool) : State :=
  s.mxGate true fun s =>
    if 2 ≤ s.core.mx.queue.length then s.modFront fun f => { f with hold := .stall }
    else
      s.withHandle hd true fun s =>
        let cls := FClass.code fc
        let kc := clsChunk cls
        let g := if formB then 1 else 0
        let base := ((s.x a).toNat + (if hd = 0 then 0 else (s.h hd).headSlot)) % 2 ^ 64
        let sk := s.gmField w (g + 2) 0
        let c : MxCmd := { op := .mload, slotA := slot.toNat, alt := bt, formB := formB, cls := cls, skind := sk, base := base
                           rows := s.gmField w g 0, cols := s.gmField w g 1, stride := s.gmField w g 2, soff := s.gmField w (g + 2) 1
                           sstride := s.gmField w (g + 2) 2, bandoff := s.gmField w (g + 2) 3, hd := hd.toNat }
        let maxRows := if formB && !bt then kc else 128
        let maxCols := if formB && !bt then 128 else kc
        let bytes := (if 2 < sk then { c with skind := 0 } else c).reads
        if base % 32 ≠ 0 ∨ c.stride % 32 ≠ 0 then s.misalign (BitVec.ofNat 64 base) 32
        else if maxRows < c.rows ∨ maxCols < c.cols then s.illegal
        else if bytes.any fun r => !s.spadOk r.lo (r.hi - r.lo) then s.illegal
        else if 2 < sk ∨ (sk = 1 ∧ cls ≠ 2) ∨ (sk = 2 ∧ cls ≠ 1 ∧ cls ≠ 2) ∨ (sk ≠ 0 ∧ formB ∧ !bt) then s.format 4 cls (min sk 15)
        else if sk ≠ 0 ∧ c.cols % blockLen sk ≠ 0 then s.illegal
        else
          s.withFootprint 2 { reads := c.reads } fun s =>
            s.mxQueue c fun s =>
              ((s.handleStart hd.toNat false).modMx fun m => { m with slots := tmod {} m.slots slot.toNat fun o =>
                { o with tag := some { formB := formB, cls := cls, skind := sk } } }).swapGm w

def execMloadA (n a : BitVec 6) (w : Bool) (c : FClass) (h : BitVec 4) (s : State) : Out := .next (s.mload n a w c h false false)
def execMloadB (n a : BitVec 6) (w : Bool) (c : FClass) (h : BitVec 4) (s : State) : Out := .next (s.mload n a w c h true false)
def execMloadBt (n a : BitVec 6) (w : Bool) (c : FClass) (h : BitVec 4) (s : State) : Out := .next (s.mload n a w c h true true)

/-! ### MMA, MMAQ, MZERO, MDRAIN, MCFG (R169 to R177) -/

/-- MMA (R173, R174). -/
def State.mma (s : State) (a b : BitVec 6) (pl w : Bool) (fc : FClass) (acc : Bool) : State :=
  s.mxGate true fun s =>
    if 2 ≤ s.core.mx.queue.length then s.modFront fun f => { f with hold := .stall }
    else
      let m := s.core.mx
      let cls := FClass.code fc
      let ta := s.slotTag a.toNat
      let tb := s.slotTag b.toNat
      if MPair.cls m.pair ≠ cls then s.format 1 (MPair.cls m.pair) cls
      else if !State.tagOk ta false cls (MPair.takes m.pair) then s.format 2 cls (State.tagFound ta false)
      else if !State.tagOk tb true cls (MPair.takes m.pair) then s.format 3 cls (State.tagFound tb true)
      else
        s.kindCheck acc pl.toNat (MPair.kind m.pair) fun s =>
          s.mxQueue { op := .mma, slotA := a.toNat, slotB := b.toNat, plane := pl.toNat, acc := acc, cls := cls
                      skind := (ta.map SlotTag.skind).getD 0, skindB := (tb.map SlotTag.skind).getD 0 } fun s =>
            (s.setKind pl.toNat (MPair.kind m.pair)).swapGm w

def execMma (a b : BitVec 6) (l w : Bool) (c : FClass) (s : State) : Out := .next (s.mma a b l w c false)
def execMmaAcc (a b : BitVec 6) (l w : Bool) (c : FClass) (s : State) : Out := .next (s.mma a b l w c true)

/-- MMAQ (R175). (Open points: DEDUCED, log 39.) -/
def State.mmaq (s : State) (a b : BitVec 6) (pl w : Bool) (sc : BitVec 4) (int4 acc : Bool) : State :=
  s.mxGate true fun s =>
    if 2 ≤ s.core.mx.queue.length then s.modFront fun f => { f with hold := .stall }
    else
      let m := s.core.mx
      let ta := s.slotTag a.toNat
      let tb := s.slotTag b.toNat
      let plain := fun k : Nat => k == 0
      if m.pair ≠ .bf16 then s.format 7 0 (mPairCode m.pair)
      else if !State.tagOk ta false 0 plain then s.format 2 0 (State.tagFound ta false)
      else if !State.tagOk tb true 2 plain then s.format 3 2 (State.tagFound tb true)
      else
        s.kindCheck acc pl.toNat .fp32 fun s =>
          s.mxQueue { op := .mmaq, slotA := a.toNat, slotB := b.toNat, plane := pl.toNat, acc := acc, alt := int4, sc := sc.toNat } fun s =>
            (s.setKind pl.toNat .fp32).swapGm w

def execMmaqF4 (a b : BitVec 6) (l w : Bool) (c : BitVec 4) (s : State) : Out := .next (s.mmaq a b l w c false false)
def execMmaqF4Acc (a b : BitVec 6) (l w : Bool) (c : BitVec 4) (s : State) : Out := .next (s.mmaq a b l w c false true)
def execMmaqI4 (a b : BitVec 6) (l w : Bool) (c : BitVec 4) (s : State) : Out := .next (s.mmaq a b l w c true false)
def execMmaqI4Acc (a b : BitVec 6) (l w : Bool) (c : BitVec 4) (s : State) : Out := .next (s.mmaq a b l w c true true)

def execMzero (l : Bool) (s : State) : Out :=
  .next (s.mxGate true fun s => s.mxQueue { op := .mzero, plane := l.toNat } fun s => s.setKind l.toNat .zero)

/-- Open points: DEDUCED, log 37. -/
def execMdrain (l w : Bool) (s : State) : Out :=
  .next (s.mxGate true fun s =>
    if s.planeBusy l.toNat || s.core.mx.drain.isSome then s.illegal
    else (s.modMx fun m => { m with drain := some ⟨l.toNat, 0⟩ }).swapGm w)

def execMcfg (b a : Bool) (p : MPair) (s : State) : Out :=
  .next (s.mxGate true fun s => s.modMx fun m => { m with pair := p, ae5 := a, be5 := b, mcfgAt := some s.core.cycle })

/-! ### The units (R171, R172, R178) -/

/-- Does a queued command wait for an earlier one (R172)? -/
def MxCmd.waitsFor (c e : MxCmd) : Bool :=
  match c.op, e.op with
  | .mload, .mload => c.slotA == e.slotA
  | .mload, .mzero => false
  | .mload, _ => c.slotA == e.slotA || c.slotA == e.slotB
  | .mzero, .mload => false
  | _, .mload => c.slotA == e.slotA || c.slotB == e.slotA
  | _, _ => c.plane == e.plane

/-- Cycles for which a command occupies its unit (R171). (Open points: DEDUCED, log 83.) -/
def MxCmd.length (c : MxCmd) : Nat :=
  match c.op with
  | .mload => 64
  | .mzero => 1
  | _ => 128

namespace State

/-- The MLOAD on the load path has ended: its slot is written and its handle updated (R167, R168). -/
def loadEnd (s : State) (c : MxCmd) : State :=
  let s := s.modMx fun m => { m with
    load := none
    slots := tmod {} m.slots c.slotA fun o => { o with elems := c.elems, scales := c.scales, bands := c.bands } }
  s.handleEnd c.hd false c.ticket

/-- A cycle of the load path has ended. (Open points: DEDUCED, log 83.) -/
def loadCycle (s : State) : State :=
  match s.core.mx.load with
  | none => s
  | some c => if c.length ≤ c.done + 1 then s.loadEnd c else s.modMx fun m => { m with load := some { c with done := c.done + 1 } }

/-- A cycle of the array has ended: its updates and its events (R118, R132, R174). (Open points: DEDUCED, log 83.) -/
def arrayCycle (s : State) : State :=
  match s.core.mx.array with
  | none => s
  | some c =>
    let m := s.core.mx
    let r := c.cycle (tget {} m.slots c.slotA) (tget {} m.slots c.slotB) (tget {} m.planes c.plane) c.done
    let s := s.countStat c.tid { sat := r.2.sat, flush := r.2.flush, nan := r.2.nan }
    s.modMx fun m => { m with
      planes := tset m.planes c.plane { r.1 with kind := (tget {} m.planes c.plane).kind }
      array := if c.length ≤ c.done + 1 then none else some { c with done := c.done + 1 } }

/-- May the command at the head of the queue start (R171, R172)? -/
def mxReady (s : State) (c : MxCmd) : Bool :=
  let m := s.core.mx
  let running := m.load.toList ++ m.array.toList
  (if c.op = .mload then m.load.isNone else m.array.isNone) && !(running.any c.waitsFor) &&
  (match m.drain with
   | some d => c.op == .mload || d.plane != c.plane
   | none => true) &&
  decide (c.since < s.core.cycle) && (c.op != .mload || s.det || (s.conflict? 2 c.ticket { reads := c.reads }).isNone)

/-- The command at the head of the queue starts, if it may: MLOAD takes its snapshot, MMAQ its scale register (R167, R175). (Open points: DEDUCED, log 39.) -/
def mxStart (s : State) : State :=
  match s.core.mx.queue with
  | [] => s
  | c :: rest =>
    if s.mxReady c then
      let s := s.modMx fun m => { m with queue := rest }
      match c.op with
      | .mload => (s.readSlots ((c.reads).map fun r => (r.lo, r.hi))).modMx fun m => { m with load := some (s.mloadTake c) }
      | _ => s.modMx fun m => { m with array := some { c with scVal := s.core.regs.sc[c.sc]?.getD 0 } }
    else s

/-- One core cycle of the engine: units that ran in the cycle before advance, then commands start in program order (R171). FREEZE stops it (R99). (Open points: DEDUCED, log 83.) -/
def mxTick (s : State) : State := if s.frozen then s else s.loadCycle.arrayCycle.mxStart.mxStart

/-- The end of an advancing cycle for the forwarding latch (R157, R158): a row that nothing read is lost. (Open points: DEDUCED, log 82.) -/
def drainTick (s : State) (read : Bool) : State :=
  match s.core.mx.drain with
  | none => s
  | some d =>
    let s := if (s.core.mx.row?).isSome && !read then
        s.modVec fun v => { v with lost := BitVec.ofNat 32 (satAdd 32 v.lost.toNat 1) }
      else s
    s.modMx fun m => { m with drain := if 135 ≤ d.age then none else some { d with age := d.age + 1 } }

end State

end Sys2Proof.Machine
end

