-- ==== Sys2Proof/Machine/System.lean ====
section
/-! DEFINITION. System registers, LAUNCH, CANCEL and WDOG (spec 01_task.md R32, R35 to R37; 03_scalar_control.md R88, R92, R93, R99 to R103;
06_matrix.md R187; 09_cluster.md R250, R257; 10_memory_model.md R262, R263; 11_translation_scheduling.md R289, R299, R306, R307; 12_hbm.md R324;
14_fabric.md R371). -/

namespace Sys2Proof.Machine

/-- Bits of a set of the four cores of a cluster. -/
def lowest4 (m : BitVec 4) : Nat := (firstTo 4 fun i => m.getLsbD i).getD 0

/-- LOGCFG, SCHEDCFG, MINSLICE as words (R263, R299, R306). -/
def Die.logCfgWord (d : Die) : Word := d.logStall.zeroExtend 64
def Die.schedWord (d : Die) : Word := BitVec.ofNat 64 (d.dev.toNat + d.ageShift.toNat * 2 ^ 12)

/-- MIGPHASE as a word (R324). -/
def Trav.phaseWord (t : Trav) : Word :=
  let st := match t.state with
    | .idle => 0
    | .relocate => 1
    | .sweep => 2
    | .hold => 3
  BitVec.ofNat 64 (t.retired.length + t.pend.isSome.toNat * 2 ^ 17 + st * 2 ^ 18 + t.retStack * 2 ^ 20 + t.pend.getD 0 * 2 ^ 24)

/-- SPCFG as a word (R257). -/
def SpireGroup.cfgWord (g : SpireGroup) : Word :=
  BitVec.ofNat 64 (g.mask.toNat + g.staged.isSome.toNat * 2 ^ 31 + g.n.toNat * 2 ^ 32 + g.arrived.toNat * 2 ^ 48)

/-- A word of an address window (R289). -/
def Window.word (w : Window) : Nat → Word
  | 0 => w.v
  | 1 => w.l
  | 2 => w.i
  | _ => w.a

namespace State

/-- ZCLU (R250). -/
def cluWord (s : State) : Word :=
  let n := lowCore s.coreId
  let g := (s.cluster (clusterOf s.coreId)).groups.find? fun g => g.mask.getLsbD n
  let low := match g with
    | some g => g.mask.toNat * 2 ^ 8 + lowest4 g.mask * 2 ^ 6 + (g.coupled.getLsbD n).toNat * 2 ^ 5 + 2 ^ 4
    | none => 0
  BitVec.ofNat 64 (n + low + s.core.regs.z.divcnt.toNat * 2 ^ 16)

/-- ZLOG (R262). -/
def logWord (s : State) : Word :=
  let spilled := sumList ((s.mem.recs.filter fun r => r.core == s.coreId && r.spilled).map Rec.size)
  BitVec.ofNat 64 (s.mem.logUsed s.coreId / 32 + min 0xFFFF (spilled / 1024) * 2 ^ 32 + s.core.regs.z.logStalls.toNat * 2 ^ 48)

/-- The mirror of a barrier group at the core's cluster node (R251, R257). -/
def mirror (s : State) (g : Nat) : SpireGroup := tget {} (s.cluster (clusterOf s.coreId)).mirror g

/-- A system register as it stands (R37, R93 and the chapters named there); `none` for an unassigned number. -/
def sysNow (s : State) (n : Nat) : Option Word :=
  let z := s.core.regs.z
  let d := s.die s.myDie
  if 0x0008 ≤ n ∧ n ≤ 0x000B then some (BitVec.ofNat 64 (((tget? s.core.front.loops (n - 8)).map LoopLevel.rem).getD 0))
  else if 0x0060 ≤ n ∧ n < 0x0080 then some ((tget {} (s.ctx s.bound.ctx).aws ((n - 0x60) / 4)).word ((n - 0x60) % 4))
  else if 0x0100 ≤ n ∧ n < 0x0150 then some (s.mirror (n - 0x100)).gen
  else if 0x0180 ≤ n ∧ n < 0x01D0 then some (s.mirror (n - 0x180)).cfgWord
  else
    match n with
    | 0x0000 => some z.stat.word
    | 0x0001 => some z.cause.word
    | 0x0002 => some z.addr
    | 0x0003 => some z.bundle
    | 0x0004 => some (z.snapLen.zeroExtend 64)
    | 0x0005 => some z.tvec
    | 0x0006 => some (z.tid.zeroExtend 64)
    | 0x0007 => some z.abortWord
    | 0x0010 => some (BitVec.ofNat 64 (s.core.front.step.toNat + 2 * s.core.front.freeze.toNat))
    | 0x0012 => some (z.graph.zeroExtend 64)
    | 0x0013 => some (z.phase.zeroExtend 64)
    | 0x0014 => some (z.job.zeroExtend 64)
    | 0x0020 => some z.rkey
    | 0x0021 => some z.rstr
    | 0x0022 => some z.rpos
    | 0x0030 => some s.cluWord
    | 0x0040 => some s.logWord
    | 0x0041 => some d.logCfgWord
    | 0x0050 => some z.wdogWord
    | 0x0051 => some (d.minSlice.zeroExtend 64)
    | 0x0052 => some d.schedWord
    | 0x0053 => some d.abortCnt
    | 0x0090 => some (BitVec.ofNat 64 s.trav.capLive)
    | 0x0091 => some s.trav.phaseWord
    | 0x00A0 => some z.rmtWord
    | _ => none

/-- Z[n] as a syllable reads it (R19, R25). -/
def sys (s : State) (n : Nat) : Option Word :=
  match tget? s.image.z n with
  | some w => some w
  | none => s.sysNow n

end State

def execMfs (d : BitVec 6) (n : BitVec 13) (s : State) : Out :=
  .next (match s.sys n.toNat with
    | some w => s.setX d w 1
    | none => s.illegal)

/-- The numbers that MTS writes (R37, R187). -/
def mtsWrites (n : Nat) : Bool := n == 0 || n == 5 || n == 6 || n == 0x20 || n == 0x21 || n == 0x22

def execMts (a : BitVec 6) (n : BitVec 13) (s : State) : Out :=
  .next (match s.sys n.toNat with
    | none => s.illegal
    | some _ => if mtsWrites n.toNat then s.result 1 (.z n.toNat (s.x a)) else s)

/-! ### LAUNCH (R101, R102) -/

namespace State

/-- The ring register of a ring of the bound context: launch rings are 0-63, network rings 64-127 (R346, R388). -/
def ringReg (s : State) (ring : Nat) : Word :=
  if ring < 64 then tget 0 (s.ctx s.bound.ctx).rings ring else tget 0 (s.ctx s.bound.ctx).netRings (ring - 64)

/-- A submission waits for its turn to publish, and publishes (R347); `fin` is what follows. (Open points: DEDUCED, log 27.) -/
def submitPublish (s : State) (ring k : Nat) (fin : State → State) : State :=
  match s.core.published with
  | some _ => fin (s.modCore fun c => { c with published := none })
  | none =>
    match s.ringTry (s.ringReg ring) k with
    | (s, false) => s.hold
    | (s, true) => fin (s.modCore fun c => { c with published := none })

/-- The ring is full: no slot of the bundle commits, and the task suspends before it (R102). (Open points: DEDUCED, log 27.) -/
def submitFull (s : State) (ring : Nat) : State :=
  if s.core.regs.z.stat.tm then s.suspendMasked
  else s.beforeLeaving fun s => s.modFront fun f =>
    { f with run := none, leaving := some (.fullRing ring, s.bundleAddr), idemNext := (f.run.map Run.byIdem).getD false }

/-- Submit an entry that has been read. -/
def submitEntry (s : State) (ring : Nat) (bs : List Byte) (fin : State → Nat → State) : State :=
  let w := s.ringReg ring
  if ringLog w = 0 then s.illegal
  else
    match s.ringWords s.myDie w with
    | (s, none) => s.holdPage (ringBase w)
    | (s, some (res, _, con)) =>
      if 2 ^ ringLog w ≤ res - con then s.submitFull ring
      else
        match s.ringReserve s.myDie w res bs with
        | (s, true) => (s.modCore fun c => { c with slotHeld := some (ring, res) }).submitPublish ring res fun s => fin s res
        | (s, false) => s.holdPage (ringEntry w res)

/-- The producer steps of LAUNCH and NETPOST on a 64-byte entry at `va` (R101, R347, R389); `fin` follows with the slot. (Open points: DEDUCED, log 27.) -/
def submit (s : State) (va : Word) (ring : Nat) (check : State → List Byte → (State → State) → State) (fin : State → Nat → State) : State :=
  match s.core.slotHeld, s.core.published with
  | some (r, k), _ => s.submitPublish r k fun s => fin s k
  | none, some k => s.submitPublish ring k fun s => fin s k
  | none, none =>
    if s.core.front.holdPage.isSome then s.hold
    else if va.toNat % 64 ≠ 0 then s.misalign va 64
    else
      match (s.ctx s.bound.ctx).translate? va.toNat .rd with
      | none => s.noWindow va
      | some c =>
        if s.isRemote c.ia then s.illegal
        else
          let (s, w) := s.walk s.myDie c.ia
          match w with
          | .page pa _ =>
            let (s, g) := s.viewRead c.ia pa 64
            if g.lost then s.uncorrectable c.ia pa else check s g.data fun s => s.submitEntry ring g.data fin
          | w => (s.walkFails c.ia w).getD s

end State

def execLaunch (a r : BitVec 6) (s : State) : Out :=
  .next (s.submit (s.x a) r.toNat (fun s _ k => k s) fun s k =>
    let g := (s.boundLaunch.map Launch.graph).getD 0
    (s.modSched fun q => { q with submits := q.submits ++ [{ ctx := s.bound.ctx, ring := r.toNat, slot := k, parent := g }] }).modRun
      fun r => { r with ended := true })

def execCancel (a : BitVec 6) (l : CLevel) (s : State) : Out := .next (s.cancelUnit l (fld (s.x a).toNat 0 32))

/-- WDOG (R307). -/
def execWdog (d a : BitVec 6) (s : State) : Out :=
  let cap := (s.boundLaunch.map Launch.wdcap).getD 0
  let want := fld (s.x a).toNat 0 32
  let s := s.setX d s.core.regs.z.wdogWord 1
  .next (if want = 0 then s else s.modZ fun z => { z with budget := BitVec.ofNat 32 (min want cap) })

end Sys2Proof.Machine
end

