-- ==== Sys2Proof/Machine/Tile.lean ====
section
/-! DEFINITION. The tile sequencer and the completion counters (spec 11_translation_scheduling.md R301 to R304). -/

namespace Sys2Proof.Machine

/-- A sequencer descriptor (R301). -/
structure TileDesc where
  ext : List Nat
  perm : List Nat
  slice : Nat
  cursor : Nat
  deriving DecidableEq, Repr

/-- Read a descriptor; `none` where R302 makes it ILLEGAL. -/
def TileDesc.ofBytes (bs : List Byte) : Option TileDesc :=
  let ext := (List.range 4).map fun d => at' bs (4 * d) 4
  let perm := (List.range 4).map fun k => fld (at' bs 16 1) (2 * k) 2
  let slice := at' bs 20 4
  if [0, 1, 2, 3].all (fun d => perm.contains d) && at' bs 17 3 == 0 && slice != 0 && ext.all (fun e => decide (e ≤ 65536)) then
    some ⟨ext, perm, slice, at' bs 24 8⟩
  else none

/-- Iterations of the whole nest (R301). -/
def TileDesc.total (d : TileDesc) : Nat := d.ext.foldl (· * ·) 1

/-- The coordinates of a linear index, 16 bits each by dimension number (R302). -/
def TileDesc.coords (d : TileDesc) (i : Nat) : Nat :=
  (d.perm.foldl (fun (acc : Nat × Nat) dim =>
    let e := d.ext.getD dim 1
    (acc.1 + acc.2 % e * 2 ^ (16 * dim), acc.2 / e)) (0, i)).1

namespace State

/-- Slice number `k` goes to x8, x9 and x10 (R302). -/
def takeSlice (s : State) (d : TileDesc) (k : Nat) : State :=
  let start := k * d.slice
  let cnt := if d.total ≤ start then 0 else min d.slice (d.total - start)
  ((s.setX 8 (BitVec.ofNat 64 (if cnt = 0 then d.total else start)) 1).setX 9 (BitVec.ofNat 64 cnt) 1).setX 10
    (BitVec.ofNat 64 (if cnt = 0 then 0 else d.coords start)) 1

/-- A counter or descriptor of this device, as AMO's checks have it (R275, R302, R304): one elsewhere is ILLEGAL. -/
def tileAccess (s : State) (va : Word) (n : Nat) (p : Perm) (k : State → Access → State) : State :=
  s.syncAccess va n p .die k

end State

/-- Open points: DEDUCED, log 36. -/
def execTseq (a : BitVec 6) (s : State) : Out :=
  .next (s.tileAccess (s.x a) 64 .rdw fun s c =>
    s.withPage c.ia fun s pa _ =>
      let (s, g) := s.viewRead c.ia pa 64
      if g.lost then s.uncorrectable c.ia pa
      else
        match TileDesc.ofBytes g.data with
        | none => s.illegal
        | some d =>
          if s.det then (s.takeSlice d s.bound.index).endRegion
          else if s.loadsOut || (s.core.released.isNone && s.imageWait (c.ia + 24)) then s.hold
          else
            s.withRoom (c.ia + 24) fun s =>
              s.withRelease false (fun s st => (s.publish (c.ia + 24) s.myDie st, 0)) fun s _ again =>
                s.withAcquire (varOf (c.ia + 24)) false (s.varSources (c.ia + 24)) .package again fun s =>
                  s.withAtomic (c.ia + 24) (pa + 24) 8 (fun v => some (v + 1)) again fun s old => (s.takeSlice d old.toNat).endRegion)

def execCcadd (a b : BitVec 6) (s : State) : Out :=
  .next (s.tileAccess (s.x a) 8 .rdw fun s c =>
    if s.loadsOut then s.hold
    else
      s.syncWord c.ia 8 fun s pa _ =>
        if s.core.released.isNone && s.imageWait c.ia then s.hold
        else
          s.withRoom c.ia fun s =>
            s.withRelease false (fun s st => (s.publish c.ia s.myDie st, 0)) fun s _ again =>
              s.withAtomic c.ia pa 8 (fun v => some (v + s.x b)) again fun s _ => s.endRegion)

/-- Has the counter of a CCWAIT reached its value? A failure counts as reached: the syllable then meets it (R304). -/
def State.counterReached (s : State) (va target : Word) : Bool :=
  match (s.ctx s.bound.ctx).translate? va.toNat .rd with
  | none => true
  | some c =>
    if va.toNat % 8 ≠ 0 ∨ s.isRemote c.ia then true
    else
      match s.peekPa? c.ia with
      | none => true
      | some pa => decide (target.toNat ≤ leNat (s.mem.bytes pa 8))

/-- Is the counter one that the network engine counts on (R282, R304)? (Open points: DEDUCED, log 36.) -/
def State.netCounter (s : State) (ia : Nat) : Bool :=
  match s.peekPa? (varOf ia) with
  | none => false
  | some pa => (s.die (s.syncDie pa)).sync.any fun v => v.ia == varOf ia && v.net

def execCcwait (a b : BitVec 6) (s : State) : Out :=
  .next (s.tileAccess (s.x a) 8 .rd fun s c =>
    s.syncWord c.ia 8 fun s _ bs =>
      if leNat bs < (s.x b).toNat then s.hold
      else s.withAcquire (varOf c.ia) false (s.varSources c.ia) (if s.netCounter c.ia then .network else .package) State.hold id)

end Sys2Proof.Machine
end

