-- ==== Sys2Proof/Machine/Network.lean ====
section
/-! DEFINITION. NETPOST and NETWAIT (spec 15_collectives_network.md R388 to R390). -/

namespace Sys2Proof.Machine

/-- Fields of a work request (R390). -/
def workOp (bs : List Byte) : Nat := at' bs 0 1
def workLen (bs : List Byte) : Nat := at' bs 4 4
def workSrc (bs : List Byte) : Nat := at' bs 8 8
def workDst (bs : List Byte) : Nat := at' bs 40 8

namespace State

/-- An interval of global memory through the windows of a context. (Open points: DEDUCED, log 76.) -/
def workRange (s : State) (c va n : Nat) (p : Perm) : List Range :=
  match (s.ctx c).rangeIn? va n p with
  | some a => [⟨true, a.ia, a.ia + n⟩]
  | none => []

/-- The footprint of a work request (R390): its source is read; the destination of AREDUCE and LAP is written. (Open points: DEDUCED, log 76.) -/
def workFoot (s : State) (c : Nat) (bs : List Byte) : Foot :=
  { reads := s.workRange c (workSrc bs) (workLen bs) .rd
    writes := if workOp bs = 3 ∨ workOp bs = 4 then s.workRange c (workDst bs) (workLen bs) .w else [] }

/-- NETPOST has published: the records that it released are compacted before it commits (R271, R389). -/
def postEnd (s : State) (stamp : Nat) : State :=
  match s.forceDie s.myDie stamp with
  | (s, true) => (s.modCore fun c => { c with released := none }).endRegion
  | (s, false) => (s.modCore fun c => { c with released := some (stamp, 0) }).hold

end State

def execNetpost (a b : BitVec 6) (s : State) : Out :=
  let ring := (s.x b).toNat % 64
  .next (match s.core.released with
    | some (st, _) => s.postEnd st
    | none =>
      s.submit (s.x a) (64 + ring) (fun s bs k => s.withFootprint 3 (s.workFoot s.bound.ctx bs) k) fun s k =>
        let c := s.bound.ctx
        let w := s.ringReg (64 + ring)
        let (s, r) := s.readIa s.myDie (ringEntry w k) 64 2
        let bs := r.getD []
        let (s, t) := s.takeTicket
        let s := s.modNet fun n => { n with work := n.work ++
          [{ ctx := c, ring := ring, bytes := bs, slot := k, core := some s.coreId, foot := s.workFoot c bs, ticket := t }] }
        s.postEnd s.bound.lastRel)

/-- NETWAIT: CCWAIT with its acquire at network scope (R304, R389). -/
def execNetwait (a b : BitVec 6) (s : State) : Out :=
  .next (s.tileAccess (s.x a) 8 .rd fun s c =>
    s.syncWord c.ia 8 fun s _ bs =>
      if leNat bs < (s.x b).toNat then s.hold
      else s.withAcquire (varOf c.ia) false (s.varSources c.ia) .network State.hold id)

end Sys2Proof.Machine
end

