-- ==== Sys2Proof/Machine/CoreEvents.lean ====
section
/-! DEFINITION. Events of a core: binding, pre-emption, the watchdog, replies, arrivals and expansions, the snapshot image, the matrix units, the
copy engine, channels, and the cluster's waits (spec 01_task.md R17, R27, R33; 02_encoding.md R44, R47; 03_scalar_control.md R87, R95, R97, R99;
05_vector.md R157; 06_matrix.md R171; 07_core_memory.md R206, R216 to R220; 09_cluster.md R242, R249, R252 to R255; 10_memory_model.md R261, R274,
R276, R283; 11_translation_scheduling.md R305 to R307; 13_package.md R347; 15_collectives_network.md R373 to R380). An event whose condition does
not hold changes nothing. -/

namespace Sys2Proof.Machine

namespace State

/-- Act on a core of the part that has a bound task. -/
def onBound (s : State) (core : Nat) (f : State → State) : State :=
  if core < 352 ∧ (s.coreAt core).task.isSome then s.onCore core f else s

/-- Act on a core of the part. -/
def onAny (s : State) (core : Nat) (f : State → State) : State := if core < 352 then s.onCore core f else s

/-! ### Cycles without a bundle (R20, R44, R51) -/

/-- The end of an advancing cycle: in-flight results, the drain and the spire's latencies (R19, R157, R253). -/
def advance (s : State) (rowRead : Bool) : State := (s.tickFlight.drainTick rowRead).spireTick

/-- A bubble cycle or a cycle of an empty bundle passes; true when one did. -/
def passCycle (s : State) : State × Bool :=
  let f := s.core.front
  if 0 < f.bubbles then ((s.modFront fun f => { f with bubbles := f.bubbles - 1 }).advance false, true)
  else if 0 < f.emptyLeft then ((s.modFront fun f => { f with emptyLeft := f.emptyLeft - 1 }).advance false, true)
  else (s, false)

/-! ### Pre-emption (R33, R249) -/

/-- The next stored bundle with its address, when it stands in an expanded half that can be issued from. -/
def nextStored (s : State) : Option (Nat × Stored) :=
  let f := s.core.front
  let bundle := fun (h : Option Segment) (p : Nat) => (h.filter fun g => g.bad.isNone).bind fun g => (g.bundles[p]?).map fun b => (g.frame + b.off, b)
  let addr := fun (h : Option Segment) (a : Nat) => (h.filter fun g => g.bad.isNone).bind fun g =>
    (g.bundles.find? fun b => g.frame + b.off == a).map fun b => (a, b)
  match f.latched with
  | some (.pos false p) => bundle f.cur p
  | some (.pos true p) => bundle f.succ p
  | some (.addr a) => (addr f.cur a.toNat).or (addr f.succ a.toNat)
  | none =>
    match f.cur with
    | none => none
    | some g => if f.pos < g.bundles.length then bundle f.cur f.pos else bundle f.succ 0

/-- Is the core at the entry of a safe point at which a pre-emption may be taken (R33)? -/
def atSafePoint (s : State) : Bool :=
  let f := s.core.front
  s.core.task.isSome && f.run.isNone && f.leaving.isNone && f.reenter.isNone && !f.halted && f.emptyLeft == 0 && f.bubbles == 0 &&
  (match s.nextStored with
   | some (_, b) => bitAt b.hdr 23
   | none => false) &&
  !s.core.regs.z.stat.tm && f.loops.isEmpty && !s.core.mx.claim && !s.chanPending s.resNo

/-- The cores that pre-empt together: the coupled members of the core's group (R249). -/
def coupledCores (s : State) (core : Nat) : List Nat :=
  match (s.cluster (clusterOf core)).groupOf (lowCore core) with
  | some g => if g.coupled.getLsbD (lowCore core) then (members g.coupled).map fun i => clusterOf core * 4 + i else [core]
  | none => [core]

/-- A pending pre-emption is taken at the safe point that the core has reached, by every coupled member at the same bundle (R33, R249); true when it is. -/
def takePreempt (s : State) (core : Nat) : State × Bool :=
  let cs := s.coupledCores core
  let here := (s.focus core).nextAddr
  if (s.coreAt core).preempt && cs.all fun c => (s.focus c).atSafePoint && (s.focus c).nextAddr == here then
    (cs.foldl (fun s c => s.onCore c fun s =>
      (s.modFront fun f => { f with leaving := some (.preempt, s.nextAddr), hold := .none }).modCore fun k => { k with preAt := some s.time }) s, true)
  else (s, false)

/-- The first bundle of a task after a pre-emption has issued: MINSLICE takes the time that has passed (R306). (Open points: DEDUCED, log 52.) -/
def notePreempt (s : State) : State :=
  match s.core.preAt with
  | none => s
  | some t =>
    (s.modCore fun c => { c with preAt := none }).modDie s.myDie fun d =>
      let l := ((s.time - t) :: d.preTimes).take 256
      { d with preTimes := l, minSlice := BitVec.ofNat 32 (min (2 ^ 32 - 1) (l.foldl max 0)) }

/-! ### The watchdog (R307) -/

/-- Has COUNT reached a budget that is not 0? -/
def watchdogDue (s : State) : Bool := s.core.regs.z.budget != 0 && decide (s.core.regs.z.budget.toNat ≤ s.core.regs.z.wcount.toNat)

/-- The kill of R307. (Open points: DEDUCED, log 18.) -/
def watchdogKill (s : State) : State := s.killBound { code := 0x15, detail := s.core.regs.z.wcount } 0

/-! ### Replies to parked loads (R17, R27, R421) -/

/-- A remote read with the task's own records that the target has not applied laid over it (R266). (Open points: DEDUCED, log 68.) -/
def taskOverlay (s : State) (launch index ia : Nat) (bs : List Byte) : List Byte :=
  let mine := s.mem.recs.filter fun r => r.launch == launch && r.index == index
  (List.range bs.length).map fun i =>
    match bestByte Rec.seq (ia + i) (mine.filter fun r => r.stamp.isNone) with
    | some (_, b) => b
    | none =>
      match bestByte (fun r => r.stamp.getD 0) (ia + i) (mine.filter fun r => r.stamp.isSome) with
      | some (_, b) => b
      | none => bs.getD i 0

/-- The task of a parked load becomes READY, with a cause for its next pick-up if there is one (R17, R27). -/
def replyReady (s : State) (t : Task) (h : Option HeldCause) : State := s.makeReady t.launch t.index fun t => { t with held := h }

/-- Write the bytes of a reply to where R17 puts them: true when every write succeeded, else the failing access (R421). (Open points: DEDUCED, log 68.) -/
def replyWrite (s : State) (t : Task) (l : RemoteLoad) (bs : List Byte) : State × Option Cause :=
  let bs := s.taskOverlay t.launch t.index l.ia bs
  if l.vec then
    let base := s.localIa t.save + 0x4000 + 512 * l.reg
    let r := (lanesOf l.mask).foldl (fun (r : State × Bool) i =>
      let w := r.1.writeIa t.die (base + 4 * i) ((bs.drop (4 * (i - l.lane0))).take 4) 2
      (w.1, r.2 && w.2)) (s, true)
    (r.1, if r.2 then none else some (badRecord base 8))
  else
    let v := leBytes 8 (extendLoad l.signed l.size (leNat (bs.take l.size))).toNat
    if l.reg = 0 then (s, none)
    else if 8 ≤ l.reg ∧ l.reg < 12 then
      let a := t.recVa.toNat + 32 + 8 * (l.reg - 8)
      let w := s.supWrite t.die t.ctx a v
      (w.1, if w.2 then none else some (badRecord a 9))
    else
      let a := s.localIa t.save + 8 * l.reg
      let w := s.writeIa t.die a v 2
      (w.1, if w.2 then none else some (badRecord a 8))

/-- How an error reply reaches the task: a trap, a kill, or not at all for a code that no reply carries (R27, R363). (Open points: DEDUCED, log 68.) -/
def replyError (l : RemoteLoad) (code : BitVec 8) (detail : BitVec 32) : Option HeldCause :=
  let h : HeldCause := { cause := { code := code, addr := BitVec.ofNat 64 l.ia, detail := detail }, trap := false, bundle := l.bundle }
  if code = 0x0A ∨ code = 0x0B ∨ code = 0x0C then some { h with trap := true }
  else if code = 0x12 ∨ code = 0x13 ∨ code = 0x14 then some h
  else none

/-- An error ends a parked load (R27). -/
def replyFails (s : State) (t : Task) (l : RemoteLoad) (code : BitVec 8) (detail : BitVec 32) : State :=
  match replyError l code detail with
  | some h => s.replyReady t (some h)
  | none => s

/-- Ask for a parked load, when the session with its device is UP: it is sent, or the device has restarted (R362). -/
def askLoad (s : State) (t : Task) (l : RemoteLoad) (sent : Bool) : State :=
  let dev := s.holderOf l.ia
  let p := s.peer dev
  let wait := fun (s : State) (l : RemoteLoad) (sent : Bool) => s.modTaskRec t.launch t.index fun t => { t with park := some (.remote l sent) }
  if p.state ≠ .up then wait s l sent
  else if l.inc ≠ p.inc then s.replyFails t l 0x0B (p.inc.zeroExtend 32)
  else if sent then s
  else wait (s.sendReq dev (wireAddr l.ia) l.inc (.load l.size)) { l with tick := s.time } true

/-- A reply for a parked task (R17); the lanes of an LDGV that another address holds are asked for next (R207). -/
def replyTo (s : State) (t : Task) (l : RemoteLoad) : RemoteReply → State
  | .value bs =>
    match s.replyWrite t l bs, l.rest with
    | (s, none), [] => s.replyReady t none
    | (s, none), a :: rest => s.askLoad t { l with toRemotePart := a, rest := rest, tick := s.time } false
    | (s, some c), _ => s.replyReady t (some { cause := c, trap := false, bundle := l.bundle })
  | .error c d => s.replyFails t l c d
  | .sync _ _ => s

/-! ### Arrivals (R206, R208) -/

/-- The data of the `k`-th missed load arrives: its destination is written; lost data stays for its consumer (R206, R208). -/
def arrive (s : State) (k : Nat) : State :=
  match s.core.misses[k]? with
  | none => s
  | some m =>
    if m.bad then s
    else (s.modCore fun c => { c with misses := c.misses.eraseIdx k }).applyWrite m.w

/-- Every missed load whose data is not lost arrives. -/
def arriveAll (s : State) : State :=
  (s.modCore fun c => { c with misses := c.misses.filter Miss.bad }).applyAll ((s.core.misses.filter fun m => !m.bad).map Miss.w)

/-! ### The held syllable -/

/-- The syllable that the core's bundle holds at. -/
def heldSyl (s : State) : Option Syl := (s.core.front.run.bind fun r => r.todo.head?).bind slotSyl

/-- The virtual address of the record that a held LOOPSR or CPYR reads (R86, R219). -/
def heldRecord (s : State) : Option Word :=
  match s.heldSyl with
  | some (.instr (.loopsr a _ _ _)) => some (s.x a)
  | some (.instr (.cpyrHs a _ _ _ _)) => some (s.x a)
  | some (.instr (.cpyrSh a _ _ _ _)) => some (s.x a)
  | some (.instr (.cpyrSs a _ _ _ _)) => some (s.x a)
  | some (.instr (.cpyrRm a _ _ _)) => some (s.x a)
  | _ => none

/-- A record-cache miss on a record of this device is filled, and its fetch hold ends (R86, R87). -/
def fillHeld (s : State) (ia : Nat) : State :=
  match s.heldRecord with
  | none => s
  | some va =>
    match (s.ctx s.bound.ctx).translate? va.toNat .rd with
    | none => s
    | some a =>
      if s.core.front.hold = .fetch ∧ a.ia = ia ∧ ia % 64 = 0 ∧ !s.isRemote ia ∧ (s.recordHit ia).isNone then
        let (s, w) := s.walk s.myDie ia
        match w with
        | .page pa _ =>
          let (s, g) := s.viewRead ia pa 64
          if g.lost then s else (s.recordFill ia g.data).modFront fun f => { f with holdPage := none }
        | _ => s
      else s

/-- May the answer go to the held syllable: a record for LOOPSR and CPYR, an old value for the others (R274, R363)? -/
def answerFits (s : State) : RemoteReply → Bool
  | .value _ => s.heldRecord.isSome
  | .sync _ _ => s.heldRecord.isNone
  | .error _ _ => true

/-- The answer to the oldest record of a core's log that has been sent to its target's device: the record is at home there, or that device has
restarted, or it is sent again (R260, R276, R363). (Open points: DEDUCED, log 34.) -/
def recordDone (s : State) (core : Nat) (o : RemoteReply) : State :=
  match s.mem.recs.find? fun r => r.core == core && r.sent with
  | none => s
  | some r =>
    match o with
    | .error c _ => if c = 0x0B then s.discardGone r (s.holderOf r.addr) else s.modMem fun m => m.modRec r fun x => { x with sent := false }
    | _ => s.modMem fun m => m.drop r

/-- The answer of a device that compacts its records on a variable of this one (R270, R272). (Open points: DEDUCED, log 33.) -/
def forceDone (s : State) (dev : Nat) : State :=
  s.modFabric fun f => { f with forces := modFirst (fun x => x.dev == dev && !x.done) (fun x => { x with done := true }) f.forces }

/-- The answer of another device reaches the core whose fetch hold awaits it. -/
def takeAnswer (s : State) (r : RemoteReply) : State :=
  match s.core.asked with
  | some (_, true) => if s.core.answer.isNone && s.answerFits r then s.modCore fun c => { c with answer := some r } else s
  | _ => s

/-! ### The snapshot image (R97) -/

/-- What a pending write or fill of the image does. -/
def snapApply (s : State) : SnapOp → State
  | .st a im _ => s.spadPut a im.bytes
  | .ld p _ => s.modCore fun c => { c with snap := some p }

/-- Core cycles left of a pending write or fill. -/
def snapLeft : SnapOp → Nat
  | .st _ _ n => n
  | .ld _ n => n

/-- Pending writes and fills that are due and satisfy `p` happen, in the order of their issue. -/
def snapSettle (s : State) (p : SnapOp → Bool) : State :=
  let due := s.core.snapOps.filter fun o => p o && decide (snapLeft o ≤ 1)
  due.foldl snapApply (s.modCore fun c => { c with snapOps := c.snapOps.filter fun o => !(p o && decide (snapLeft o ≤ 1)) })

/-- One core cycle of the pending writes and fills. -/
def snapTick (s : State) : State :=
  if s.core.snapOps.isEmpty then s
  else
    let s := s.snapSettle fun _ => true
    s.modCore fun c => { c with snapOps := c.snapOps.map fun o => match o with
      | .st a im n => .st a im (n - 1)
      | .ld p n => .ld p (n - 1) }

/-! ### The log (R261) -/

/-- LOGSTALL ticks have passed without room. -/
def logTimeout (s : State) : State :=
  match s.core.front.logSince with
  | none => s
  | some t => if t + (s.die s.myDie).logStall.toNat ≤ s.time then s.modFront fun f => { f with logDue := true } else s

/-! ### The clock (R6, R97, R171, R261, R307) -/

/-- The tick that the core has reached. -/
def coreTime (s : State) : Nat := ticksOf s.core.cycle + s.core.skew

/-- A cycle of the current core begins: its clock, the reference time and the watchdog's count, which take in the ticks that passed while it waited
or was throttled, the snapshot image, the matrix units and the log's time limit. (Open points: DESIGN CHOICE, log 6, 96.) -/
def coreClock (s : State) : State :=
  let t := s.coreTime
  let late := (if s.core.front.hold != .none then s.time - t else 0) + (if s.root.throttled then Config.throttleTicks s.free else 0)
  let s := if s.root.throttled then s.nextFree else s
  let s := s.modCore fun c => { c with cycle := c.cycle + 1, skew := c.skew + late }
  let dt := s.coreTime - t
  let s := if s.core.task.isSome && !s.core.front.halted then s.modZ fun z => { z with wcount := BitVec.ofNat 32 (satAdd 32 z.wcount.toNat dt) } else s
  ({ s with time := max s.time s.coreTime } : State).snapTick.mxTick.logTimeout

/-! ### The page faults that wait (R294) -/

/-- Queue the pages that found the fault queue full. (Open points: DEDUCED, log 53.) -/
def fltqRefill (s : State) (d : Nat) : State :=
  (s.sched.tasks.filter fun t => t.die == d && t.state == .faultWait && !t.unqueued.isEmpty).foldl (fun s t =>
    t.unqueued.foldl (fun s pg =>
      match s.fltqAdd d pg with
      | (s, true) => s.modTaskRec t.launch t.index fun t => { t with unqueued := t.unqueued.erase pg }
      | (s, false) => s) s) s

/-- LINK.FW := 0 in a task's record (R17). (Open points: DEDUCED, log 95.) -/
def clearFw (s : State) (t : Task) : State :=
  let (s, r) := s.supRead t.die t.ctx (t.recVa.toNat + 16) 1
  match r with
  | some [b] => (s.supWrite t.die t.ctx (t.recVa.toNat + 16) [b &&& 0xF7]).1
  | _ => s

/-- A page is resident: tasks that waited only on it become READY, and fetch holds on it end (R17, R294). (Open points: DEDUCED, log 53.) -/
def pageReady (s : State) (d page : Nat) : State :=
  let s := s.modFabric fun f => { f with noted := f.noted.filter fun e => e.2 != page }
  let s := (s.sched.tasks.filter fun t => t.die == d && t.state == .faultWait && t.pages.contains page).foldl (fun s t =>
    if t.pages == [page] then (s.clearFw t).makeReady t.launch t.index fun t => { t with pages := [], unqueued := [] }
    else s.modTaskRec t.launch t.index fun t => { t with pages := t.pages.erase page, unqueued := t.unqueued.erase page }) s
  (s.liveCores.filter fun c => dieOf c == d && (s.coreAt c).front.holdPage == some page).foldl (fun s c =>
    s.modCoreAt c fun k => { k with front := { k.front with holdPage := none } }) s

end State

/-! ### The meanings -/

def execEmptyBundle (rep : BitVec 6) (s : State) : Out := .next (s.modFront fun f => { f with emptyLeft := rep.toNat + 1 })

def execBindTask (core launch index : Nat) (s : State) : Out := .next (if core < 352 then s.bindOn core launch index else s)

def execPreemptTake (core : Nat) (s : State) : Out := .next (if core < 352 then (s.takePreempt core).1 else s)

def execSliceExpire (core : Nat) (s : State) : Out := .next (if core < 352 ∧ s.sliceOver core then s.askPreempt core else s)

def execWatchdogExpire (core : Nat) (s : State) : Out :=
  .next (s.onBound core fun s =>
    if s.watchdogDue && (s.core.front.run.isNone || s.core.front.hold != .none) then s.watchdogKill else s)

def execRemoteReply (launch index : Nat) (reply : RemoteReply) (s : State) : Out :=
  .next (match s.task? launch index with
    | none => s
    | some t =>
      match t.state, t.park with
      | .parked, some (.remote l true) => s.replyTo t l reply
      | _, _ => s)

def execLoadArrive (core k : Nat) (s : State) : Out := .next (s.onBound core fun s => s.arrive k)

def execRecordCacheFill (core ia : Nat) (s : State) : Out := .next (s.onBound core fun s => s.fillHeld ia)

def execSegmentExpand (core frame : Nat) (s : State) : Out :=
  .next (s.onBound core fun s =>
    let f := s.core.front
    if (f.cur.map Segment.next) = some frame then s.expandSucc
    else
      match f.latched with
      | some (.addr a) => if a.toNat / 8192 * 8192 = frame ∧ f.cur = none ∧ f.bubbles = 0 then (s.expandEntry frame).modFront fun f => { f with entry := none } else s
      | _ => s)

def execSnapstWrite (core : Nat) (s : State) : Out := .next (s.onAny core fun s => s.snapSettle SnapOp.isStore)

def execSnapldFill (core : Nat) (s : State) : Out := .next (s.onBound core fun s => s.snapSettle fun o => !o.isStore)

def execLogfullTimeout (core : Nat) (s : State) : Out := .next (s.onBound core State.logTimeout)

def execResurfacerCompact (die bound : Nat) (s : State) : Out := .next (s.compactDie die bound).1

def execSstepRelease (launch die : Nat) (scope : Scope) (s : State) : Out :=
  .next (match scope with
    | .die => if die < 4 then s.sstepRelease launch die else s
    | .package => s.sstepRelease launch 4
    | _ => s)

def execRingPubWaitEnd (core : Nat) (s : State) : Out :=
  .next (s.onBound core fun s =>
    match s.core.slotHeld with
    | some (ring, k) => (s.ringTry (s.ringReg ring) k).1
    | none => s)

def execMxCommandStart (core : Nat) (s : State) : Out := .next (s.onBound core fun s => if s.frozen then s else s.mxStart)

def execMxCommandEnd (core : Nat) (s : State) : Out :=
  .next (s.onBound core fun s =>
    let last := fun (c : Option MxCmd) => c.any fun c => decide (c.length ≤ c.done + 1)
    if s.frozen then s
    else
      let s := if last s.core.mx.load then s.loadCycle else s
      if last s.core.mx.array then s.arrayCycle else s)

def execDrainRow (core : Nat) (s : State) : Out :=
  .next (s.onBound core fun s =>
    if s.core.mx.drain.isSome && !s.core.front.halted && (0 < s.core.front.bubbles || 1 < s.core.front.emptyLeft) then s.coreClock.passCycle.1 else s)

def execCopyJobStart (core : Nat) (s : State) : Out := .next (s.onBound core State.jobStart)

def execCopyJobEnd (core : Nat) (s : State) : Out := .next (s.onBound core State.jobEnd)

/-- May a running job fail so (R220)? -/
def copyErrOk (e : CopyErr) : Bool :=
  e.code == 0x0A || e.code == 0x0B || e.code == 0x0C || e.code == 0x12 || e.code == 0x13 || e.code == 0x14

def execCopyJobFail (core : Nat) (err : CopyErr) (s : State) : Out :=
  .next (s.onBound core fun s => if copyErrOk err then s.jobFailAt { code := err.code, addr := err.addr, detail := err.detail } else s)

/-! ### Channels -/

/-- The in-flight ENGW to word 0 of a channel whose cycle has come, if its V is `v`. (Open points: DEDUCED, log 26.) -/
def State.engDue (s : State) (ch : Nat) (v : Bool) : Option Flight :=
  s.core.flight.find? fun f => decide (f.lat ≤ 1) && (match f.w with
    | .eng o w => o == 0xC000 + 64 * ch && w.getLsbD 0 == v
    | _ => false)

/-- An ENGW to a channel takes effect between two bundles (R373). (Open points: DEDUCED, log 26.) -/
def State.engTake (s : State) (ch : Nat) (v : Bool) : State :=
  match s.engDue ch v with
  | some f => if s.core.front.run.isNone then (s.modCore fun c => { c with flight := c.flight.erase f }).applyWrite f.w else s
  | none => s

/-- Open points: DEDUCED, log 26. -/
def execChannelOpen (core ch : Nat) (s : State) : Out := .next (s.onBound core fun s => s.engTake ch true)

/-- A close by ENGW, or that of the peer of an entry on another device, which breaks the entry here (R373). (Open points: DEDUCED, log 26.) -/
def execChannelClose (core ch : Nat) (s : State) : Out :=
  .next (s.onAny core fun s =>
    if (s.engDue ch false).isSome then s.engTake ch false
    else
      let c := s.chanAt core ch
      if c.kind = 2 ∧ (c.state = .opening ∨ c.state = .opened) then
        s.modChanAt core ch fun c => { c with state := .broken, err := 1, pending := [] }
      else s)

def execChannelPair (core ch : Nat) (depth : BitVec 6) (agree : Bool) (s : State) : Out :=
  .next (if core < 352 ∧ !s.frozenAt core then s.chanPair core ch (depth.toNat + 1) agree else s)

def execChannelRouteTimeout (core ch : Nat) (s : State) : Out :=
  .next (if core < 352 then
      let c := s.chanAt core ch
      if c.kind = 2 ∧ (c.state = .opening ∨ c.state = .opened) ∧ s.unroutedFor c.dev c.since then s.chanBreak core ch 3 else s
    else s)

def execChannelElementArrive (core ch : Nat) (elem : ChanElem) (s : State) : Out :=
  .next (if core < 352 ∧ !s.frozenAt core then
      let c := s.chanAt core ch
      if c.state ≠ .opened then s
      else if c.recv then
        -- an element of another device is placed here
        (if c.kind = 2 ∧ c.buf.length + c.held.length < c.depth then s.modChanAt core ch fun c => { c with buf := c.buf ++ [elem] } else s)
      else if c.pending.head? = some elem then
        -- the oldest element that this entry has sent is placed at its receiver
        (if c.kind = 2 then s.modChanAt core ch fun c => { c with pending := c.pending.tail } else s.chanDeliver core ch)
      else s
    else s)

def execChannelCreditReturn (core ch : Nat) (s : State) : Out :=
  .next (if core < 352 ∧ !s.frozenAt core then
      let c := s.chanAt core ch
      if c.state ≠ .opened ∨ c.recv then s
      else if c.kind = 2 then (if c.cred + c.pending.length < c.depthPeer then s.modChanAt core ch fun c => { c with cred := c.cred + 1 } else s)
      else s.modChanAt core ch fun c => { c with cred := c.cred + c.owed, owed := 0 }
    else s)

/-! ### The spire and the line -/

/-- Is the oldest message of a core to the spire this one? -/
def State.spireHead (s : State) (core g : Nat) (value : Option Word) : Bool :=
  match (s.coreAt core).spireOut with
  | m :: _ => m.group == g && m.value == value
  | [] => false

def execBarrierArrival (core : Nat) (group : BitVec 7) (s : State) : Out :=
  .next (if core < 352 ∧ s.spireHead core group.toNat none then s.spireApply core else s)

def execBarmApply (core : Nat) (group : BitVec 7) (value : Word) (s : State) : Out :=
  .next (if core < 352 ∧ s.spireHead core group.toNat (some value) then s.spireApply core else s)

def execSpireMirrorUpdate (die cluster group : Nat) (s : State) : Out :=
  .next (if die < 4 ∧ cluster < 22 ∧ group < 80 then s.mirrorUpdate (die * 22 + cluster) group else s)

def execFuseTimeout (core : Nat) (s : State) : Out :=
  .next (if core < 352 then
      let k := clusterOf core
      let n := lowCore core
      match tget? (s.cluster k).line n with
      | some (.fuse _ _ d since) =>
        if since + 2000 ≤ s.time then
          let s := s.modCluster k fun c => { c with line := terase c.line n }
          if d = 0 then s
          else s.modCoreAt core fun c => { c with regs := { c.regs with x := c.regs.x.setIfInBounds d 2 } }
        else s
      | _ => s
    else s)

/-! ### The debugger (R95, R99) -/

def execDbgctlWrite (core : Nat) (value : Word) (s : State) : Out :=
  .next (if core < 352 ∧ s.root.debugger then
      s.modCoreAt core fun c => { c with front := { c.front with step := value.getLsbD 0, freeze := value.getLsbD 1 } }
    else s)

def execDebuggerContinue (core : Nat) (s : State) : Out :=
  .next (if core < 352 ∧ s.root.debugger then s.onCore core State.debugContinue else s)

/-- Attach or detach the debugger; a halted task of a debugger that detaches goes on. -/
def execDebuggerAttach (on : Bool) (s : State) : Out :=
  let s := s.modRoot fun r => { r with debugger := on }
  .next (if on then s
    else (s.liveCores.filter fun c => (s.coreAt c).front.halted).foldl (fun s c =>
      s.onCore c State.debugContinue) s)

end Sys2Proof.Machine
end

