-- ==== Sys2Proof/Machine/Code.lean ====
section
/-! DEFINITION. The erasure code: GF(2^8) with field polynomial 0x11D, its Cauchy coefficients, and the decoder (spec 16_coding_groups.md R402, R403). -/

namespace Sys2Proof.Machine

/-- Shift-and-add product: `n` bits of `b` are left. -/
def gfMulAux : Nat → Nat → Nat → Nat
  | 0, _, _ => 0
  | n + 1, a, b =>
    let rest := gfMulAux n (if a ≥ 128 then (2 * a) ^^^ 0x11D else 2 * a) (b / 2)
    if b % 2 = 1 then a ^^^ rest else rest

/-- Mul: the product in GF(2^8) reduced by 0x11D (R402). -/
def gfMul (a b : Nat) : Nat := gfMulAux 8 (a % 256) (b % 256)

def gfPow (a : Nat) : Nat → Nat
  | 0 => 1
  | n + 1 => gfMul a (gfPow a n)

/-- Inv: the multiplicative inverse (R402). -/
def gfInv (a : Nat) : Nat := gfPow a 254

/-- c(i, j) (R402). -/
def gfCoef (i j : Nat) : Nat := gfInv (i ^^^ (4 + j))

/-- Row(i) of the generator for K data members (R403). -/
def codeRow (k i : Nat) : List Nat := (List.range k).map fun j => if i < k then (if i = j then 1 else 0) else gfCoef (i - k) j

/-- `row + f · other`, entry by entry. -/
def rowAdd (f : Nat) (row other : List Nat) : List Nat := (row.zip other).map fun p => p.1 ^^^ gfMul f p.2

/-- One step of elimination: a row with a non-zero entry in column `c` becomes the pivot, and the column is cleared elsewhere. -/
def eliminate (c : Nat) (done rest : List (List Nat)) : List (List Nat) × List (List Nat) :=
  match rest.find? fun r => r.getD c 0 != 0 with
  | none => (done, rest)
  | some p =>
    let p' := p.map (gfMul (gfInv (p.getD c 0)))
    let clear := fun r : List Nat => rowAdd (r.getD c 0) r p'
    (done.map clear ++ [p'], (rest.erase p).map clear)

/-- Solve K equations in K unknowns; each row ends with its right-hand side (R403). -/
def gfSolve : Nat → Nat → List (List Nat) → List (List Nat) → List Nat
  | 0, _, done, _ => done.map fun r => r.getLast?.getD 0
  | n + 1, c, done, rest =>
    let (d, r) := eliminate c done rest
    gfSolve n (c + 1) d r

/-- The share of index `t` from the shares of K indices (R403). -/
def decodeShare (k t : Nat) (shares : List (Nat × Nat)) : Nat :=
  let d := gfSolve k 0 [] (shares.map fun p => codeRow k p.1 ++ [p.2])
  ((codeRow k t).zip d).foldl (fun x p => x ^^^ gfMul p.1 p.2) 0

/-- XOR of two byte lists, a missing byte counting as 0. -/
def xorBytes (n : Nat) (a b : List Byte) : List Byte := (List.range n).map fun i => a.getD i 0 ^^^ b.getD i 0

/-- Mul(c, ·) on every byte. -/
def scaleBytes (c : Nat) (a : List Byte) : List Byte := a.map fun b => BitVec.ofNat 8 (gfMul c b.toNat)

end Sys2Proof.Machine
end

