-- ==== Sys2Proof/Machine/Group.lean ====
section
/-! DEFINITION. Coding groups: the slots' words, the close of a round, its decision and what it does here, and the syllables
(spec 16_coding_groups.md R399 to R416). -/

namespace Sys2Proof.Machine

/-- Device number of a member index (R399). -/
def GCfg.dev (c : GCfg) (i : Nat) : Nat := if i < 8 then fld c.memb0.toNat (8 * i) 7 else fld c.memb1.toNat (8 * (i - 8)) 7

def GCfg.members (c : GCfg) : Nat := c.k.toNat + c.m.toNat
def GCfg.isData (c : GCfg) : Bool := decide (c.myidx.toNat < c.k.toNat)
def GCfg.rrec (c : GCfg) : Nat := fld c.roundcfg.toNat 12 52 * 4096

/-- Number of members that are declared dead. -/
def GSlot.deadCount (g : GSlot) : Nat := ((List.range 16).filter fun i => g.dead.getLsbD i).length

/-- Member indices from `lo` on that are not declared dead. -/
def GSlot.live (g : GSlot) (lo n : Nat) : List Nat := ((List.range n).map (lo + ·)).filter fun i => !g.dead.getLsbD i
def GSlot.liveData (g : GSlot) : List Nat := g.live 0 g.cfg.k.toNat
def GSlot.liveParity (g : GSlot) : List Nat := g.live g.cfg.k.toNat g.cfg.m.toNat

/-- The coordinator: the lowest-indexed live data member (R410). -/
def GSlot.coordinator (g : GSlot) : Nat := g.liveData.headD 0

/-- Codes of STATE (R399). -/
def GState.code : GState → Nat
  | .off => 0
  | .forming => 1
  | .run => 2
  | .degraded => 3
  | .rebuild => 4
  | .failed => 5

/-- CGSTAT as a word (R399). -/
def GSlot.stat (g : GSlot) : Word :=
  BitVec.ofNat 64 (g.dead.toNat * 2 ^ 48 + (if g.rb then g.rbidx.toNat else 0) * 2 ^ 44 + g.err.toNat * 2 ^ 8 + g.weak.toNat * 2 ^ 7 +
    g.rb.toNat * 2 ^ 6 + g.phase.toNat * 2 ^ 4 + g.state.code)

/-- The granules of a region: local offset and group offset, each in granules of 128 bytes (R402). -/
def granulesOf (r : Region) : List (Nat × Nat) := (List.range (r.len / 128)).map fun i => (offOf r.ia / 128 + i, r.goff / 128 + i)

/-- Do two ranges of lengths `m` and `n` meet? -/
def meets (a m b n : Nat) : Bool := decide (a < b + n) && decide (b < a + m)

/-- Every registration of a slot, pending ones included (R404). -/
def GSlot.allRegs (g : GSlot) : List Region := g.regs ++ g.joining ++ g.closedJoin

/-- RUN or DEGRADED by the DEAD mask, or FAILED (R416). -/
def GSlot.settle (g : GSlot) : GSlot :=
  if g.cfg.m.toNat < g.deadCount then { g with state := .failed, err := 4, rb := false }
  else { g with state := if g.dead = 0 then .run else .degraded }

namespace State

/-- The bytes of a granule at home by local offset / 128; `none` without a page. -/
def granule? (s : State) (k : Nat) : Option (List Byte) := (s.peekPa? (s.localIa (128 * k))).map fun pa => s.mem.bytes pa 128

/-- The committed bytes of a granule: those set apart while it has an image, else home's (R406). (Open points: DESIGN CHOICE, log 87.) -/
def committedGranule (s : State) (g : GSlot) (k : Nat) : List Byte :=
  match tget? g.committed k with
  | some im => im.data
  | none => (s.granule? k).getD (List.replicate 128 0)

/-- Put bytes at home for a granule, with a stamp, as they are. -/
def putGranule (s : State) (k : Nat) (bs : List Byte) : State :=
  match s.peekPa? (s.localIa (128 * k)) with
  | none => s
  | some pa =>
    let (s, st) := s.takeStamp
    s.modMem fun m => { m.putBytes st pa bs with bad := m.bad.filter fun b => b / 4 != pa / 128 }

/-- A group event in the journal (R400). -/
def groupEvent (s : State) (n : Nat) : State := s.event 0x0B 0 (s.group n).cfg.gid.toNat

/-! ### What a decision does here (R410, R412) -/

/-- COMMIT(r) at a data member: closed images become the committed bytes, the registrations apply (R410). Bytes of a joining region that
changed after the close are an image of the next round. -/
def commitData (s : State) (n : Nat) : State :=
  let g := s.group n
  let joins := g.closedJoin.flatMap granulesOf
  let gone := fun k : Nat => g.closedLeave.any fun r => (granulesOf r).any fun e => e.1 == k
  let late := joins.filter fun e => (s.granule? e.1).getD [] != ((tget? g.closed e.1).map Image.data).getD []
  s.modGroup n fun g =>
    let opened := late.foldl (fun t e => tset t e.1 { pa := 0, goff := e.2 * 128, data := [] }) g.opened
    let committed := (g.committed.filter fun kv => (tget? g.opened kv.1).isSome).map fun kv =>
      (kv.1, match tget? g.closed kv.1 with
        | some im => im
        | none => kv.2)
    let committed := late.foldl (fun t e => match tget? g.closed e.1 with
      | some im => tset t e.1 im
      | none => t) committed
    { g with
      opened := opened.filter fun kv => !gone kv.1
      committed := committed.filter fun kv => !gone kv.1
      closed := [], closedJoin := [], closedLeave := []
      regs := (g.regs.filter fun r => !g.closedLeave.contains r) ++ g.closedJoin }

/-- Fold a staged delta into the parity area (R402, R410); false while the page of the area is not there. (Open points: DEDUCED, log 74.) -/
def foldStaged (s : State) (n : Nat) (d : Staged) : State × Bool :=
  let ia := s.localIa ((s.group n).cfg.parbase.toNat % 2 ^ 50 + d.goff)
  match s.peekPa? ia with
  | none => (s, false)
  | some pa =>
    let (s, st) := s.takeStamp
    (s.modMem fun m => m.putBytes st pa (xorBytes 128 (m.bytes pa 128) d.data), true)

/-- COMMIT at a parity member: staged deltas up to the round fold in. -/
def commitParity (s : State) (n : Nat) (round : Word) : State :=
  (s.group n).staged.foldl (fun s d =>
    if d.round ≤ round then
      match s.foldStaged n d with
      | (s, true) => s.modGroup n fun g => { g with staged := g.staged.erase d }
      | (s, false) => s
    else s) s

/-- COMMIT(r) stored here (R410). -/
def applyCommit (s : State) (n : Nat) (d : Decision) : State :=
  let g := s.group n
  let s := if g.cfg.isData then s.commitData n else s.commitParity n d.round
  let s := s.clearOwners 4
  s.modGroup n fun g => { g with roundLast := d.round, phase := 0, outcome := some 0, prepared := [], unacked := [] }

/-- ABORT(r) stored here (R412). (Open points: DESIGN CHOICE, log 87.) -/
def applyAbort (s : State) (n : Nat) : State :=
  let prot := fun (g : GSlot) (r : Rec) => r.cells.any fun c => (g.covers? c.1).isSome
  let s := (s.compact fun r _ => prot (s.group n) r).1
  let s := (s.group n).committed.foldl (fun s kv => s.putGranule kv.1 kv.2.data) s
  let g := s.group n
  let s := s.modMem fun m => { m with recs := m.recs.filter fun r => !(r.stamp.isNone && prot g r) }
  s.modGroup n fun g => { g with
    closed := [], opened := [], committed := [], staged := [], joining := [], leaving := [], closedJoin := [], closedLeave := []
    phase := 0, outcome := if g.phase = 0 then g.outcome else some 1, prepared := [], unacked := [] }

/-- A decision record is stored here, and the decisions that follow ROUNDLAST take effect in round order (R410, R411). -/
def applyDecision (s : State) (n : Nat) (d : Decision) : State :=
  let s := s.modGroup n fun g =>
    let g := { g with dead := d.dead, memberRegs := d.regs, record := some d }
    let g := if g.rb && !g.dead.getLsbD g.rbidx.toNat then { g with rb := false } else g
    if g.state = .run ∨ g.state = .degraded then g.settle else g
  if !d.commit then s.applyAbort n
  else if d.round = (s.group n).roundLast + 1 then s.applyCommit n d
  else s

/-- Store a decision, then apply those whose turn has come; one on a later round waits for the ones before it (R411). (Open points: DEDUCED, log 73.) -/
def storeDecision (s : State) (n : Nat) (d : Decision) : State :=
  if (s.group n).roundLast + 1 < d.round then s.modGroup n fun g => { g with decisions := d :: g.decisions }
  else
    let waiting := sortBy (fun e : Decision => e.round.toNat) (s.group n).decisions
    let s := (s.modGroup n fun g => { g with decisions := [] }).applyDecision n d
    waiting.foldl (fun s e =>
      if (s.group n).roundLast + 1 < e.round then s.modGroup n fun g => { g with decisions := e :: g.decisions } else s.applyDecision n e) s

/-- The coordinator writes a decision record to every live member, itself included (R410). -/
def writeDecision (s : State) (n : Nat) (d : Decision) : State :=
  let g := s.group n
  let s := ((g.live 0 g.cfg.members).filter (· != g.cfg.myidx.toNat)).foldl (fun s i => s.post (g.cfg.dev i) (.decision (g.cfg.dev i) g.cfg.gid d)) s
  let s := if d.commit then s else s.groupEvent n
  s.storeDecision n d

/-- The coordinator decides the open round (R410). (Open points: DEDUCED, log 73.) -/
def decide? (s : State) (n : Nat) (commit : Bool) : State :=
  let g := s.group n
  s.writeDecision n { round := g.roundLast + 1, commit := commit, dead := g.dead, regs := g.memberRegs }

/-- A request to another member's device (R411, R417). -/
def askMember (s : State) (n i : Nat) (op : ReqOp) : State :=
  let d := (s.group n).cfg.dev i
  s.post d (.request d (s.peer d).txPseq 0 (s.peer d).inc op)

/-- A member's record of the open round is known to the new coordinator, or never will be: COMMIT(r), once one holds it, goes to all; ABORT(r) once none is
left to ask (R411). -/
def askedOne (s : State) (n i : Nat) (d : Option Decision) : State :=
  let g := s.group n
  match d.filter fun d => d.commit && d.round == g.roundLast + 1 with
  | some d => (s.modGroup n fun g => { g with asking := [] }).writeDecision n { d with dead := g.dead }
  | none =>
    let s := s.modGroup n fun g => { g with asking := g.asking.erase i }
    if (s.group n).asking.isEmpty then s.decide? n false else s

/-- PREPARED of a member reaches the coordinator (R410). (Open points: DEDUCED, log 73.) -/
def preparedAt (s : State) (n src : Nat) (round : Word) (regs : List Region) : State :=
  let g := s.group n
  if g.coordinator = g.cfg.myidx.toNat ∧ round = g.roundLast + 1 then
    let s := s.modGroup n fun g => { g with
      prepared := if g.prepared.contains src then g.prepared else g.prepared ++ [src]
      memberRegs := (src, regs) :: g.memberRegs.filter fun e => e.1 != src }
    let g := s.group n
    if g.liveData.all fun i => g.prepared.contains i then s.decide? n true else s
  else s

/-- This data member is prepared (R410): it tells the coordinator which registrations are then in force. -/
def becomePrepared (s : State) (n : Nat) : State :=
  let g := s.group n
  let me := g.cfg.myidx.toNat
  let regs := (g.regs.filter fun r => !g.closedLeave.contains r) ++ g.closedJoin
  let s := s.modGroup n fun g => { g with phase := 2 }
  if g.coordinator = me then s.preparedAt n me (g.roundLast + 1) regs
  else s.post (g.cfg.dev g.coordinator) (.prepared (g.cfg.dev g.coordinator) g.cfg.gid g.cfg.myidx.toNat (g.roundLast + 1) regs)

/-- The changes of the round: the granule's group offset with new XOR committed, zeros standing for an absent side (R408). -/
def roundDeltas (s : State) (g : GSlot) : List (Nat × List Byte) :=
  let leaves := g.closedLeave.flatMap granulesOf
  let joins := g.closedJoin.flatMap granulesOf
  let left := fun k : Nat => leaves.any fun e => e.1 == k
  let images := g.closed.map fun kv =>
    (kv.2.goff, xorBytes 128 (if left kv.1 then [] else kv.2.data)
      (if joins.any (fun e => e.1 == kv.1) then [] else s.committedGranule g kv.1))
  let rest := (leaves.filter fun e => (tget? g.closed e.1).isNone).map fun e => (e.2 * 128, s.committedGranule g e.1)
  images ++ rest

/-- The round closes: its images and pending registrations are fixed, and the deltas leave for the parity members (R408). (Open points: DEDUCED, log 73.) -/
def closeRound (s : State) (n : Nat) : State :=
  let g := s.group n
  let images := g.opened.map fun kv => (kv.1, { kv.2 with data := (s.granule? kv.1).getD [] })
  let joins := (g.joining.flatMap granulesOf).map fun e => (e.1, ({ pa := 0, goff := e.2 * 128, data := (s.granule? e.1).getD [] } : Image))
  let s := s.modGroup n fun g => { g with
    closed := joins.foldl (fun t kv => tset t kv.1 kv.2) images, opened := [], closedJoin := g.joining, closedLeave := g.leaving
    joining := [], leaving := [], phase := 1, outcome := g.outcome }
  let g := s.group n
  let ds := s.roundDeltas g
  let s := s.modGroup n fun x => { x with unacked := g.liveParity.flatMap fun i => ds.map fun d => (i, d.1) }
  let s := g.liveParity.foldl (fun s i => ds.foldl (fun s d =>
    s.post (g.cfg.dev i) (.delta (g.cfg.dev i) g.cfg.gid { src := g.cfg.myidx.toNat, round := g.roundLast + 1, goff := d.1, data := d.2 })) s) s
  if g.state = .failed then s.applyAbort n
  else if (s.group n).unacked.isEmpty then s.becomePrepared n
  else s

/-- A member is declared dead here (R411, R416): the coordinator then aborts the open round (R410); one that has become coordinator by that death first asks
every live member for its record (R411). (Open points: DEDUCED, log 73.) -/
def declareDead (s : State) (n member : Nat) : State :=
  let old := (s.group n).coordinator
  let s := s.modGroup n fun g => { g with dead := g.dead ||| BitVec.ofNat 16 (2 ^ member) }
  let s := (s.modGroup n fun g => if g.state = .run ∨ g.state = .degraded ∨ g.cfg.m.toNat < g.deadCount then g.settle else g).groupEvent n
  let g := s.group n
  let others := (g.live 0 g.cfg.members).filter (· != g.cfg.myidx.toNat)
  if g.coordinator ≠ g.cfg.myidx.toNat ∨ !g.cfg.isData then s
  else if g.asking ≠ [] then s.askedOne n member none
  else if old = member ∧ others ≠ [] then
    others.foldl (fun s i => s.askMember n i (.decision g.cfg.gid)) (s.modGroup n fun g => { g with asking := others })
  else s.decide? n false

end State

/-! ### PROT and UNPROT (R404, R405) -/

/-- A region descriptor (R404): `none` where a must-be-zero byte is set. -/
structure RegDesc where
  va : Nat
  len : Nat
  goff : Nat
  slot : Nat
  deriving DecidableEq, Repr

def RegDesc.ofBytes (bs : List Byte) : Option RegDesc :=
  let n := leNat bs
  if fld n 195 61 ≠ 0 then none else some ⟨fld n 0 64, fld n 64 64, fld n 128 64, fld n 192 3⟩

/-- Does the descriptor fit the slot's space (R404)? -/
def RegDesc.fits (d : RegDesc) (g : GSlot) : Bool :=
  decide (d.va % 128 = 0) && decide (d.len % 128 = 0) && d.len != 0 && decide (d.goff % 128 = 0) && decide (d.goff + d.len ≤ g.cfg.space.toNat)

namespace State

/-- The checks that PROT and UNPROT share, then the region on this device (R405). -/
def withRegion (s : State) (a : BitVec 6) (k : State → RegDesc → Region → State) : State :=
  s.lsAccess (s.x a) 32 .rd fun s c =>
    if s.isRemote c.ia then s.illegal
    else
      s.withPage c.ia fun s pa _ =>
        let (s, g) := s.viewRead c.ia pa 32
        if g.lost then s.uncorrectable c.ia pa
        else
          match RegDesc.ofBytes g.data with
          | none => s.illegal
          | some d =>
            let slot := s.group d.slot
            if !d.fits slot || !slot.cfg.en || !(slot.state == .run || slot.state == .degraded) || !slot.cfg.isData then s.illegal
            else
              match (s.ctx s.bound.ctx).rangeIn? d.va d.len .rdw with
              | none => s.noWindow (BitVec.ofNat 64 d.va)
              | some r =>
                if s.isRemote r.ia then s.illegal
                else if s.constWin r.win then s.constWrite d.va r.win
                else k s d ⟨r.ia, d.len, d.goff⟩

end State

def execProt (a : BitVec 6) (s : State) : Out :=
  .next (s.withRegion a fun s d r =>
    let all := s.groups.flatMap fun kv => kv.2.allRegs
    if all.any (fun e => meets e.ia e.len r.ia r.len) || (s.group d.slot).allRegs.any (fun e => meets e.goff e.len r.goff r.len) ||
        decide (1024 ≤ all.length) then s.illegal
    else (s.modGroup d.slot fun g => { g with joining := g.joining ++ [r] }).endRegion)

/-- Open points: DEDUCED, log 73. -/
def execUnprot (a : BitVec 6) (s : State) : Out :=
  .next (s.withRegion a fun s d r =>
    let g := s.group d.slot
    if g.joining.contains r then (s.modGroup d.slot fun g => { g with joining := g.joining.erase r }).endRegion
    else if (g.regs ++ g.closedJoin).contains r && !(g.leaving ++ g.closedLeave).contains r then
      (s.modGroup d.slot fun g => { g with leaving := g.leaving ++ [r] }).endRegion
    else s.illegal)

/-! ### RPREP, RCOMM and RSTAT (R408, R409, R414, R415) -/

namespace State

/-- The round record of a slot on this device: field of `n` bytes at `o`, from the committed bytes or as home shows it. -/
def recField (s : State) (g : GSlot) (committed : Bool) (o n : Nat) : Nat :=
  let k := (g.cfg.rrec % 2 ^ 50 + o) / 128
  let bs := if committed then s.committedGranule g k else (s.granule? k).getD []
  leNat ((bs.drop (o % 128)).take n)

/-- Streams of the record, 0 to 124 (R414). -/
def recStreams (s : State) (g : GSlot) (committed : Bool) : Nat := min 124 (s.recField g committed 32 4)

/-- Translate entries `e`, `e + 1`, … of a stream table through the task's windows, each with its page, before anything is done; a page that is not there is a fetch hold (R28, R415). -/
def withEntries (s : State) (stab : Nat) (p : Perm) : Nat → Nat → List (Nat × Nat) → (State → List (Nat × Nat) → State) → State
  | 0, _, acc, k => k s acc
  | n + 1, e, acc, k =>
    s.lsAccess (BitVec.ofNat 64 (stab + 32 * e)) 32 p fun s c =>
      if p = .w && s.constWin c.win then s.constWrite (stab + 32 * e) c.win
      else if s.isRemote c.ia then s.illegal
      else s.withHeldPage c.ia fun s pa => s.withEntries stab p n (e + 1) (acc ++ [(c.ia, pa)]) k

/-- The writes of the closed round into the round record (R414). -/
def writeRecord (s : State) (n : Nat) (round : Word) (entries : List (Nat × Nat)) : State :=
  let g := s.group n
  let base := s.localIa (g.cfg.rrec % 2 ^ 50)
  if g.cfg.rrec = 0 then s
  else
    let s := s.iaStore base (leBytes 8 round.toNat)
    ((List.range entries.length).zip entries).foldl (fun s e => s.iaStore (base + 64 + 32 * e.1) (s.mem.bytes e.2.2 24)) s

/-- Must the writes of the record wait for the round buffer (R406)? -/
def recordWaits (s : State) (n streams : Nat) : Bool :=
  let g := s.group n
  let k := g.cfg.rrec % 2 ^ 50 / 128
  let new := ((List.range ((64 + 32 * streams + 127) / 128)).filter fun i =>
    (g.covers? (s.localIa (128 * (k + i)))).isSome && (tget? g.opened (k + i)).isNone).length
  g.cfg.rrec != 0 && !g.bufferRoom new

/-- Does a released record still have to reach a protected granule of the slot? -/
def roundWaits (s : State) (n stamp : Nat) : Bool :=
  s.mem.recs.any fun r => (match r.stamp with
    | some st => decide (st ≤ stamp)
    | none => false) && r.cells.any fun c => ((s.group n).covers? c.1).isSome

/-- The checks that RPREP and RCOMM share, then the slot (R408). -/
def withGroup (s : State) (a : BitVec 6) (k : State → Nat → GSlot → State) : State :=
  let w := (s.x a).toNat
  let g := s.group (w % 8)
  if w / 8 ≠ 0 ∨ !g.cfg.en ∨ !g.cfg.isData then s.illegal else k s (w % 8) g

end State

/-- Open points: DEDUCED, log 75. -/
def execRprep (a b : BitVec 6) (s : State) : Out :=
  .next (s.withGroup a fun s n g =>
    if g.rb then s.hold
    else if s.x b ≠ g.roundLast + 1 ∨ g.phase ≠ 0 then s.illegal
    else
      let copies := if g.cfg.rrec ≠ 0 ∧ g.cfg.roundcfg.getLsbD 0 then s.recStreams g false else 0
      s.withEntries (s.recField g false 24 8) .rd copies 0 [] fun s entries =>
        if s.core.released.isNone && (s.loadsOut || s.recordWaits n copies) then s.hold
        else
          s.withRelease (Scope.eager .package) (fun s st => (s.fencePublish .package st, 0)) fun s _ again =>
            let (s, st) := s.takeStamp
            let s := (s.compact fun r t => decide (t ≤ st) && r.cells.any fun c => ((s.group n).covers? c.1).isSome).1
            if s.roundWaits n st then again s
            else ((s.writeRecord n (s.x b) entries).closeRound n).endRegion)

def execRcomm (a b : BitVec 6) (s : State) : Out :=
  .next (s.withGroup a fun s _ g =>
    if g.phase ≠ 0 then s.hold
    else s.withAcquire 0 false (s.fenceSources .package) .package State.hold fun s =>
      (s.setX b (BitVec.ofNat 64 (g.outcome.getD 2)) 1).endRegion)

namespace State

/-- STREAM_SKEW is reported to the containment of the task's job, outside any task (R38, R308, R415). (Open points: DEDUCED, log 75.) -/
def streamSkew (s : State) (e : Nat) : State :=
  let id := s.core.regs.z.job.toNat
  let f : FaultInfo := { ctx := s.bound.ctx, cause := { code := 0x1A, detail := BitVec.ofNat 32 e }, level := 4, job := id }
  match s.job? id with
  | none => s.faultRecord f
  | some j => (s.faultRecord f).jobPolicy j (((s.sched.phases.find? fun p => p.job == id && !p.complete).map Phase.id).getD 0)

/-- The restore from the committed round record (R415). (Open points: DEDUCED, log 75.) -/
def restore (s : State) (b : BitVec 6) (g : GSlot) : State :=
  let done := fun (s : State) (st : Nat) => (s.setX b (BitVec.ofNat 64 st) 1).endRegion
  if g.cfg.rrec = 0 ∨ !g.cfg.roundcfg.getLsbD 0 then done s 3
  else
    let f := fun o n => s.recField g true o n
    let n := s.recStreams g true
    let want := fun e : Nat => (f (64 + 32 * e + 24) 8 + f 16 8 * f 8 8) % 2 ^ 64
    let pos := fun e : Nat => f (64 + 32 * e + 16) 8
    let skew := if g.cfg.roundcfg.getLsbD 1 then (List.range n).filter fun e => pos e != want e else []
    if skew ≠ [] ∧ !g.cfg.roundcfg.getLsbD 2 then done (s.streamSkew (skew.headD 0)) 2
    else
      s.withEntries (f 24 8) .w n 0 [] fun s entries =>
        let (s, st) := s.takeStamp
        let s := ((List.range n).zip entries).foldl (fun s e =>
          let p := if skew.contains e.1 then want e.1 else pos e.1
          ((s.request e.2.2).atomicWrite e.2.1 e.2.2 (leBytes 8 (f (64 + 32 * e.1) 8) ++ leBytes 8 (f (64 + 32 * e.1 + 8) 8) ++ leBytes 8 p) st).1) s
        done s (if skew = [] then 0 else 1)

end State

/-- Open points: DEDUCED, log 75. -/
def execRstat (a b : BitVec 6) (s : State) : Out :=
  let w := (s.x a).toNat
  let g := s.group (w % 8)
  .next (if w / 64 ≠ 0 ∨ !g.cfg.en then s.illegal
    else match fld w 3 3 with
      | 0 => (s.setX b g.roundLast 1).endRegion
      | 1 => (s.setX b g.stat 1).endRegion
      | 2 => s.restore b g
      | _ => s.illegal)

end Sys2Proof.Machine
end

