-- ==== Sys2Proof/Machine/UnitEvents.lean ====
section
/-! DEFINITION. The command processor and the graph walker: rings, launches, graphs, phases and jobs (spec 04_numbers.md R133; 11_translation_scheduling.md
R303, R308 to R312; 13_package.md R346 to R352). -/

namespace Sys2Proof.Machine

/-- Every address of an 8-byte word that a context may read and write, on this device. -/
def counterOk (s : State) (c va : Nat) : Bool := va % 8 == 0 && ((s.ctx c).rangeIn? va 8 .rdw).isSome

/-! ### Launch entries (R349, R350) -/

/-- Are the bytes [o, o + n) zero? -/
def zeros (bs : List Byte) (o n : Nat) : Bool := at' bs o n == 0

/-- Are the fields of an entry and its block in range (R349, R350)? -/
def Launch.fieldsOk (l : Launch) : Bool :=
  zeros l.entry 23 1 && fld l.mode 4 4 == 0 && zeros l.block 82 6 && zeros l.block 100 28 &&
  l.addr % 4 == 0 && l.blockAddr % 64 == 0 && decide (1 ≤ l.count) && decide (l.count ≤ 2 ^ 24) && l.saveOff % 32768 == 0 && l.counter % 8 == 0 &&
  l.recs % 64 == 0 && decide (l.nouts ≤ 256) &&
  ((List.range 4).all fun d => fld (l.place d) 22 10 == 0) && ((List.range 4).any fun d => l.place d != 0) &&
  (!l.affine || decide (l.pbase + l.plen + 1 ≤ 256)) && decide (l.saveOff + 32768 * l.count ≤ 2 ^ 50)

/-- Are the ranges that a launch names inside windows that grant what they need (R350)? -/
def Launch.rangesOk (l : Launch) (x : Ctx) : Bool :=
  (x.rangeIn? l.addr 4 .x).isSome && (x.rangeIn? l.blockAddr 128 .rd).isSome && (x.rangeIn? l.recs (64 * l.count) .rdw).isSome &&
  (x.rangeIn? l.counter 8 .rdw).isSome && (l.stats == 0 || (x.rangeIn? l.stats 8192 .w).isSome) &&
  (l.bounds == 0 || (x.rangeIn? l.bounds 4096 .rd).isSome) && (l.streams == 0 || (x.rangeIn? l.streams (32 * l.count) .rdw).isSome) &&
  (l.outs == 0 || l.nouts == 0 || (x.rangeIn? l.outs (16 * l.nouts) .rd).isSome)

/-- The 128 bytes of a launch record (R352). -/
def Launch.recordBytes (l : Launch) (status : Nat) (footDig : List Byte) (outDig : List Byte) : List Byte :=
  leBytes 4 l.id ++ leBytes 1 l.mode ++ leBytes 1 status ++ leBytes 2 (l.ctx % 16 + l.ring % 64 * 16) ++ leBytes 8 l.seed ++ leBytes 8 l.ctrBase ++
  footDig ++ outDig ++ leBytes 8 l.start ++ leBytes 8 l.stop ++ leBytes 8 l.jseq ++ leBytes 4 l.count ++ leBytes 4 l.killed ++ leBytes 8 l.addr ++
  leBytes 4 l.graph ++ leBytes 4 l.job

namespace State

/-- Write a launch record (R352); with LOG2N = 0 none is written. (Open points: DEDUCED, log 50.) -/
def putRecord (s : State) (l : Launch) (status : Nat) (outDig : List Byte) : State :=
  let w := s.root.lrcfg.toNat
  if fld w 0 5 = 0 then s
  else
    let (s, outs) := if l.nouts = 0 ∨ l.outs = 0 then (s, some []) else s.supRead 0 l.ctx l.outs (16 * l.nouts)
    let foot := match outs with
      | some [] => leBytes 8 0
      | some bs => (sha384 bs).take 8
      | none => leBytes 8 0
    (s.writeIa 0 (fld w 12 52 * 4096 + 128 * (l.id % 2 ^ fld w 0 5)) (l.recordBytes status foot outDig) 2).1

/-- The next launch ID (R351). -/
def takeLaunch (s : State) : State × Nat :=
  let n := s.sched.launchSeq
  (s.modSched fun q => { q with launchSeq := if n + 1 = 0 then 1 else n + 1 }, n.toNat)

/-- A launch is rejected (R350): it takes an ID and a record, and a graph's node fails. (Open points: DEDUCED, log 50.) -/
def rejectLaunch (s : State) (l : Launch) : State :=
  let s := s.journal 6 0 0 l.id l.entry
  let s := s.putRecord { l with jseq := s.root.journal.jseq.toNat, stop := s.time } 4 (leBytes 48 0)
  match s.graph? l.graph with
  | none => s
  | some g => s.graphFails l.graph { ctx := l.ctx, cause := badRecord (g.addr.toNat + 64 + 64 * l.node) 0, graph := l.graph, job := l.job }

/-- A launch is accepted (R351). -/
def acceptLaunch (s : State) (l : Launch) : State :=
  let s := s.journal 5 0 0 l.id l.entry
  let l := { l with jseq := s.root.journal.jseq.toNat }
  let s := s.putRecord l 0 (leBytes 48 0)
  let s := (List.range l.count).foldl (fun s i => (s.supWrite 0 l.ctx (l.recs + 64 * i) (l.record i)).1) s
  let dies := (List.range 4).filter fun d => l.place d != 0
  let n := s.sched.nextOrder
  s.modSched fun q => { q with
    launches := q.launches ++ [l]
    tasks := q.tasks ++ (List.range l.count).map fun i => { l.task i (dies.getD (i % dies.length) 0) with order := n + i }
    nextOrder := n + l.count }

/-- Tasks that wait for an entry of a ring become READY (R102). -/
def wakeRing (s : State) (c ring : Nat) : State :=
  s.sched.tasks.foldl (fun s t =>
    match t.state, t.park with
    | .parked, some (.ring x r) => if x = c ∧ r = ring then s.makeReady t.launch t.index id else s
    | _, _ => s) s

/-- The graph, node and job of a submitted entry, and the graph of the submitting task (R312). -/
def ringLaunch (s : State) (c ring slot id : Nat) (entry : List Byte) : Launch :=
  let sub := s.sched.submits.find? fun e => e.ctx == c && e.ring == ring && e.slot == slot
  let g := (sub.map Submit.graph).getD 0
  { id := id, ctx := c, ring := ring, entry := entry, block := [], start := s.time, graph := g, node := (sub.map Submit.node).getD 0
    phase := ((s.graph? g).map Graph.phase).getD 0, job := ((s.graph? g).map Graph.job).getD 0, parentGraph := (sub.map Submit.parent).getD 0 }

/-- Read a context's address space at home, inside one page: `none` while its page is not there, `some none` when it fails otherwise. -/
def walkerRead (s : State) (c va n : Nat) : State × Option (Option (List Byte)) :=
  match s.supIa c va n .rd with
  | none => (s, some none)
  | some ia =>
    let (s, w) := s.walk 0 ia
    match w with
    | .page pa _ =>
      let (s, r) := s.homeRead ia pa n
      (s, some r)
    | .absent => (s, none)
    | _ => (s, some none)

/-- The 128 bytes of a launch block, as `walkerRead` answers. -/
def blockRead (s : State) (c va : Nat) : State × Option (Option (List Byte)) :=
  match s.walkerRead c va 64 with
  | (s, some (some a)) =>
    match s.walkerRead c (va + 64) 64 with
    | (s, some (some b)) => (s, some (some (a ++ b)))
    | r => r
  | r => r

/-- A launch whose block has been read is accepted or rejected (R350, R351). -/
def enlist (s : State) (l : Launch) (block : Option (List Byte)) : State :=
  let l := { l with block := block.getD (List.replicate 128 0) }
  if block.isSome && l.fieldsOk && l.rangesOk (s.ctx l.ctx) then s.acceptLaunch l else s.rejectLaunch l

/-- Entry `k` of a ring is taken (R348, R350, R351); it stays while the page of its block is not there. (Open points: DEDUCED, log 50.) -/
def takeEntry (s : State) (c ring : Nat) (w : Word) (k : Nat) : State :=
  let (s, e) := s.readIa 0 (ringEntry w k) 64 2
  match e with
  | none => s
  | some bs =>
    let va := (s.ringLaunch c ring k 0 bs).blockAddr
    match s.blockRead c va with
    | (s, none) =>
      match s.supIa c va 128 .rd with
      | some ia => s.fltqNote 0 (ia / 65536) (2 ^ 21 + c * 64 + ring, k) false
      | none => s
    | (s, some b) =>
      let (s, st) := s.takeStamp
      let s := (s.setHomeWord 0 (ringBase w + 16) ((k + 1) % 2 ^ 64) st).1
      let (s, id) := s.takeLaunch
      let l := s.ringLaunch c ring k id bs
      let s := s.modSched fun q => { q with submits := q.submits.filter fun e => !(e.ctx == c && e.ring == ring && e.slot == k) }
      (s.enlist l b).wakeRing c ring

/-- A launch that a task submitted runs again from its entry (R308). (Open points: DEDUCED, log 46.) -/
def relaunch (s : State) (l : Launch) : State :=
  let (s, id) := s.takeLaunch
  let n : Launch := { id := id, ctx := l.ctx, ring := l.ring, entry := l.entry, block := [], start := s.time, parentGraph := l.parentGraph
                      origin := if l.origin = 0 then l.id else l.origin }
  let (s, b) := s.blockRead l.ctx n.blockAddr
  s.enlist n (b.getD none)

/-- The command processor visits a ring (R348). -/
def visitRing (s : State) (c ring : Nat) : State :=
  let w := tget 0 (s.ctx c).rings ring
  match s.agentAcquire (ringBase w + 8) with
  | (s, false) => s
  | (s, true) =>
    match s.ringWords 0 w with
    | (s, some (_, pub, con)) => if con < pub then s.takeEntry c ring w con else s
    | (s, none) => s

/-- Rings that are polled (R338, R348), as context·64 + ring. -/
def polled (s : State) : List Nat :=
  if s.root.stage.stage < 2 then []
  else s.root.ctxs.flatMap fun kv => if kv.2.en then (kv.2.rings.filter fun r => ringLog r.2 != 0).map fun r => kv.1 * 64 + r.1 else []

/-- One visit in round-robin order of (context, ring) (R348). -/
def pollVisit (s : State) : State :=
  let l := s.polled
  match (l.find? fun n => decide (s.sched.poll ≤ n)).or l.head? with
  | none => s
  | some n => (s.modSched fun q => { q with poll := n + 1 }).visitRing (n / 64) (n % 64)

/-! ### Graphs (R309, R310) -/

/-- The header of a graph: its number of nodes, policy and counter, when it may start (R309). -/
def graphHeader (s : State) (c : Nat) (a : Word) : State × Option (Nat × Nat × Nat) :=
  let (s, r) := s.supRead 0 c a.toNat 64
  match r with
  | none => (s, none)
  | some h =>
    let n := at' h 0 4
    let ok := decide (1 ≤ n) && decide (n ≤ 65536) && zeros h 5 3 && zeros h 16 48 && counterOk s c (at' h 8 8)
    (s, if ok then some (n, at' h 4 1, at' h 8 8) else none)

/-- Address of a node. -/
def nodeAddr (g : Graph) (n : Nat) : Nat := g.addr.toNat + 64 + 64 * n

/-- The failure of R310 at a node. -/
def nodeFails (s : State) (g : Graph) (n : Nat) : State :=
  s.graphFails g.id { ctx := g.ctx, cause := badRecord (nodeAddr g n) 0, graph := g.id, job := g.job }

/-- A completion reaches a node (R310); once an end node has become active, those that arrive are discarded. -/
def nodeSend (s : State) (gid succ : Nat) : State :=
  match s.graph? gid with
  | none => s
  | some g =>
    if succ = 0xFFFFFFFF ∨ g.ended then s
    else
      let (s, r) := s.supRead 0 g.ctx (nodeAddr g succ) 4
      let b := r.getD []
      let n := tget 0 g.received succ + 1
      if at' b 2 2 ≤ n then
        s.modGraph gid fun g => { g with received := terase g.received succ, active := g.active ++ [succ], ended := at' b 0 1 == 3 }
      else s.modGraph gid fun g => { g with received := tset g.received succ n }

/-- The current phase of a job counts as complete: its counter advances, and it goes on or completes (R303, R311, R312). -/
def jobAdvance (s : State) (j : JobRun) : State :=
  if j.stopped then s
  else
    let s := s.counterAdd 0 j.ctx j.counter.toNat
    let s := s.modJob j.id fun j => { j with cur := j.cur + 1, active := false }
    if j.cur + 1 = j.nphase then (s.modJob j.id fun j => { j with complete := true }).event 0x0D 1 j.id else s

/-- A phase completes (R303, R311). -/
def phaseDone (s : State) (pid : Nat) : State :=
  match s.phase? pid with
  | none => s
  | some p =>
    if p.complete then s
    else
      let s := s.modPhase pid fun p => { p with complete := true }
      match s.job? p.job with
      | none => s
      | some j => s.jobAdvance j

/-- A graph completes: the phase's counter advances, and the phase completes (R303, R310). (Open points: DEDUCED, log 49.) -/
def graphDone (s : State) (gid : Nat) : State :=
  match s.graph? gid with
  | none => s
  | some g =>
    if g.complete then s
    else
      let s := s.modGraph gid fun g => { g with complete := true, ended := true, active := [] }
      match s.phase? g.phase with
      | none => s
      | some p => if p.graph = gid ∧ !p.complete then (s.counterAdd 0 p.ctx p.counter).phaseDone p.id else s

/-- Do launches of a graph still run? (Open points: DESIGN CHOICE, log 48.) -/
def graphBusy (s : State) (gid : Nat) : Bool :=
  (s.sched.launches.any fun l => l.graph == gid && !l.complete && !l.orphan) || (s.sched.submits.any fun e => e.graph == gid && gid != 0)

/-- A graph that has ended completes once every active node has acted and no launch of it runs (R310). (Open points: DEDUCED, log 49.) -/
def graphSettle (s : State) (gid : Nat) : State :=
  match s.graph? gid with
  | none => s
  | some g => if g.ended && g.active.isEmpty && !g.complete && !s.graphBusy gid then s.graphDone gid else s

/-- Submit an entry to launch ring 63 of the graph's context (R310): false while the ring has no room. (Open points: DEDUCED, log 49.) -/
def walkerSubmit (s : State) (g : Graph) (n : Nat) (bs : List Byte) : State × Bool :=
  let w := tget 0 (s.ctx g.ctx).rings 63
  if ringLog w = 0 then (s, false)
  else
    match s.ringWords 0 w with
    | (s, some (res, pub, con)) =>
      if 2 ^ ringLog w ≤ res - con ∨ pub ≠ res then (s, false)
      else
        match s.ringReserve 0 w res bs with
        | (s, false) => (s, false)
        | (s, true) =>
          let (s, st) := s.takeStamp
          let s := (s.setHomeWord 0 (ringBase w + 8) ((res + 1) % 2 ^ 64) st).1
          (s.modSched fun q => { q with submits := q.submits ++ [{ ctx := g.ctx, ring := 63, slot := res, graph := g.id, node := n }] }, true)
    | (s, none) => (s, false)

/-- An active node acts (R310). (Open points: DEDUCED, log 49.) -/
def nodeAct (s : State) (g : Graph) (n : Nat) : State :=
  let (s, r) := s.supRead 0 g.ctx (nodeAddr g n) 64
  let gone := fun s : State => s.modGraph g.id fun g => { g with active := g.active.erase n }
  match r with
  | none => s.nodeFails g n
  | some b =>
    let succOk := fun o : Nat => at' b o 4 == 0xFFFFFFFF || decide (at' b o 4 < g.nodes)
    let arg := at' b 8 8
    if 3 < at' b 0 1 ∨ !zeros b 1 1 ∨ !zeros b 4 4 ∨ !zeros b 40 24 ∨ !succOk 16 ∨ !succOk 20 then s.nodeFails g n
    else
      match at' b 0 1 with
      | 0 =>
        if arg % 64 ≠ 0 then s.nodeFails g n
        else
          match s.walkerRead g.ctx arg 64 with
          | (s, none) => s
          | (s, some none) => s.nodeFails g n
          | (s, some (some e)) =>
            match s.walkerSubmit g n e with
            | (s, true) => (gone s).modGraph g.id fun g => { g with running := g.running ++ [n] }
            | (s, false) => s
      | 3 => gone s
      | ty =>
        if arg % 8 ≠ 0 then s.nodeFails g n
        else
          let (s, ok) := match s.supIa g.ctx g.counter 8 .rdw with
            | some ia => s.agentAcquire ia
            | none => (s, true)
          match (if ok then s.walkerRead g.ctx arg 8 else (s, none)) with
          | (s, none) => s
          | (s, some none) => s.nodeFails g n
          | (s, some (some w)) =>
            let yes := leNat w != 0
            if ty = 1 then (gone s).nodeSend g.id (at' b (if yes then 16 else 20) 4)
            else
              let iter := at' b 32 8
              let again := yes && (at' b 24 8 == 0 || decide (iter < at' b 24 8))
              let s := (s.supWrite 0 g.ctx (nodeAddr g n + 32) (leBytes 8 (if again then iter + 1 else 0))).1
              (gone s).nodeSend g.id (at' b (if again then 16 else 20) 4)

/-- An active node acts, and the graph completes if that was what it waited for. -/
def nodeStep (s : State) (g : Graph) (n : Nat) : State := (s.nodeAct g n).graphSettle g.id

/-- A launch of a graph has completed: the graph's counter advances, and its node's successors receive completions (R303, R310). (Open points: DEDUCED, log 49.) -/
def nodeComplete (s : State) (l : Launch) : State :=
  match s.graph? l.graph with
  | none => s
  | some g =>
    if g.complete then s
    else
      let s := s.counterAdd 0 g.ctx g.counter
      let s := s.modGraph g.id fun g => { g with running := g.running.erase l.node }
      if g.ended then s.graphSettle g.id
      else
        let (s, r) := s.supRead 0 g.ctx (nodeAddr g l.node) 64
        match r with
        | none => s.nodeFails g l.node
        | some b => (s.nodeSend g.id (at' b 16 4)).nodeSend g.id (at' b 20 4)

/-- Start a graph for a phase (R310, R311, R312): its ID, its received counts, its while nodes' ITER and its entry nodes; false on a failure. -/
def startGraph (s : State) (p : Phase) (a : Word) : State × Bool :=
  let (s, gid) := s.takeUnit
  match s.graphHeader p.ctx a with
  | (s, none) => (s, false)
  | (s, some (n, pol, ctr)) =>
    let g : Graph := { id := gid, ctx := p.ctx, addr := a, phase := p.id, job := p.job, policy := pol, nodes := n, counter := ctr }
    let (s, entries, ended) := (List.range n).foldl (fun (acc : State × List Nat × Bool) i =>
      let (s, r) := acc.1.supRead 0 p.ctx (nodeAddr g i) 4
      let b := r.getD []
      let s := if at' b 0 1 = 2 then (s.supWrite 0 p.ctx (nodeAddr g i + 32) (leBytes 8 0)).1 else s
      if r.isNone || zeros b 2 2 then (s, acc.2.1 ++ [i], acc.2.2 || at' b 0 1 == 3) else (s, acc.2)) (s, [], false)
    ((s.modSched fun q => { q with graphs := q.graphs ++ [{ g with active := entries, ended := ended }] }).modPhase p.id
      fun p => { p with graph := gid, gaddr := a }, true)

/-! ### Launches that have ended (R351) -/

/-- Has every task of a launch ended, or been counted? -/
def launchEnded (s : State) (l : Launch) : Bool :=
  !l.complete && (decide (l.count ≤ l.counted) ||
    (l.final != 1 && (s.sched.tasks.filter fun t => t.launch == l.id).all fun t => t.state == .done || t.state == .killed))

/-- The output digest (R352): the SHA-384 of the declared outputs as home holds them. (Open points: DEDUCED, log 51.) -/
def outDigest (s : State) (l : Launch) : State × List Byte :=
  if !l.det then (s, leBytes 48 0)
  else
    let (s, r) := if l.nouts = 0 ∨ l.outs = 0 then (s, some []) else s.supRead 0 l.ctx l.outs (16 * l.nouts)
    let pairs := (r.map fun bs => (List.range l.nouts).map fun i => (at' bs (16 * i) 8, at' bs (16 * i + 8) 8)).getD []
    let (s, out) := pairs.foldl (fun (acc : State × Option (List Byte)) p =>
      match acc.2 with
      | none => acc
      | some bs =>
        if p.2 = 0 then acc
        else
          let (s, r) := acc.1.supRead 0 l.ctx p.1 p.2
          (s, r.map fun x => bs ++ x)) (s, if r.isSome then some [] else none)
    match out with
    | some bs => (s, sha384 bs)
    | none => (s.nextFree, leBytes 48 (Config.freeDigest s.free).toNat)

/-- The bytes of a statistics block (R133). -/
def statsBlock (t : Tab Stat) : List Byte :=
  (List.range 256).flatMap fun n =>
    let a := tget {} t n
    leBytes 8 a.sat ++ leBytes 8 a.flush ++ leBytes 8 a.nan ++ leBytes 8 a.viol

/-- The command processor completes a launch (R351): a compaction that must wait holds it back. -/
def completeLaunch (s : State) (l : Launch) : State :=
  if !s.launchEnded l then s
  else
    let mine := fun r : Rec => r.launch == l.id && r.stamp.isSome
    let s := if l.det then (s.compact fun r _ => mine r).1 else s
    if l.det && s.mem.recs.any mine then s
    else
      let (s, dig) := s.outDigest l
      let s := if l.stats = 0 then s else (s.supWrite 0 l.ctx l.stats (statsBlock l.totals)).1
      let s := s.putRecord { l with stop := s.time } l.final dig
      let s := s.modSched fun q => { q with
        launches := q.launches.map fun x => if x.id == l.id && !x.complete then { x with status := x.final, complete := true, stop := s.time } else x }
      let s := if l.again then s.relaunch l else s
      if l.graph = 0 ∨ l.orphan then s else s.nodeComplete l

/-! ### Phases and jobs (R311, R312) -/

/-- A job fails at the start of its phase, whose descriptor lies at `a` and which has the ID `pid`, or 0 before it starts: a fault record of level 4, and
the job's policy (R308, R312). (Open points: DESIGN CHOICE, log 47; DEDUCED, log 49.) -/
def phaseFails (s : State) (j : JobRun) (a pid : Nat) : State :=
  let s := s.faultRecord { ctx := j.ctx, cause := badRecord a 0, level := 4, offered := true, job := j.id }
  if polOf j.policy ≠ 0 then s.jobPolicy j pid else if pid = 0 then s.jobAdvance j else s.phaseDone pid

/-- The schedules of a phase descriptor: FOOT and GRAPH, in order (R312). -/
def schedules (bs : List Byte) : List (Nat × Nat) := (List.range (at' bs 0 1)).map fun i => (at' bs (64 + 16 * i) 8, at' bs (72 + 16 * i) 8)

/-- The schedule of largest FOOT that fits, the lowest-numbered among equals (R311). (Open points: DESIGN CHOICE, log 47.) -/
def bestFit (limit : Nat) (l : List (Nat × Nat)) : Option (Nat × Nat) :=
  l.foldl (fun best x => if limit < x.1 then best else match best with
    | none => some x
    | some b => if b.1 < x.1 then some x else best) none

/-- The moves of roaming pages registered here are counted anew (R368). -/
def endWindow (s : State) : State :=
  s.modFabric fun f => { f with directory := f.directory.map fun kv => (kv.1, { kv.2 with moves := 0, settled := false }) }

/-- The next phase of a job starts (R311, R312): it takes its ID when a schedule fits, and its graph takes one with it. -/
def startPhase (s : State) (j : JobRun) : State :=
  let (s, pa) := s.supRead 0 j.ctx (j.phases.toNat + 8 * j.cur) 8
  let a := (pa.map leNat).getD 0
  let (s, d) := if pa.isSome ∧ a % 64 = 0 then s.supRead 0 j.ctx a 128 else (s, none)
  match d with
  | none => s.phaseFails j a 0
  | some bs =>
    if at' bs 0 1 < 1 ∨ 4 < at' bs 0 1 ∨ !zeros bs 2 6 ∨ !zeros bs 16 48 ∨ !counterOk s j.ctx (at' bs 8 8) then s.phaseFails j a 0
    else
      match bestFit (min (s.ctx j.ctx).budget.toNat s.trav.capLive) (schedules bs) with
      | none => (s.stopJob j.id 4 3 false).event 7 Config.noFit j.id
      | some (_, g) =>
        let (s, pid) := s.endWindow.takeUnit
        let p : Phase := { id := pid, ctx := j.ctx, job := j.id, addr := BitVec.ofNat 64 a, policy := at' bs 1 1, counter := at' bs 8 8 }
        let s := (s.modSched fun q => { q with phases := q.phases ++ [p] }).modJob j.id fun j => { j with active := true }
        match s.startGraph p (BitVec.ofNat 64 g) with
        | (s, true) => s
        | (s, false) => s.phaseFails j a pid

/-- The graph of a phase runs anew after a failure, once its launches have ended (R308), unless the phase has been cancelled (R103). (Open points: DESIGN CHOICE, log 48.) -/
def restartGraph (s : State) (j : JobRun) (p : Phase) : State :=
  if s.sched.launches.any fun l => !l.complete && (s.graph? l.graph).any fun g => g.phase == p.id then s
  else if p.stopped then s.phaseDone p.id
  else
    match s.startGraph p p.gaddr with
    | (s, true) => s
    | (s, false) => s.phaseFails j p.addr.toNat p.id

/-- What the graph walker does for a job that is due (R311). -/
def jobStep (s : State) (j : JobRun) : State :=
  if j.stopped ∨ j.complete then s
  else if !j.active then (if j.cur < j.nphase then s.startPhase j else s)
  else
    match s.sched.phases.find? fun p => p.job == j.id && !p.complete && p.graph == 0 && p.gaddr != 0 with
    | some p => s.restartGraph j p
    | none => s

/-- A job is rejected (R312). -/
def rejectJob (s : State) (c : Nat) : State := (s.modCtx c fun x => { x with jobRej := true }).event 7 1 0

/-- A write of JOBSUB with GO (R312): the descriptor is read as after a package-scope acquire, so released records on it reach home first. (Open
points: DEDUCED, log 58.) -/
def submitJob (s : State) (c : Nat) (va : Nat) : State :=
  let reject := fun s : State => s.rejectJob c
  let s := match s.supIa c va 64 .rd with
    | some ia => (s.compactAt ia 64).1
    | none => s
  let (s, d) := s.supRead 0 c va 64
  match d with
  | none => reject s
  | some bs =>
    let n := at' bs 0 4
    let ok := decide (1 ≤ n) && decide (n ≤ 4096) && zeros bs 5 3 && zeros bs 24 40 && counterOk s c (at' bs 8 8) &&
      ((s.ctx c).rangeIn? (at' bs 16 8) (8 * n) .rd).isSome
    if !ok || decide (16 ≤ (s.sched.jobs.filter fun j => !j.stopped && !j.complete).length) then reject s
    else
      let (s, id) := s.takeUnit
      let j : JobRun := { id := id, ctx := c, addr := BitVec.ofNat 64 va, nphase := n, policy := at' bs 4 1, counter := BitVec.ofNat 64 (at' bs 8 8)
                          phases := BitVec.ofNat 64 (at' bs 16 8) }
      let s := (s.modCtx c fun x => { x with jobRej := false, jobLast := BitVec.ofNat 32 id }).modSched fun q => { q with jobs := q.jobs ++ [j] }
      (s.event 0x0D 0 id).jobStep j

end State

/-! ### The meanings -/

def execRingPollVisit (s : State) : Out := .next s.pollVisit

def execLaunchComplete (launch : Nat) (s : State) : Out :=
  .next (match s.sched.launches.find? fun l => l.id == launch && !l.complete with
    | some l => s.completeLaunch l
    | none => s)

def execGraphNodeActivate (graph node : Nat) (s : State) : Out :=
  .next (match s.graph? graph with
    | some g => if g.active.contains node && !g.complete then s.nodeStep g node else s.graphSettle graph
    | none => s)

def execPhaseStart (job : Nat) (s : State) : Out :=
  .next (match s.job? job with
    | some j => s.jobStep j
    | none => s)

end Sys2Proof.Machine
end

