-- ==== Sys2Proof/Machine/Owner.lean ====
section
/-! DEFINITION. Ownership of the register window and commands (spec 13_package.md R333, R340 to R344). -/

namespace Sys2Proof.Machine

namespace State

/-- The owner lapses: no owner, a new epoch, and a journal entry (R342). (Open points: DEDUCED, log 62.) -/
def lapse (s : State) : State :=
  (s.modRoot fun r => { r with owner := { r.owner with id := 0, epoch := r.owner.epoch + 1, succ := 0 } }).event 4 0 0

/-- The lease ends when its ticks have passed since the claim or the last OWNBEAT (R342). (Open points: DEDUCED, log 62.) -/
def settleLease (s : State) : State :=
  if s.root.owner.id ≠ 0 ∧ s.root.owner.beat + s.root.owner.lease.toNat ≤ s.time then s.lapse else s

/-- What an owner's write came to (R333). -/
inductive Written where
  /-- no register, a read-only one, or a value that the register ignores: nothing happens -/
  | ignored
  /-- refused with journal RESULT 1 -/
  | refused
  /-- it has no effect as a write and is not journalled, but the device is in another state (R361) -/
  | silent (s : State)
  /-- it took effect -/
  | done (s : State)

/-- A write of the owner to offset `off` (R333): a command, whose journal entry comes before those of its effects; a write of anyone else is
ignored. -/
def ownerWrite (s : State) (master off : Nat) (value : Word) (f : State → Written) : State :=
  let s := s.settleLease
  if master = 0 ∨ s.root.owner.id ≠ master then s
  else
    match f s with
    | .ignored => s
    | .refused => s.command master 1 off value
    | .silent t => t
    | .done _ =>
      match f (s.command master 0 off value) with
      | .done t => t
      | _ => s

/-- Is any context enabled? -/
def anyCtx (s : State) : Bool := s.root.ctxs.any fun kv => kv.2.en

end State

end Sys2Proof.Machine
end

