-- ==== Sys2Proof/Machine/HbmEvents.lean ====
section
/-! DEFINITION. The traverse: relocation, the sweep and lost granules; requests, refresh and refresh management (spec 12_hbm.md R317 to R326). -/

namespace Sys2Proof.Machine

/-- The granules of a stack before its retirement: the lowest at or above `g` (R320). -/
def Trav.nextMoving (t : Trav) (g : Nat) : Option Nat :=
  let rs := t.retired.reverse.tail
  let n := searchUp (stackCount rs t.retStack) (stackCount rs t.retStack g) 29 0
  if n < capGranules t.retired.length then some n else none

/-- Copy the bytes and stamps of a granule from one physical address to another (R319). (Open points: DEDUCED, log 54.) -/
def Mem.moveGranule (m : Mem) (src dst : Nat) : Mem :=
  (List.range 2048).foldl (fun m i =>
    { m with cells := cset m.cells (dst + i) (cget m.cells (src + i))
             stamps := if tget 0 m.stamps (src + i) = 0 then terase m.stamps (dst + i) else tset m.stamps (dst + i) (tget 0 m.stamps (src + i)) }) m

/-- The entry with another page address, and its parity made even (R292, R319). -/
def pteWith (x pa : Nat) : Nat :=
  let y := putFld (putFld x 16 32 (pa / 65536)) 64 1 0
  if parityBits 128 y then putFld y 64 1 1 else y

namespace State

/-- The traverse reads a granule, block by block, as any request does: the blocks of 64 bytes that cannot be read (R320, R322, R328). -/
def readGranule (s : State) (pa : Nat) : State × List Nat :=
  (List.range 32).foldl (fun (acc : State × List Nat) i =>
    let r := acc.1.readBlock (pa + 64 * i) false
    (r.1, if r.2 == .bad then acc.2 ++ [pa / 64 + i] else acc.2)) (s, [])

/-- The intermediate address of a protected coding granule that lies in the granule of physical address `pa`. -/
def protectedIn (s : State) (pa : Nat) : Option Nat :=
  (s.groups.flatMap fun kv => kv.2.regs.flatMap fun r => (List.range (r.len / 128)).map fun i => r.ia + 128 * i).find? fun ia =>
    (s.peekPa? ia).any fun p => p / 2048 == pa / 2048

/-- Can each of these blocks of 64 bytes be reconstructed (R322)? -/
def blocksProtected (s : State) (blocks : List Nat) : Bool :=
  blocks.all fun b =>
    match (s.groups.flatMap fun kv => kv.2.regs.flatMap fun r => (List.range (r.len / 128)).map fun i => (kv.1, r.ia + 128 * i)).find? fun e =>
        (s.peekPa? e.2).any fun p => p / 128 == b / 2 with
    | some (g, ia) => (s.group g).canReconstruct ia
    | none => false

/-- The blocks of a granule read well again. -/
def healGranule (s : State) (pa : Nat) : State := s.modMem fun m => { m with bad := m.bad.filter fun b => b / 64 != pa / 2048 }

/-! ### Relocation (R318, R319) -/

/-- The list has ended: the sweep begins at the lowest granule that moves (R317). -/
def endList (s : State) : State :=
  s.modTrav fun t => { t with listGo := false, relSize := 0, state := .sweep, gran := (t.nextMoving 0).getD 0 }

/-- The entry in progress is done with, well or not. -/
def endEntry (s : State) : State :=
  let s := s.modTrav fun t => { t with listIdx := t.listIdx + 1, relSize := 0, pagePtr := 0 }
  if s.trav.listCount.toNat ≤ s.trav.listIdx then s.endList else s

/-- Address of the list entry in progress. -/
def listAt (s : State) : Nat := s.trav.listAddr + 32 * s.trav.listIdx

/-- The 32 bytes of the list entry in progress. -/
def listEntry (s : State) : List Byte := s.mem.bytes s.listAt 32

/-- Size in bytes of an entry's page. -/
def entrySize (bs : List Byte) : Nat := if at' bs 8 1 % 2 = 1 then 2 ^ 25 else 2 ^ 16

/-- Start the entry in progress, or skip it; the traverse reads the list and the leaf as any request does (R319, R325, R328). (Open points: DEDUCED, log 55.) -/
def startEntry (s : State) : State :=
  let (s, e) := s.readBlock s.listAt false
  let bs := s.listEntry
  let size := entrySize bs
  let skip := fun s : State => (s.modTrav fun t => { t with relErr := true }).endEntry
  if e = .bad ∨ fld (at' bs 8 1) 1 7 ≠ 0 ∨ !zeros bs 9 7 ∨ s.trav.capLive < at' bs 16 8 + size then skip s
  else
    let (s, e) := s.readBlock (at' bs 24 8) false
    match (if e = .bad then none else pteOf (if size = 2 ^ 25 then 1 else 0) (leNat (s.mem.bytes (at' bs 24 8) 16))) with
    | none => skip s
    | some x =>
      if x.val && x.leaf then
        s.modTrav fun t => { t with relOld := x.pa, relNew := at' bs 16 8 / size * size, relSize := size / 2048, pagePtr := 0 }
      else skip s

/-- The last granule of a page is written: its leaf, the translations of its address, and DONE (R319). -/
def endPage (s : State) : State :=
  let bs := s.listEntry
  let pte := at' bs 24 8
  let off := offOf (at' bs 0 8)
  let s := s.request pte
  let (s, st) := s.takeStamp
  let s := s.modMem fun m => m.putBytes st pte (leBytes 16 (pteWith (leNat (m.bytes pte 16)) s.trav.relNew))
  let size := entrySize bs
  let s := [0, 1, 2, 3].foldl (fun s d =>
    if (s.die d).tlb.isEmpty && (s.die d).wcache.isEmpty then s else s.modDie d fun x => x.invalidate (off / size * size) size) s
  (s.modTrav fun t => { t with done := t.done + 1 }).endEntry

/-- The traverse copies the granule at the page pointer (R319). (Open points: DEDUCED, log 55.) -/
def copyGranule (s : State) : State :=
  let t := s.trav
  let old := t.relOld + 2048 * t.pagePtr
  let new := t.relNew + 2048 * t.pagePtr
  let (s, bad) := s.readGranule old
  if !bad.isEmpty && !s.blocksProtected bad then s
  else
    let s := ((s.healGranule old).healGranule new).request new
    let s := (s.modMem fun m => m.moveGranule old new).modTrav fun t => { t with pagePtr := t.pagePtr + 1 }
    if s.trav.relSize ≤ s.trav.pagePtr then s.endPage else s

/-- One step of the list. (Open points: DEDUCED, log 55.) -/
def relocStep (s : State) : State :=
  if s.trav.state ≠ .relocate ∨ !s.trav.listGo then s
  else if s.trav.listCount.toNat ≤ s.trav.listIdx then s.endList
  else
    let s := if s.trav.relSize = 0 then s.startEntry else s
    if s.trav.state = .relocate ∧ s.trav.relSize ≠ 0 then s.copyGranule else s

/-! ### The sweep (R320 to R322) -/

/-- The granule at TRAV has its new slot: TRAV goes on to the next, and after the last the retirement ends (R317, R320). -/
def granuleDone (s : State) : State :=
  let t := s.trav
  match t.nextMoving (t.gran + 1) with
  | some g => s.modTrav fun t => { t with gran := g, state := .sweep }
  | none =>
    let f := t.retStack
    let s := (s.modTrav fun t => { t with state := .idle, retStack := 0, live := t.live &&& ~~~BitVec.ofNat 16 (2 ^ f) }).event 8 0 f
    match t.pend with
    | some g => (s.modTrav fun t => { t with pend := none }).trigger g
    | none => s

/-- The sweep moves the granule at TRAV, or holds at it (R320, R322). (Open points: DEDUCED, log 54.) -/
def sweepStep (s : State) : State :=
  if s.trav.state ≠ .sweep then s
  else
    let pa := 2048 * s.trav.gran
    let (s, bad) := s.readGranule pa
    if !bad.isEmpty && !s.blocksProtected bad then
      (s.modTrav fun t => { t with state := .hold, lossValid := true, lossGran := pa }).event 8 0 s.trav.retStack
    else
      let s := s.healGranule pa
      let new := mapGranule s.trav.retired.reverse s.trav.gran
      (s.modCtrl new.1 fun c => (c.enterWindow s.refreshWindow).request new.2 s.time).granuleDone

/-- ACT = 1: the new slot is written with zeros, and the sweep goes on (R322). (Open points: DEDUCED, log 54.) -/
def zeroLost (s : State) : State :=
  let pa := 2048 * s.trav.gran
  let new := mapGranule s.trav.retired.reverse s.trav.gran
  let s := s.modCtrl new.1 fun c => (c.enterWindow s.refreshWindow).request new.2 s.time
  let s := (s.healGranule pa).modMem fun m => { m with cells := m.cells.filter fun c => c.1 / 2048 != pa / 2048 }
  (s.modTrav fun t => { t with lossValid := false, lossGran := 0, state := .sweep }).granuleDone

end State

/-! ### The meanings -/

def execRetireTrigger (master : Nat) (value : Word) (s : State) : Out :=
  .next (s.ownerWrite master 0x3020 value fun s =>
    let s := s.modTrav fun t => { t with stackField := BitVec.ofNat 4 value.toNat }
    .done (if value.getLsbD 4 then s.trigger (value.toNat % 16) else s))

def execAutoRetireTrigger (stack : Nat) (s : State) : Out :=
  let t := s.trav
  .next (if t.auto ∧ t.ceth ≠ 0 ∧ stack < 16 ∧ tget 0 t.cecnt stack = t.ceth.toNat ∧ !t.retired.contains stack ∧ t.pend ≠ some stack then s.trigger stack else s)

def execReloclistGo (master : Nat) (value : Word) (s : State) : Out :=
  .next (s.ownerWrite master 0x3030 value fun s =>
    let s := s.modTrav fun t => { t with listCount := BitVec.ofNat 16 (fld value.toNat 48 16), listAddr := fld value.toNat 5 43 * 32 }
    .done (if value.getLsbD 0 ∧ s.trav.state = .relocate ∧ !s.trav.listGo then
      (let s := s.modTrav fun t => { t with listGo := true, listIdx := 0, pagePtr := 0, relSize := 0 }
       if s.trav.listCount = 0 then s.endList else s)
    else s))

def execRelocGranuleCopy (s : State) : Out := .next s.relocStep

def execSweepGranuleMove (s : State) : Out := .next s.sweepStep

def execTravlossZeroFill (master : Nat) (s : State) : Out :=
  .next (s.ownerWrite master 0x3040 1 fun s => if s.trav.state = .hold then .done s.zeroLost else .ignored)

def execTravlossReread (master : Nat) (s : State) : Out :=
  .next (s.ownerWrite master 0x3040 2 fun s =>
    if s.trav.state = .hold then .done (s.modTrav fun t => { t with state := .sweep, lossValid := false, lossGran := 0 }) else .ignored)

def execRfmHoldEnd (ctrl bank : Nat) (s : State) : Out :=
  .next (match tget? (s.ctrl ctrl).holds bank with
    | some t => if t + (s.ctrl ctrl).trfm.toNat ≤ s.time then s.modCtrl ctrl fun c => { c with holds := terase c.holds bank } else s
    | none => s)

def execPeriodicRefresh (ctrl bank : Nat) (s : State) : Out :=
  .next (if ctrl < 16 ∧ (tget? (s.ctrl ctrl).opened bank).isSome then s.modCtrl ctrl fun c => { c with opened := terase c.opened bank } else s)

def execRefreshWindowClear (ctrl : Nat) (s : State) : Out :=
  .next (if ctrl < 16 ∧ (s.ctrl ctrl).window < s.refreshWindow then s.modCtrl ctrl fun c => c.enterWindow s.refreshWindow else s)

end Sys2Proof.Machine
end

