-- ==== Sys2Proof/Machine/PackageEvents.lean ====
section
/-! DEFINITION. The package: entry to stage 0, the staged start, device number, the owner's claims, the journal's events, thermal and link events
(spec 13_package.md R331, R336 to R345, R353; 12_hbm.md R316; 16_coding_groups.md R400). -/

namespace Sys2Proof.Machine

/-- LIVEMASK of a retirement record (R316). -/
def liveOf (retired : List Nat) : BitVec 16 := retired.foldl (fun m f => m &&& ~~~BitVec.ofNat 16 (2 ^ f)) 0xFFFF

/-- MEASn after a reset: 0 extended by the image's digest (R336; the extension is assumption log 12). (Open points: PRESUMED, log 12.) -/
def measured (image : Digest) : Digest := digestOf (leBytes 48 0 ++ leBytes 48 image.toNat)

namespace State

/-- The reference time counts from the last power-on (R344). -/
def restartTime (s : State) : State := { s with time := 0 }

/-- Everything that an entry to stage 0 resets (R316, R338, R344, R345, R361, R400): what stays is the identity store with INC and the
retirement record, the journal, and what lies outside the package. (Open points: DEDUCED, log 60.) -/
def stageZero (s : State) : State :=
  let r := s.root
  { coreId := s.coreId
    mem := { clock := s.mem.clock }
    root := {
      stage := { verified := r.stage.verified }
      devnum := r.devnum
      inc := if r.inc + 1 = 0 then 1 else r.inc + 1
      meas := r.meas
      identity := r.identity
      images := r.images
      journal := { r.journal with jidx := [], mirror := 0 }
      throttled := r.throttled
      debugger := r.debugger
      resetAt := s.time }
    trav := { retired := s.trav.retired, live := liveOf s.trav.retired }
    time := s.time
    agenda := s.agenda
    out := s.out
    free := s.free
    ticket := s.ticket }

/-- The result of verifying the images: all four must pass (R336, R338). (Open points: PRESUMED, log 12; DESIGN CHOICE, log 86.) -/
def verify (s : State) : State :=
  let images := s.root.images
  let ok := decide (4 ≤ images.length) && images.all Prod.fst
  let s := s.modRoot fun r => { r with
    meas := (List.range 4).map fun n => (n, measured (images.getD n (false, 0)).2)
    stage := { r.stage with verified := ok } }
  if ok then s else s.modRoot fun r => { r with stage := { r.stage with err := true, cause := 1 } }

/-- STAGE takes a new value, with its journal entry (R338, R344). -/
def toStage (s : State) (n master : Nat) (args : List Byte) : State :=
  (s.modRoot fun r => { r with stage := { r.stage with stage := n, pending := none } }).journal 2 master 0 n args

/-- An awaited advance ends without its stage (R338). -/
def advanceFails (s : State) : State := s.modRoot fun r => { r with stage := { r.stage with err := true, pending := none } }

/-- Has every port that is in use reached RUN (R338, R361)? -/
def portsRun (s : State) : Bool := (List.range 8).all fun k => !(s.port k).en || (s.port k).state == .run

/-- Group restore (R338, R416): `none` when a slot has failed, else whether it is complete. -/
def groupsRestored (s : State) : Option Bool :=
  let gs := (s.groups.map Prod.snd).filter fun g => g.cfg.en
  if gs.any fun g => g.state == .failed then none
  else some (gs.all fun g => (g.state == .run || g.state == .degraded) && !g.rb && g.decisions.isEmpty)

/-- The 10 s for which the condition of an advance is awaited (R338). -/
def goTicks : Nat := 1000000000

/-- The advance takes place at the first moment its condition holds, within 10 s of the GO; a failed slot ends the wait for GROUP at once (R338). -/
def settleStage (s : State) : State :=
  match s.root.stage.pending with
  | none => s
  | some g =>
    let go := s.toStage g.stage g.master (leBytes 8 g.value.toNat)
    if g.stage ≠ 2 ∧ g.tick + goTicks ≤ s.time then s.advanceFails
    else if g.stage = 3 then (if s.portsRun then go else s)
    else if g.stage = 4 then
      match s.groupsRestored with
      | none => s.advanceFails
      | some true => go
      | some false => s
    else s

/-- A write of STAGE (R337, R338): ERR is cleared by writing 1, and GO asks for the next stage. (Open points: DEDUCED, log 59.) -/
def writeStage (s : State) (master : Nat) (v : Word) : Written :=
  let w1c := v.getLsbD 8
  let go := fld v.toNat 4 3
  let next : Bool := decide (go = s.root.stage.stage + 1) && decide (2 ≤ go) && decide (go ≤ 4)
  let t := if w1c then s.modRoot fun r => { r with stage := { r.stage with err := false } } else s
  let t := if w1c || next then t.command master 0 0 v else t
  if next then
    .done ((t.modRoot fun r => { r with stage := { r.stage with pending := some { stage := go, tick := s.time, master := master, value := v } } }).settleStage)
  else if w1c then .done t
  else .ignored

/-- GO = 2 (R338): the stacks that training fails are retired; with fewer than 12 left the package stays at stage 1. (Open points: DESIGN CHOICE, log 61.) -/
def trainHbm (s : State) (failed : List Nat) (g : Go) : State :=
  let new := (failed.eraseDups).filter fun f => decide (f < 16) && !s.trav.retired.contains f
  let s := s.modTrav fun t => { t with retired := t.retired ++ new, live := liveOf (t.retired ++ new) }
  if s.trav.retired.length ≤ 4 then s.toStage 2 g.master (leBytes 8 g.value.toNat)
  else s.modRoot fun r => { r with stage := { r.stage with err := true, cause := 2, pending := none } }

/-- A claim (R342, R343); the claims reach this one at a time. (Open points: DEDUCED, log 59.) -/
def claim (s : State) (master : Nat) (v : Word) : State :=
  let s := s.settleLease
  let o := s.root.owner
  if s.root.stage.stage = 0 ∨ master = 0 then s
  else if fld v.toNat 32 32 = o.epoch.toNat ∧ fld v.toNat 0 2 = master ∧ (o.id = 0 ∨ o.succ.toNat = master) then
    (s.modRoot fun r => { r with owner := { o with
      epoch := o.epoch + 1, id := master, succ := 0, beat := s.time, results := tset o.results master 1 } }).journal 3 master 0 0x010 (leBytes 8 v.toNat)
  else s.modRoot fun r => { r with owner := { o with results := tset o.results master 2 } }

/-- The owner renews its lease; OWNBEAT is not journalled (R333, R342). -/
def beat (s : State) (master : Nat) : State :=
  let s := s.settleLease
  if master ≠ 0 ∧ s.root.owner.id = master then s.modRoot fun r => { r with owner := { r.owner with beat := s.time } } else s

/-- The mirror of a journal entry (R345). -/
def mirrorEntry (s : State) (q : Nat) : State :=
  let base := fld s.root.journal.mirror.toNat 22 25 * 2 ^ 22
  let pa := base + 64 * (q % 65536)
  match s.journalEntry? q with
  | none => s
  | some e =>
    if base = 0 ∨ !s.trav.serves pa then s
    else
      let (s, st) := (s.request pa).takeStamp
      s.modMem fun m => { m.putBytes st pa e.bytes with bad := m.bad.filter fun b => b / 2 != pa / 64 }

/-- Does a link join two dies: compute dies 0 to 3 to their edge neighbours and to F (4), and F to H (5) (R331)? (Open points: DEDUCED, log 63.) -/
def linked (d1 d2 : Nat) : Bool :=
  d1 != d2 && ((decide (d1 < 4) && decide (d2 < 4) && d1 + d2 != 3) || (d1 == 4 && decide (d2 < 6)) || (d2 == 4 && decide (d1 < 6)))

/-- Does the way from die `a` to die `b` (a compute die or F) use the link of two dies? A diagonal way turns at the die beside `a` in its row. (Open
points: DESIGN CHOICE, log 63.) -/
def onWay (d1 d2 a b : Nat) : Bool :=
  let leg := fun x y : Nat => (d1 == x && d2 == y) || (d1 == y && d2 == x)
  if a = b then false
  else if a < 4 ∧ b < 4 ∧ a + b = 3 then leg a (a ^^^ 1) || leg (a ^^^ 1) b
  else leg a b

/-- Does an access of die `d` to an intermediate address cross the link of two dies (R331)? Another device lies beyond F. (Open points: DEDUCED, log 63.) -/
def crosses (s : State) (d1 d2 d : Nat) (ia : Nat) : Bool :=
  if s.isRemote ia then onWay d1 d2 d 4
  else match s.peekPa? ia with
    | some pa => onWay d1 d2 d (s.syncDie pa)
    | none => false

/-- A core's share of a link failure (R331, R375): its loads on their way, its request to another device, its running copy job and its channels. (Open
points: DEDUCED, log 63.) -/
def linkFailsAt (s : State) (d1 d2 c : Nat) : State :=
  let d := dieOf c
  let k := s.coreAt c
  let s := k.chans.foldl (fun s kv =>
    if kv.2.kind = 1 ∧ onWay d1 d2 d (dieOf (kv.2.peerCore c)) then s.chanBreak c kv.1 3 else s) s
  let s := s.modCoreAt c fun k => { k with
    misses := k.misses.map fun m => { m with bad := m.bad || s.crosses d1 d2 d m.ia }
    answer := match k.asked with
      | some (_, true) => if k.answer.isNone ∧ onWay d1 d2 d 4 then some (.error 0x0A 0) else k.answer
      | _ => k.answer }
  match k.copy.jobs.find? fun j => j.running with
  | none => s
  | some j =>
    match j.foot.reads.find? fun r => r.glob && s.crosses d1 d2 d r.lo with
    | some r => s.onCore c fun s => s.jobFailAt { code := 0x0A, addr := BitVec.ofNat 64 r.lo }
    | none => s

/-- A link between two dies fails its retry (R331): every access that is crossing it meets MEM_UNCORRECTABLE, parked loads of other devices among
them. (Open points: DEDUCED, log 63.) -/
def linkFails (s : State) (d1 d2 : Nat) : State :=
  let s := s.liveCores.foldl (fun s c => s.linkFailsAt d1 d2 c) (s.event 9 0 0)
  s.sched.tasks.foldl (fun s t =>
    match t.state, t.park with
    | .parked, some (.remote l true) => if onWay d1 d2 t.die 4 then s.replyFails t l 0x0A 0 else s
    | _, _ => s) s

end State

/-! ### The meanings -/

/-- Open points: DEDUCED, log 60. -/
def execPowerOnReset (images : List (Bool × Digest)) (s : State) : Out := .next (((s.restartTime.modRoot fun r => { r with images := images }).stageZero.verify).event 2 0 0)

def execHostLinkUp (s : State) : Out :=
  .next (if s.root.stage.stage = 0 ∧ s.root.stage.verified then s.toStage 1 0 [] else s)

/-- Open points: DESIGN CHOICE, log 61. -/
def execStageAdvanceCompute (failed : List Nat) (s : State) : Out :=
  .next (match s.root.stage.pending with
    | some g => if g.stage = 2 ∧ s.root.stage.stage = 1 then s.trainHbm failed g else s
    | none => s)

def execStageAdvanceFabric (s : State) : Out :=
  .next (if (s.root.stage.pending.map Go.stage) = some 3 then s.settleStage else s)

def execStageAdvanceGroup (s : State) : Out :=
  .next (if (s.root.stage.pending.map Go.stage) = some 4 then s.settleStage else s)

def execStageAdvanceTimeout (s : State) : Out :=
  .next (match s.root.stage.pending with
    | some g => if g.stage ≠ 2 ∧ g.tick + State.goTicks ≤ s.time then s.advanceFails else s
    | none => s)

/-- A thermal cut (R338, R353): stage 0 is entered with CAUSE 3, and the images are verified and measured again (R336). (Open points: DEDUCED, log 59, 60.) -/
def execThermalCut (s : State) : Out :=
  .next ((((s.stageZero.modRoot fun r => { r with stage := { r.stage with err := true, cause := 3 } }).verify).event 0x0A 0 0).event 2 0 0)

def execThermalThrottle (on : Bool) (s : State) : Out :=
  let t := s.modRoot fun r => { r with throttled := on }
  .next (if on ∧ !s.root.throttled then t.event 0x0A 0 0 else t)

/-- Open points: DEDUCED, log 63. -/
def execDieLinkFail (d1 d2 : Nat) (s : State) : Out := .next (if State.linked d1 d2 then s.linkFails d1 d2 else s)

/-- The domain manager sets DEVNUM at stage 1 (R339). -/
def execDevnumSet (n : BitVec 7) (s : State) : Out :=
  .next (if s.root.stage.stage = 1 then (s.modRoot fun r => { r with devnum := n }).journal 1 3 0 0x030 (leBytes 8 n.toNat) else s)

def execOwncasClaim (master : Nat) (value : Word) (s : State) : Out := .next (s.claim master value)

def execOwnhandWrite (master : Nat) (value : Word) (s : State) : Out :=
  .next (s.ownerWrite master 0x018 value fun s => .done (s.modRoot fun r => { r with owner := { r.owner with succ := BitVec.ofNat 4 value.toNat } }))

def execOwnbeatRenew (master : Nat) (s : State) : Out := .next (s.beat master)

def execLeaseLapse (s : State) : Out := .next s.settleLease

/-- Loss of the standby supply (R344): the journal starts empty, and the next sequence number is JSTART. -/
def execStandbySupplyLoss (s : State) : Out :=
  .next (s.modRoot fun r => { r with journal := { r.journal with entries := [], jseq := r.journal.jstart - 1 } })

def execJournalMirrorWrite (seq : Nat) (s : State) : Out := .next (s.mirrorEntry seq)

/-- Each master writes its own JIDX, unjournalled (R345). -/
def execJidxWrite (master : Nat) (value : Word) (s : State) : Out :=
  .next (s.modRoot fun r => { r with journal := { r.journal with jidx := tset r.journal.jidx master value } })

end Sys2Proof.Machine
end

