-- ==== Sys2Proof/Machine/NetEvents.lean ====
section
/-! DEFINITION. The network engine: its rings, work requests, in-fabric reductions, lap rotation and messages
(spec 15_collectives_network.md R381 to R396). -/

namespace Sys2Proof.Machine

/-! ### Fields of a work request (R390) -/

def WorkReq.op (w : WorkReq) : Nat := workOp w.bytes
def WorkReq.len (w : WorkReq) : Nat := workLen w.bytes
def WorkReq.src (w : WorkReq) : Nat := workSrc w.bytes
def WorkReq.dst (w : WorkReq) : Nat := workDst w.bytes
def WorkReq.tag (w : WorkReq) : Nat := at' w.bytes 2 2
def WorkReq.lctr (w : WorkReq) : Nat := at' w.bytes 16 8
def WorkReq.ectr (w : WorkReq) : Nat := at' w.bytes 24 8
def WorkReq.peer (w : WorkReq) : Nat := at' w.bytes 32 4
def WorkReq.group (w : WorkReq) : Nat := at' w.bytes 32 1
def WorkReq.ty (w : WorkReq) : Nat := at' w.bytes 33 1
def WorkReq.workers (w : WorkReq) : Nat := at' w.bytes 34 2
def WorkReq.word36 (w : WorkReq) : Nat := at' w.bytes 36 4
def WorkReq.status (w : WorkReq) : Nat := at' w.bytes 48 8
def WorkReq.ctrD (w : WorkReq) : Nat := at' w.bytes 56 8

/-- Two requests are the same one. -/
def WorkReq.same (w x : WorkReq) : Bool := w.ctx == x.ctx && w.ring == x.ring && w.slot == x.slot && w.ticket == x.ticket

/-- Packet payload of a NETCFG.PAYLOAD (R396). -/
def payloadBytes (p : BitVec 2) : Nat := 1024 * 2 ^ p.toNat

/-! ### Reduction (R382) -/

/-- Bytes of an element of a reduction type. -/
def redWidth (ty : Nat) : Nat := if ty = 2 then 4 else 2

/-- The reduction of one element's codes, in increasing rank (R382, R119). -/
def redElem (ty : Nat) : List Nat → Nat
  | [] => 0
  | c :: cs =>
    match ty with
    | 0 => (bf16.encode quantBits (fp32.decode (cs.foldl (fun acc x => (fp32.add acc (x * 2 ^ 16)).1) (c * 2 ^ 16)))).1
    | 1 => cs.foldl (fun acc x => (bf16.add acc x).1) (bf16.canon c)
    | _ => cs.foldl (fun acc x => (fp32.add acc x).1) (fp32.canon c)

/-- The result chunk of the contributions present, lowest rank first. -/
def redChunk (ty : Nat) (parts : List (List Byte)) : List Byte :=
  let w := redWidth ty
  (List.range (256 / w)).flatMap fun i => leBytes w (redElem ty (parts.map fun p => at' p (i * w) w))

/-- Ranks missing from a chunk (R383). -/
def RChunk.absent (c : RChunk) (n : Nat) : BitVec 128 :=
  (List.range n).foldl (fun m r => if (tget? c.parts r).isSome then m else m ||| BitVec.ofNat 128 (2 ^ r)) 0

/-- A packet has been received: CACK moves over what is there. -/
def Pdc.take (d : Pdc) (psn : Nat) : Pdc :=
  let got := d.got ++ [psn]
  let c := got.foldl (fun c _ => if got.contains c then c + 1 else c) d.cack
  { d with cack := c, got := got.filter fun p => decide (c ≤ p), sackDue := true }

namespace State

def cgroup (s : State) (g : Nat) : CGroup := tget {} s.net.groups g
def modCGroup (s : State) (g : Nat) (f : CGroup → CGroup) : State := s.modNet fun n => { n with groups := tmod {} n.groups g f }
def modWork (s : State) (w : WorkReq) (f : WorkReq → WorkReq) : State := s.modNet fun n => { n with work := modFirst w.same f n.work }
def dropWork (s : State) (w : WorkReq) : State := s.modNet fun n => { n with work := n.work.filter fun x => !w.same x }

/-- UEPORT k: EN and LINK (R396). (Open points: DEDUCED, log 70.) -/
def uePort (s : State) (k : Nat) : Bool × Bool := tget (true, false) s.net.ports k

/-- The device of a rank in the group's table (R381). -/
def rankDev (s : State) (g rank : Nat) : Option Nat :=
  ((s.readIa 0 (s.localIa (fld (s.cgroup g).gmap.toNat 7 57 * 128 % 2 ^ 50) + rank) 1 1).2.bind List.head?).map fun b => b.toNat % 128

/-- Does a range lie on this device in one window that grants the permission (R390)? -/
def workOk (s : State) (c va n : Nat) (p : Perm) : Bool := (s.supIa c va n p).isSome

/-- A counter of a request: none, or an aligned word of this device (R390). -/
def ctrOk (s : State) (c va : Nat) (p : Perm) : Bool := va == 0 || (va % 8 == 0 && s.workOk c va 8 p)

/-- Validation of a work request (R390, R391). -/
def workValid (s : State) (w : WorkReq) : Bool :=
  let g := s.cgroup w.group
  let c := w.ctx
  zeros w.bytes 1 1 && s.ctrOk c w.lctr .w && s.ctrOk c w.ectr .w && zeros w.bytes (if w.op = 3 then 64 else 56) 8 &&
  (match w.op with
   | 1 =>
     let lg := fld (s.ctx c).netPeer.toNat 0 6
     w.len != 0 && s.workOk c w.src w.len .rd && zeros w.bytes 48 8 && lg != 0 && decide (w.peer < 2 ^ lg)
   | 3 =>
     g.en && decide (w.group < 16) && zeros w.bytes 33 1 && w.len % 64 == 0 && w.workers != 0 && w.word36 != 0 &&
     decide (w.word36 < g.nranks.toNat) && (w.len == 0 || (s.workOk c w.src w.len .rd && s.workOk c w.dst w.len .w)) &&
     w.status % 8 == 0 && s.workOk c w.status 8 .rdw && w.ctrD % 8 == 0 && s.workOk c w.ctrD 8 .rdw
   | 4 =>
     g.en && decide (w.group < 16) && decide (w.ty ≤ 2) && zeros w.bytes 34 2 && w.len % 256 == 0 &&
     (w.len == 0 || (s.workOk c w.src w.len .rd && s.workOk c w.dst w.len .w)) && s.workOk c w.status 32 .w
   | _ => false)

/-- A counter of a request advances by 1 as a release at network scope (R385, R392, R395). -/
def netCount (s : State) (c va : Nat) : State :=
  if va = 0 then s
  else
    match s.supIa c va 8 .w with
    | none => s
    | some ia =>
      let s := s.counterAddIa 0 ia
      match s.peekPa? ia with
      | none => s
      | some pa => s.modDie (s.syncDie pa) fun d => { d with sync := modFirst (fun v => v.ia == ia) (fun v => { v with net := true }) d.sync }

/-- The status record of AREDUCE (R383). -/
def putStatus (s : State) (w : WorkReq) (state : Nat) : State :=
  (s.supWrite 0 w.ctx w.status (leBytes 4 state ++ leBytes 4 w.pchunks ++ leBytes 8 0 ++ leBytes 16 w.missing.toNat)).1

/-- A work request fails (R392): with BAD_RECORD for validation, else REMOTE_UNREACHABLE. (Open points: DEDUCED, log 71.) -/
def workFail (s : State) (w : WorkReq) (valid : Bool) : State :=
  let s := s.netCount w.ctx w.ectr
  let s := if w.op = 4 then s.putStatus w 2 else s
  let s := s.faultRecord { ctx := w.ctx, cause := { code := if valid then 0x0C else 0x18 }, level := 1, offered := false, tag := w.tag }
  s.dropWork w

/-- LCTR advances and the request is over. -/
def workDone (s : State) (w : WorkReq) : State := (s.netCount w.ctx w.lctr).dropWork w

/-! ### AREDUCE (R382, R383) -/

/-- The result of a chunk reaches this rank's request, when it has been started. -/
def deliverChunk (s : State) (g seq chunk : Nat) (data : List Byte) (missing : BitVec 128) : State × Bool :=
  match s.net.work.find? fun w => w.op == 4 && w.started && w.group == g && w.word36 == seq with
  | none => (s, false)
  | some w =>
    let s := (s.supWrite 0 w.ctx (w.dst + 256 * chunk) data).1
    let w' := { w with done := w.done + 1, pchunks := w.pchunks + (if missing = 0 then 0 else 1), missing := w.missing ||| missing }
    let s := s.modWork w fun _ => w'
    (if w'.done = w.len / 256 then (s.putStatus w' (if w'.missing = 0 then 0 else 1)).workDone w' else s, true)

def findChunk (s : State) (g seq chunk : Nat) : Option RChunk := s.net.chunks.find? fun c => c.group == g && c.seq == seq && c.chunk == chunk

def dropChunk (s : State) (c : RChunk) : State :=
  s.modNet fun n => { n with chunks := n.chunks.filter fun x => !(x.group == c.group && x.seq == c.seq && x.chunk == c.chunk) }

def setChunk (s : State) (c : RChunk) : State := (s.dropChunk c).modNet fun n => { n with chunks := n.chunks ++ [c] }

/-- The reduction unit has formed a result: it goes to every rank (R382, R383). -/
def sendChunk (s : State) (c : RChunk) : State :=
  let g := s.cgroup c.group
  let n := g.nranks.toNat
  let missing := c.absent n
  let data := redChunk c.ty (c.parts.map Prod.snd)
  let s := (List.range n).foldl (fun s r =>
    if r = g.myrank.toNat then s
    else match s.rankDev c.group r with
      | some d => s.post d (.result d c.group c.seq c.chunk data missing)
      | none => s) s
  let s := if missing = 0 then s else s.modCGroup c.group fun g => { g with partialN := BitVec.ofNat 32 (satAdd 32 g.partialN.toNat 1) }
  let (s, here) := s.deliverChunk c.group c.seq c.chunk data missing
  if missing = 0 ∧ here then s.dropChunk c
  else s.setChunk { c with flushed := decide (missing ≠ 0), result := if here then none else some (data, missing) }

/-- A contribution reaches the reduction unit (R382, R383). -/
def contribute (s : State) (g seq chunk rank ty : Nat) (data : List Byte) : State :=
  let n := (s.cgroup g).nranks.toNat
  let c := (s.findChunk g seq chunk).getD { group := g, seq := seq, chunk := chunk, ty := ty, first := s.time }
  if (tget? c.parts rank).isSome ∨ n ≤ rank then s
  else if c.flushed then
    let s := s.modCGroup g fun g => { g with late := BitVec.ofNat 32 (satAdd 32 g.late.toNat 1) }
    let c := { c with parts := tset c.parts rank [] }
    if c.absent n = 0 ∧ c.result = none then s.dropChunk c else s.setChunk c
  else
    let c := { c with parts := tset c.parts rank data }
    if c.absent n = 0 then s.sendChunk c else s.setChunk c

/-- The result of a chunk arrives at a rank that is not the root. (Open points: DEDUCED, log 71.) -/
def resultArrives (s : State) (g seq chunk : Nat) (data : List Byte) (missing : BitVec 128) : State :=
  match s.deliverChunk g seq chunk data missing with
  | (s, true) => s
  | (s, false) => s.setChunk { group := g, seq := seq, chunk := chunk, ty := 0, flushed := true, result := some (data, missing) }

/-- A chunk has waited TREDUCE ticks (R383). -/
def flushChunk (s : State) (g seq chunk : Nat) : State :=
  let t := (s.cgroup g).treduce.toNat
  match s.findChunk g seq chunk with
  | some c => if !c.flushed && c.result.isNone && t != 0 && decide (c.first + t ≤ s.time) then s.sendChunk c else s
  | none => s

/-- AREDUCE starts: every chunk goes to the reduction unit, and results that are already here are taken. -/
def startReduce (s : State) (w : WorkReq) : State :=
  let g := s.cgroup w.group
  let n := w.len / 256
  if n = 0 then (s.putStatus w 0).workDone w
  else if (s.supRead 0 w.ctx w.src w.len).2.isNone then s.workFail w true
  else
    let s := (List.range n).foldl (fun s k =>
      let (s, r) := s.supRead 0 w.ctx (w.src + 256 * k) 256
      match r with
      | none => s
      | some bs =>
        if g.root = g.myrank then s.contribute w.group w.word36 k g.myrank.toNat w.ty bs
        else match s.rankDev w.group g.root.toNat with
          | some d => s.post d (.contribution d w.group w.word36 k w.ty bs)
          | none => s) s
    (s.net.chunks.filter fun c => c.group == w.group && c.seq == w.word36).foldl (fun s c =>
      match c.result with
      | none => s
      | some (d, m) =>
        let (s, ok) := s.deliverChunk c.group c.seq c.chunk d m
        if !ok then s
        else if c.flushed && g.root == g.myrank && c.absent g.nranks.toNat != 0 then s.setChunk { c with result := none }
        else s.dropChunk c) s

/-! ### LAP (R385) -/

/-- Intermediate address of X_k of a request: X0 is reached as SRC, X1 as BUF1 (R385, R390). -/
def lapBuf (s : State) (w : WorkReq) (k : Nat) : Option Nat :=
  if k % 2 = 0 then s.supIa w.ctx w.src w.len .rd else s.supIa w.ctx w.dst w.len .w

/-- The request's counter R. -/
def lapR (s : State) (w : WorkReq) : Nat := ((s.supRead 0 w.ctx w.status 8).2.map leNat).getD 0

/-- A step's copy starts (R385): of its conditions, that on R is this rank's; the two on the successor are the environment's. (Open points: DEDUCED, log 71.) -/
def lapStart (s : State) (c : Nat) : State :=
  match s.net.work.find? fun w => w.ctx == c && w.op == 3 && w.started && !w.copying && decide (w.done < w.word36) && decide (w.done + 1 ≤ s.lapR w) with
  | none => s
  | some w =>
    let g := s.cgroup w.group
    match (if w.len = 0 then some [] else (s.lapBuf w w.done).bind fun ia => (s.readIa 0 ia w.len (w.len / 65536 + 2)).2), s.rankDev w.group ((g.myrank.toNat + 1) % g.nranks.toNat) with
    | some bs, some d => (s.modWork w fun w => { w with copying := true, tick := s.time }).post d (.lap d w.group w.done bs)
    | _, _ => s.workFail w true

/-- A request whose last copy has ended and whose last block has come is over. -/
def lapSettle (s : State) (w : WorkReq) : State := if w.finished && decide (w.word36 ≤ w.arrived) then s.dropWork w else s

/-- This rank's copy has ended at the successor; after the last, LCTR advances. -/
def lapEnd (s : State) (c : Nat) : State :=
  match s.net.work.find? fun w => w.ctx == c && w.op == 3 && w.copying with
  | none => s
  | some w =>
    let w' := { w with copying := false, done := w.done + 1 }
    if w'.done = w.word36 then
      ((s.modWork w fun _ => { w' with finished := true, foot := {} }).netCount c w.lctr).lapSettle { w' with finished := true }
    else s.modWork w fun _ => w'

/-- The successor has refused this rank's copy: its LEN differs (R385, R392). -/
def lapRefused (s : State) (c : Nat) : State :=
  match s.net.work.find? fun w => w.ctx == c && w.op == 3 && w.copying with
  | none => s
  | some w => s.workFail w true

/-- The predecessor's block of its next step is written here, and R advances (R385). (Open points: DEDUCED, log 71.) -/
def lapArrive (s : State) (c : Nat) (bs : List Byte) : State :=
  match s.net.work.find? fun w => w.ctx == c && w.op == 3 && w.started && decide (w.arrived < w.word36) with
  | none => s
  | some w =>
    if bs.length ≠ w.len then
      let g := s.cgroup w.group
      match s.rankDev w.group ((g.myrank.toNat + g.nranks.toNat - 1) % g.nranks.toNat) with
      | some d => (s.workFail w true).post d (.lapRefused d w.group)
      | none => s.workFail w true
    else
      let s := match s.lapBuf w (w.arrived + 1) with
        | some ia => (s.writeIa 0 ia bs (bs.length / 65536 + 2)).1
        | none => s
      let w' := { w with arrived := w.arrived + 1 }
      ((s.modWork w fun _ => w').netCount c w.status).lapSettle w'

/-! ### Messages (R391, R393 to R395) -/

/-- Key of the delivery context of a (context, peer) pair. -/
def pdcKey (w : WorkReq) : Nat := w.ctx * 4096 + w.peer % 4096

def pdc (s : State) (k : Nat) : Pdc := tget {} s.net.pdcs k
def modPdc (s : State) (k : Nat) (f : Pdc → Pdc) : State := s.modNet fun n => { n with pdcs := tmod {} n.pdcs k f }

/-- The 32-byte entry of a table of the context configuration (R391). -/
def netEntry (s : State) (reg : Word) (i : Nat) : Option (List Byte) :=
  let lg := fld reg.toNat 0 6
  if lg = 0 ∨ 2 ^ lg ≤ i then none else (s.readIa 0 (fld reg.toNat 6 58 * 64 + 32 * i) 32 2).2

/-- The request that a packet belongs to. -/
def msgOf (s : State) (k psn : Nat) : Option WorkReq :=
  s.net.work.find? fun w => w.op == 1 && w.started && pdcKey w == k && decide (w.psn0 ≤ psn) && decide (psn < w.psn0 + w.packets)

/-- The packet of a request with a PSN, read from its source at home, and the port it leaves on (R393, R394); `none` when the source fails. -/
def packetOf (s : State) (w : WorkReq) (psn : Nat) : Option (Option Nat × Packet) :=
  match s.netEntry (s.ctx w.ctx).netPeer w.peer with
  | none => none
  | some e =>
    let off := (psn - w.psn0) * w.psize
    let n := min w.psize (w.len - off)
    match (s.supRead 0 w.ctx (w.src + off) n).2 with
    | none => none
    | some data =>
      let ports := (List.range 8).filter fun k => (at' e 24 1).testBit k && (s.uePort k).1
      some (ports[psn % ports.length]?,
        { src := pdcKey w, psn := psn, first := w.psn0, count := w.packets, job := BitVec.ofNat 24 (at' e 16 3), ctx := BitVec.ofNat 4 (at' e 20 1)
          res := w.word36, roff := w.dst, len := w.len, off := off, data := data })

/-- Send a packet, or send it again (R393, R394). (Open points: DEDUCED, log 70.) -/
def sendPacket (s : State) (w : WorkReq) (psn : Nat) : State :=
  match s.packetOf w psn with
  | none => s.workFail w true
  | some (port, p) =>
    let s := match port with
      | some k => if (s.uePort k).2 then s.send (.packet k p) else s
      | none => s
    s.modPdc (pdcKey w) fun d => { d with sent := match d.sent.find? fun x => x.psn == psn with
      | some _ => modFirst (fun x => x.psn == psn) (fun x => { x with sends := x.sends + 1, last := s.time }) d.sent
      | none => d.sent ++ [{ psn := psn, sends := 1, last := s.time }] }

/-- MSG starts: its packets take their sequence numbers and leave (R393). -/
def startMsg (s : State) (w : WorkReq) : State :=
  match s.netEntry (s.ctx w.ctx).netPeer w.peer with
  | none => s.workFail w false
  | some _ =>
    let size := payloadBytes s.net.payload
    let n := (w.len + size - 1) / size
    let p := (s.pdc (pdcKey w)).nextPsn
    let w' := { w with psn0 := p, packets := n, psize := size }
    let s := (s.modPdc (pdcKey w) fun d => { d with nextPsn := (p + n) % 2 ^ 32 }).modWork w fun _ => w'
    (List.range n).foldl (fun s i => if (s.msgOf (pdcKey w) (p + i)).isSome then s.sendPacket w' (p + i) else s) s

/-- Messages of a delivery context all of whose packets are acknowledged complete (R395). -/
def msgSettle (s : State) (k : Nat) : State :=
  let d := s.pdc k
  (s.net.work.filter fun w => w.op == 1 && w.started && pdcKey w == k && w.packets != 0).foldl (fun s w =>
    if (List.range w.packets).all fun i => !(d.sent.any fun x => x.psn == w.psn0 + i && !x.acked) then s.workDone w else s) s

/-- Sent packets that no live message needs are forgotten. -/
def pdcTrim (s : State) (k : Nat) : State :=
  s.modPdc k fun d => { d with sent := d.sent.filter fun x => (s.msgOf k x.psn).isSome || d.sent.any fun y => decide (y.psn < x.psn) && (s.msgOf k y.psn).isSome }

/-- A retransmission, or the failure of the delivery context (R394). (Open points: DEDUCED, log 70.) -/
def retransmit (s : State) (k psn : Nat) : State :=
  match s.msgOf k psn, (s.pdc k).sent.find? fun x => x.psn == psn && !x.acked with
  | some w, some x =>
    if s.net.retry.toNat + 1 ≤ x.sends then
      let s := (s.net.work.filter fun w => w.op == 1 && w.started && pdcKey w == k).foldl (fun s w => s.workFail w true) s
      s.modPdc k fun d => { d with sent := [] }
    else (s.modNet fun n => { n with retx := BitVec.ofNat 32 (satAdd 32 n.retx.toNat 1) }).sendPacket w psn
  | _, _ => s

/-- Does a SACK report a packet (R393)? -/
def sackHas (a : Sack) (psn : Nat) : Bool := decide (psn < a.cack) || (decide (a.cack < psn) && a.bitmap.getLsbD (psn - a.cack - 1))

/-- A SACK arrives (R394, R395). (Open points: DEDUCED, log 70.) -/
def sackTake (s : State) (k : Nat) (a : Sack) : State :=
  let s := s.modPdc k fun d => { d with sent := d.sent.map fun x => if sackHas a x.psn then { x with acked := true } else x }
  let d := s.pdc k
  let due := d.sent.filter fun x => !x.acked && decide (a.cack ≤ x.psn) && decide (x.psn ≤ a.cack + 64) &&
    decide (s.net.reorder.toNat ≤ (d.sent.filter fun y => y.acked && decide (x.psn < y.psn)).length)
  ((due.foldl (fun s x => s.retransmit k x.psn) s).msgSettle k).pdcTrim k

/-- Key of the receiving side of a delivery context. -/
def rxKey (src : Nat) : Nat := 2 ^ 20 + src

/-- SACK of a receiving side (R393). (Open points: DEDUCED, log 70.) -/
def sackOf (d : Pdc) : Sack :=
  { cack := d.cack, bitmap := BitVec.ofNat 64 (sumList ((d.got.filter fun p => decide (p ≤ d.cack + 64)).map fun p => 2 ^ (p - d.cack - 1))) }

/-- A packet arrives (R393, R395). -/
def packetTake (s : State) (p : Packet) : State :=
  let k := rxKey p.src
  let d := s.pdc k
  let c := p.ctx.toNat
  if decide (p.psn < d.cack) || d.got.contains p.psn then
    (s.modNet fun n => { n with dup := BitVec.ofNat 16 (satAdd 16 n.dup.toNat 1) }).modPdc k fun d => { d with sackDue := true }
  else
    let reject := (s.modNet fun n => { n with rej := BitVec.ofNat 16 (satAdd 16 n.rej.toNat 1) }).send (.packetError p.src)
    match (if (s.ctx c).en then s.netEntry (s.ctx c).netRes p.res else none) with
    | none => reject
    | some e =>
      if at' e 24 3 ≠ p.job.toNat ∨ at' e 8 8 < p.roff + p.len then reject
      else
        match s.supIa c (at' e 0 8 + p.roff + p.off) p.data.length .w with
        | none => reject
        | some ia =>
          match (s.walk 0 ia).2 with
          | .absent => s.fltqNote 0 (ia / 65536) (2 ^ 20, k) false
          | _ =>
            if s.imageWait ia then s
            else
              let (s, ok) := s.writeIa 0 ia p.data 3
              if !ok then reject
              else
                let n := ((s.net.rxMsgs.find? fun m => m.1 == p.src && m.2.1 == p.first).map fun m => m.2.2).getD 0 + 1
                let rest := s.net.rxMsgs.filter fun m => !(m.1 == p.src && m.2.1 == p.first)
                let s := (s.modPdc k fun d => d.take p.psn).modNet fun x => { x with rxMsgs := if n = p.count then rest else (p.src, p.first, n) :: rest }
                if n = p.count then s.netCount c (at' e 16 8) else s

/-! ### Rings and starts (R381, R388, R390) -/

/-- The work request of a ring slot: as NETPOST posted it, or new for a producer that is no task. -/
def workAt (s : State) (c ring slot : Nat) (bs : List Byte) : State × WorkReq :=
  match s.net.work.find? fun w => w.ctx == c && w.ring == ring && w.slot == slot && !w.started with
  | some w => (s, w)
  | none =>
    let (s, t) := s.takeTicket
    let w : WorkReq := { ctx := c, ring := ring, bytes := bs, slot := slot, foot := s.workFoot c bs, ticket := t }
    (s.modNet fun n => { n with work := n.work ++ [w] }, w)

/-- Must the start wait for an earlier footprint of the posting core (R225, R390)? (Open points: DEDUCED, log 53, 71.) -/
def workWaits (s : State) (w : WorkReq) : Bool :=
  match w.core with
  | some k => ((s.focus k).conflict? 3 w.ticket w.foot).isSome
  | none => false

/-- The first page of a request's source that is not resident. -/
def sourceAbsent? (s : State) (w : WorkReq) : Option Nat :=
  match s.supIa w.ctx w.src w.len .rd with
  | none => none
  | some ia =>
    if w.len = 0 ∨ (w.op ≠ 1 ∧ w.op ≠ 4) then none
    else ((List.range ((ia + w.len - 1) / 65536 - ia / 65536 + 1)).map fun i => ia / 65536 + i).find? fun p => (s.walk 0 (p * 65536)).2 == .absent

/-- The hash of this device's rank table, NRANKS and ROOT go to every other rank of a group (R381). -/
def sendRankHash (s : State) (k : Nat) : State :=
  let g := s.cgroup k
  match (s.readIa 0 (s.localIa (fld g.gmap.toNat 7 57 * 128 % 2 ^ 50)) 128 2).2 with
  | none => s
  | some bs =>
    let h := BitVec.ofNat 64 (leNat ((sha384 bs).take 8))
    (List.range g.nranks.toNat).foldl (fun s r =>
      if r = g.myrank.toNat then s
      else match s.rankDev k r with
        | some d => s.post d (.rankHash d k h g.nranks.toNat g.root.toNat)
        | none => s) s

/-- A request starts: validation, the group's hash exchange, and its transfer (R381, R390, R392). (Open points: DEDUCED, log 71.) -/
def workStart (s : State) (w : WorkReq) (agree : Bool) : State :=
  let s := s.modWork w fun w => { w with started := true, tick := s.time }
  let w := { w with started := true, tick := s.time }
  if !s.workValid w then s.workFail w false
  else if w.op = 1 then s.startMsg w
  else
    let s := if (s.cgroup w.group).hash.isNone then s.sendRankHash w.group else s
    let s := s.modCGroup w.group fun g => { g with hash := some (g.hash.getD agree) }
    if (s.cgroup w.group).hash = some false then s.workFail w true
    else if w.op = 4 then s.startReduce w
    else s

/-- Rings that the engine polls (R338, R388), as context·64 + ring. -/
def netPolled (s : State) : List Nat :=
  if s.root.stage.stage < 2 then []
  else s.root.ctxs.flatMap fun kv => if kv.2.en then (kv.2.netRings.filter fun r => ringLog r.2 != 0).map fun r => kv.1 * 64 + r.1 else []

/-- A visit of a network ring (R388). (Open points: DEDUCED, log 71.) -/
def visitNet (s : State) (c ring : Nat) (agree : Bool) : State :=
  let w := tget 0 (s.ctx c).netRings ring
  let (s, ok) := s.agentAcquire (ringBase w + 8)
  match (if ok then s.ringWords 0 w else (s, none)) with
  | (s, some (_, pub, con)) =>
    if pub ≤ con then s
    else
      match s.readIa 0 (ringEntry w con) 64 2 with
      | (s, none) => s
      | (s, some bs) =>
        let (s, q) := s.workAt c ring con bs
        if s.workWaits q then s
        else if (s.sourceAbsent? q).isSome then s.fltqNote 0 ((s.sourceAbsent? q).getD 0) (2 ^ 20 + 1 + c * 64 + ring, con) false
        else
          let (s, st) := s.takeStamp
          let s := (s.setHomeWord 0 (ringBase w + 16) ((con + 1) % 2 ^ 64) st).1
          (s.wakeRing c (64 + ring)).workStart q agree
  | (s, none) => s

/-- One visit in round-robin order (R388). -/
def netVisit (s : State) (agree : Bool) : State :=
  let l := s.netPolled
  match (l.find? fun n => decide (s.net.poll ≤ n)).or l.head? with
  | none => s
  | some n => (s.modNet fun x => { x with poll := n + 1 }).visitNet (n / 64) (n % 64) agree

end State

/-! ### The meanings -/

def execNetRingPoll (agree : Bool) (s : State) : Out := .next (s.netVisit agree)

def execReduceContribution (group seq chunk rank ty : Nat) (data : List Byte) (missing : BitVec 128) (s : State) : Out :=
  let g := s.cgroup group
  .next (if !g.en then s
    else if g.root = g.myrank then s.contribute group seq chunk rank ty data
    else s.resultArrives group seq chunk data missing)

def execReduceFlush (group seq chunk : Nat) (s : State) : Out := .next (s.flushChunk group seq chunk)

def execLapStepStart (ctx : Nat) (s : State) : Out := .next (s.lapStart ctx)

def execLapStepEnd (ctx : Nat) (how : LapEnd) (s : State) : Out :=
  .next (match how with
    | .copied => s.lapEnd ctx
    | .refused => s.lapRefused ctx
    | .arrived bs => s.lapArrive ctx bs)

def execMsgPacketReceive (packet : Packet) (s : State) : Out := .next (s.packetTake packet)

def execSackSend (peer : Nat) (s : State) : Out :=
  let k := State.rxKey peer
  let d := s.pdc k
  .next (if d.sackDue then (s.modPdc k fun d => { d with sackDue := false }).send (.sack peer (State.sackOf d)) else s)

def execSackReceive (peer : Nat) (sack : Sack) (s : State) : Out := .next (s.sackTake peer sack)

/-- Every packet of the delivery context whose RTO has passed is sent again (R394). -/
def execRtoExpire (peer : Nat) (s : State) : Out :=
  .next (((s.pdc peer).sent.filter fun x => !x.acked && decide (x.last + s.net.rto.toNat ≤ s.time)).foldl (fun s x => s.retransmit peer x.psn) s)

def execPacketErrorAnswer (peer psn : Nat) (s : State) : Out :=
  .next (match s.msgOf peer psn with
    | some w => (s.workFail w true).pdcTrim peer
    | none => s)

def execUeportLinkChange (k : Nat) (up : Bool) (s : State) : Out :=
  .next (if k < 8 then s.modNet fun n => { n with ports := tset n.ports k ((s.uePort k).1, up) } else s)

end Sys2Proof.Machine
end

