-- ==== Sys2Proof/Machine/GroupEvents.lean ====
section
/-! DEFINITION. Coding groups between devices: joining, formation, leaving, deltas and decisions, deaths, and rebuild
(spec 16_coding_groups.md R399 to R401, R408 to R412, R416 to R418). -/

namespace Sys2Proof.Machine

/-- Bytes of a piece of a rebuild (R417). -/
def pieceBytes : Nat := 32

/-- Do two indices of the configuration name one device (R400)? -/
def GCfg.twice (c : GCfg) : Bool :=
  let l := (List.range c.members).map c.dev
  decide (l.eraseDups.length < l.length)

/-- Power feed and cooling loop of an index (R399). -/
def GCfg.feed (c : GCfg) (i : Nat) : Nat := fld c.power.toNat (4 * i) 4
def GCfg.loopOf (c : GCfg) (i : Nat) : Nat := fld c.cool.toNat (4 * i) 4

/-- Does placement fail: more than M members share a feed or a loop (R401)? -/
def GCfg.badPlacement (c : GCfg) : Bool :=
  let ms := List.range c.members
  ms.any fun i => decide (c.m.toNat < (ms.filter fun j => c.feed j == c.feed i).length) || decide (c.m.toNat < (ms.filter fun j => c.loopOf j == c.loopOf i).length)

/-- The bytes whose digest the members exchange (R401): CGCFG without MYIDX and EN, CGMEMB0, CGMEMB1, PLACEPOWER, PLACECOOL, CGSPACE. -/
def GCfg.hashBytes (c : GCfg) : List Byte :=
  leBytes 8 (c.gid.toNat * 2 ^ 48 + c.repl.toNat * 2 ^ 45 + c.ovr.toNat * 2 ^ 44 + c.k.toNat * 2 ^ 36 + c.m.toNat * 2 ^ 33) ++ leBytes 8 c.memb0.toNat ++
  leBytes 8 c.memb1.toNat ++ leBytes 8 c.power.toNat ++ leBytes 8 c.cool.toNat ++ leBytes 8 c.space.toNat

/-- The fields of a written CGCFG (R399). (Open points: DEDUCED, log 72.) -/
def GCfg.withWord (c : GCfg) (v : Word) : GCfg :=
  { c with
    gid := BitVec.ofNat 16 (fld v.toNat 48 16), repl := v.getLsbD 45, ovr := v.getLsbD 44, myidx := BitVec.ofNat 4 (fld v.toNat 40 4)
    k := BitVec.ofNat 4 (fld v.toNat 36 4), m := BitVec.ofNat 3 (fld v.toNat 33 3), en := v.getLsbD 32 }

/-- CGCFG as a word (R399). -/
def GCfg.word (c : GCfg) : Word :=
  BitVec.ofNat 64 (c.gid.toNat * 2 ^ 48 + c.repl.toNat * 2 ^ 45 + c.ovr.toNat * 2 ^ 44 + c.myidx.toNat * 2 ^ 40 + c.k.toNat * 2 ^ 36 +
    c.m.toNat * 2 ^ 33 + c.en.toNat * 2 ^ 32)

/-- T: the K lowest-indexed live members other than `t`, without those in `out` (R417). -/
def GSlot.chosen (g : GSlot) (t : Nat) (out : List Nat) : List Nat :=
  ((g.live 0 g.cfg.members).filter fun i => i != t && !out.contains i).take g.cfg.k.toNat

/-- Ranges of group offsets that need a share of index `t` (R417). -/
def GSlot.needed (g : GSlot) (t : Nat) : List (Nat × Nat) :=
  (g.memberRegs.filter fun e => if t < g.cfg.k.toNat then e.1 == t else true).flatMap fun e => e.2.map fun r => (r.goff, r.len)

/-- Does a piece offset lie in one of the ranges? -/
def inRanges (rs : List (Nat × Nat)) (o : Nat) : Bool := rs.any fun r => decide (r.1 ≤ o) && decide (o < r.1 + r.2)

/-- The lowest piece at or above `o` that needs a share (R417). -/
def nextPiece (rs : List (Nat × Nat)) (o : Nat) : Option Nat :=
  rs.foldl (fun best r =>
    if r.1 + r.2 ≤ o then best
    else
      let p := max o r.1
      match best with
      | none => some p
      | some b => some (min b p)) none

/-- Does a data member's table cover a group offset? -/
def GSlot.covered (g : GSlot) (i o : Nat) : Bool := (g.memberRegs.filter fun e => e.1 == i).any fun e => inRanges (e.2.map fun r => (r.goff, r.len)) o

namespace State

/-- Is the session with a member's device UP? -/
def memberUp (s : State) (n i : Nat) : Bool := i == (s.group n).cfg.myidx.toNat || (s.peer ((s.group n).cfg.dev i)).state == .up

/-- Members that are not reachable start to count (R411, R416). -/
def noteLost (s : State) (n : Nat) : State :=
  (List.range (s.group n).cfg.members).foldl (fun s i =>
    if s.memberUp n i then s.modGroup n fun g => { g with lost := terase g.lost i }
    else s.modGroup n fun g => { g with lost := if (tget? g.lost i).isSome then g.lost else tset g.lost i s.time }) s

/-- Has a member been unreachable for CGTIME.DEAD ticks? -/
def longLost (s : State) (n i : Nat) : Bool :=
  let g := s.group n
  !s.memberUp n i && (match tget? g.lost i with
    | some t => decide (t + g.cfg.deadTicks.toNat ≤ s.time)
    | none => false)

/-! ### Joining and leaving (R400, R401, R416) -/

/-- Is a configuration that sets EN refused (R400)? -/
def joinRefused (s : State) (n : Nat) (c : GCfg) : Bool :=
  decide (16 < c.members) || decide (c.members ≤ c.myidx.toNat) || c.dev c.myidx.toNat != s.devNum || c.twice ||
  s.groups.any fun kv => kv.1 != n && kv.2.cfg.en && kv.2.cfg.gid == c.gid

/-- EN := 1 (R401, R416, R417). (Open points: DEDUCED, log 72.) -/
def join (s : State) (n : Nat) (c : GCfg) : State :=
  let s := s.modGroup n fun _ => { cfg := c, state := if c.repl then .rebuild else .forming, rb := c.repl, rbidx := if c.repl then c.myidx else 0 }
  let s := s.noteLost n
  if c.repl then s.groupEvent n
  else
    let h := BitVec.ofNat 64 (leNat ((sha384 c.hashBytes).take 8))
    (List.range c.members).foldl (fun s i => if i = c.myidx.toNat then s else s.post (c.dev i) (.groupHash (c.dev i) c.gid h)) s

/-- EN := 0 (R416): the slot's state is discarded, its pending images among it, and the other members hear of it (R411). (Open points: DEDUCED, log 72.) -/
def leave (s : State) (n : Nat) (c : GCfg) : State :=
  let g := s.group n
  let s := g.committed.foldl (fun s kv => s.putGranule kv.1 kv.2.data) s
  let s := s.modGroup n fun _ => { cfg := c }
  (List.range g.cfg.members).foldl (fun s i => if i = g.cfg.myidx.toNat then s else s.post (g.cfg.dev i) (.groupLeft (g.cfg.dev i) g.cfg.gid)) s

/-- The slot falls back to OFF with an error (R416). -/
def formFails (s : State) (n : Nat) (err : BitVec 8) : State := s.modGroup n fun g => { cfg := { g.cfg with en := false }, err := err }

/-- A write of CGCFG (R400, R401, R416). (Open points: DEDUCED, log 72.) -/
def writeCgcfg (s : State) (n : Nat) (v : Word) : Written :=
  let g := s.group n
  let c := g.cfg.withWord v
  if g.cfg.en then (if c.en then .refused else .done (s.leave n c))
  else if !c.en then .done (s.modGroup n fun g => { g with cfg := c })
  else if s.joinRefused n c then .refused
  else .done (s.join n c)

/-- Zeros over the parity area (R416): page by page, whatever is there. -/
def zeroParity (s : State) (n : Nat) : State :=
  let g := s.group n
  let lo := g.cfg.parbase.toNat % 2 ^ 50
  let hi := lo + g.cfg.space.toNat
  (List.range ((hi + 65535) / 65536 - lo / 65536)).foldl (fun s i =>
    let p := (lo / 65536 + i) * 65536
    match s.peekPa? (s.localIa p) with
    | none => s
    | some pa =>
      let a := pa + (max lo p - p)
      let b := pa + (min hi (p + 65536) - p)
      s.modMem fun m => { m with cells := m.cells.filter fun c => !(decide (a ≤ c.1) && decide (c.1 < b)), bad := m.bad.filter fun x => !(decide (a ≤ 32 * x) && decide (32 * x < b)) }) s

/-- Formation ends (R401, R416): `agree` says that every member's digest is this one's. -/
def form (s : State) (n : Nat) (agree : Bool) : State :=
  let g := s.group n
  let c := g.cfg
  if g.state ≠ .forming then s
  else if !agree then s.formFails n 2
  else if !((List.range c.members).all fun i => s.memberUp n i) then s
  else if c.badPlacement && !c.ovr then s.formFails n 1
  else
    let s := if c.isData then s else s.zeroParity n
    (s.modGroup n fun g => { cfg := g.cfg, state := .run, weak := c.badPlacement }).groupEvent n

/-! ### Rounds (R410, R411) -/

/-- A parity member stages a delta and acknowledges it (R408, R410); without room it waits, unacknowledged (R406). -/
def stageDelta (s : State) (n : Nat) (d : Delta) : State :=
  let g := s.group n
  if !g.cfg.en || g.cfg.isData || !(g.state == .run || g.state == .degraded) then s
  else
    let rest := g.staged.filter fun x => !(x.src == d.src && x.round == d.round && x.goff == d.goff)
    if rest.length = g.staged.length ∧ !g.bufferRoom 1 then s
    else
      let x : Staged := { round := d.round, src := d.src, goff := d.goff, data := scaleBytes (gfCoef (g.cfg.myidx.toNat - g.cfg.k.toNat) d.src) d.data }
      let dev := g.cfg.dev d.src
      (s.modGroup n fun g => { g with staged := rest ++ [x] }).post dev
        (.deltaAck dev g.cfg.gid { src := g.cfg.myidx.toNat, round := d.round, goff := d.goff })

/-- An acknowledgement of a delta of the round being prepared (R410). -/
def ackDelta (s : State) (n : Nat) (a : DeltaAck) : State :=
  let g := s.group n
  if g.phase ≠ 1 ∨ a.round ≠ g.roundLast + 1 then s
  else
    let s := s.modGroup n fun g => { g with unacked := g.unacked.erase (a.src, a.goff) }
    if (s.group n).unacked.isEmpty then s.becomePrepared n else s

/-! ### Rebuild (R417) -/

/-- The committed bytes of a piece of this member's share, read as any request is: no share when the member maps nothing there (R417), and whether the read
met unprotected loss (R323). -/
def shareOf (s : State) (n o : Nat) : State × Option (List Byte × Bool) :=
  let g := s.group n
  let at? := if g.cfg.isData then (g.regs.find? fun r => decide (r.goff ≤ o) && decide (o < r.goff + r.len)).map fun r => r.ia + (o - r.goff)
    else some (s.localIa (g.cfg.parbase.toNat % 2 ^ 50 + o))
  match at? with
  | none => (s, none)
  | some ia =>
    let set := if g.cfg.isData then tget? g.committed (offOf ia / 128) else none
    match set, s.peekPa? ia with
    | some im, _ => (s, some ((im.data.drop (ia % 128)).take pieceBytes, false))
    | none, none => (s, some (List.replicate pieceBytes 0, !(g.cfg.isData && g.canReconstruct ia)))
    | none, some pa =>
      let (s, e) := s.readBlock pa false
      (s, some (s.mem.bytes pa pieceBytes, e == .bad && !(g.cfg.isData && g.canReconstruct ia)))

/-- This member's share of a piece goes to the replacement for index `t`; it is spread over paths (R364, R417). -/
def sendPiece (s : State) (n t o : Nat) : State :=
  let g := s.group n
  match s.shareOf n o with
  | (s, none) => s
  | (s, some (bs, lost)) => s.postAs (g.cfg.dev t) true (.share (g.cfg.dev t) g.cfg.gid { src := g.cfg.myidx.toNat, off := o, data := bs, lost := lost })

/-- This member's shares for index `t` from an offset on (R417). -/
def sendFrom (s : State) (n t lo : Nat) : State :=
  let rs := (s.group n).needed t
  let top := rs.foldl (fun m r => max m (r.1 + r.2)) 0
  (List.range (top / pieceBytes + 1)).foldl (fun s i =>
    if inRanges rs (i * pieceBytes) && decide (lo ≤ i * pieceBytes) then s.sendPiece n t (i * pieceBytes) else s) s

/-- This member streams its shares for index `t`, if it is one of T (R417). -/
def sendShares (s : State) (n t : Nat) : State :=
  let g := s.group n
  if (g.chosen t []).contains g.cfg.myidx.toNat then s.sendFrom n t 0 else s

/-- The rebuild of a dead index starts in the group: a survivor sets RB and RBIDX and sends its shares (R417). -/
def survivorStart (s : State) (n t : Nat) : State :=
  let g := s.group n
  if !g.dead.getLsbD t ∨ g.state ≠ .degraded ∨ g.rb then s
  else ((s.modGroup n fun g => { g with rb := true, rbidx := BitVec.ofNat 4 t }).groupEvent n).sendShares n t

/-- The share of a member for a piece, as the replacement has it: what came, or zeros where the member maps nothing (R417). -/
def haveShare (g : GSlot) (i o : Nat) : Option (List Byte) :=
  if i < g.cfg.k.toNat ∧ !g.covered i o then some (List.replicate pieceBytes 0)
  else (g.shares.find? fun x => x.src == i && x.off == o && !x.lost).map Share.data

/-- Members whose read of a piece met loss. (Open points: DEDUCED, log 74.) -/
def lostSources (g : GSlot) (o : Nat) : List Nat := (g.shares.filter fun x => x.off == o && x.lost).map Share.src

/-- Write a decoded piece at this device's home; false when its translation fails. -/
def putPiece (s : State) (n o : Nat) (bs : List Byte) : State × Bool :=
  let g := s.group n
  let t := g.cfg.myidx.toNat
  let ia? := if g.cfg.isData then
      (((g.memberRegs.filter fun e => e.1 == t).flatMap fun e => e.2).find? fun r => decide (r.goff ≤ o) && decide (o < r.goff + r.len)).map
        fun r => s.localIa (offOf r.ia + (o - r.goff))
    else some (s.localIa (g.cfg.parbase.toNat % 2 ^ 50 + o))
  match ia? with
  | none => (s, false)
  | some ia => s.writeIa 0 ia bs 2

/-- Every piece is written (R416, R417): the slot runs, with the registrations of its index on this device, and the coordinator hears of it. (Open points: DEDUCED, log 74.) -/
def rebuildDone (s : State) (n : Nat) : State :=
  let g := s.group n
  let t := g.cfg.myidx.toNat
  let regs := ((g.memberRegs.filter fun e => e.1 == t).flatMap fun e => e.2).map fun r => { r with ia := s.localIa (offOf r.ia) }
  let dead := g.dead &&& ~~~BitVec.ofNat 16 (2 ^ t)
  let s := s.modGroup n fun g => { g with
    dead := dead, state := if dead = 0 then .run else .degraded, rb := false, shares := [], regs := if g.cfg.isData then regs else []
    cfg := { g.cfg with repl := false } }
  let s := s.groupEvent n
  if (s.group n).coordinator = t ∧ g.cfg.isData then
    ((s.group n).live 0 g.cfg.members).foldl (fun s i =>
      if i = t then s else s.post (g.cfg.dev i) (.decision (g.cfg.dev i) g.cfg.gid { round := g.roundLast, commit := true, dead := dead, regs := (t, regs) :: g.memberRegs.filter fun e => e.1 != t })) s
  else
    let c := g.cfg.dev (s.group n).coordinator
    s.post c (.prepared c g.cfg.gid t g.roundLast regs)

/-- The replacement decodes and writes pieces in increasing offset while their shares are there (R417). (Open points: DEDUCED, log 74.) -/
def rebuildStep (s : State) (n : Nat) : Nat → State
  | 0 => s
  | f + 1 =>
    let g := s.group n
    let t := g.cfg.myidx.toNat
    if g.state ≠ .rebuild ∨ g.rbHeld ∨ g.memberRegs.isEmpty then s
    else
      match nextPiece (g.needed t) g.rbNext with
      | none => s.rebuildDone n
      | some o =>
        let set := g.chosen t (lostSources g o)
        if set.length < g.cfg.k.toNat then s.modGroup n fun g => { g with state := .failed, rb := false }
        else
          let got := set.map fun i => (i, haveShare g i o)
          if got.any fun e => e.2.isNone then s
          else
            let bs := (List.range pieceBytes).map fun b =>
              BitVec.ofNat 8 (decodeShare g.cfg.k.toNat t (got.map fun e => (e.1, ((e.2.getD []).getD b 0).toNat)))
            match s.putPiece n o bs with
            | (s, true) =>
              (s.modGroup n fun g => { g with
                rbprog := g.rbprog + 32, rbNext := o + pieceBytes, shares := g.shares.filter fun x => x.off != o }).rebuildStep n f
            | (s, false) => s.modGroup n fun g => { g with err := 3, rbHeld := true }

/-- Pieces that can be written with the shares at hand. -/
def rebuildRun (s : State) (n : Nat) : State := s.rebuildStep n ((s.group n).shares.length + 2 ^ 20)

/-- A share arrives (R417): one that met loss is asked of the lowest live member outside T. -/
def takeShare (s : State) (n : Nat) (x : Share) : State :=
  let g := s.group n
  let t := g.cfg.myidx.toNat
  if g.state ≠ .rebuild ∨ x.off < g.rbNext then s
  else
    let s := s.modGroup n fun g => { g with shares := x :: g.shares.filter fun y => !(y.src == x.src && y.off == x.off) }
    let s := if x.lost then
        match (s.group n).chosen t (lostSources (s.group n) x.off) |>.getLast? with
        | some i => if (g.chosen t (lostSources g x.off)).contains i then s else s.askMember n i (.share g.cfg.gid x.off true)
        | none => s
      else s
    s.rebuildRun n

/-- A decision record reaches the replacement (R416, R417): ROUNDLAST, the registrations and DEAD; shares of members now dead are discarded. (Open points: DEDUCED, log 74.) -/
def takeDecisionRebuild (s : State) (n : Nat) (d : Decision) : State :=
  let g := s.group n
  let t := g.cfg.myidx.toNat
  let old := g.chosen t []
  let s := s.modGroup n fun g => { g with
    dead := d.dead, memberRegs := d.regs, roundLast := if d.commit then d.round else d.round - 1
    shares := g.shares.filter fun x => !d.dead.getLsbD x.src }
  if g.cfg.m.toNat < (s.group n).deadCount then s.modGroup n fun g => { g with state := .failed, err := 4, rb := false }
  else
    let s := (((s.group n).chosen t []).filter fun i => !old.contains i).foldl (fun s i =>
      s.askMember n i (.share g.cfg.gid (s.group n).rbNext false)) s
    s.rebuildRun n

/-- A decision record of a member is stored here (R410), or is the answer that a new coordinator awaits (R411); a survivor of a rebuild that has come into T
sends its shares (R417). -/
def takeDecision (s : State) (n src : Nat) (d : Decision) : State :=
  let g := s.group n
  if !g.cfg.en then s
  else if g.asking.contains src then s.askedOne n src (some d)
  else if g.state = .rebuild then s.takeDecisionRebuild n d
  else if !(g.state == .run || g.state == .degraded || g.state == .failed) then s
  else if d.round ≤ g.roundLast then
    -- a record of a round that is applied here already: the DEAD mask and the registrations in force
    s.modGroup n fun g =>
      let g := { g with dead := d.dead, memberRegs := d.regs, rb := g.rb && d.dead.getLsbD g.rbidx.toNat }
      if g.state = .failed then g else g.settle
  else
    let me := g.cfg.myidx.toNat
    let was := (g.chosen g.rbidx.toNat []).contains me
    let s := s.storeDecision n d
    let h := s.group n
    if h.rb && !was && (h.chosen h.rbidx.toNat []).contains me then s.sendShares n h.rbidx.toNat else s

/-- What another member asks of this one: its decision record, or its shares for the replacement (R411, R417). -/
def memberAsked (s : State) (src : Nat) (op : ReqOp) : State :=
  let slot := fun gid : BitVec 16 => (s.groups.find? fun kv => kv.2.cfg.en && kv.2.cfg.gid == gid).map Prod.fst
  match op with
  | .decision gid =>
    match slot gid with
    | some n =>
      let g := s.group n
      s.post src (.decision src gid (g.record.getD { round := g.roundLast, commit := true, dead := g.dead, regs := g.memberRegs }))
    | none => s
  | .share gid o one =>
    match slot gid with
    | some n => if one then s.sendPiece n (s.group n).rbidx.toNat o else s.sendFrom n (s.group n).rbidx.toNat o
    | none => s
  | _ => s

/-- PREPARED reaches the coordinator (R410), or the notice of a replacement whose rebuild is complete (R416, R417). (Open points: DEDUCED, log 73.) -/
def takePrepared (s : State) (n src : Nat) (round : Word) (regs : List Region) : State :=
  let g := s.group n
  let me := g.cfg.myidx.toNat
  if g.rb && g.rbidx.toNat == src && g.dead.getLsbD src && g.coordinator == me then
    let s := s.modGroup n fun g =>
      { g with dead := g.dead &&& ~~~BitVec.ofNat 16 (2 ^ src), rb := false, memberRegs := (src, regs) :: g.memberRegs.filter fun e => e.1 != src }.settle
    let s := s.groupEvent n
    let h := s.group n
    ((h.live 0 h.cfg.members).filter (· != me)).foldl (fun s i =>
      s.post (h.cfg.dev i) (.decision (h.cfg.dev i) h.cfg.gid { round := h.roundLast, commit := true, dead := h.dead, regs := h.memberRegs })) s
  else s.preparedAt n src round regs

/-- A member is declared dead by the device that is then the coordinator (R411, R416); in a rebuild T is chosen again (R417). -/
def declareMember (s : State) (n i : Nat) : State :=
  let g := s.group n
  let me := g.cfg.myidx.toNat
  let after := { g with dead := g.dead ||| BitVec.ofNat 16 (2 ^ i) }
  if !g.cfg.en ∨ !(g.state == .run || g.state == .degraded) ∨ i = me ∨ g.cfg.members ≤ i ∨ g.dead.getLsbD i ∨ after.coordinator ≠ me ∨ !g.cfg.isData then s
  else
    let was := (g.chosen g.rbidx.toNat []).contains me
    let s := s.declareDead n i
    let h := s.group n
    if h.rb && !was && (h.chosen h.rbidx.toNat []).contains me then s.sendShares n h.rbidx.toNat else s

/-- A peer's session goes DOWN: its members start to count (R411). -/
def groupsDown (s : State) (dev : Nat) : State :=
  s.groups.foldl (fun s kv => if kv.2.cfg.en ∧ (List.range kv.2.cfg.members).any fun i => kv.2.cfg.dev i == dev then s.noteLost kv.1 else s) s

/-- A peer's session returns UP (R411): with another incarnation its member is dead; with the same one the coordinator sends it the decision
records that it may have missed: of the last committed round, and of an abort after it. -/
def groupsUp (s : State) (dev : Nat) (same : Bool) : State :=
  s.groups.foldl (fun s kv =>
    let n := kv.1
    let g := s.group n
    match (List.range g.cfg.members).find? fun i => g.cfg.dev i == dev with
    | none => s
    | some i =>
      if !g.cfg.en then s
      else
        let s := s.noteLost n
        if !same then s.declareMember n i
        else if g.coordinator = g.cfg.myidx.toNat ∧ g.cfg.isData ∧ (g.state = .run ∨ g.state = .degraded) ∧ !g.dead.getLsbD i then
          let s := s.post dev (.decision dev g.cfg.gid { round := g.roundLast, commit := true, dead := g.dead, regs := g.memberRegs })
          match g.record.filter fun d => !d.commit && d.round == g.roundLast + 1 with
          | some d => s.post dev (.decision dev g.cfg.gid d)
          | none => s
        else s) s

end State

/-! ### The meanings -/

/-- Offset of a slot's register (R399). -/
def slotOff (n o : Nat) : Nat := 0x8000 + 0x100 * n + o

def execGroupJoin (master slot : Nat) (s : State) : Out :=
  let v := { (s.group slot).cfg with en := true, repl := false }.word
  .next (s.ownerWrite master (slotOff slot 0) v fun s => s.writeCgcfg slot v)

def execGroupForm (slot : Nat) (agree : Bool) (s : State) : Out := .next (s.form slot agree)

def execGroupFormTimeout (slot : Nat) (s : State) : Out :=
  let g := s.group slot
  .next (if g.state = .forming ∧ (List.range g.cfg.members).any fun i => s.longLost slot i then s.formFails slot 2 else s)

def execGroupLeave (master slot : Nat) (s : State) : Out :=
  let v := { (s.group slot).cfg with en := false }.word
  .next (s.ownerWrite master (slotOff slot 0) v fun s => s.writeCgcfg slot v)

/-- On the replacement the rebuild starts with the owner's EN := 1; on a survivor, when it hears of it (R417). -/
def execRebuildStart (rb : RebuildAt) (s : State) : Out :=
  let g := s.group rb.slot
  let c := { g.cfg with en := true }
  .next (if g.state = .off then (if g.cfg.repl && !g.cfg.en && !s.joinRefused rb.slot c then s.join rb.slot c else s) else s.survivorStart rb.slot rb.index)

def execRebuildResume (master slot : Nat) (s : State) : Out :=
  .next (s.ownerWrite master (slotOff slot 0x58) 2 fun s =>
    .done (if (s.group slot).rbHeld then (s.modGroup slot fun g => { g with rbHeld := false, err := 0 }).rebuildRun slot else s))

def execDeltaReceive (slot : Nat) (delta : Delta) (s : State) : Out := .next (s.stageDelta slot delta)

def execDeltaAckReceive (slot : Nat) (ack : DeltaAck) (s : State) : Out := .next (s.ackDelta slot ack)

def execPreparedReceive (slot src : Nat) (round : Word) (regs : List Region) (s : State) : Out := .next (s.takePrepared slot src round regs)

def execDecisionReceive (slot : Nat) (msg : SentDecision) (s : State) : Out := .next (s.takeDecision slot msg.src msg.dec)

def execMemberDeadTimeout (slot member : Nat) (left : Bool) (s : State) : Out :=
  .next (if left || s.longLost slot member then s.declareMember slot member else s)

def execRebuildShareReceive (slot : Nat) (share : Share) (s : State) : Out := .next (s.takeShare slot share)

end Sys2Proof.Machine
end

