-- ==== Sys2Proof/Machine/FabricEvents.lean ====
section
/-! DEFINITION. The fabric: frames, retry and streams, sessions, ports, relays, rerouting, requests of other devices, roaming pages
(spec 14_fabric.md R354 to R371). -/

namespace Sys2Proof.Machine

/-! ### Streams, relays and reachability (R357, R365) -/

/-- Frames of a stream from sequence number `q` on. -/
def Stream.from (t : Stream) (q : Nat) : List Sent := t.retry.filter fun e => decide ((e.frame.sseq.toNat + 65536 - q) % 65536 < 32768)

/-- A cumulative acknowledgement: `a` is the first SSEQ not yet received (R356, R357). (Open points: DEDUCED, log 65.) -/
def Stream.ack (t : Stream) (a now : Nat) : Stream :=
  let rest := t.from a
  if rest.length < t.retry.length then { t with retry := rest, acked := a, since := now } else t

namespace State

/-- What waits for room on a stream that is open leaves, as far as there is room (R357). -/
def pump (s : State) (plane hop : Nat) : State :=
  let t := s.stream plane hop
  if !s.openStream plane hop then s
  else (t.queue.take (64 - t.retry.length)).foldl (fun s w => s.putFrame plane hop w) (s.modStream plane hop fun t => { t with queue := t.queue.drop (64 - t.retry.length) })

/-- The unacknowledged frames of a stream that carries none, and what waits on it, move to the paths that there are (R357, R365). (Open points: DEDUCED,
log 65.) -/
def moveFrames (s : State) (plane dev : Nat) : State :=
  if s.liveStream plane dev then s.pump plane dev
  else
    let t := s.stream plane dev
    let l := t.retry.map Sent.wire ++ t.queue
    if l.any fun w => (s.paths w.dst w.cls false).isEmpty then s
    else l.foldl (fun s w => s.putOn false w) (s.modStream plane dev fun t => { t with retry := [], queue := [] })

/-- Move the frames of every stream that carries none. -/
def moveAll (s : State) : State :=
  s.fabric.streams.foldl (fun s kv => if kv.2.retry.isEmpty && kv.2.queue.isEmpty then s else s.moveFrames (kv.1 / 128) (kv.1 % 128)) s

/-- Devices with a live direct stream, as a reachability advertisement names them (R365). -/
def liveMask (s : State) : BitVec 128 :=
  (List.range 128).foldl (fun m d => if d != s.devNum && s.liveDirect d then m ||| BitVec.ofNat 128 (2 ^ d) else m) 0

/-- The relay for a device (R365). -/
def chooseRelay (s : State) (dev : Nat) : Option Nat :=
  if s.liveDirect dev then none
  else (List.range 128).find? fun r =>
    r != s.devNum && r != dev && s.fabric.relayMask.getLsbD r && (s.peer r).state == .up && s.liveDirect r && (s.peer r).advert.getLsbD dev

/-- Relays are chosen again, routes noted, and frames moved (R357, R365). -/
def settleRoutes (s : State) : State :=
  (s.modFabric fun f => { f with peers := f.peers.map fun kv => (kv.1, { kv.2 with relay := s.chooseRelay kv.1 }) }).noteRoutes.moveAll

/-- Advertise reachability to every UP peer (R365). -/
def advertise (s : State) : State :=
  s.fabric.peers.foldl (fun s kv => if kv.2.state = .up then s.send (.advert kv.1 s.liveMask) else s) s

/-- After a change of streams: advertisements at once when a direct path has died or revived (R365). -/
def streamsChanged (old s : State) : State :=
  let s := s.settleRoutes
  if (List.range 128).any fun d => old.liveDirect d != s.liveDirect d then s.advertise else s

/-- A stream becomes dead (R357). -/
def killStream (s : State) (plane dev : Nat) : State :=
  streamsChanged s (s.modStream plane dev fun t => { t with dead := true, probes := 0, since := s.time })

/-- Every stream of a port becomes dead (R361). (Open points: DEDUCED, log 65.) -/
def killPort (s : State) (k : Nat) : State :=
  streamsChanged s ((List.range 128).foldl (fun s d => s.modStream k d fun t => { t with dead := true, probes := 0, since := s.time }) s)

/-- A NAK: the frames from `q` on are sent again, in order; a frame sent 8 times again without acknowledgement ends the stream (R357). -/
def nakTake (s : State) (plane dev q : Nat) : State :=
  let l := (s.stream plane dev).from q
  if l.isEmpty then s
  else
    let s := l.foldl (fun s e => s.send (.frame plane (wavelength s.devNum dev) e.frame)) s
    let s := s.modPort plane fun p => { p with retries := BitVec.ofNat 32 (satAdd 32 p.retries.toNat l.length) }
    let s := s.modStream plane dev fun t => { t with retry := t.retry.map fun e => if l.contains e then { e with resent := e.resent + 1 } else e }
    if (s.stream plane dev).retry.any fun e => decide (8 ≤ e.resent) then s.killStream plane dev else s

/-! ### Sessions (R359, R360) -/

/-- The session goes DOWN: its keys are discarded (R360). -/
def sessionDown (s : State) (dev : Nat) : State :=
  let s := s.modPeer dev fun p => { p with state := .down, downAt := s.time, txGen := 0, rxGen := 0, txFrames := 0, oldLeft := 0, badTags := 0, spdm := 0 }
  ((s.event 0x0C 3 dev).groupsDown dev).settleRoutes

/-- What a request that waited for the session comes to when it is UP (R362): it is sent, or the target has restarted. -/
def checkLoad (s : State) (dev : Nat) (t : Task) : State :=
  match t.state, t.park with
  | .parked, some (.remote l sent) =>
    if s.holderOf l.ia = dev then s.askLoad t l sent else s
  | _, _ => s

/-- A core whose request to a restarted target can never be answered gets that as its answer (R362). -/
def checkAsked (s : State) (dev : Nat) (restarted : Bool) : State :=
  if !restarted then s
  else s.liveCores.foldl (fun s c => s.modCoreAt c fun k => match k.asked with
    | some (d, true) => if d = dev ∧ k.answer.isNone then { k with answer := some (.error 0x0B ((s.peer dev).inc.zeroExtend 32)) } else k
    | _ => k) s

/-- A stream under a new session: what waits for its acknowledgement goes on under the new keys, or is gone with the peer's old incarnation. (Open points:
DEDUCED, log 65.) -/
def rekeyStream (s : State) (plane dev : Nat) (same : Bool) : State :=
  let l := (s.stream plane dev).retry
  let s := s.modStream plane dev fun t => { t with frames := 0, rxGen := 0, rxCount := 0, retry := [], queue := if same then t.queue else [] }
  if !same then s
  else l.foldl (fun s e =>
    let f := ({ s with fabric := (s.modStream plane dev fun t => { t with sseq := e.frame.sseq.toNat }).fabric } : State).frameFor plane dev e.wire
    (s.modStream plane dev fun t => { t with frames := t.frames + 1, retry := t.retry ++ [⟨e.wire, f, 0⟩] }).send (.frame plane (wavelength s.devNum dev) f)) s

/-- The exchange has completed (R360): `inc` and `meas` are the peer's incarnation and the digest of its measurements. (Open points: DEDUCED, log 67.) -/
def sessionEnds (s : State) (dev : Nat) (inc : BitVec 16) (chain : Bool) (meas : Digest) : State :=
  let acc := (List.range 4).map fun k => tget 0 s.fabric.accept k
  if chain && (acc.all (· == 0) || acc.contains meas) then
    let same := (s.peer dev).inc == inc
    let s := s.modPeer dev fun p =>
      let p := { p with state := .up, inc := inc, session := s.free, txGen := 0, rxGen := 0, txFrames := 0, oldLeft := 0, badTags := 0, lastGood := s.time }
      if same then p else { p with txPseq := 0, rxPseq := 0, early := [], due := [], replies := [], advert := 0 }
    let s := (List.range 8).foldl (fun s k => if (tget? s.fabric.streams (k * 128 + dev)).isSome then s.rekeyStream k dev same else s) s.nextFree
    let s := (s.event 0x0C 2 dev).send (.advert dev s.liveMask)
    let s := s.settleRoutes
    let s := s.sched.tasks.foldl (fun s t => s.checkLoad dev t) s
    (s.checkAsked dev (!same)).groupsUp dev same
  else (s.modPeer dev fun p => { p with state := .refused }).event 0x0C 4 dev

/-! ### Frames (R356 to R360) -/

/-- Is the frame's class admitted on the port and the session now (R354, R360, R361)? (Open points: PRESUMED, log 64.) -/
def frameOpen (s : State) (plane dev : Nat) (f : Frame) : Bool :=
  let st := (s.port plane).state
  let c := f.cls.toNat % 8
  if dev = s.devNum then c == 7 && (st == .locked || st == .run)
  else if c = 4 ∨ c = 6 ∨ c = 7 then st == .locked || st == .run
  else st == .run && (s.peer dev).state == .up && decide (3 ≤ s.root.stage.stage)

/-- How far the frame's SSEQ lies beyond the one expected. -/
def frameGap (s : State) (plane dev : Nat) (f : Frame) : Nat := (f.sseq.toNat + 65536 - (s.stream plane dev).rxNext) % 65536

/-- The stream's frame count of a received frame under the key of a generation (R359). (Open points: DEDUCED, log 65.) -/
def rxCountOf (s : State) (plane dev : Nat) (f : Frame) (gen : Nat) : Nat :=
  let t := s.stream plane dev
  let gap := s.frameGap plane dev f
  (if t.rxGen = gen then t.rxCount else 0) + gap - (if gap < 32768 then 0 else 65536)

/-- Does the frame's tag hold under the peer's key of a generation (R359)? -/
def tagHolds (s : State) (plane dev : Nat) (f : Frame) (gen : Nat) : Bool :=
  f.tag == some (frameTag (Config.trafficKey (s.peer dev).session true gen) plane (s.rxCountOf plane dev f gen) (frameHeader f) f.payload)

/-- The generation of the peer's key under which the frame's tag holds: that in use, or for the other phase the old one for 4,096 frames after the first
frame of the new one, or the next one (R359). -/
def frameGen (s : State) (plane dev : Nat) (f : Frame) : Option Nat :=
  let p := s.peer dev
  let gens := if f.src.getLsbD 7 == (p.rxGen % 2 == 1) then [p.rxGen] else (if p.oldLeft = 0 then [] else [p.rxGen - 1]) ++ [p.rxGen + 1]
  gens.find? fun g => s.tagHolds plane dev f g

/-- Is the frame bad (R356)? -/
def frameBad (s : State) (plane dev : Nat) (f : Frame) : Bool :=
  !f.fec || !frameCrcOk f || fld f.cls.toNat 3 5 != 0 || f.dst.getLsbD 7 || f.mbz != 0 || decide (8 < f.flits.toNat) || (s.keyed dev && (s.frameGen plane dev f).isNone)

/-- The receiver's key and frame count after a good frame: the first frame of the other phase begins a new key, and for 4,096 frames the old one is still
accepted (R359). (Open points: DEDUCED, log 65.) -/
def phaseTake (s : State) (plane dev : Nat) (f : Frame) : State :=
  match (if s.keyed dev then s.frameGen plane dev f else none) with
  | none => s
  | some g =>
    let n := s.rxCountOf plane dev f g
    let s := if s.frameGap plane dev f = 0 then s.modStream plane dev fun t => { t with rxGen := g, rxCount := n + 1 } else s
    s.modPeer dev fun p => if g = p.rxGen + 1 then { p with rxGen := g, oldLeft := 4096, badTags := 0 } else { p with oldLeft := p.oldLeft - 1 }

/-- The frame with its payload decrypted (R359). -/
def opened (s : State) (plane dev : Nat) (f : Frame) : Frame :=
  match (if s.keyed dev then s.frameGen plane dev f else none) with
  | none => f
  | some g => { f with payload := frameCipher (Config.trafficKey (s.peer dev).session true g) plane (s.rxCountOf plane dev f g) f.payload }

/-- A NAK to the sender names the first SSEQ that is lacking (R357). -/
def nak (s : State) (plane dev : Nat) : State := s.send (.nak plane dev (s.stream plane dev).rxNext)

/-- A bad tag is counted; 16 within one key end the session (R360). (Open points: DEDUCED, log 65.) -/
def tagTake (s : State) (plane dev : Nat) (f : Frame) : State :=
  if s.keyed dev && f.fec && frameCrcOk f && (s.frameGen plane dev f).isNone then
    let s := s.modPeer dev fun p => { p with badTags := p.badTags + 1 }
    if 16 ≤ (s.peer dev).badTags then s.sessionDown dev else s
  else s

/-- Hand on, in PSEQ order, the early frames that a frame has released (R358). -/
def deliverEarly (s : State) (dev : Nat) : Nat → State
  | 0 => s
  | n + 1 =>
    let p := s.peer dev
    match tget? p.early p.rxPseq with
    | none => s
    | some c =>
      (s.modPeer dev fun p => { p with
        rxPseq := (p.rxPseq + 1) % 2 ^ 32, early := terase p.early p.rxPseq
        due := if c = 0 ∨ c = 2 then p.due ++ [p.rxPseq] else p.due }).deliverEarly dev n

/-- A frame reaches its final destination: it waits for its place in PSEQ order; a request that has been performed is answered again (R358). -/
def deliverFrame (s : State) (src q cls : Nat) : State :=
  let p := s.peer src
  if (q + 2 ^ 32 - p.rxPseq) % 2 ^ 32 < 2 ^ 31 then
    let s := s.modPeer src fun p => { p with early := tset p.early q cls }
    s.deliverEarly src ((s.peer src).early.length)
  else
    match tget? p.replies q with
    | some r => s.post src (.reply src q r)
    | none => s

/-- Send a request of the SPDM exchange, or its answer (R359). -/
def spdmSend (s : State) (dev : Nat) (x : SpdmStep) (answer : Bool) : State :=
  s.post dev (.spdm dev x answer (if x = .negotiateAlgorithms then sessionAlgorithms else []))

/-- An SPDM message: the exchange goes on by one request and its answer, in the order of R359, of which GET_VERSION begins a new one; a KEY_EXCHANGE ends a
session that is UP (R360). (Open points: PRESUMED, log 64; DEDUCED, log 67.) -/
def spdmTake (s : State) (dev : Nat) (payload : List Byte) : State :=
  let p := s.peer dev
  let code := ((payload[1]?).map BitVec.toNat).getD 0
  let step := spdmSteps[p.spdm]?
  if p.state = .up then (if code = SpdmStep.keyExchange.code then s.sessionDown dev else s)
  else if p.state ≠ .setup then s
  else if s.devNum < dev then
    if step.any fun x => code == x.code - 0x80 then
      let s := s.modPeer dev fun p => { p with spdm := p.spdm + 1 }
      match spdmSteps[p.spdm + 1]? with
      | some x => s.spdmSend dev x false
      | none => s
    else s
  else if code = SpdmStep.getVersion.code then (s.modPeer dev fun p => { p with spdm := 1 }).spdmSend dev .getVersion true
  else
    match step with
    | some x => if code = x.code then (s.modPeer dev fun p => { p with spdm := p.spdm + 1 }).spdmSend dev x true else s
    | none => s

/-- What a frame carries, as it goes on to another device. -/
def wireOf (f : Frame) : Wire := { cls := 5, src := f.src.toNat % 128, dst := f.dst.toNat % 128, pseq := f.pseq.toNat, payload := f.payload }

/-- A frame of this device comes back from a relay that has lost its path: the next relay is chosen, and the frame sent again (R365). (Open points: DEDUCED,
log 65.) -/
def relayReturned (s : State) (relay : Nat) (w : Wire) : State :=
  let s := (s.modPeer relay fun p => { p with advert := p.advert &&& ~~~(BitVec.ofNat 128 (2 ^ w.dst)) }).settleRoutes
  s.putOn false { w with cls := (((w.payload[0]?).map BitVec.toNat).getD 0) % 8 }

/-- What an accepted frame does after the stream's own bookkeeping (R357, R358, R360, R365): a relay sends it on, never a second time, or back where it has
no path. (Open points: DEDUCED, log 65; DESIGN CHOICE, log 86.) -/
def frameTake (s : State) (plane dev : Nat) (f : Frame) : State :=
  let c := f.cls.toNat % 8
  let src := f.src.toNat % 128
  let dst := f.dst.toNat % 128
  if c = 7 then s
  else if c = 5 ∧ src = s.devNum then s.relayReturned dev (wireOf f)
  else if dst = s.devNum then
    let s := if c = 6 then s.spdmTake src f.payload else s
    let k := if c = 5 then (((f.payload[0]?).map BitVec.toNat).getD 0) % 8 else c
    if (s.peer src).state = .up ∨ c = 4 ∨ c = 6 then s.deliverFrame src f.pseq.toNat k else s
  else if c = 5 ∧ src = dev ∧ (s.peer dst).state = .up ∧ s.liveDirect dst then
    (match (s.livePlanes dst).head? with
     | some k => s.putFrame k dst (wireOf f)
     | none => s)
  else if c = 5 then s.putFrame plane dev (wireOf f)
  else s.send (.nak plane dev f.sseq.toNat)

/-- A frame from the stream of a device on a plane (R356 to R358): a good one is acknowledged, a bad one or a gap answered by a NAK. -/
def frameReceive (s : State) (plane dev : Nat) (f : Frame) : State :=
  if !s.frameOpen plane dev f then s
  else if s.frameBad plane dev f then (s.tagTake plane dev f).nak plane dev
  else
    let g := s.opened plane dev f
    let gap := s.frameGap plane dev f
    let s := s.phaseTake plane dev f
    let s := s.modPeer (f.src.toNat % 128) fun p => { p with lastGood := s.time }
    let s := (s.modStream plane dev fun t => t.ack (f.ack.toNat % 65536) s.time).pump plane dev
    match f.nak with
    | some q => s.nakTake plane dev q.toNat
    | none =>
      if gap = 0 then
        let s := s.modStream plane dev fun t => { t with rxNext := (t.rxNext + 1) % 65536 }
        (s.send (.ack plane dev (s.stream plane dev).rxNext)).frameTake plane dev g
      else if gap < 32768 then s.nak plane dev
      else s.send (.ack plane dev (s.stream plane dev).rxNext)

/-! ### Ports (R361) -/

/-- A port in LOCKED or RUN meets an error: its streams die when it leaves RUN. -/
def portError (s : State) (k cause : Nat) : State :=
  let st := (s.port k).state
  if st = .locked ∨ st = .run then
    let s := s.modPort k fun p => { p with state := .error, ecause := BitVec.ofNat 8 cause }
    if st = .run then s.killPort k else s.noteRoutes
  else s

/-- Every port in LOCKED or RUN meets a write to a frozen field of the fabric. (Open points: DEDUCED, log 66.) -/
def frozenWrite (s : State) : State := (List.range 8).foldl (fun s k => s.portError k 1) s

/-- Is any port not UNLOCKED? -/
def anyLocked (s : State) : Bool := s.fabric.ports.any fun kv => kv.2.state != .unlocked

/-- A write of PORTCTL (R361, R370). (Open points: DEDUCED, log 66.) -/
def writePort (s : State) (k : Nat) (v : Word) : Written :=
  let p := s.port k
  let cmd := fld v.toNat 32 2
  let live := p.state == .locked || p.state == .run
  if live && v.getLsbD 0 != p.en then .silent (s.portError k 1)
  else
    let s := if p.state = .unlocked then s.modPort k fun p => { p with en := v.getLsbD 0 } else s
    if cmd = 0 then .done s.settleStage
    else if s.root.stage.stage < 2 then .refused
    else if cmd = 1 ∧ p.state = .unlocked ∧ v.getLsbD 0 then
      .done (s.modPort k fun p => { p with state := .locked, meas := digestOf (Config.portBytes k true s.fabric.enc s.fabric.relayMask) })
    else if cmd = 2 ∧ p.state = .locked then .done ((s.modPort k fun p => { p with state := .run }).settleRoutes.settleStage)
    else if cmd = 3 ∧ live then
      .done (let s := s.modPort k fun p => { p with state := .unlocked }
             if p.state = .run then s.killPort k else s.noteRoutes)
    else if cmd = 3 ∧ p.state = .error then .done (s.modPort k fun p => { p with state := .unlocked, ecause := 0 })
    else .refused

/-- A write of FABCFG (R370): a change of ENC while a port is not UNLOCKED has no effect, but is a frozen write (R361). (Open points: DEDUCED, log 66.) -/
def writeFabcfg (s : State) (v : Word) : Written :=
  if s.anyLocked && v.getLsbD 23 != s.fabric.enc then .silent s.frozenWrite
  else .done (s.modFabric fun f => { f with
    migMax := BitVec.ofNat 4 (fld v.toNat 40 4), migTh := BitVec.ofNat 8 (fld v.toNat 32 8), enc := v.getLsbD 23, spray := v.getLsbD 22
    qpeer := BitVec.ofNat 7 (fld v.toNat 15 7) })

/-- A write of a half of RELAYMASK (R370). (Open points: DEDUCED, log 66.) -/
def writeRelayMask (s : State) (half : Nat) (v : Word) : Written :=
  let m := if half = 0 then (fld s.fabric.relayMask.toNat 64 64) * 2 ^ 64 + v.toNat else v.toNat * 2 ^ 64 + fld s.fabric.relayMask.toNat 0 64
  if s.anyLocked && BitVec.ofNat 128 m != s.fabric.relayMask then .silent s.frozenWrite
  else .done ((s.modFabric fun f => { f with relayMask := BitVec.ofNat 128 m }).settleRoutes)

/-- A write of a word of an ACCEPT register: refused peers may be tried again (R360, R370). -/
def writeAccept (s : State) (k word : Nat) (v : Word) : State :=
  s.modFabric fun f => { f with
    accept := tmod 0 f.accept k fun d => BitVec.ofNat 384 (putFld d.toNat (64 * word) 64 v.toNat)
    peers := f.peers.map fun kv => (kv.1, if kv.2.state = .refused then { kv.2 with state := .none } else kv.2) }

/-! ### Rerouting (R366) -/

/-- A request that has waited REROUTE.TICKS without a route ends (R366). (Open points: DEDUCED, log 67.) -/
def rerouted (s : State) (dev : Nat) : RouteWaiter → State
  | .load l i =>
    match s.task? l i with
    | none => s
    | some t =>
      match t.state, t.park with
      | .parked, some (.remote r _) =>
        if s.holderOf r.ia = dev ∧ s.unroutedFor dev r.tick then s.replyTo t r (.error 0x0C (BitVec.ofNat 32 dev)) else s
      | _, _ => s
  | .sync c =>
    let k := s.coreAt c
    match k.asked with
    | some (d, _) =>
      if c < 352 ∧ d = dev ∧ k.answer.isNone ∧ s.unroutedFor dev k.askedAt then
        s.modCoreAt c fun k => { k with answer := some (.error 0x0C (BitVec.ofNat 32 dev)) }
      else s
    | none => s
  | .copy c =>
    match (s.coreAt c).copy.jobs.head? with
    | some j =>
      if c < 352 ∧ j.running ∧ s.unroutedFor dev j.tick then
        match (j.foot.reads ++ j.foot.writes).find? fun r => r.glob && s.holderOf r.lo == dev with
        | some r => s.onCore c fun s => s.jobFailAt { code := 0x0C, addr := BitVec.ofNat 64 r.lo, detail := BitVec.ofNat 32 dev }
        | none => s
      else s
    | none => s
  | .work c ring slot =>
    match s.net.work.find? fun w => w.ctx == c && w.ring == ring && w.slot == slot && w.started && !w.finished && (w.op == 3 || w.op == 4) with
    | some w => if s.unroutedFor dev w.tick then s.workFail w true else s
    | none => s

/-! ### Requests of other devices (R362, R363) -/

/-- The intermediate address that a request names. -/
def reqIa (s : State) (addr : Nat) : Nat := if roaming addr then addr else s.localIa (offOf addr)

/-- The error that a failed walk answers (R363): `none` when the page is there or awaited. (Open points: DEDUCED, log 68.) -/
def walkError (s : State) : Walk → Option RemoteReply
  | .invalid l => some (.error 0x14 (BitVec.ofNat 32 l))
  | .integrity l => some (.error 0x12 (BitVec.ofNat 32 l))
  | .lost => some (.error 0x13 (BitVec.ofNat 32 s.trav.lastRetired))
  | _ => none

/-- Walk each of some addresses: the first that has no page decides, by an error or by a wait on its page. (Open points: DEDUCED, log 53, 68.) -/
def walkAll (s : State) (who : Nat × Nat) : List Nat → State × Option (Option RemoteReply)
  | [] => (s, none)
  | ia :: rest =>
    let (s, w) := s.walk 0 ia
    match w with
    | .page _ _ => s.walkAll who rest
    | .absent => (s.fltqNote 0 (ia / 65536) who true, some none)
    | w => (s, some (s.walkError w))

/-- The bytes of a load at home, or the cause of their loss (R363). -/
def remoteRead (s : State) (ia n : Nat) : State × RemoteReply :=
  match s.readIa 0 ia n (n / 65536 + 2) with
  | (s, some bs) => (s, .value bs)
  | (s, none) =>
    match s.peekPa? ia with
    | some pa => (s, .error (s.lossCode pa) (BitVec.ofNat 32 (s.stackOf pa)))
    | none => (s, .error 0x14 0)

/-- Records of another device's log, in the order of their stamps there (R276, R278, R363). (Open points: DEDUCED, log 68.) -/
def remoteRecords (s : State) (src : Nat) (rs : List (Nat × List (Nat × Byte))) : State :=
  (sortBy Prod.fst rs).foldl (fun s r =>
    let cells := sortBy Prod.fst (r.2.map fun c => (s.reqIa c.1, c.2))
    let (s, st) := s.takeStamp
    let gs := (cells.map fun c => c.1 / 128).eraseDups
    let s := gs.foldl (fun s g =>
      let cs := granuleCells cells g
      match s.peekPa? (128 * g), cs with
      | some pa, c :: _ => s.homeCells c.1 (pa + c.1 % 128) cs st
      | _, _ => s) s
    let s := s.refreshLines cells st
    ((cells.map fun c => c.1 / 8).eraseDups).foldl (fun s w =>
      s.putOwner w { granule := 0, words := 0, launch := 0, index := src, stamp := st, remote := true }) s) s

/-- The operation of an AMO code (R281). -/
def amoOf (n : Nat) : AmoOp := [AmoOp.add, .and, .or, .xor, .min, .max, .minu, .maxu, .swap, .fadd].getD n .add

/-- What a request waits for at the sync home of a variable: room for its release, the compaction that its acquire forces of every other source, and
that of the records on its word (R270, R272, R281). (Open points: DEDUCED, log 33.) -/
def syncReady (s : State) (src ia n : Nat) (rel acq : Bool) : State × Bool :=
  let (s, ok) := if rel then s.publishRoom ia (4 + src) else (s, true)
  let (s, ok') := if acq then s.forceAll (varOf ia) ((s.varSources ia).filter fun kv => kv.1 != 4 + src) else (s, true)
  let (s, ok'') := if rel then s.compactAt ia n else (s, true)
  (s, ok && ok' && ok'')

/-- An operation on a variable by another device: its source there is 4 + its number (R270, R363). (Open points: DEDUCED, log 33.) -/
def remoteSync (s : State) (src ia n : Nat) (f : Word → Option Word) : State × RemoteReply :=
  match s.peekPa? ia with
  | none => (s, .error 0x14 0)
  | some pa =>
    match s.homeRead ia pa n with
    | (s, none) => (s, .error (s.lossCode pa) (BitVec.ofNat 32 (s.stackOf pa)))
    | (s, some _) =>
      let (s, st) := s.takeStamp
      let s := s.publish ia (4 + src) st
      let (s, old) := s.atomicAt ia pa n f
      (s, .sync old (tget 0 (s.varSources ia) (4 + src)))

/-- Compact what the dies of this device have released on a variable of the asking device: true when nothing waits (R270, R272). -/
def serveForce (s : State) (ia : Nat) : State × Bool := s.forceAll ia (s.farSources ia)

/-- Perform a request: `none` while it waits for a page, for the round buffer or for a compaction. (Open points: DEDUCED, log 33.) -/
def perform (s : State) (src pseq : Nat) (r : RemoteReq) : State × Option RemoteReply :=
  let ia := s.reqIa r.addr
  let at1 := fun (n : Nat) (k : State → State × RemoteReply) =>
    match s.walkAll (src, pseq) [ia, ia + n - 1] with
    | (s, some o) => (s, o)
    | (s, none) =>
      let (s, o) := k s
      (s, some o)
  let atVar := fun (n : Nat) (rel acq : Bool) (k : State → State × RemoteReply) =>
    if rel && s.imageWait ia then (s, none)
    else
      match s.walkAll (src, pseq) [ia, ia + n - 1] with
      | (s, some o) => (s, o)
      | (s, none) =>
        match s.syncReady src ia n rel acq with
        | (s, false) => (s, none)
        | (s, true) =>
          let (s, o) := k s
          (s, some o)
  match r.op with
  | .load n => if n = 0 then (s, some (.value [])) else at1 n fun s => s.remoteRead ia n
  | .copy n => if n = 0 then (s, some (.value [])) else at1 n fun s => s.remoteRead ia n
  | .records rs =>
    let ias := (rs.flatMap fun x => x.2.map fun c => s.reqIa c.1 / 128 * 128).eraseDups
    if ias.any s.imageWait then (s, none)
    else
      match s.walkAll (src, pseq) ias with
      | (s, some o) => (s, o)
      | (s, none) => (s.remoteRecords src rs, some (.value []))
  | .amo op b => atVar (amoOf op).bytes true true fun s => s.remoteSync src ia (amoOf op).bytes fun old => some ((amoOf op).apply old b)
  | .cas e b => atVar 8 true true fun s => s.remoteSync src ia 8 fun old => if old = e then some b else none
  | .ccadd b => atVar 8 true false fun s => s.remoteSync src ia 8 fun old => some (old + b)
  | .rel =>
    atVar 8 true false fun s =>
      match s.remoteSync src ia 8 fun old => some (old + 1) with
      | (s, .sync v st) => (s, .sync (v + 1) st)
      | r => r
  | .acq =>
    atVar 8 false true fun s =>
      match s.remoteRead ia 8 with
      | (s, .value bs) => (s, .sync (BitVec.ofNat 64 (leNat bs)) (tget 0 (s.varSources ia) (4 + src)))
      | r => r
  | .decision gid => (s.memberAsked src (.decision gid), some (.value []))
  | .share gid o one => (s.memberAsked src (.share gid o one), some (.value []))
  | .force =>
    match s.serveForce (if roaming r.addr then r.addr else src * 2 ^ 50 + offOf r.addr) with
    | (s, true) => (s, some (.value []))
    | (s, false) => (s, none)

/-- Answer a request, and keep the answer for the last 4,096 sequence numbers (R358); the answer to a read of a copy job is spread (R364). -/
def answerReq (s : State) (src pseq : Nat) (bulk : Bool) (o : RemoteReply) : State :=
  ((s.modFabric fun f => { f with noted := f.noted.filter fun e => e.1 != (src, pseq) }).modPeer src fun p => { p with
    replies := (tset p.replies pseq o).filter fun kv => decide ((p.rxPseq + 2 ^ 32 - 1 - kv.1) % 2 ^ 32 < 4096) }).postAs src bulk (.reply src pseq o)

/-- Is the request a read of a copy job (R364)? -/
def RemoteReq.bulk (r : RemoteReq) : Bool :=
  match r.op with
  | .copy _ => true
  | _ => false

/-- Does the request name an address of the target's own space (R367)? -/
def opNamed (op : ReqOp) : Bool :=
  match op with
  | .force => false
  | .decision _ => false
  | .share _ _ _ => false
  | _ => true

/-- Perform a request and answer it, forward it to the present holder, or let it wait (R362, R363, R367). (Open points: DEDUCED, log 69.) -/
def serve (s : State) (src pseq : Nat) (r : RemoteReq) : State :=
  if r.inc ≠ s.root.inc then s.answerReq src pseq false (.error 0x0B (s.root.inc.zeroExtend 32))
  else if opNamed r.op ∧ s.isRemote (s.reqIa r.addr) then
    let d := s.holderOf (s.reqIa r.addr)
    (s.post d (.request d (s.peer d).txPseq r.addr (s.peer d).inc r.op)).modFabric fun f => { f with forwards := f.forwards ++ [(d, src, pseq)] }
  else
    match s.perform src pseq r with
    | (s, some o) => s.answerReq src pseq (RemoteReq.bulk r) o
    | (s, none) => s.modFabric fun f => { f with waiting := f.waiting ++ [(src, pseq, r)] }

/-- The device that a request was passed on to has answered it: the answer goes on to the one that asked, and is kept for it (R358, R367). (Open points: DEDUCED,
log 69.) -/
def forwardDone (s : State) (dev : Nat) (o : RemoteReply) : State :=
  match s.fabric.forwards.find? fun e => e.1 == dev with
  | some e => (s.modFabric fun f => { f with forwards := f.forwards.erase e }).answerReq e.2.1 e.2.2 false o
  | none => s

/-- Requests that waited are tried again, in the order in which they came. -/
def serveWaiting (s : State) : State :=
  s.fabric.waiting.foldl (fun s w => s.serve w.1 w.2.1 w.2.2) (s.modFabric fun f => { f with waiting := [] })

/-- The next request of a device at the memory side: without a frame of its own that waits, nothing happens (R358). -/
def requestTake (s : State) (src : Nat) (r : RemoteReq) : State :=
  let p := s.peer src
  let n := frameCount (opBytes r.op)
  match p.due with
  | q :: _ =>
    if n ≤ p.due.length ∧ p.state = .up ∧ 3 ≤ s.root.stage.stage ∧ src ≠ s.devNum then (s.modPeer src fun p => { p with due := p.due.drop n }).serve src q r else s
  | [] => s

/-! ### Roaming pages (R367, R368) -/

/-- Frames of this device's roaming pool that are free. -/
def freeFrame (s : State) : Option Nat :=
  (List.range (s.fabric.pool.length + 1)).find? fun f => decide (f < fld s.fabric.roamCfg.toNat 0 16) && (tget? s.fabric.pool f).isNone

/-- The refusal of a move reaches the asker here (R368). -/
def moveRefused (s : State) (page core : Nat) : State :=
  let s := s.modPeer (devOf (page * 65536)) fun p => { p with migSettled := BitVec.ofNat 32 (satAdd 32 p.migSettled.toNat 1) }
  s.modCoreAt core fun k => if k.task.isSome then
    { k with regs := { k.regs with z := { k.regs.z with settled := BitVec.ofNat 16 (satAdd 16 k.regs.z.settled.toNat 1) } } } else k

/-- The registry's decision (R368): true when it grants the move. (Open points: DEDUCED, log 69.) -/
def decideMove (s : State) (page asker : Nat) (full : Bool) : State × Bool :=
  let e := tget { holder := s.devNum } s.fabric.directory page
  if e.settled ∨ full ∨ e.moving.isSome ∨ e.holder = asker then (if asker = s.devNum then s else s.post asker (.moveRefused asker page), false)
  else
    let e := { e with moves := e.moves + 1, settled := decide (s.fabric.migMax.toNat ≤ e.moves + 1), moving := some asker }
    let s := s.modFabric fun f => { f with directory := tset f.directory page e }
    (if e.holder = s.devNum then (s.compactAt (page * 65536) 65536).1 else s.post e.holder (.moveGrant e.holder page asker), true)

/-- A move is asked for (R368): by a task of this device, or by another device of this registry. (Open points: DEDUCED, log 69.) -/
def askMove (s : State) (page asker core : Nat) (refused : Bool) : State :=
  let ia := page * 65536
  let reg := devOf ia
  if !roaming ia then s
  else if asker = s.devNum then
    if s.fabric.migTh = 0 ∨ s.holderOf ia = s.devNum ∨
        ((tget [] s.fabric.accesses page).filter fun t => decide (s.time < t + 10000)).length < s.fabric.migTh.toNat then s
    else
      let s := s.modFabric fun f => { f with accesses := terase f.accesses page }
      if reg = s.devNum then
        match s.decideMove page asker s.freeFrame.isNone with
        | (s, true) => s
        | (s, false) => s.moveRefused page core
      else
        let s := s.post reg (.moveRequest reg page)
        if refused then s.moveRefused page core else s
  else if reg = s.devNum then (s.decideMove page asker refused).1
  else s

/-- The bytes of a page arrive in a frame of the pool. (Open points: DEDUCED, log 69.) -/
def takePage (s : State) (page frame : Nat) (data : List Byte) : State :=
  let pa := (s.fabric.roamCfg.toNat / 65536 + frame) * 65536
  let (s, st) := s.takeStamp
  (s.modFabric fun f => { f with pool := tset f.pool frame page, holders := terase f.holders page }).modMem fun m =>
    { m.putBytes st pa (data.take 65536) with bad := m.bad.filter fun b => b / 2048 != pa / 65536 }

/-- A copy ends at the new holder (R367, R368). (Open points: DEDUCED, log 69.) -/
def copyEnd (s : State) (page holder : Nat) (data : List Byte) : State :=
  let ia := page * 65536
  let granted := devOf ia ≠ s.devNum || ((tget { holder := s.devNum } s.fabric.directory page).moving == some holder)
  if !roaming ia ∨ !granted then s
  else
    let s := match (if s.holderOf ia = s.devNum ∧ holder ≠ s.devNum then s.peekPa? ia else none) with
      | some pa =>
        let s := (s.compactAt ia 65536).1
        s.post holder (.page holder page (s.mem.bytes pa 65536))
      | none => s
    let s := if devOf ia = s.devNum then
        s.modFabric fun f => { f with directory := tmod { holder := s.devNum } f.directory page fun e => { e with holder := holder, moving := none } }
      else s
    if holder = s.devNum then
      match s.freeFrame with
      | some f => if (s.poolFrame? ia).isSome then s else s.takePage page f data
      | none => s
    else
      (s.modFabric fun f => { f with pool := f.pool.filter fun kv => kv.2 != page, holders := if devOf ia = s.devNum then f.holders else tset f.holders page holder }).serveWaiting

end State

/-! ### The meanings -/

/-- The frame comes from the device whose light arrives here on that wavelength (R354). -/
def execFrameReceive (plane lambda : Nat) (frame : Frame) (s : State) : Out := .next (s.frameReceive plane (wavelength lambda s.devNum) frame)

def execStreamAckTimeout (plane peer : Nat) (s : State) : Out :=
  .next (let t := s.stream plane peer
         if !t.dead ∧ !t.retry.isEmpty ∧ t.since + 5000 ≤ s.time then s.killStream plane peer else s)

/-- A probe of a dead stream, one every 100 ms; three good exchanges in a row revive it (R357). -/
def execStreamProbe (plane peer : Nat) (answered : Bool) (s : State) : Out :=
  .next (let t := s.stream plane peer
         let st := (s.port plane).state
         if !t.dead ∨ !(st == .locked || st == .run) ∨ s.time < t.since + 10000000 then s
         else
           let n := if answered then t.probes + 1 else 0
           let u := (s.send (.probe plane (wavelength s.devNum peer))).modStream plane peer fun t => { t with probes := if n = 3 then 0 else n, dead := decide (n ≠ 3), since := s.time }
           if n = 3 then State.streamsChanged s (u.settleRoutes) else u)

/-- A session is set up again 1 ms after it went DOWN (R360); that the peer's side has a port too is the environment's word. -/
def execSessionSetup (peer : Nat) (s : State) : Out :=
  .next (let p := s.peer peer
         let port := (List.range 8).any fun k => (s.port k).state == .locked || (s.port k).state == .run
         if peer < 128 ∧ peer ≠ s.devNum ∧ port ∧ (p.state = .none ∨ (p.state = .down ∧ p.downAt + 100000 ≤ s.time)) then
           let t := (s.modPeer peer fun p => { p with state := .setup, spdm := 0 }).noteRoutes
           if s.devNum < peer then t.spdmSend peer .getVersion false else t
         else s)

/-- The exchange completes, or has failed. (Open points: DEDUCED, log 67; DESIGN CHOICE, log 86.) -/
def execSessionUp (peer : Nat) (inc : BitVec 16) (chain : Bool) (meas : Digest) (s : State) : Out :=
  .next (if (s.peer peer).state = .setup ∧ (!chain ∨ (s.peer peer).spdm = spdmSteps.length) then s.sessionEnds peer inc chain meas else s)

def execSessionLivenessTimeout (peer : Nat) (s : State) : Out :=
  .next (let p := s.peer peer
         if p.state = .up ∧ p.lastGood + 100000 ≤ s.time then s.sessionDown peer else s)

/-- KEY_UPDATE, and a new sending key (R359). -/
def execKeyUpdate (peer : Nat) (s : State) : Out :=
  .next (if (s.peer peer).state = .up then (s.spdmSend peer .keyUpdate false).newKey peer else s)

def execAcceptWrite (master k word : Nat) (value : Word) (s : State) : Out :=
  .next (s.ownerWrite master (0x5400 + 0x40 * k + 8 * word) value fun s => .done (s.writeAccept k word value))

/-- PORTCTL with a command, EN as it stands (R361). -/
def portCommand (s : State) (k cmd : Nat) : Word := BitVec.ofNat 64 (cmd * 2 ^ 32 + (s.port k).en.toNat)

def execPortLock (master k : Nat) (s : State) : Out :=
  .next (s.ownerWrite master (0x5100 + 0x40 * k) (portCommand s k 1) fun s => s.writePort k (portCommand s k 1))
def execPortRun (master k : Nat) (s : State) : Out :=
  .next (s.ownerWrite master (0x5100 + 0x40 * k) (portCommand s k 2) fun s => s.writePort k (portCommand s k 2))
def execPortUnlock (master k : Nat) (s : State) : Out :=
  .next (s.ownerWrite master (0x5100 + 0x40 * k) (portCommand s k 3) fun s => s.writePort k (portCommand s k 3))

/-- A laser or receiver fault that has lasted 10 ms (R361). -/
def execPortOpticalFault (k : Nat) (s : State) : Out := .next (s.portError k 2)

/-- The read-back of each second (R361). -/
def execPortMeasCheck (k : Nat) (agrees : Bool) (s : State) : Out :=
  .next (if (s.port k).state = .run ∧ !agrees then s.portError k 3 else s)

/-- A peer's reachability advertisement arrives, and this device's own goes out every 100 µs (R365). -/
def execReachAdvert (peer : Nat) (relay : BitVec 128) (s : State) : Out :=
  .next (if (s.peer peer).state = .up then ((s.send (.advert peer s.liveMask)).modPeer peer fun p => { p with advert := relay }).settleRoutes else s)

/-- Open points: DEDUCED, log 67. -/
def execRerouteTimeout (peer : Nat) (who : RouteWaiter) (s : State) : Out := .next (s.rerouted peer who)

def execRemoteRequest (src : Nat) (req : RemoteReq) (s : State) : Out := .next (s.requestTake src req)

def execRoamMoveRequest (page asker core : Nat) (refused : Bool) (s : State) : Out := .next (s.askMove page asker core refused)

def execRoamCopyEnd (page holder : Nat) (data : List Byte) (s : State) : Out := .next (s.copyEnd page holder data)

def execMigwinWrite (master : Nat) (s : State) : Out :=
  .next (s.ownerWrite master 0x5020 0 fun s => .done s.endWindow)

/-- The answer goes to the held syllable of the core, else to the log's oldest record that was sent; 352 + d is what this device's own memory side
awaits of device d, and 480 + d the answer to a request that it has passed on to device d. (Open points: DEDUCED, log 33, 34.) -/
def execSyncOpComplete (core : Nat) (reply : RemoteReply) (s : State) : Out :=
  let waits : Bool := match (s.coreAt core).asked with
    | some (_, true) => (s.coreAt core).answer.isNone && reply != .value []
    | _ => false
  .next (if 480 ≤ core then s.forwardDone (core - 480) reply
    else if 352 ≤ core then s.forceDone (core - 352)
    else if waits then s.onBound core fun s => s.takeAnswer reply
    else s.recordDone core reply)

end Sys2Proof.Machine
end

