-- ==== Sys2Proof/Machine/HostEvents.lean ====
section
/-! DEFINITION. Requests that reach the memory side from outside the cores: the host die's loads, stores and atomics at home, reads of a block, and
upsets of cached translations (spec 11_translation_scheduling.md R293; 12_hbm.md R325; 13_package.md R332, R347). -/

namespace Sys2Proof.Machine

/-- The host die as a source of a variable of this device: beyond the dies and the 128 devices (R270, R332). (Open points: DEDUCED, log 99.) -/
def hostSource : Nat := 132

namespace State

/-- The host die reads what home shows; the value goes to it (R332). (Open points: DEDUCED, log 99.) -/
def hostRead (s : State) (off n : Nat) : State :=
  match s.readIa 0 (s.localIa off) n 2 with
  | (s, some bs) => s.send (.readValue 1 (BitVec.ofNat 64 (leNat bs)))
  | (s, none) => s

/-- An atomic of the host die at the home atomic unit, at host scope (R281, R332): nothing happens while records on the word, or those of the sources
that its acquire names, are not compacted. (Open points: DEDUCED, log 99.) -/
def hostAtomic (s : State) (off n : Nat) (f : Word → Option Word) : State :=
  let ia := s.localIa off
  match s.peekPa? ia with
  | none => s
  | some pa =>
    if s.imageWait ia then s
    else
      match s.syncReady (hostSource - 4) ia n true true with
      | (s, false) => s
      | (s, true) =>
        match s.homeRead ia pa n with
        | (s, none) => s
        | (s, some _) =>
          let (s, st) := s.takeStamp
          let (s, old) := (s.publish ia hostSource st).atomicAt ia pa n f
          s.send (.readValue 1 old)

/-- The parity of the `n`-th entry of a die's TLB or walk cache no longer agrees (R293). -/
def upset (s : State) (d n : Nat) (walk : Bool) : State :=
  s.modDie d fun x =>
    if walk then { x with wcache := (List.range x.wcache.length).zipWith (fun i w => if i = n then { w with good := false } else w) x.wcache }
    else { x with tlb := (List.range x.tlb.length).zipWith (fun i e => if i = n then { e with good := false } else e) x.tlb }

end State

def execMemRequest (req : MemReq) (s : State) : Out :=
  .next (match req with
    | .read pa => if s.trav.serves pa then (s.readBlock pa false).1 else s
    | .hostLoad addr n => s.hostRead addr n
    | .hostStore addr bs => if s.imageWait (s.localIa addr) then s else (s.writeIa 0 (s.localIa addr) bs 2).1
    | .hostAmo addr o v => s.hostAtomic addr (State.amoOf o).bytes fun old => some ((State.amoOf o).apply old v)
    | .hostCas addr e v => s.hostAtomic addr 8 fun old => if old = e then some v else none
    | .upset d n walk => s.upset d n walk)

end Sys2Proof.Machine
end

