-- ==== Sys2Proof/Machine/Registers.lean ====
section
/-! DEFINITION. The package register window: reads, the owner's writes, and the events of registers that have a row of their own
(spec 13_package.md R333 to R346, R352; 11_translation_scheduling.md R289, R294, R299, R306, R312; 12_hbm.md R324, R327, R328; 14_fabric.md R370;
15_collectives_network.md R381, R388, R391, R396; 16_coding_groups.md R399, R400). -/

namespace Sys2Proof.Machine

/-! ### Registers as words -/

/-- Word `w` of a 48-byte digest. -/
def digestWord (d : Digest) (w : Nat) : Word := BitVec.ofNat 64 (fld d.toNat (64 * w) 64)

/-- STAGE (R337). -/
def Stage.word (t : Stage) : Word := BitVec.ofNat 64 (t.stage + t.err.toNat * 2 ^ 8 + t.cause.toNat * 2 ^ 12)

/-- CTXCFG (R346). -/
def Ctx.cfgWord (c : Ctx) : Word := BitVec.ofNat 64 (c.slice.toNat + c.en.toNat * 2 ^ 32 + c.logPriv.toNat * 2 ^ 36 + c.lockq.toNat * 2 ^ 37)

def Ctx.withCfg (c : Ctx) (v : Word) : Ctx :=
  { c with slice := BitVec.ofNat 32 v.toNat, en := v.getLsbD 32, logPriv := v.getLsbD 36, lockq := BitVec.ofNat 11 (fld v.toNat 37 11) }

/-- The words of an address window that a write keeps (R289). -/
def windowMask : Nat → Word
  | 0 => 0x01FFFFFFFFFF0000
  | 1 => 0x000001FFFFFFFFFF
  | 2 => 0x01FFFFFFFFFF0000
  | _ => 0x00000000FFFF000F

def Window.withWord (a : Window) (k : Nat) (v : Word) : Window :=
  let v := v &&& windowMask k
  match k with
  | 0 => { a with v := v }
  | 1 => { a with l := v }
  | 2 => { a with i := v }
  | _ => { a with a := v }

/-- Does the intermediate range of the window span two devices (R289)? -/
def Window.twoDevices (a : Window) : Bool :=
  a.len != 0 && decide (a.ibase * 65536 / 2 ^ 50 ≠ ((a.ibase + a.len) * 65536 - 1) / 2 ^ 50)

/-- FLTQ (R294). -/
def Die.fltqWord (d : Die) : Word :=
  match d.fltq with
  | e :: _ => BitVec.ofNat 64 (2 ^ 63 + fld e.page 0 41 * 2 ^ 16 + e.waiters)
  | [] => 0

/-- A row number in the fields PC, BANK and ROW (R327). -/
def rowFields (n : Nat) : Nat := fld n 10 15 + fld n 6 4 * 2 ^ 16 + fld n 0 6 * 2 ^ 24

def rowNumber (v : Nat) : Nat := fld v 0 15 * 2 ^ 10 + fld v 16 4 * 2 ^ 6 + fld v 24 6

/-- Registers of a controller's block (R327). -/
def Ctrl.read (c : Ctrl) : Nat → Word
  | 0x00 => BitVec.ofNat 64 (c.mgmtth.toNat + c.trfm.toNat * 2 ^ 32)
  | 0x08 => BitVec.ofNat 64 (c.alerts.toNat + c.rfms.toNat * 2 ^ 32)
  | 0x10 => BitVec.ofNat 64 (c.boReq.toNat + c.boTicks.toNat * 2 ^ 32)
  | 0x18 => BitVec.ofNat 64 (rowFields c.peek.toNat + tget 0 c.counts c.peek.toNat % 65536 * 2 ^ 48)
  | 0x20 => match c.lastAlert with
    | some r => BitVec.ofNat 64 (2 ^ 63 + rowFields r.toNat)
    | none => 0
  | _ => 0

/-- A write of the owner to a controller's block: `none` where nothing is written (R327). -/
def Ctrl.write (c : Ctrl) (o : Nat) (v : Word) : Option Ctrl :=
  match o with
  | 0x00 => some { c with mgmtth := BitVec.ofNat 16 v.toNat, trfm := BitVec.ofNat 8 (fld v.toNat 32 8) }
  | 0x10 => some { c with boReq := BitVec.ofNat 32 v.toNat, boTicks := BitVec.ofNat 32 (fld v.toNat 32 32) }
  | 0x18 => some { c with peek := BitVec.ofNat 25 (rowNumber v.toNat) }
  | _ => none

/-- Registers of the memory block (R324, R328). -/
def Trav.read (t : Trav) (o : Nat) : Word :=
  match o with
  | 0x000 => BitVec.ofNat 64 t.capLive
  | 0x008 => t.phaseWord
  | 0x010 => BitVec.ofNat 64 t.gran
  | 0x018 => t.live.zeroExtend 64
  | 0x020 => BitVec.ofNat 64 (t.stackField.toNat + t.result * 2 ^ 8)
  | 0x028 => BitVec.ofNat 64 (t.ceth.toNat + t.auto.toNat * 2 ^ 16)
  | 0x030 => BitVec.ofNat 64 (t.listGo.toNat + t.listAddr + t.listCount.toNat * 2 ^ 48)
  | 0x038 => BitVec.ofNat 64 (t.relErr.toNat + t.done.toNat * 2 ^ 48)
  | 0x040 => BitVec.ofNat 64 (t.lossValid.toNat * 2 ^ 63 + t.lossGran)
  | 0x100 => BitVec.ofNat 64 t.injAddr
  | 0x108 => BitVec.ofNat 64 (t.injArm.toNat + t.injType.toNat * 2 + t.injFired.toNat * 2 ^ 7)
  | o => if 0x080 ≤ o ∧ o < 0x100 then BitVec.ofNat 64 (tget 0 t.cecnt ((o - 0x080) / 8)) else 0

/-- A write of the owner to a register of the memory block without a row of its own (R324, R328). -/
def Trav.write (t : Trav) (o : Nat) (v : Word) : Option Trav :=
  match o with
  | 0x028 => some { t with ceth := BitVec.ofNat 16 v.toNat, auto := v.getLsbD 16 }
  | 0x038 => some { t with relErr := t.relErr && !v.getLsbD 0 }
  | 0x100 => some { t with injAddr := fld v.toNat 6 42 * 64 }
  | 0x108 => some { t with injArm := v.getLsbD 0, injType := BitVec.ofNat 2 (fld v.toNat 1 2), injFired := t.injFired && !v.getLsbD 7 }
  | o => if 0x080 ≤ o ∧ o < 0x100 then some { t with cecnt := tset t.cecnt ((o - 0x080) / 8) (fld v.toNat 0 32) } else none

/-- PORTSTAT's STATE. -/
def PortState.code : PortState → Nat
  | .unlocked => 0
  | .locked => 1
  | .run => 2
  | .error => 3

/-- PEERn.STATE (R370). -/
def SessState.code : SessState → Nat
  | .none => 0
  | .setup => 1
  | .up => 2
  | .down => 3
  | .refused => 4

/-- Registers of a group slot (R399). -/
def GSlot.read (g : GSlot) : Nat → Word
  | 0x00 => g.cfg.word
  | 0x08 => g.cfg.memb0
  | 0x10 => g.cfg.memb1
  | 0x18 => g.cfg.power
  | 0x20 => g.cfg.cool
  | 0x28 => g.cfg.space.zeroExtend 64
  | 0x30 => g.cfg.parbase
  | 0x38 => g.cfg.roundbuf
  | 0x40 => g.roundLast
  | 0x48 => g.cfg.roundcfg
  | 0x50 => g.stat
  | 0x60 => g.cfg.deadTicks.zeroExtend 64
  | 0x68 => g.rbprog.zeroExtend 64
  | _ => 0

/-- Registers of a collective group (R381). -/
def CGroup.read (g : CGroup) : Nat → Word
  | 0x00 => BitVec.ofNat 64 (g.root.toNat * 2 ^ 16 + g.myrank.toNat * 2 ^ 24 + g.nranks.toNat * 2 ^ 32 + g.en.toNat * 2 ^ 40)
  | 0x08 => g.treduce.zeroExtend 64
  | 0x10 => g.gmap
  | 0x18 => BitVec.ofNat 64 (g.partialN.toNat + g.late.toNat * 2 ^ 32)
  | _ => 0

/-- A write of the owner to a collective group (R381). -/
def CGroup.write (g : CGroup) (o : Nat) (v : Word) : Option (Option CGroup) :=
  match o with
  | 0x00 =>
    if g.en && v.getLsbD 40 then some none
    else some (some { g with
      en := v.getLsbD 40, nranks := BitVec.ofNat 8 (fld v.toNat 32 8), myrank := BitVec.ofNat 7 (fld v.toNat 24 7)
      root := BitVec.ofNat 7 (fld v.toNat 16 7), hash := none })
  | 0x08 => if g.en then some none else some (some { g with treduce := BitVec.ofNat 32 v.toNat })
  | 0x10 => if g.en then some none else some (some { g with gmap := v &&& 0xFFFFFFFFFFFFFF80 })
  | _ => none

/-- Replace the fields, `n` bits wide, of the indices that `p` admits; `base` is the first index of the word (R400). -/
def mergeFields (old new : Word) (n base : Nat) (p : Nat → Bool) : Word :=
  BitVec.ofNat 64 ((List.range (64 / n)).foldl (fun acc i => if p (base + i) then putFld acc (n * i) n (fld new.toNat (n * i) n) else acc) old.toNat)

namespace State

/-! ### Reading -/

def readIdentity (s : State) (master off : Nat) : Word :=
  let o := s.root.owner
  if 0x100 ≤ off ∧ off < 0x200 then (if (off - 0x100) % 0x40 < 48 then digestWord (tget 0 s.root.meas ((off - 0x100) / 0x40)) ((off - 0x100) % 0x40 / 8) else 0)
  else
    match off with
    | 0x000 => s.root.stage.word
    | 0x008 => BitVec.ofNat 64 (o.id + o.epoch.toNat * 2 ^ 32)
    | 0x010 => BitVec.ofNat 64 (tget 0 o.results master * 4)
    | 0x018 => o.succ.zeroExtend 64
    | 0x028 => o.lease.zeroExtend 64
    | 0x030 => BitVec.ofNat 64 (s.root.inc.toNat + s.root.devnum.toNat * 2 ^ 16)
    | 0x040 => s.root.lrcfg
    | 0x048 => s.sched.launchSeq.zeroExtend 64
    | 0x050 => s.root.ptroot
    | 0x058 => s.sched.unitSeq.zeroExtend 64
    | _ => 0

def readJournal (s : State) (master off : Nat) : Word :=
  let j := s.root.journal
  match off with
  | 0x1000 => j.jseq
  | 0x1008 => j.jstart
  | 0x1010 => tget 0 j.jidx master
  | 0x1018 => j.mirror
  | o =>
    if 0x1040 ≤ o ∧ o < 0x1080 then
      match s.journalEntry? (tget 0 j.jidx master).toNat with
      | some e => BitVec.ofNat 64 (at' e.bytes (o - 0x1040) 8)
      | none => 0
    else 0

def readDie (s : State) (d o : Nat) : Word :=
  let x := s.die d
  match o with
  | 0x00 => x.logCfgWord
  | 0x08 => x.schedWord
  | 0x10 => x.minSlice.zeroExtend 64
  | 0x18 => x.tlbInv.getD 0
  | 0x20 => x.fltqWord
  | 0x30 => x.trpar.zeroExtend 64
  | 0x38 => x.abortCnt
  | _ => 0

/-- Dead streams of a port (R370). -/
def deadStreams (s : State) (k : Nat) : Nat := ((List.range 128).filter fun d => (s.stream k d).dead).length

def readPort (s : State) (k o : Nat) : Word :=
  let p := s.port k
  match o with
  | 0x00 => BitVec.ofNat 64 p.en.toNat
  | 0x08 => BitVec.ofNat 64 (p.state.code + p.ecause.toNat * 2 ^ 8 + p.retries.toNat * 2 ^ 16 + min 255 (s.deadStreams k) * 2 ^ 48)
  | o => if 0x10 ≤ o then digestWord p.meas ((o - 0x10) / 8) else 0

def readPeer (s : State) (n w : Nat) : Word :=
  let p := s.peer n
  if w = 0 then
    BitVec.ofNat 64 (p.inc.toNat + p.state.code * 2 ^ 16 + ((List.range 8).foldl (fun m k => if s.liveStream k n then m + 2 ^ k else m) 0) * 2 ^ 24 +
      p.relay.getD 0 * 2 ^ 32 + p.relay.isSome.toNat * 2 ^ 39)
  else BitVec.ofNat 64 (p.dropped.toNat + p.migSettled.toNat * 2 ^ 32)

def readFabric (s : State) (off : Nat) : Word :=
  let f := s.fabric
  if 0x5100 ≤ off ∧ off < 0x5300 then s.readPort ((off - 0x5100) / 0x40) ((off - 0x5100) % 0x40)
  else if 0x5400 ≤ off ∧ off < 0x5500 then
    (if (off - 0x5400) % 0x40 < 48 then digestWord (tget 0 f.accept ((off - 0x5400) / 0x40)) ((off - 0x5400) % 0x40 / 8) else 0)
  else if 0x5800 ≤ off ∧ off < 0x5C00 then (tget {} s.net.groups ((off - 0x5800) / 0x40)).read ((off - 0x5800) % 0x40)
  else if 0x6000 ≤ off ∧ off < 0x6800 then s.readPeer ((off - 0x6000) / 16) ((off - 0x6000) % 16 / 8)
  else
    match off with
    | 0x5000 => BitVec.ofNat 64 (f.qpeer.toNat * 2 ^ 15 + f.spray.toNat * 2 ^ 22 + f.enc.toNat * 2 ^ 23 + f.migTh.toNat * 2 ^ 32 + f.migMax.toNat * 2 ^ 40)
    | 0x5008 => f.reroute.zeroExtend 64
    | 0x5010 => BitVec.ofNat 64 f.relayMask.toNat
    | 0x5018 => BitVec.ofNat 64 (f.relayMask.toNat / 2 ^ 64)
    | 0x5028 => f.roamCfg
    | _ => 0

def readNet (s : State) (off : Nat) : Word :=
  let n := s.net
  if 0x7100 ≤ off ∧ off < 0x7140 then
    (let p := s.uePort ((off - 0x7100) / 8)
     BitVec.ofNat 64 (p.2.toNat + p.1.toNat * 2))
  else
    match off with
    | 0x7000 => BitVec.ofNat 64 (n.payload.toNat + n.reorder.toNat * 2 ^ 8 + n.rto.toNat * 2 ^ 16 + n.retry.toNat * 2 ^ 48)
    | 0x7008 => BitVec.ofNat 64 (n.rej.toNat + n.dup.toNat * 2 ^ 16 + n.retx.toNat * 2 ^ 32)
    | 0x7010 => n.addr0
    | 0x7018 => n.addr1
    | _ => 0

def readCtx (s : State) (c o : Nat) : Word :=
  let x := s.ctx c
  if 0x100 ≤ o ∧ o < 0x200 then (tget {} x.aws ((o - 0x100) / 32)).word ((o - 0x100) % 32 / 8)
  else if 0x400 ≤ o ∧ o < 0x600 then tget 0 x.rings ((o - 0x400) / 8)
  else if 0x800 ≤ o ∧ o < 0xA00 then tget 0 x.netRings ((o - 0x800) / 8)
  else
    match o with
    | 0x000 => x.cfgWord
    | 0x008 => x.budget
    | 0x010 => x.faultRing
    | 0x018 => x.netPeer
    | 0x020 => x.netRes
    | 0x028 => x.jobSub
    | 0x038 => BitVec.ofNat 64 (x.jobLast.toNat + x.jobRej.toNat * 2 ^ 32)
    | _ => 0

/-- What a master reads at an offset (R333); no answer but to the management controller when the images have failed (R338). -/
def regRead (s : State) (master off : Nat) : Option Word :=
  if s.root.stage.stage = 0 ∧ s.root.stage.cause = 1 ∧ master ≠ 2 then none
  else if off < 0x1000 then some (s.readIdentity master off)
  else if off < 0x2000 then some (s.readJournal master off)
  else if off < 0x3000 then some (s.readDie ((off - 0x2000) / 0x400) (off % 0x400))
  else if off < 0x4000 then some (s.trav.read (off - 0x3000))
  else if off < 0x5000 then some (((s.ctrl ((off - 0x4000) / 0x100)).enterWindow s.refreshWindow).read (off % 0x100))
  else if off < 0x7000 then some (s.readFabric off)
  else if off < 0x8000 then some (s.readNet off)
  else if off < 0x8800 then some ((s.group ((off - 0x8000) / 0x100)).read (off % 0x100))
  else if 0x10000 ≤ off ∧ off < 0x20000 then some (s.readCtx ((off - 0x10000) / 0x1000) (off % 0x1000))
  else some 0

/-! ### The owner's writes -/

/-- Invalidate the translations of a die for the 64 KiB page at `ia`, or all of them (R294). -/
def dropTlb (s : State) (d : Nat) (ia : Word) : State :=
  s.modDie d fun x =>
    { (if ia = BitVec.allOnes 64 then { x with tlb := [], wcache := [] } else x.invalidate (offOf ia.toNat / 65536 * 65536) 65536) with tlbInv := none }

/-- A pending invalidation is carried out (R294). -/
def finishTlbInv (s : State) (d : Nat) : State :=
  match (s.die d).tlbInv with
  | some ia => s.dropTlb d ia
  | none => s

/-- TLBINV asks for an invalidation; one that is still pending is carried out first (R294). -/
def writeTlbInv (s : State) (d : Nat) (v : Word) : State := (s.finishTlbInv d).modDie d fun x => { x with tlbInv := some v }

/-- PGDONE (R294): the tasks and holds of the die that wait on the page, and the requests of other devices. -/
def writePgDone (s : State) (d : Nat) (v : Word) : State := (s.pageReady d (v.toNat / 65536)).serveWaiting

/-- PTROOT (R335): every translation of the package is dropped. -/
def writePtroot (s : State) (v : Word) : Written :=
  if s.anyCtx then .refused
  else .done ([0, 1, 2, 3].foldl (fun s d => s.dropTlb d (BitVec.allOnes 64)) (s.modRoot fun r => { r with ptroot := v &&& 0x0000FFFFFFF00001 }))

/-- A word of an address window (R289, R346). (Open points: DEDUCED, log 57.) -/
def writeAw (s : State) (c w k : Nat) (v : Word) : Written :=
  let a := (tget {} (s.ctx c).aws w).withWord k v
  if (s.ctx c).en then .refused
  else if k = 3 ∧ a.a.getLsbD 0 ∧ a.twoDevices then .refused
  else .done (s.modCtx c fun x => { x with aws := tset x.aws w a })

/-- JOBSUB (R312, R346). (Open points: DEDUCED, log 58.) -/
def writeJobsub (s : State) (c : Nat) (v : Word) : Written :=
  let v' := v &&& 0xFFFFFFFFFFFFFFC0
  let s' := s.modCtx c fun x => { x with jobSub := v' }
  if v.getLsbD 0 then .done (if (s.ctx c).en then s'.submitJob c v'.toNat else s'.rejectJob c) else .done s'

/-- UNITCANCEL (R312, R346). (Open points: DEDUCED, log 58.) -/
def writeUnitCancel (s : State) (v : Word) : Written :=
  let id := fld v.toNat 0 32
  match fld v.toNat 32 3 with
  | 1 => .done (s.cancelUnit .launch id)
  | 2 => .done (s.cancelUnit .graph id)
  | 3 => .done (s.cancelUnit .phase id)
  | 4 => .done (s.cancelUnit .job id)
  | _ => .ignored

/-- The context configuration of a context (R346, R388, R391). -/
def writeCtx (s : State) (c o : Nat) (v : Word) : Written :=
  let x := s.ctx c
  if 0x100 ≤ o ∧ o < 0x200 then s.writeAw c ((o - 0x100) / 32) ((o - 0x100) % 32 / 8) v
  else if 0x400 ≤ o ∧ o < 0x600 then
    (if x.en then .refused else .done (s.modCtx c fun x => { x with rings := tset x.rings ((o - 0x400) / 8) (v &&& 0xFFFFFFFFFFFFFFCF) }))
  else if 0x800 ≤ o ∧ o < 0xA00 then
    (if x.en then .refused else .done (s.modCtx c fun x => { x with netRings := tset x.netRings ((o - 0x800) / 8) (v &&& 0xFFFFFFFFFFFFFFCF) }))
  else
    match o with
    | 0x000 => if x.en && v.getLsbD 32 then .refused else .done (s.modCtx c fun x => x.withCfg v)
    | 0x008 => .done (s.modCtx c fun x => { x with budget := v })
    | 0x010 => .done (s.modCtx c fun x => { x with faultRing := v, faultN := 0 })
    | 0x018 => .done (s.modCtx c fun x => { x with netPeer := v })
    | 0x020 => .done (s.modCtx c fun x => { x with netRes := v })
    | 0x028 => s.writeJobsub c v
    | 0x030 => s.writeUnitCancel v
    | _ => .ignored

/-- A group slot (R399, R400). -/
def writeSlot (s : State) (n o : Nat) (v : Word) : Written :=
  let g := s.group n
  let put := fun f : GCfg → GCfg => Written.done (s.modGroup n fun g => { g with cfg := f g.cfg })
  let guarded := fun f : GCfg → GCfg => if g.cfg.en then Written.refused else put f
  let dead := fun i : Nat => g.dead.getLsbD i
  let fields := fun (w base : Nat) (f : (Word → Word) → GCfg → GCfg) =>
    if !g.cfg.en then put (f fun _ => if w = 8 then v &&& 0x7F7F7F7F7F7F7F7F else v)
    else if (List.range (64 / w)).any fun i => dead (base + i) then put (f fun old => mergeFields old (if w = 8 then v &&& 0x7F7F7F7F7F7F7F7F else v) w base dead)
    else Written.refused
  match o with
  | 0x00 => s.writeCgcfg n v
  | 0x08 => fields 8 0 fun f c => { c with memb0 := f c.memb0 }
  | 0x10 => fields 8 8 fun f c => { c with memb1 := f c.memb1 }
  | 0x18 => fields 4 0 fun f c => { c with power := f c.power }
  | 0x20 => fields 4 0 fun f c => { c with cool := f c.cool }
  | 0x28 => guarded fun c => { c with space := BitVec.ofNat 40 v.toNat }
  | 0x30 => guarded fun c => { c with parbase := v &&& 0xFFFFFFFFFFFFFF80 }
  | 0x38 => guarded fun c => { c with roundbuf := v }
  | 0x48 => put fun c => { c with roundcfg := v &&& 0xFFFFFFFFFFFFF007 }
  | 0x60 => put fun c => { c with deadTicks := BitVec.ofNat 32 v.toNat }
  | _ => .ignored

/-- The fabric block, collective groups apart (R370). (Open points: DESIGN CHOICE, log 56.) -/
def writeFabric (s : State) (off : Nat) (v : Word) : Written :=
  if 0x5100 ≤ off ∧ off < 0x5300 then (if (off - 0x5100) % 0x40 = 0 then s.writePort ((off - 0x5100) / 0x40) v else .ignored)
  else if 0x5400 ≤ off ∧ off < 0x5500 then
    (if (off - 0x5400) % 0x40 < 48 then .done (s.writeAccept ((off - 0x5400) / 0x40) ((off - 0x5400) % 0x40 / 8) v) else .ignored)
  else if 0x5800 ≤ off ∧ off < 0x5C00 then
    (let g := (off - 0x5800) / 0x40
     match (tget {} s.net.groups g).write ((off - 0x5800) % 0x40) v with
     | none => .ignored
     | some none => .refused
     | some (some x) => .done (s.modNet fun n => { n with groups := tset n.groups g x }))
  else
    match off with
    | 0x5000 => s.writeFabcfg v
    | 0x5008 => .done (s.modFabric fun f => { f with reroute := BitVec.ofNat 32 v.toNat })
    | 0x5010 => s.writeRelayMask 0 v
    | 0x5018 => s.writeRelayMask 1 v
    | 0x5020 => .done s.endWindow
    | 0x5028 => .done (s.modFabric fun f => { f with roamCfg := v })
    | _ => .ignored

/-- The network engine (R396): a PAYLOAD of 3 keeps the old one. (Open points: DESIGN CHOICE, log 56.) -/
def writeNet (s : State) (off : Nat) (v : Word) : Written :=
  if 0x7100 ≤ off ∧ off < 0x7140 then
    .done (s.modNet fun n => { n with ports := tmod (true, false) n.ports ((off - 0x7100) / 8) fun p => (v.getLsbD 1, p.2) })
  else
    match off with
    | 0x7000 => .done (s.modNet fun n => { n with
        retry := BitVec.ofNat 4 (fld v.toNat 48 4), rto := BitVec.ofNat 32 (fld v.toNat 16 32), reorder := BitVec.ofNat 4 (fld v.toNat 8 4)
        payload := if fld v.toNat 0 2 = 3 then n.payload else BitVec.ofNat 2 v.toNat })
    | 0x7010 => .done (s.modNet fun n => { n with addr0 := v })
    | 0x7018 => .done (s.modNet fun n => { n with addr1 := v })
    | _ => .ignored

/-- A die's registers (R263, R294, R299). -/
def writeDie (s : State) (d o : Nat) (v : Word) : Written :=
  match o with
  | 0x00 => .done (s.modDie d fun x => { x with logStall := BitVec.ofNat 32 v.toNat })
  | 0x08 => .done (s.modDie d fun x => { x with dev := BitVec.ofNat 4 v.toNat, ageShift := BitVec.ofNat 4 (fld v.toNat 12 4) })
  | 0x18 => .done (s.writeTlbInv d v)
  | 0x28 => .done (s.writePgDone d v)
  | 0x30 => .done (s.modDie d fun x => { x with trpar := x.trpar &&& ~~~BitVec.ofNat 32 v.toNat })
  | 0x38 => .done (s.modDie d fun x => { x with abortCnt := v })
  | _ => .ignored

/-- LRCFG (R352). -/
def writeLrcfg (s : State) (v : Word) : Written :=
  let n := fld v.toNat 0 5
  if s.anyCtx || (decide (1 ≤ n) && decide (n ≤ 4)) || decide (21 ≤ n) then .refused
  else .done (s.modRoot fun r => { r with lrcfg := v &&& 0xFFFFFFFFFFFFF01F })

/-- Identity and ownership, journal (R341, R345). (Open points: DESIGN CHOICE, log 56.) -/
def writeRoot (s : State) (off : Nat) (v : Word) : Written :=
  match off with
  | 0x018 => .done (s.modRoot fun r => { r with owner := { r.owner with succ := BitVec.ofNat 4 v.toNat } })
  | 0x028 => .done (s.modRoot fun r => { r with owner := { r.owner with lease := BitVec.ofNat 32 v.toNat } })
  | 0x040 => s.writeLrcfg v
  | 0x050 => s.writePtroot v
  | 0x1018 => .done (s.modRoot fun r => { r with journal := { r.journal with mirror := v &&& 0x00007FFFFFC00000 } })
  | _ => .ignored

/-- A write of the owner at an offset of the window (R333). -/
def regWrite (s : State) (off : Nat) (v : Word) : Written :=
  if off < 0x2000 then s.writeRoot off v
  else if off < 0x3000 then s.writeDie ((off - 0x2000) / 0x400) (off % 0x400) v
  else if off < 0x4000 then
    match s.trav.write (off - 0x3000) v with
    | some t => .done (s.modTrav fun _ => t)
    | none => .ignored
  else if off < 0x5000 then
    match (s.ctrl ((off - 0x4000) / 0x100)).write (off % 0x100) v with
    | some c => .done (s.modCtrl ((off - 0x4000) / 0x100) fun _ => c)
    | none => .ignored
  else if off < 0x7000 then s.writeFabric off v
  else if off < 0x8000 then s.writeNet off v
  else if off < 0x8800 then s.writeSlot ((off - 0x8000) / 0x100) (off % 0x100) v
  else if 0x10000 ≤ off ∧ off < 0x20000 then s.writeCtx ((off - 0x10000) / 0x1000) (off % 0x1000) v
  else .ignored

/-- STAGE: the write journals for itself (R338). (Open points: DEDUCED, log 59.) -/
def stageWrite (s : State) (master : Nat) (v : Word) : State :=
  let s := s.settleLease
  if master = 0 ∨ s.root.owner.id ≠ master then s
  else
    match s.writeStage master v with
    | .done t => t
    | _ => s

end State

/-! ### The meanings -/

/-- A write at an offset of the register window (R333): registers with a row of their own act as that row says. -/
def execRegisterWrite (off : Nat) (master : Nat) (value : Word) (s : State) : Out :=
  if off % 8 ≠ 0 ∨ 2 ^ 17 ≤ off then .next s
  else
    match off with
    | 0x000 => .next (s.stageWrite master value)
    | 0x010 => .next (s.claim master value)
    | 0x020 => .next (s.beat master)
    | 0x1010 => execJidxWrite master value s
    | 0x3020 => execRetireTrigger master value s
    | 0x3030 => execReloclistGo master value s
    | 0x3040 => if value.toNat % 4 = 1 then execTravlossZeroFill master s else if value.toNat % 4 = 2 then execTravlossReread master s else .next s
    | off =>
      if 0x8000 ≤ off ∧ off < 0x8800 ∧ off % 0x100 = 0x58 then
        (if value.toNat % 4 = 2 then execRebuildResume master ((off - 0x8000) / 0x100) s else .next s)
      else .next (s.ownerWrite master off value fun s => s.regWrite off value)

def execJobSubmit (ctx master : Nat) (value : Word) (s : State) : Out :=
  .next (s.ownerWrite master (0x10000 + 0x1000 * ctx + 0x28) value fun s => s.writeJobsub ctx value)

def execUnitCancel (ctx master : Nat) (value : Word) (s : State) : Out :=
  .next (s.ownerWrite master (0x10000 + 0x1000 * ctx + 0x30) value fun s => s.writeUnitCancel value)

/-- A read of FLTQ returns the head entry and pops it; a page that found the queue full is queued (R294). -/
def execFltqPop (die master : Nat) (s : State) : Out :=
  .next (match s.regRead master (0x2000 + 0x400 * die + 0x20) with
    | none => s
    | some v => ((s.modDie die fun d => { d with fltq := d.fltq.tail }).fltqRefill die).serveWaiting.send (.readValue master v))

def execTlbInvalidate (die master : Nat) (value : Word) (s : State) : Out :=
  .next (s.ownerWrite master (0x2000 + 0x400 * die + 0x18) value fun s => .done (s.writeTlbInv die value))

def execPageDone (die master : Nat) (value : Word) (s : State) : Out :=
  .next (s.ownerWrite master (0x2000 + 0x400 * die + 0x28) value fun s => .done (s.writePgDone die value))

def execPtrootWrite (master : Nat) (value : Word) (s : State) : Out :=
  .next (s.ownerWrite master 0x050 value fun s => s.writePtroot value)

/-- AWnA of window `w` of a context (R289, R346). -/
def execAwaWrite (ctx w master : Nat) (value : Word) (s : State) : Out :=
  .next (s.ownerWrite master (0x10000 + 0x1000 * ctx + 0x100 + 32 * w + 24) value fun s => s.writeAw ctx w 3 value)

def execTlbinvComplete (die : Nat) (s : State) : Out := .next (s.finishTlbInv die)

end Sys2Proof.Machine
end

