-- ==== Sys2Proof/Machine/Scalar.lean ====
section
/-! DEFINITION. The scalar instructions of S0 and S1 (spec 03_scalar_control.md R67 to R77). -/

namespace Sys2Proof.Machine

/-- Sign-extend the low 32 bits (R69). -/
def sext32 (w : Word) : Word := (w.truncate 32).signExtend 64

/-- The low 32 bits, zero-extended. -/
def zext32 (w : Word) : Word := (w.truncate 32).zeroExtend 64

/-- SR format: under sq, x[d] := val, usable after `lat` cycles (R67, R68). -/
def scalarOp (d : BitVec 6) (q : BitVec 3) (lat : Nat) (val : State → Word) (s : State) : Out :=
  .next (s.guarded q fun s => s.setX d (val s) lat)

/-- SI and SU formats, which carry no sq (R67). -/
def immOp (d : BitVec 6) (val : State → Word) (s : State) : Out := .next (s.setX d (val s) 1)

/-- A Boolean as 1 or 0. -/
def flagWord (b : Bool) : Word := if b then 1 else 0

/-! ### Integer arithmetic (R69) -/

def execAdd (d a b : BitVec 6) (q : BitVec 3) (s : State) : Out := scalarOp d q 1 (fun s => s.x a + s.x b) s
def execAddW (d a b : BitVec 6) (q : BitVec 3) (s : State) : Out := scalarOp d q 1 (fun s => sext32 (s.x a + s.x b)) s
def execSub (d a b : BitVec 6) (q : BitVec 3) (s : State) : Out := scalarOp d q 1 (fun s => s.x a - s.x b) s
def execSubW (d a b : BitVec 6) (q : BitVec 3) (s : State) : Out := scalarOp d q 1 (fun s => sext32 (s.x a - s.x b)) s
def execAnd (d a b : BitVec 6) (q : BitVec 3) (s : State) : Out := scalarOp d q 1 (fun s => s.x a &&& s.x b) s
def execAndW (d a b : BitVec 6) (q : BitVec 3) (s : State) : Out := scalarOp d q 1 (fun s => sext32 (s.x a &&& s.x b)) s
def execOr (d a b : BitVec 6) (q : BitVec 3) (s : State) : Out := scalarOp d q 1 (fun s => s.x a ||| s.x b) s
def execOrW (d a b : BitVec 6) (q : BitVec 3) (s : State) : Out := scalarOp d q 1 (fun s => sext32 (s.x a ||| s.x b)) s
def execXor (d a b : BitVec 6) (q : BitVec 3) (s : State) : Out := scalarOp d q 1 (fun s => s.x a ^^^ s.x b) s
def execXorW (d a b : BitVec 6) (q : BitVec 3) (s : State) : Out := scalarOp d q 1 (fun s => sext32 (s.x a ^^^ s.x b)) s
def execShl (d a b : BitVec 6) (q : BitVec 3) (s : State) : Out := scalarOp d q 1 (fun s => s.x a <<< ((s.x b).toNat % 64)) s
def execShlW (d a b : BitVec 6) (q : BitVec 3) (s : State) : Out :=
  scalarOp d q 1 (fun s => sext32 (zext32 (s.x a) <<< ((s.x b).toNat % 32))) s
def execShr (d a b : BitVec 6) (q : BitVec 3) (s : State) : Out := scalarOp d q 1 (fun s => s.x a >>> ((s.x b).toNat % 64)) s
def execShrW (d a b : BitVec 6) (q : BitVec 3) (s : State) : Out :=
  scalarOp d q 1 (fun s => sext32 (zext32 (s.x a) >>> ((s.x b).toNat % 32))) s
def execSra (d a b : BitVec 6) (q : BitVec 3) (s : State) : Out := scalarOp d q 1 (fun s => (s.x a).sshiftRight ((s.x b).toNat % 64)) s
def execSraW (d a b : BitVec 6) (q : BitVec 3) (s : State) : Out :=
  scalarOp d q 1 (fun s => sext32 ((sext32 (s.x a)).sshiftRight ((s.x b).toNat % 32))) s

/-! ### Immediate forms (R70, R71) -/

def execAddi (d a : BitVec 6) (i : BitVec 13) (s : State) : Out := immOp d (fun s => s.x a + i.signExtend 64) s
def execAndi (d a : BitVec 6) (i : BitVec 13) (s : State) : Out := immOp d (fun s => s.x a &&& i.signExtend 64) s
def execOri (d a : BitVec 6) (i : BitVec 13) (s : State) : Out := immOp d (fun s => s.x a ||| i.signExtend 64) s
def execXori (d a : BitVec 6) (i : BitVec 13) (s : State) : Out := immOp d (fun s => s.x a ^^^ i.signExtend 64) s
def execShli (d a : BitVec 6) (n : BitVec 7) (s : State) : Out := immOp d (fun s => s.x a <<< n.toNat) s
def execShri (d a : BitVec 6) (n : BitVec 7) (s : State) : Out := immOp d (fun s => s.x a >>> n.toNat) s
def execSrai (d a : BitVec 6) (n : BitVec 7) (s : State) : Out := immOp d (fun s => (s.x a).sshiftRight n.toNat) s
def execSlti (d a : BitVec 6) (i : BitVec 13) (s : State) : Out := immOp d (fun s => flagWord ((s.x a).slt (i.signExtend 64))) s
def execSltiu (d a : BitVec 6) (i : BitVec 13) (s : State) : Out := immOp d (fun s => flagWord ((s.x a).ult (i.signExtend 64))) s

/-- SignExtend(imm19 << 13, 32) (R71). -/
def luiValue (i : BitVec 19) : Word := (i ++ (0 : BitVec 13)).signExtend 64

def execLui (d : BitVec 6) (i : BitVec 19) (s : State) : Out := immOp d (fun _ => luiValue i) s
def execAub (d : BitVec 6) (i : BitVec 19) (s : State) : Out := immOp d (fun s => BitVec.ofNat 64 s.bundleAddr + luiValue i) s

/-! ### Multiply and divide (R72) -/

/-- A divisor of zero gives all ones; -2^63 by -1 gives -2^63. -/
def divSigned (a b : Word) : Word := if b = 0 then BitVec.allOnes 64 else a.sdiv b
def divUnsigned (a b : Word) : Word := if b = 0 then BitVec.allOnes 64 else a / b

/-- A divisor of zero gives the dividend; -2^63 by -1 gives 0. -/
def remSigned (a b : Word) : Word := if b = 0 then a else a.srem b
def remUnsigned (a b : Word) : Word := if b = 0 then a else a % b

def execMul (d a b : BitVec 6) (q : BitVec 3) (s : State) : Out := scalarOp d q 3 (fun s => s.x a * s.x b) s
def execMulh (d a b : BitVec 6) (q : BitVec 3) (s : State) : Out :=
  scalarOp d q 3 (fun s => BitVec.ofInt 64 ((s.x a).toInt * (s.x b).toInt / 2 ^ 64)) s
def execMulhu (d a b : BitVec 6) (q : BitVec 3) (s : State) : Out :=
  scalarOp d q 3 (fun s => BitVec.ofNat 64 ((s.x a).toNat * (s.x b).toNat / 2 ^ 64)) s
def execDiv (d a b : BitVec 6) (q : BitVec 3) (s : State) : Out := scalarOp d q 20 (fun s => divSigned (s.x a) (s.x b)) s
def execDivu (d a b : BitVec 6) (q : BitVec 3) (s : State) : Out := scalarOp d q 20 (fun s => divUnsigned (s.x a) (s.x b)) s
def execRem (d a b : BitVec 6) (q : BitVec 3) (s : State) : Out := scalarOp d q 20 (fun s => remSigned (s.x a) (s.x b)) s
def execRemu (d a b : BitVec 6) (q : BitVec 3) (s : State) : Out := scalarOp d q 20 (fun s => remUnsigned (s.x a) (s.x b)) s
def execMadd (d a b : BitVec 6) (q : BitVec 3) (s : State) : Out := scalarOp d q 3 (fun s => s.x d + s.x a * s.x b) s

/-! ### Comparison, selection, bit fields (R73) -/

def execMin (d a b : BitVec 6) (q : BitVec 3) (s : State) : Out := scalarOp d q 1 (fun s => if (s.x b).slt (s.x a) then s.x b else s.x a) s
def execMax (d a b : BitVec 6) (q : BitVec 3) (s : State) : Out := scalarOp d q 1 (fun s => if (s.x a).slt (s.x b) then s.x b else s.x a) s
def execMinu (d a b : BitVec 6) (q : BitVec 3) (s : State) : Out := scalarOp d q 1 (fun s => if (s.x b).ult (s.x a) then s.x b else s.x a) s
def execMaxu (d a b : BitVec 6) (q : BitVec 3) (s : State) : Out := scalarOp d q 1 (fun s => if (s.x a).ult (s.x b) then s.x b else s.x a) s
def execSlt (d a b : BitVec 6) (q : BitVec 3) (s : State) : Out := scalarOp d q 1 (fun s => flagWord ((s.x a).slt (s.x b))) s
def execSltu (d a b : BitVec 6) (q : BitVec 3) (s : State) : Out := scalarOp d q 1 (fun s => flagWord ((s.x a).ult (s.x b))) s
def execSeq (d a b : BitVec 6) (q : BitVec 3) (s : State) : Out := scalarOp d q 1 (fun s => flagWord (s.x a == s.x b)) s
def execSne (d a b : BitVec 6) (q : BitVec 3) (s : State) : Out := scalarOp d q 1 (fun s => flagWord (s.x a != s.x b)) s
def execSel (d a b : BitVec 6) (p : BitVec 4) (q : BitVec 3) (s : State) : Out :=
  scalarOp d q 1 (fun s => if (s.p p).getLsbD 0 then s.x a else s.x b) s

/-- Leading and trailing zeros, and set bits; 64 for 0 (R73). -/
def clz (w : Word) : Nat := (firstTo 64 fun i => w.getLsbD (63 - i)).getD 64
def ctz (w : Word) : Nat := (firstTo 64 fun i => w.getLsbD i).getD 64
def popc (w : Word) : Nat := sumTo 64 fun i => (w.getLsbD i).toNat

def execClz (d a : BitVec 6) (q : BitVec 3) (s : State) : Out := scalarOp d q 1 (fun s => BitVec.ofNat 64 (clz (s.x a))) s
def execCtz (d a : BitVec 6) (q : BitVec 3) (s : State) : Out := scalarOp d q 1 (fun s => BitVec.ofNat 64 (ctz (s.x a))) s
def execPopc (d a : BitVec 6) (q : BitVec 3) (s : State) : Out := scalarOp d q 1 (fun s => BitVec.ofNat 64 (popc (s.x a))) s

/-- Position and width of a bit field; the field ends at bit 63 (R73). -/
def fieldPos (b : Word) : Nat := b.toNat % 64
def fieldWid (b : Word) : Nat := min (fld b.toNat 8 6 + 1) (64 - fieldPos b)

/-- The field of BFX and BFXU. -/
def fieldOf (a b : Word) : Nat := a.toNat / 2 ^ fieldPos b % 2 ^ fieldWid b

def execBfx (d a b : BitVec 6) (q : BitVec 3) (s : State) : Out :=
  scalarOp d q 1 (fun s => BitVec.ofInt 64 (sval (fieldWid (s.x b)) (fieldOf (s.x a) (s.x b)))) s
def execBfxu (d a b : BitVec 6) (q : BitVec 3) (s : State) : Out := scalarOp d q 1 (fun s => BitVec.ofNat 64 (fieldOf (s.x a) (s.x b))) s
def execBfi (d a b : BitVec 6) (q : BitVec 3) (s : State) : Out :=
  scalarOp d q 1 (fun s => BitVec.ofNat 64 (putFld (s.x d).toNat (fieldPos (s.x b)) (fieldWid (s.x b)) (s.x a).toNat)) s
def execAddsc (d a b : BitVec 6) (n : BitVec 4) (q : BitVec 3) (s : State) : Out := scalarOp d q 1 (fun s => s.x a + (s.x b <<< n.toNat)) s

/-! ### FP32 (R74, R75) -/

/-- Bits [31:0] of a register as an FP32 code. -/
def f32Of (w : Word) : Nat := w.toNat % 2 ^ 32

/-- An FP32 form: the result has bits [63:32] = 0, and no flag or counter is set. -/
def floatOp (d a b : BitVec 6) (q : BitVec 3) (f : Nat → Nat → Nat) (s : State) : Out :=
  scalarOp d q 4 (fun s => BitVec.ofNat 64 (f (f32Of (s.x a)) (f32Of (s.x b)))) s

def execFadd (d a b : BitVec 6) (q : BitVec 3) (s : State) : Out := floatOp d a b q (fun x y => (fp32.add x y).1) s
def execFsub (d a b : BitVec 6) (q : BitVec 3) (s : State) : Out := floatOp d a b q (fun x y => (fp32.sub x y).1) s
def execFmul (d a b : BitVec 6) (q : BitVec 3) (s : State) : Out := floatOp d a b q (fun x y => (fp32.mul x y).1) s
def execFmin (d a b : BitVec 6) (q : BitVec 3) (s : State) : Out := floatOp d a b q fp32.min s
def execFmax (d a b : BitVec 6) (q : BitVec 3) (s : State) : Out := floatOp d a b q fp32.max s
def execFeq (d a b : BitVec 6) (q : BitVec 3) (s : State) : Out :=
  floatOp d a b q (fun x y => ((fp32.decode x).eq (fp32.decode y)).toNat) s
def execFlt (d a b : BitVec 6) (q : BitVec 3) (s : State) : Out :=
  floatOp d a b q (fun x y => ((fp32.decode x).lt (fp32.decode y)).toNat) s
def execFle (d a b : BitVec 6) (q : BitVec 3) (s : State) : Out :=
  floatOp d a b q (fun x y => ((fp32.decode x).le (fp32.decode y)).toNat) s

/-- FP32 to a 64-bit integer toward zero; values beyond the range give its ends, NaN gives 0 (R75). -/
def fcvtInt (lo hi : Int) (x : Nat) : Word :=
  match fp32.decode x with
  | .nan => 0
  | .inf neg => BitVec.ofInt 64 (if neg then lo else hi)
  | .fin neg m =>
    let n : Int := ((m / 2 ^ quantBits : Nat) : Int)
    BitVec.ofInt 64 (max lo (min hi (if neg then -n else n)))

/-- An integer to FP32, nearest even (R75). -/
def intToF32 (i : Int) : Word := BitVec.ofNat 64 (fp32.roundNE (decide (i < 0)) i.natAbs 1).1

def execFcvtFi (d a : BitVec 6) (q : BitVec 3) (s : State) : Out :=
  scalarOp d q 4 (fun s => fcvtInt (-2 ^ 63) (2 ^ 63 - 1) (f32Of (s.x a))) s
def execFcvtIf (d a : BitVec 6) (q : BitVec 3) (s : State) : Out := scalarOp d q 4 (fun s => intToF32 (s.x a).toInt) s
def execFcvtFu (d a : BitVec 6) (q : BitVec 3) (s : State) : Out :=
  scalarOp d q 4 (fun s => fcvtInt 0 (2 ^ 64 - 1) (f32Of (s.x a))) s
def execFcvtUf (d a : BitVec 6) (q : BitVec 3) (s : State) : Out := scalarOp d q 4 (fun s => intToF32 (s.x a).toNat) s

/-! ### Predicates (R76, R77) -/

/-- Under sq, a predicate result with latency 1. -/
def predOp (p : BitVec 4) (q : BitVec 3) (val : State → Pred) (s : State) : Out := .next (s.guarded q fun s => s.setP p (val s) 1)

/-- All lanes of one truth value. -/
def allLanes (b : Bool) : Pred := if b then BitVec.allOnes 128 else 0

def execSetpEq (p : BitVec 4) (a b : BitVec 6) (q : BitVec 3) (s : State) : Out := predOp p q (fun s => allLanes (s.x a == s.x b)) s
def execSetpNe (p : BitVec 4) (a b : BitVec 6) (q : BitVec 3) (s : State) : Out := predOp p q (fun s => allLanes (s.x a != s.x b)) s
def execSetpLt (p : BitVec 4) (a b : BitVec 6) (q : BitVec 3) (s : State) : Out := predOp p q (fun s => allLanes ((s.x a).slt (s.x b))) s
def execSetpLtu (p : BitVec 4) (a b : BitVec 6) (q : BitVec 3) (s : State) : Out := predOp p q (fun s => allLanes ((s.x a).ult (s.x b))) s
def execSetpGe (p : BitVec 4) (a b : BitVec 6) (q : BitVec 3) (s : State) : Out := predOp p q (fun s => allLanes (!(s.x a).slt (s.x b))) s
def execSetpGeu (p : BitVec 4) (a b : BitVec 6) (q : BitVec 3) (s : State) : Out := predOp p q (fun s => allLanes (!(s.x a).ult (s.x b))) s
def execPand (p a b : BitVec 4) (q : BitVec 3) (s : State) : Out := predOp p q (fun s => s.p a &&& s.p b) s
def execPor (p a b : BitVec 4) (q : BitVec 3) (s : State) : Out := predOp p q (fun s => s.p a ||| s.p b) s
def execPxor (p a b : BitVec 4) (q : BitVec 3) (s : State) : Out := predOp p q (fun s => s.p a ^^^ s.p b) s
def execPnot (p a : BitVec 4) (q : BitVec 3) (s : State) : Out := predOp p q (fun s => ~~~(s.p a)) s
def execPmov (p a : BitVec 4) (q : BitVec 3) (s : State) : Out := predOp p q (fun s => s.p a) s

end Sys2Proof.Machine
end

