-- ==== Sys2Proof/Machine/Dispatch.lean ====
section
/-! DEFINITION. The dispatch: one arm per constructor of Instr, each a direct call of that instruction's meaning. -/

namespace Sys2Proof.Machine

def exec (i : Instr) (s : State) : Host.Outcome State Fault Refusal :=
  match i with
  | .add d a b q => Sys2Proof.Machine.execAdd d a b q s
  | .addW d a b q => Sys2Proof.Machine.execAddW d a b q s
  | .sub d a b q => Sys2Proof.Machine.execSub d a b q s
  | .subW d a b q => Sys2Proof.Machine.execSubW d a b q s
  | .and d a b q => Sys2Proof.Machine.execAnd d a b q s
  | .andW d a b q => Sys2Proof.Machine.execAndW d a b q s
  | .or d a b q => Sys2Proof.Machine.execOr d a b q s
  | .orW d a b q => Sys2Proof.Machine.execOrW d a b q s
  | .xor d a b q => Sys2Proof.Machine.execXor d a b q s
  | .xorW d a b q => Sys2Proof.Machine.execXorW d a b q s
  | .shl d a b q => Sys2Proof.Machine.execShl d a b q s
  | .shlW d a b q => Sys2Proof.Machine.execShlW d a b q s
  | .shr d a b q => Sys2Proof.Machine.execShr d a b q s
  | .shrW d a b q => Sys2Proof.Machine.execShrW d a b q s
  | .sra d a b q => Sys2Proof.Machine.execSra d a b q s
  | .sraW d a b q => Sys2Proof.Machine.execSraW d a b q s
  | .addi d a imm => Sys2Proof.Machine.execAddi d a imm s
  | .andi d a imm => Sys2Proof.Machine.execAndi d a imm s
  | .ori d a imm => Sys2Proof.Machine.execOri d a imm s
  | .xori d a imm => Sys2Proof.Machine.execXori d a imm s
  | .shli d a n => Sys2Proof.Machine.execShli d a n s
  | .shri d a n => Sys2Proof.Machine.execShri d a n s
  | .srai d a n => Sys2Proof.Machine.execSrai d a n s
  | .lui d imm => Sys2Proof.Machine.execLui d imm s
  | .aub d imm => Sys2Proof.Machine.execAub d imm s
  | .mul d a b q => Sys2Proof.Machine.execMul d a b q s
  | .mulh d a b q => Sys2Proof.Machine.execMulh d a b q s
  | .mulhu d a b q => Sys2Proof.Machine.execMulhu d a b q s
  | .div d a b q => Sys2Proof.Machine.execDiv d a b q s
  | .divu d a b q => Sys2Proof.Machine.execDivu d a b q s
  | .rem d a b q => Sys2Proof.Machine.execRem d a b q s
  | .remu d a b q => Sys2Proof.Machine.execRemu d a b q s
  | .min d a b q => Sys2Proof.Machine.execMin d a b q s
  | .max d a b q => Sys2Proof.Machine.execMax d a b q s
  | .minu d a b q => Sys2Proof.Machine.execMinu d a b q s
  | .maxu d a b q => Sys2Proof.Machine.execMaxu d a b q s
  | .slt d a b q => Sys2Proof.Machine.execSlt d a b q s
  | .sltu d a b q => Sys2Proof.Machine.execSltu d a b q s
  | .seq d a b q => Sys2Proof.Machine.execSeq d a b q s
  | .sne d a b q => Sys2Proof.Machine.execSne d a b q s
  | .slti d a imm => Sys2Proof.Machine.execSlti d a imm s
  | .sltiu d a imm => Sys2Proof.Machine.execSltiu d a imm s
  | .sel d a b p q => Sys2Proof.Machine.execSel d a b p q s
  | .clz d a q => Sys2Proof.Machine.execClz d a q s
  | .ctz d a q => Sys2Proof.Machine.execCtz d a q s
  | .popc d a q => Sys2Proof.Machine.execPopc d a q s
  | .bfx d a b q => Sys2Proof.Machine.execBfx d a b q s
  | .bfxu d a b q => Sys2Proof.Machine.execBfxu d a b q s
  | .bfi d a b q => Sys2Proof.Machine.execBfi d a b q s
  | .madd d a b q => Sys2Proof.Machine.execMadd d a b q s
  | .addsc d a b t q => Sys2Proof.Machine.execAddsc d a b t q s
  | .fadd d a b q => Sys2Proof.Machine.execFadd d a b q s
  | .fsub d a b q => Sys2Proof.Machine.execFsub d a b q s
  | .fmul d a b q => Sys2Proof.Machine.execFmul d a b q s
  | .fmin d a b q => Sys2Proof.Machine.execFmin d a b q s
  | .fmax d a b q => Sys2Proof.Machine.execFmax d a b q s
  | .feq d a b q => Sys2Proof.Machine.execFeq d a b q s
  | .flt d a b q => Sys2Proof.Machine.execFlt d a b q s
  | .fle d a b q => Sys2Proof.Machine.execFle d a b q s
  | .fcvtFi d a q => Sys2Proof.Machine.execFcvtFi d a q s
  | .fcvtIf d a q => Sys2Proof.Machine.execFcvtIf d a q s
  | .fcvtFu d a q => Sys2Proof.Machine.execFcvtFu d a q s
  | .fcvtUf d a q => Sys2Proof.Machine.execFcvtUf d a q s
  | .setpEq p a b q => Sys2Proof.Machine.execSetpEq p a b q s
  | .setpNe p a b q => Sys2Proof.Machine.execSetpNe p a b q s
  | .setpLt p a b q => Sys2Proof.Machine.execSetpLt p a b q s
  | .setpLtu p a b q => Sys2Proof.Machine.execSetpLtu p a b q s
  | .setpGe p a b q => Sys2Proof.Machine.execSetpGe p a b q s
  | .setpGeu p a b q => Sys2Proof.Machine.execSetpGeu p a b q s
  | .pand p a b q => Sys2Proof.Machine.execPand p a b q s
  | .por p a b q => Sys2Proof.Machine.execPor p a b q s
  | .pxor p a b q => Sys2Proof.Machine.execPxor p a b q s
  | .pnot p a q => Sys2Proof.Machine.execPnot p a q s
  | .pmov p a q => Sys2Proof.Machine.execPmov p a q s
  | .bra q o => Sys2Proof.Machine.execBra q o s
  | .call q o => Sys2Proof.Machine.execCall q o s
  | .jr a q => Sys2Proof.Machine.execJr a q s
  | .jrl d a q => Sys2Proof.Machine.execJrl d a q s
  | .ret q => Sys2Proof.Machine.execRet q s
  | .jtab d a b q => Sys2Proof.Machine.execJtab d a b q s
  | .loop l a imm => Sys2Proof.Machine.execLoop l a imm s
  | .loopi l n imm => Sys2Proof.Machine.execLoopi l n imm s
  | .loopsr a b l q => Sys2Proof.Machine.execLoopsr a b l q s
  | .rfence q => Sys2Proof.Machine.execRfence q s
  | .rfenceA a q => Sys2Proof.Machine.execRfenceA a q s
  | .suspYield q => Sys2Proof.Machine.execSuspYield q s
  | .suspPark a q => Sys2Proof.Machine.execSuspPark a q s
  | .suspExit q => Sys2Proof.Machine.execSuspExit q s
  | .mfs d t => Sys2Proof.Machine.execMfs d t s
  | .mts a t => Sys2Proof.Machine.execMts a t s
  | .trap c => Sys2Proof.Machine.execTrap c s
  | .trapNz a c => Sys2Proof.Machine.execTrapNz a c s
  | .snapst a => Sys2Proof.Machine.execSnapst a s
  | .snapld a => Sys2Proof.Machine.execSnapld a s
  | .brk c => Sys2Proof.Machine.execBrk c s
  | .launch a r => Sys2Proof.Machine.execLaunch a r s
  | .cancel a l => Sys2Proof.Machine.execCancel a l s
  | .ld d a z o => Sys2Proof.Machine.execLd d a z o s
  | .st t a z o => Sys2Proof.Machine.execSt t a z o s
  | .ldv d a o p => Sys2Proof.Machine.execLdv d a o p s
  | .ldvS d a t p => Sys2Proof.Machine.execLdvS d a t p s
  | .ldvB d a o p => Sys2Proof.Machine.execLdvB d a o p s
  | .stv v a o p => Sys2Proof.Machine.execStv v a o p s
  | .stvS v a t p => Sys2Proof.Machine.execStvS v a t p s
  | .gath d a b t p => Sys2Proof.Machine.execGath d a b t p s
  | .scat u a b t p => Sys2Proof.Machine.execScat u a b t p s
  | .ldg d a z o => Sys2Proof.Machine.execLdg d a z o s
  | .stg t a z o => Sys2Proof.Machine.execStg t a z o s
  | .ldgv d a o p => Sys2Proof.Machine.execLdgv d a o p s
  | .stgv t a o p => Sys2Proof.Machine.execStgv t a o p s
  | .ldc d a z o => Sys2Proof.Machine.execLdc d a z o s
  | .tlook d a q => Sys2Proof.Machine.execTlook d a q s
  | .tfill a b q => Sys2Proof.Machine.execTfill a b q s
  | .tevict a q => Sys2Proof.Machine.execTevict a q s
  | .tinv a q => Sys2Proof.Machine.execTinv a q s
  | .tlock d a q => Sys2Proof.Machine.execTlock d a q s
  | .tunlock d a q => Sys2Proof.Machine.execTunlock d a q s
  | .hwait h n => Sys2Proof.Machine.execHwait h n s
  | .hwaitf h n => Sys2Proof.Machine.execHwaitf h n s
  | .hadvp h n => Sys2Proof.Machine.execHadvp h n s
  | .hadvc h n => Sys2Proof.Machine.execHadvc h n s
  | .hset h a b q => Sys2Proof.Machine.execHset h a b q s
  | .footr g y a b q => Sys2Proof.Machine.execFootr g y a b q s
  | .footw g y a b q => Sys2Proof.Machine.execFootw g y a b q s
  | .footclr y q => Sys2Proof.Machine.execFootclr y q s
  | .spfence q => Sys2Proof.Machine.execSpfence q s
  | .acq d a t q => Sys2Proof.Machine.execAcq d a t q s
  | .rel d a t q => Sys2Proof.Machine.execRel d a t q s
  | .fence t q => Sys2Proof.Machine.execFence t q s
  | .amoAdd d a b t => Sys2Proof.Machine.execAmoAdd d a b t s
  | .amoAnd d a b t => Sys2Proof.Machine.execAmoAnd d a b t s
  | .amoOr d a b t => Sys2Proof.Machine.execAmoOr d a b t s
  | .amoXor d a b t => Sys2Proof.Machine.execAmoXor d a b t s
  | .amoMin d a b t => Sys2Proof.Machine.execAmoMin d a b t s
  | .amoMax d a b t => Sys2Proof.Machine.execAmoMax d a b t s
  | .amoMinu d a b t => Sys2Proof.Machine.execAmoMinu d a b t s
  | .amoMaxu d a b t => Sys2Proof.Machine.execAmoMaxu d a b t s
  | .amoSwap d a b t => Sys2Proof.Machine.execAmoSwap d a b t s
  | .amoFadd d a b t => Sys2Proof.Machine.execAmoFadd d a b t s
  | .cas d a b t => Sys2Proof.Machine.execCas d a b t s
  | .logcmp d a q => Sys2Proof.Machine.execLogcmp d a q s
  | .logmark d q => Sys2Proof.Machine.execLogmark d q s
  | .logtrunc d a q => Sys2Proof.Machine.execLogtrunc d a q s
  | .sstepDie q => Sys2Proof.Machine.execSstepDie q s
  | .sstepPackage q => Sys2Proof.Machine.execSstepPackage q s
  | .gset k r a f => Sys2Proof.Machine.execGset k r a f s
  | .gswap k m => Sys2Proof.Machine.execGswap k m s
  | .cpyHs g a b w c h => Sys2Proof.Machine.execCpyHs g a b w c h s
  | .cpySh g a b w c h => Sys2Proof.Machine.execCpySh g a b w c h s
  | .cpySs g a b w c h => Sys2Proof.Machine.execCpySs g a b w c h s
  | .cpyRm g a b w c => Sys2Proof.Machine.execCpyRm g a b w c s
  | .cpyrHs a b w c h => Sys2Proof.Machine.execCpyrHs a b w c h s
  | .cpyrSh a b w c h => Sys2Proof.Machine.execCpyrSh a b w c h s
  | .cpyrSs a b w c h => Sys2Proof.Machine.execCpyrSs a b w c h s
  | .cpyrRm a b w c => Sys2Proof.Machine.execCpyrRm a b w c s
  | .cpyw h => Sys2Proof.Machine.execCpyw h s
  | .engw a b => Sys2Proof.Machine.execEngw a b s
  | .engr a b => Sys2Proof.Machine.execEngr a b s
  | .tseq a => Sys2Proof.Machine.execTseq a s
  | .ccadd a b => Sys2Proof.Machine.execCcadd a b s
  | .ccwait a b => Sys2Proof.Machine.execCcwait a b s
  | .vadd d a b t p => Sys2Proof.Machine.execVadd d a b t p s
  | .vsub d a b t p => Sys2Proof.Machine.execVsub d a b t p s
  | .vmul d a b t p => Sys2Proof.Machine.execVmul d a b t p s
  | .vminmaxMin d a b t p => Sys2Proof.Machine.execVminmaxMin d a b t p s
  | .vminmaxMax d a b t p => Sys2Proof.Machine.execVminmaxMax d a b t p s
  | .vfma d a b c y p => Sys2Proof.Machine.execVfma d a b c y p s
  | .vfms d a b c y p => Sys2Proof.Machine.execVfms d a b c y p s
  | .vfnma d a b c y p => Sys2Proof.Machine.execVfnma d a b c y p s
  | .vlogicAnd d a b t p => Sys2Proof.Machine.execVlogicAnd d a b t p s
  | .vlogicOr d a b t p => Sys2Proof.Machine.execVlogicOr d a b t p s
  | .vlogicXor d a b t p => Sys2Proof.Machine.execVlogicXor d a b t p s
  | .vlogicAndn d a b t p => Sys2Proof.Machine.execVlogicAndn d a b t p s
  | .vlogicNot d a t p => Sys2Proof.Machine.execVlogicNot d a t p s
  | .vshiftShl d a b t p => Sys2Proof.Machine.execVshiftShl d a b t p s
  | .vshiftShr d a b t p => Sys2Proof.Machine.execVshiftShr d a b t p s
  | .vshiftSra d a b t p => Sys2Proof.Machine.execVshiftSra d a b t p s
  | .vcmpEq p a b t g => Sys2Proof.Machine.execVcmpEq p a b t g s
  | .vcmpNe p a b t g => Sys2Proof.Machine.execVcmpNe p a b t g s
  | .vcmpLt p a b t g => Sys2Proof.Machine.execVcmpLt p a b t g s
  | .vcmpLe p a b t g => Sys2Proof.Machine.execVcmpLe p a b t g s
  | .vcmpGt p a b t g => Sys2Proof.Machine.execVcmpGt p a b t g s
  | .vcmpGe p a b t g => Sys2Proof.Machine.execVcmpGe p a b t g s
  | .vsel d a b p => Sys2Proof.Machine.execVsel d a b p s
  | .vcvt d a r t u p => Sys2Proof.Machine.execVcvt d a r t u p s
  | .vredAdd d a t p => Sys2Proof.Machine.execVredAdd d a t p s
  | .vredMax d a t p => Sys2Proof.Machine.execVredMax d a t p s
  | .vredMin d a t p => Sys2Proof.Machine.execVredMin d a t p s
  | .vscan d a t p => Sys2Proof.Machine.execVscan d a t p s
  | .vpermIdx d a b p => Sys2Proof.Machine.execVpermIdx d a b p s
  | .vpermRot d a b p => Sys2Proof.Machine.execVpermRot d a b p s
  | .vpermPsh d a b p => Sys2Proof.Machine.execVpermPsh d a b p s
  | .vbcast d a t p => Sys2Proof.Machine.execVbcast d a t p s
  | .vext d a b t => Sys2Proof.Machine.execVext d a b t s
  | .vtransRcp d a p => Sys2Proof.Machine.execVtransRcp d a p s
  | .vtransRsq d a p => Sys2Proof.Machine.execVtransRsq d a p s
  | .vtransExp2 d a p => Sys2Proof.Machine.execVtransExp2 d a p s
  | .vtransLog2 d a p => Sys2Proof.Machine.execVtransLog2 d a p s
  | .vtransTanh d a p => Sys2Proof.Machine.execVtransTanh d a p s
  | .vtransSin d a p => Sys2Proof.Machine.execVtransSin d a p s
  | .vtransCos d a p => Sys2Proof.Machine.execVtransCos d a p s
  | .vtransSqrt d a p => Sys2Proof.Machine.execVtransSqrt d a p s
  | .vdiv d a b t p => Sys2Proof.Machine.execVdiv d a b t p s
  | .vrow d p => Sys2Proof.Machine.execVrow d p s
  | .viota d t p => Sys2Proof.Machine.execViota d t p s
  | .vmaskPopc d t p => Sys2Proof.Machine.execVmaskPopc d t p s
  | .vmaskCompress d a p => Sys2Proof.Machine.execVmaskCompress d a p s
  | .vmaskExpand d a p => Sys2Proof.Machine.execVmaskExpand d a p s
  | .vmaskFirst d t p => Sys2Proof.Machine.execVmaskFirst d t p s
  | .vbnd p a t g => Sys2Proof.Machine.execVbnd p a t g s
  | .vabs d a t p => Sys2Proof.Machine.execVabs d a t p s
  | .vneg d a t p => Sys2Proof.Machine.execVneg d a t p s
  | .vdefDefer p a g => Sys2Proof.Machine.execVdefDefer p a g s
  | .vdefRefill d p => Sys2Proof.Machine.execVdefRefill d p s
  | .vdefCount d => Sys2Proof.Machine.execVdefCount d s
  | .mloadA t a w c h => Sys2Proof.Machine.execMloadA t a w c h s
  | .mloadB t a w c h => Sys2Proof.Machine.execMloadB t a w c h s
  | .mloadBt t a w c h => Sys2Proof.Machine.execMloadBt t a w c h s
  | .mma t b l w c => Sys2Proof.Machine.execMma t b l w c s
  | .mmaAcc t b l w c => Sys2Proof.Machine.execMmaAcc t b l w c s
  | .mmaqF4 t b l w c => Sys2Proof.Machine.execMmaqF4 t b l w c s
  | .mmaqF4Acc t b l w c => Sys2Proof.Machine.execMmaqF4Acc t b l w c s
  | .mmaqI4 t b l w c => Sys2Proof.Machine.execMmaqI4 t b l w c s
  | .mmaqI4Acc t b l w c => Sys2Proof.Machine.execMmaqI4Acc t b l w c s
  | .mdrain l w => Sys2Proof.Machine.execMdrain l w s
  | .mcfg b a p => Sys2Proof.Machine.execMcfg b a p s
  | .mzero l => Sys2Proof.Machine.execMzero l s
  | .scldBlk t a o => Sys2Proof.Machine.execScldBlk t a o s
  | .scldBand t a o => Sys2Proof.Machine.execScldBand t a o s
  | .qcvtF8 d a k r p => Sys2Proof.Machine.execQcvtF8 d a k r p s
  | .qcvtDb4 d a t r p => Sys2Proof.Machine.execQcvtDb4 d a t r p s
  | .qcvtMx4 d a r p => Sys2Proof.Machine.execQcvtMx4 d a r p s
  | .qcvtUnp d a t k p => Sys2Proof.Machine.execQcvtUnp d a t k p s
  | .rndgInt d p => Sys2Proof.Machine.execRndgInt d p s
  | .rndgUni d p => Sys2Proof.Machine.execRndgUni d p s
  | .statc d p => Sys2Proof.Machine.execStatc d p s
  | .send c v l p => Sys2Proof.Machine.execSend c v l p s
  | .recv c v l p => Sys2Proof.Machine.execRecv c v l p s
  | .raddBf16 c v l p => Sys2Proof.Machine.execRaddBf16 c v l p s
  | .raddF32 c v l p => Sys2Proof.Machine.execRaddF32 c v l p s
  | .barr d g => Sys2Proof.Machine.execBarr d g s
  | .barw d g => Sys2Proof.Machine.execBarw d g s
  | .barm a g => Sys2Proof.Machine.execBarm a g s
  | .fuse d a => Sys2Proof.Machine.execFuse d a s
  | .idem => Sys2Proof.Machine.execIdem s
  | .tret => Sys2Proof.Machine.execTret s
  | .snaprel => Sys2Proof.Machine.execSnaprel s
  | .mclaim => Sys2Proof.Machine.execMclaim s
  | .mrel => Sys2Proof.Machine.execMrel s
  | .decpl => Sys2Proof.Machine.execDecpl s
  | .chwait c n => Sys2Proof.Machine.execChwait c n s
  | .rejn d => Sys2Proof.Machine.execRejn d s
  | .wdog d a => Sys2Proof.Machine.execWdog d a s
  | .prot a => Sys2Proof.Machine.execProt a s
  | .unprot a => Sys2Proof.Machine.execUnprot a s
  | .rprep a b => Sys2Proof.Machine.execRprep a b s
  | .rcomm a b => Sys2Proof.Machine.execRcomm a b s
  | .rstat a b => Sys2Proof.Machine.execRstat a b s
  | .netpost a b => Sys2Proof.Machine.execNetpost a b s
  | .netwait a b => Sys2Proof.Machine.execNetwait a b s
  | .emptyBundle rep => Sys2Proof.Machine.execEmptyBundle rep s
  | .bindTask core launch index => Sys2Proof.Machine.execBindTask core launch index s
  | .preemptTake core => Sys2Proof.Machine.execPreemptTake core s
  | .sliceExpire core => Sys2Proof.Machine.execSliceExpire core s
  | .watchdogExpire core => Sys2Proof.Machine.execWatchdogExpire core s
  | .remoteReply launch index reply => Sys2Proof.Machine.execRemoteReply launch index reply s
  | .loadArrive core k => Sys2Proof.Machine.execLoadArrive core k s
  | .recordCacheFill core ia => Sys2Proof.Machine.execRecordCacheFill core ia s
  | .segmentExpand core frame => Sys2Proof.Machine.execSegmentExpand core frame s
  | .snapstWrite core => Sys2Proof.Machine.execSnapstWrite core s
  | .snapldFill core => Sys2Proof.Machine.execSnapldFill core s
  | .logfullTimeout core => Sys2Proof.Machine.execLogfullTimeout core s
  | .resurfacerCompact die bound => Sys2Proof.Machine.execResurfacerCompact die bound s
  | .syncOpComplete core reply => Sys2Proof.Machine.execSyncOpComplete core reply s
  | .sstepRelease launch die scope => Sys2Proof.Machine.execSstepRelease launch die scope s
  | .ringPubWaitEnd core => Sys2Proof.Machine.execRingPubWaitEnd core s
  | .mxCommandStart core => Sys2Proof.Machine.execMxCommandStart core s
  | .mxCommandEnd core => Sys2Proof.Machine.execMxCommandEnd core s
  | .drainRow core => Sys2Proof.Machine.execDrainRow core s
  | .copyJobStart core => Sys2Proof.Machine.execCopyJobStart core s
  | .copyJobEnd core => Sys2Proof.Machine.execCopyJobEnd core s
  | .copyJobFail core err => Sys2Proof.Machine.execCopyJobFail core err s
  | .channelOpen core ch => Sys2Proof.Machine.execChannelOpen core ch s
  | .channelClose core ch => Sys2Proof.Machine.execChannelClose core ch s
  | .channelPair core ch depth agree => Sys2Proof.Machine.execChannelPair core ch depth agree s
  | .channelRouteTimeout core ch => Sys2Proof.Machine.execChannelRouteTimeout core ch s
  | .channelElementArrive core ch elem => Sys2Proof.Machine.execChannelElementArrive core ch elem s
  | .channelCreditReturn core ch => Sys2Proof.Machine.execChannelCreditReturn core ch s
  | .barrierArrival core group => Sys2Proof.Machine.execBarrierArrival core group s
  | .barmApply core group value => Sys2Proof.Machine.execBarmApply core group value s
  | .spireMirrorUpdate die cluster group => Sys2Proof.Machine.execSpireMirrorUpdate die cluster group s
  | .fuseTimeout core => Sys2Proof.Machine.execFuseTimeout core s
  | .ringPollVisit => Sys2Proof.Machine.execRingPollVisit s
  | .launchComplete launch => Sys2Proof.Machine.execLaunchComplete launch s
  | .graphNodeActivate graph node => Sys2Proof.Machine.execGraphNodeActivate graph node s
  | .phaseStart job => Sys2Proof.Machine.execPhaseStart job s
  | .jobSubmit ctx master value => Sys2Proof.Machine.execJobSubmit ctx master value s
  | .unitCancel ctx master value => Sys2Proof.Machine.execUnitCancel ctx master value s
  | .fltqPop die master => Sys2Proof.Machine.execFltqPop die master s
  | .tlbInvalidate die master value => Sys2Proof.Machine.execTlbInvalidate die master value s
  | .pageDone die master value => Sys2Proof.Machine.execPageDone die master value s
  | .ptrootWrite master value => Sys2Proof.Machine.execPtrootWrite master value s
  | .awaWrite ctx w master value => Sys2Proof.Machine.execAwaWrite ctx w master value s
  | .registerWrite off master value => Sys2Proof.Machine.execRegisterWrite off master value s
  | .journalMirrorWrite seq => Sys2Proof.Machine.execJournalMirrorWrite seq s
  | .jidxWrite master value => Sys2Proof.Machine.execJidxWrite master value s
  | .dbgctlWrite core value => Sys2Proof.Machine.execDbgctlWrite core value s
  | .devnumSet n => Sys2Proof.Machine.execDevnumSet n s
  | .powerOnReset images => Sys2Proof.Machine.execPowerOnReset images s
  | .hostLinkUp => Sys2Proof.Machine.execHostLinkUp s
  | .stageAdvanceCompute failed => Sys2Proof.Machine.execStageAdvanceCompute failed s
  | .stageAdvanceFabric => Sys2Proof.Machine.execStageAdvanceFabric s
  | .stageAdvanceGroup => Sys2Proof.Machine.execStageAdvanceGroup s
  | .stageAdvanceTimeout => Sys2Proof.Machine.execStageAdvanceTimeout s
  | .thermalCut => Sys2Proof.Machine.execThermalCut s
  | .thermalThrottle on => Sys2Proof.Machine.execThermalThrottle on s
  | .dieLinkFail d1 d2 => Sys2Proof.Machine.execDieLinkFail d1 d2 s
  | .owncasClaim master value => Sys2Proof.Machine.execOwncasClaim master value s
  | .ownhandWrite master value => Sys2Proof.Machine.execOwnhandWrite master value s
  | .ownbeatRenew master => Sys2Proof.Machine.execOwnbeatRenew master s
  | .leaseLapse => Sys2Proof.Machine.execLeaseLapse s
  | .retireTrigger master value => Sys2Proof.Machine.execRetireTrigger master value s
  | .autoRetireTrigger stack => Sys2Proof.Machine.execAutoRetireTrigger stack s
  | .reloclistGo master value => Sys2Proof.Machine.execReloclistGo master value s
  | .relocGranuleCopy => Sys2Proof.Machine.execRelocGranuleCopy s
  | .sweepGranuleMove => Sys2Proof.Machine.execSweepGranuleMove s
  | .travlossZeroFill master => Sys2Proof.Machine.execTravlossZeroFill master s
  | .travlossReread master => Sys2Proof.Machine.execTravlossReread master s
  | .memRequest req => Sys2Proof.Machine.execMemRequest req s
  | .rfmHoldEnd ctrl bank => Sys2Proof.Machine.execRfmHoldEnd ctrl bank s
  | .periodicRefresh ctrl bank => Sys2Proof.Machine.execPeriodicRefresh ctrl bank s
  | .refreshWindowClear ctrl => Sys2Proof.Machine.execRefreshWindowClear ctrl s
  | .frameReceive plane peer frame => Sys2Proof.Machine.execFrameReceive plane peer frame s
  | .streamAckTimeout plane peer => Sys2Proof.Machine.execStreamAckTimeout plane peer s
  | .streamProbe plane peer answered => Sys2Proof.Machine.execStreamProbe plane peer answered s
  | .sessionSetup peer => Sys2Proof.Machine.execSessionSetup peer s
  | .sessionUp peer inc chain meas => Sys2Proof.Machine.execSessionUp peer inc chain meas s
  | .sessionLivenessTimeout peer => Sys2Proof.Machine.execSessionLivenessTimeout peer s
  | .keyUpdate peer => Sys2Proof.Machine.execKeyUpdate peer s
  | .acceptWrite master k word value => Sys2Proof.Machine.execAcceptWrite master k word value s
  | .portLock master k => Sys2Proof.Machine.execPortLock master k s
  | .portRun master k => Sys2Proof.Machine.execPortRun master k s
  | .portUnlock master k => Sys2Proof.Machine.execPortUnlock master k s
  | .portOpticalFault k => Sys2Proof.Machine.execPortOpticalFault k s
  | .portMeasCheck k agrees => Sys2Proof.Machine.execPortMeasCheck k agrees s
  | .reachAdvert peer relay => Sys2Proof.Machine.execReachAdvert peer relay s
  | .rerouteTimeout peer who => Sys2Proof.Machine.execRerouteTimeout peer who s
  | .remoteRequest src req => Sys2Proof.Machine.execRemoteRequest src req s
  | .roamMoveRequest page asker core refused => Sys2Proof.Machine.execRoamMoveRequest page asker core refused s
  | .roamCopyEnd page holder data => Sys2Proof.Machine.execRoamCopyEnd page holder data s
  | .migwinWrite master => Sys2Proof.Machine.execMigwinWrite master s
  | .reduceContribution group seq chunk rank ty data missing => Sys2Proof.Machine.execReduceContribution group seq chunk rank ty data missing s
  | .reduceFlush group seq chunk => Sys2Proof.Machine.execReduceFlush group seq chunk s
  | .lapStepStart ctx => Sys2Proof.Machine.execLapStepStart ctx s
  | .lapStepEnd ctx how => Sys2Proof.Machine.execLapStepEnd ctx how s
  | .netRingPoll agree => Sys2Proof.Machine.execNetRingPoll agree s
  | .msgPacketReceive packet => Sys2Proof.Machine.execMsgPacketReceive packet s
  | .sackSend peer => Sys2Proof.Machine.execSackSend peer s
  | .sackReceive peer sack => Sys2Proof.Machine.execSackReceive peer sack s
  | .rtoExpire peer => Sys2Proof.Machine.execRtoExpire peer s
  | .groupJoin master slot => Sys2Proof.Machine.execGroupJoin master slot s
  | .groupForm slot agree => Sys2Proof.Machine.execGroupForm slot agree s
  | .groupFormTimeout slot => Sys2Proof.Machine.execGroupFormTimeout slot s
  | .groupLeave master slot => Sys2Proof.Machine.execGroupLeave master slot s
  | .rebuildStart rb => Sys2Proof.Machine.execRebuildStart rb s
  | .rebuildResume master slot => Sys2Proof.Machine.execRebuildResume master slot s
  | .deltaReceive slot delta => Sys2Proof.Machine.execDeltaReceive slot delta s
  | .deltaAckReceive slot ack => Sys2Proof.Machine.execDeltaAckReceive slot ack s
  | .preparedReceive slot src round regs => Sys2Proof.Machine.execPreparedReceive slot src round regs s
  | .decisionReceive slot msg => Sys2Proof.Machine.execDecisionReceive slot msg s
  | .memberDeadTimeout slot member left => Sys2Proof.Machine.execMemberDeadTimeout slot member left s
  | .rebuildShareReceive slot share => Sys2Proof.Machine.execRebuildShareReceive slot share s
  | .debuggerContinue core => Sys2Proof.Machine.execDebuggerContinue core s
  | .debuggerAttach on => Sys2Proof.Machine.execDebuggerAttach on s
  | .standbySupplyLoss => Sys2Proof.Machine.execStandbySupplyLoss s
  | .ueportLinkChange k up => Sys2Proof.Machine.execUeportLinkChange k up s
  | .packetErrorAnswer peer psn => Sys2Proof.Machine.execPacketErrorAnswer peer psn s
  | .tlbinvComplete die => Sys2Proof.Machine.execTlbinvComplete die s

end Sys2Proof.Machine
end

