-- ==== Sys2Proof/Machine/Issue.lean ====
section
/-! DEFINITION. The core's cycle: entry of a bundle, its gates and stalls, its slots in order, its end; leaving BOUND; what the other agents do
while cores wait; and the machine's moves (spec 01_task.md R17 to R33; 02_encoding.md R44, R51, R60; 03_scalar_control.md R78 to R100;
09_cluster.md R241 to R254; 11_translation_scheduling.md R296 to R312). -/

namespace Sys2Proof.Machine

/-- The meaning of a syllable is that of the instruction that it is (`sylExec_eq`). -/
def sylExec (y : Syl) (s : State) : Out :=
  match y with
  | .instr i => exec i s
  | .late (.chwait c n) => execChwait c n s
  | .late (.rejn d) => execRejn d s
  | .late (.wdog d a) => execWdog d a s
  | .late (.prot a) => execProt a s
  | .late (.unprot a) => execUnprot a s
  | .late (.rprep a b) => execRprep a b s
  | .late (.rcomm a b) => execRcomm a b s
  | .late (.rstat a b) => execRstat a b s
  | .late (.netpost a b) => execNetpost a b s
  | .late (.netwait a b) => execNetwait a b s

namespace State

/-! ### The end of a bundle (R22, R24, R28, R78 to R84, R100, R244, R248) -/

/-- Control after the bundle that issues: its latched target, or flow (R78, R82, R83). -/
def control (s : State) (r : Run) : State :=
  match r.latched with
  | some t => s.transfer t
  | none => s.flow r.pos r.skipTo

/-- A coupled member reaches the boundary; the bundles of a handler of a stopped member do not count (R244, R248). (Open points: DEDUCED, log 19.) -/
def fuseEnd (s : State) (completes : Bool) (next : Nat) : State :=
  let n := lowCore s.coreId
  let stopped := (s.cluster (clusterOf s.coreId)).groups.any fun g => g.coupled.getLsbD n && g.trapped.getLsbD n
  if stopped && !completes then s else s.fuseArrive next

/-- STEP after a bundle that has committed in full (R100); ZBUNDLE names that bundle (assumption log 14). (Open points: DEDUCED, log 14.) -/
def stepTrap (s : State) (on : Bool) (bundle next : Nat) : State := if on then s.takeTrap { code := 0x11 } 0 0 bundle next else s

/-- A region-ending syllable has committed: the mark is taken, and RSTART names the next bundle as it now stands (R28). (Open points: DEDUCED, log 16.) -/
def noteEnded (s : State) : State :=
  match s.core.front.run with
  | none => s
  | some r =>
    if !r.ended then s
    else
      let a := (s.control r).nextAddr
      if r.marked then s.modTask fun b => { b with rstart := BitVec.ofNat 64 a, idem := r.idem }
      else ((s.markRegion a).modTask fun b => { b with idem := r.idem }).modRun fun r => { r with marked := true }

/-- TRET: the interrupted bundle is next (R25); a member stopped at its boundary by STEP is back there (R248). (Open points: DEDUCED, log 20.) -/
def endTret (s : State) : State :=
  match s.core.front.reenter with
  | none => s.modFront fun f => { f with run := none }
  | some p =>
    let n := lowCore s.coreId
    let there := ((s.cluster (clusterOf s.coreId)).groupOf n).any fun g => (tget? g.arrived n).isSome
    let on := s.core.front.step && (s.core.front.run.map Run.unmasked).getD false
    let s := s.modFront fun f => { f with run := none, latched := some (.addr p.addr), idemNext := false }
    let s := match p.waits with
      | some w => s.waitOn w
      | none => if p.completes && there then s.fuseArrive p.addr.toNat else s
    (s.tickFlight.spireTick).stepTrap on s.bundleAddr p.addr.toNat

/-- The bundle has committed in full. (Open points: DEDUCED, log 14.) -/
def endBundle (s : State) : State :=
  match s.core.front.run with
  | none => s
  | some r =>
    if r.tret then s.endTret
    else
      let on := s.core.front.step && !s.core.regs.z.stat.tm
      let s := (s.control r).modFront fun f => { f with run := none, idemNext := r.idem, released := f.released || r.snaprel }
      let s := if r.ended then s.modTask fun b => { b with idem := r.idem } else s
      let next := s.nextAddr
      let s := if r.snaprel then s.modStat fun t => { t with sv := false, tm := false } else s
      let s := match r.after with
        | some a => s.modFront fun f => { f with leaving := some (a, next) }
        | none => s
      let s := match r.line with
        | some w => s.waitOn w
        | none => s.fuseEnd r.completes next
      (s.advance r.rowRead).stepTrap on r.addr next

/-- The address of the bundle at the position that the front has reached. -/
def posAddr (s : State) : Nat :=
  (s.core.front.cur.bind fun g => (g.bundles[s.core.front.pos]?).map fun b => g.frame + b.off).getD 0

/-- One cycle of an empty bundle or of a bubble passes; after its last cycle an empty bundle has committed (R44, R100). -/
def passOne (s : State) : State :=
  let f := s.core.front
  let last := f.bubbles == 0 && f.emptyLeft == 1
  let s := s.passCycle.1
  if !last then s
  else
    let addr := s.posAddr
    let on := f.step && !s.core.regs.z.stat.tm
    let s := s.flow f.pos none
    let next := s.nextAddr
    (s.fuseEnd false next).stepTrap on addr next

/-! ### The slots of a bundle (R22, R60) -/

/-- The syllable has executed. -/
def dropHead (s : State) : State := s.modRun fun r => { r with todo := r.todo.tail }

/-- A pending load of which the syllable reads the destination, when it executes; a read of x0 reads no load's destination (R20, R206, R208). (Open points:
DEDUCED, log 15.) -/
def readMiss (s : State) (y : Syl) (bad : Bool) : Option Miss :=
  if s.sqOn (sylSq y) then
    s.core.misses.find? fun m => m.bad == bad && (m.vec || m.reg != 0) && (sylReads y).contains (if m.vec then .v m.reg else .x m.reg)
  else none

/-- The syllables of the issuing bundle that are left, lowest slot first (R22); they stop at a trap, a hold, or the debugger. -/
def runSlots : Nat → State → Out
  | 0, s => .next s
  | n + 1, s =>
    match s.core.front.run with
    | none => .next s
    | some r =>
      match r.todo with
      | [] => .next s
      | w :: _ =>
        let s := s.modRun fun r => { r with slot := w.1, word := w.2 }
        match (if r.bad == some w.1 then none else slotSyl w) with
        | none => .next s.illegal
        | some y =>
          match s.readMiss y true with
          | some m => .next (s.raiseMiss m)
          | none =>
            match sylExec y s with
            | .next t =>
              if t.core.front.run.isNone then .next t
              else if t.core.front.halted then .next t.dropHead
              else if t.core.front.hold != .none then .next t
              else runSlots n t.dropHead.noteEnded
            | .fault e => .fault e
            | .refused e => .refused e

/-- Run the slots that are left; the bundle ends when none is. -/
def runBundle (s : State) : Out :=
  match s.runSlots ((s.core.front.run.map fun r => r.todo.length).getD 0) with
  | .next t =>
    .next (match t.core.front.run with
      | none => t
      | some r => if r.todo.isEmpty && !t.core.front.halted && t.core.front.hold == .none then t.endBundle else t)
  | .fault e => .fault e
  | .refused e => .refused e

/-! ### The entry of a bundle (R19 to R21, R25, R28, R44, R254, R283, R304, R389) -/

/-- Does the counter that a wait names stand below its value? A counter that cannot be read is the syllable's own matter (R304). -/
def counterShort (s : State) (va target : Word) : Bool :=
  match (s.ctx s.bound.ctx).translate? va.toNat .rd with
  | none => false
  | some c =>
    if s.isRemote c.ia ∨ va.toNat % 8 ≠ 0 then false
    else
      match s.peekPa? c.ia with
      | none => false
      | some pa => ((s.homeRead c.ia pa 8).2.map leNat).any fun v => decide (v < target.toNat)

/-- Does the syllable hold its bundle at entry, with no slot committed (R254, R304, R389)? (Open points: DEDUCED, log 17.) -/
def gateClosed (s : State) : Syl → Bool
  | .instr (.barw d g) => (s.barrierResult g.toNat (s.x d)).isNone
  | .instr (.ccwait a b) => s.counterShort (s.x a) (s.x b)
  | .late (.netwait a b) => s.counterShort (s.x a) (s.x b)
  | _ => false

/-- The state of a syllable's issue stall at entry, when it stalls (R20). (Open points: DEDUCED, log 17.) -/
def stallOf (s : State) (w : Nat × Nat) (y : Syl) : Option State :=
  if sylStalls y then
    match sylExec y (s.modRun fun r => { r with slot := w.1, word := w.2 }) with
    | .next t => if t.core.front.hold = .stall then some t else none
    | _ => none
  else none

/-- Stop at the entry of the bundle, which has not issued; that holds every coupled member (R243). (Open points: DEDUCED, log 17.) -/
def holdEntry (s : State) (why : HoldWhy) : State := (s.modFront fun f => { f with run := none, hold := why }).fuseEntry false

/-- The bundle issues, unless a gate or a stall holds it. (Open points: DEDUCED, log 17.) -/
def tryIssue (s : State) (r : Run) : Out :=
  let q := s.modFront fun f => { f with run := some r }
  let syls := (r.todo.takeWhile fun w => r.bad.all fun k => decide (w.1 < k)).filterMap fun w => (slotSyl w).map fun y => (w, y)
  if syls.any fun e => q.gateClosed e.2 then .next (s.holdEntry .fetch)
  else if syls.any fun e => (q.readMiss e.2 false).isSome then .next (s.holdEntry .stall)
  else
    match syls.findSome? fun e => q.stallOf e.1 e.2 with
    | some t => .next (t.holdEntry .stall)
    | none =>
      let g := s.fuseEntry true
      if !g.fuseGo then .next (g.modFront fun f => { f with run := none, hold := .fetch })
      else
      let s := g.notePreempt.modFront fun f => { f with reenter := none, idemNext := false, marked := false }
      if r.todo.isEmpty && fld r.hdr 24 8 == 0 then
        match execEmptyBundle (BitVec.ofNat 6 (fld r.hdr 12 6)) s with
        | .next t => .next t.passOne
        | o => o
      else (s.modFront fun f => { f with run := some r }).runBundle

/-- The bundle at `addr` as it begins to issue; TRET re-enters it at its slot with the operands of its image (R25). -/
def runOf (s : State) (addr p : Nat) (b : Stored) (ib : Bool) : Run :=
  let base : Run := { addr := addr, pos := p, hdr := b.hdr, todo := b.words, bad := staticBad b.words ib ((s.core.front.reenter.map Snap.slot).getD 0)
                      byIdem := s.core.front.idemNext }
  match s.core.front.reenter with
  | none => base
  | some e =>
    { base with todo := b.words.filter fun w => decide (e.slot ≤ w.1), image := e.image, wrote := e.wrote, latched := e.latched, after := e.after
                idem := e.idem, skipTo := e.skipTo, byIdem := e.byIdem, completes := e.completes, rowRead := e.rowRead, line := e.line }

/-- The bundle at position `p` of the current segment is entered. (Open points: DEDUCED, log 16, 23.) -/
def enterBundle (s : State) (p : Nat) : Out :=
  match s.core.front.cur.bind fun g => (g.bundles[p]?).map fun b => (g.frame + b.off, b) with
  | none => .next s
  | some (addr, b) =>
    let s := s.resumeSnap
    let f := s.core.front
    let fresh := ((f.reenter.map Snap.slot).getD 0) == 0
    let byIdem := f.idemNext || (f.reenter.map Snap.byIdem).getD false
    let ib := bitAt b.hdr 18 || byIdem
    if fresh && s.headerIllegal b.hdr b.words ib then
      .next (s.takeTrap { code := 0x01, detail := BitVec.ofNat 32 ((tget? b.words 0).getD 0) } 0 0 addr addr)
    else
      let s := if ib && fresh && !f.marked then ((s.markRegion addr).modTask fun b => { b with idem := byIdem }).modFront fun f => { f with marked := true } else s
      match s.entryAcquire with
      | (s, .wait) => .next (s.holdEntry .fetch)
      | (s, .race c) => .next (s.takeTrap c 0 0 addr addr)
      | (s, .done) => s.tryIssue (s.runOf addr p b ib)

/-- The next bundle is looked for, at most `n` times in a cycle, and entered. -/
def enter : Nat → State → Out
  | 0, s => .next s
  | n + 1, s =>
    match s.due with
    | (_, .fail t) => .next t
    | (t, .at p) => t.enterBundle p
    | (_, .wait t) =>
      if 0 < t.core.front.bubbles then .next t.passOne
      else if t.core.front.hold != .none then .next t
      else enter n t

/-- One cycle of the issue end: the bundle that has begun, a bubble or empty cycle, a pre-emption, or the entry of the next bundle. -/
def issue (s : State) : Out :=
  if s.core.front.run.isSome then s.runBundle
  else if s.clusterHeld then .next (s.modFront fun f => { f with run := none, hold := .fetch })
  else if 0 < s.core.front.bubbles ∨ 0 < s.core.front.emptyLeft then .next s.passOne
  else
    match s.takePreempt s.coreId with
    | (s, true) => .next s
    | (s, false) => enter 3 s

/-! ### Leaving BOUND (R17, R18, R29, R90, R91, R102, R294) -/

/-- The counter that a task parks on is evaluated at once (R91). (Open points: DEDUCED, log 25.) -/
def parkCheck (s : State) (ia : Nat) : State :=
  match s.peekPa? ia with
  | none => s
  | some pa =>
    match (s.homeRead ia pa 8).2 with
    | none => s
    | some bs => s.wakeCounter ia (leNat bs)

/-- Is an entry of the ring free (R102)? -/
def ringFree (s : State) (c ring : Nat) : Bool :=
  let w := if ring < 64 then tget 0 (s.ctx c).rings ring else tget 0 (s.ctx c).netRings (ring - 64)
  match (s.ringWords s.myDie w).2 with
  | some (res, _, con) => decide (res - con < 2 ^ ringLog w)
  | none => false

/-- PARKED for a reason. -/
def parkTask (s : State) (launch index : Nat) (why : ParkWhy) : State :=
  s.modTaskRec launch index fun t => { t with state := .parked, park := some why }

/-- A suspension begins a region at the bundle at which the task resumes, on which an IDEM may have set IB (R28, R89, R90). -/
def markResume (s : State) (resume : Nat) : State := (s.markRegion resume).modTask fun b => { b with idem := s.core.front.idemNext }

/-- The transition itself, once copy jobs and results allow it. (Open points: DEDUCED, log 92.) -/
def depart (s : State) (a : After) (resume : Nat) : State :=
  let kind := if s.bound.affine then 2 else 1
  let c := s.bound.ctx
  match a with
  | .exit => s.exitBound
  | .yield => (s.markResume resume).leaveBound resume kind false false fun s l i => s.makeReady l i id
  | .park ctr target =>
    (s.markResume resume).leaveBound resume kind false false fun s l i => (s.parkTask l i (.counter ctr.toNat target)).parkCheck ctr.toNat
  | .remote x =>
    (s.markResume resume).leaveBound resume 3 false false fun s l i =>
      let s := s.parkTask l i (.remote x false)
      let d := s.holderOf x.ia
      match s.task? l i, (s.peer d).state with
      | some t, .up => s.checkLoad d t
      | _, _ => s
  | .fullRing r =>
    (s.markResume resume).leaveBound resume kind false false fun s l i =>
      let s := s.parkTask l i (.ring c r)
      if s.ringFree c r then s.makeReady l i id else s
  | .preempt => s.leaveBound resume kind true false fun s l i => s.makeReady l i id
  | .abort ia =>
    (s.modFront fun f => { f with idemNext := s.bound.idem }).leaveBound s.bound.rstart.toNat kind true true fun s l i =>
      let page := ia / 65536
      let (s, ok) := s.fltqAdd s.myDie page
      s.modTaskRec l i fun t => { t with state := .faultWait, pages := [page], unqueued := if ok then [] else [page] }

/-- A task that leaves waits for its copy jobs, and at EXIT for its SENDs (R90, R380); a load that it would leave behind on lost data raises its fault at
the bundle at which the task would resume: no syllable suspends there (R208). (Open points: DEDUCED, log 15, 92.) -/
def leaveStep (s : State) (a : After) (resume : Nat) : State :=
  let s := s.arriveAll
  match s.badMiss? with
  | some m =>
    ((s.modCore fun c => { c with misses := c.misses.erase m }).modFront fun f => { f with leaving := none }).takeTrap
      (s.lossCause m.ia ((s.peekPa? m.ia).getD 0)) 0 0 resume resume
  | none =>
  if !s.core.copy.jobs.isEmpty || (a == .exit && s.chanPending s.resNo) then s.hold else s.depart a resume

/-! ### What the other agents do while a core waits -/

/-- The channels of the current core: pairings, elements and credits of entries with a local peer (R373, R379, R380). -/
def chanProgress (s : State) : State :=
  s.chanKeys.foldl (fun s ch =>
    let s := if s.chanCanPair s.coreId ch then s.chanPair s.coreId ch 0 true else s
    let c := s.chanAt s.coreId ch
    let s := if c.kind < 2 ∧ c.state = .opened then c.pending.foldl (fun s _ => s.chanDeliver s.coreId ch) s else s
    s.modChan ch fun c => if c.kind < 2 ∧ c.state = .opened ∧ !c.recv then { c with cred := c.cred + c.owed, owed := 0 } else c) s

/-- The superstep that the current core awaits ends if every participant has arrived (R283). -/
def sstepProgress (s : State) : State :=
  match s.core.sstep with
  | some (pkg, _) => s.sstepRelease s.bound.launch (s.stepKey pkg)
  | none => s

/-- The current core's engines and channels; FREEZE stops them (R99). -/
def coreProgress (s : State) : State :=
  let s := s.arriveAll.expandSucc.spireFlush
  if s.frozen then s.sstepProgress else s.jobStart.jobEnd.chanProgress.sstepProgress

/-- The command processor and the graph walker: one ring entry, every launch that has ended, every active node, every job. -/
def unitProgress (s : State) : State :=
  let s := s.pollVisit
  let s := (s.sched.launches.filter fun l => s.launchEnded l).foldl completeLaunch s
  let s := s.sched.graphs.foldl (fun s g => g.active.foldl (fun s n =>
    match s.graph? g.id with
    | some g => if g.active.contains n && !g.complete then s.nodeAct g n else s
    | none => s) s) s
  let s := s.sched.graphs.foldl (fun s g => s.graphSettle g.id) s
  s.sched.jobs.foldl jobStep s

/-- The network engine visits a ring, unless a group still has to exchange its hash (R381, R388). -/
def netProgress (s : State) : State :=
  if s.net.groups.all fun kv => !kv.2.en || kv.2.hash.isSome then s.netVisit true else s

/-- The scheduler binds the task that its order puts first among those that placement has a core for (R296 to R300). (Open points: DESIGN CHOICE, log 6.) -/
def schedule (s : State) : State :=
  let best := s.sched.tasks.foldl (fun best t =>
    if t.state == .ready && (s.placement t).isSome && (match best with
        | none => true
        | some b => s.before t b) then some t else best) none
  match best.bind s.placement with
  | none => s
  | some c =>
    match s.choice c with
    | some t => s.bindOn c t.launch t.index
    | none => s

/-- Everything that runs beside a core that waits. (Open points: DESIGN CHOICE, log 6.) -/
def progress (s : State) : State := s.coreProgress.unitProgress.netProgress.settleStage.serveWaiting.noteRoutes.schedule

/-- The next core that has a task to run, in index order. -/
def nextCore (s : State) : Nat :=
  let l := sortBy id (s.liveCores.filter fun c => (s.coreAt c).task.isSome && !(s.coreAt c).front.halted)
  (l.find? fun c => decide (s.coreId < c)).getD (l.headD s.coreId)

/-- The core waits or is idle: the other agents act, and the next core with a task is the current one. -/
def giveWay (s : State) : State :=
  let s := s.progress
  s.focus s.nextCore

/-! ### The cycle -/

/-- A cycle of the current core begins: its clock and what runs by it, the lease, and the time limits of the core (R6, R97, R171, R242, R261, R305, R307,
R342, R353). (Open points: DESIGN CHOICE, log 6, 96.) -/
def beginCycle (s : State) : State :=
  let s := s.coreClock.settleLease
  if s.sliceOver s.coreId then s.askPreempt s.coreId else s

/-- At a bundle boundary a CANCEL ends the bound task, and there or in a hold the watchdog (R17, R307). (Open points: DEDUCED, log 18.) -/
def boundaryKill (s : State) : State :=
  let f := s.core.front
  let cancel := (s.task? s.bound.launch s.bound.index).bind Task.cancel
  match (if f.run.isSome then none else cancel) with
  | some lv => if f.emptyLeft != 0 then s else s.killBound { code := 0x17, detail := BitVec.ofNat 32 lv } 0
  | none => if s.watchdogDue && f.emptyLeft == 0 && (f.run.isNone || f.hold != .none) then s.watchdogKill else s

/-- A core's cycle has passed: the group and the line of its cluster settle, and a core that waits gives way. -/
def endCycle (s : State) : State :=
  let s := match execFuseTimeout s.coreId s with
    | .next t => t
    | _ => s
  let k := s.cluster (clusterOf s.coreId)
  let s := if k.groups.isEmpty && k.line.isEmpty then s else s.clusterSettle (clusterOf s.coreId)
  let s := s.drainLog s.coreId
  if s.core.front.hold != .none then s.giveWay else s

/-- One cycle of the current core. (Open points: DESIGN CHOICE, log 8.) -/
def cycle (s : State) : Out :=
  let s := s.beginCycle
  if s.core.task.isNone || s.core.front.halted then .next s.giveWay
  else
    let s := s.boundaryKill
    if s.core.task.isNone then .next s
    else
      let s := s.modFront fun f => { f with hold := .none }
      match s.core.front.leaving with
      | some (a, resume) => .next (s.leaveStep a resume).endCycle
      | none =>
        match s.issue with
        | .next t => .next t.endCycle
        | .fault e => .fault e
        | .refused e => .refused e

/-! ### Moves -/

/-- May the instruction come to the machine as an event? It is well formed, and no syllable encodes it. (Open points: DESIGN CHOICE, log 6, 85.) -/
def eventOk (i : Instr) : Bool := i.wf && (encode i).isNone

/-- One move: the next one of the agenda, else a cycle of the current core. (Open points: DESIGN CHOICE, log 6, 80.) -/
def move (s : State) : Out :=
  match s.agenda with
  | [] => s.cycle
  | .act c :: rest => if c < 352 then (({ s with agenda := rest } : State).focus c).cycle else .fault .noSuchCore
  | .event i :: rest => if eventOk i then exec i { s with agenda := rest } else .next { s with agenda := rest }

/-- One move, after which a lease that has run out has ended (R342). (Open points: DESIGN CHOICE, log 6, 8; DEDUCED, log 62.) -/
def moveOn (s : State) : Out :=
  match s.move with
  | .next t => .next t.settleLease
  | .fault e => .fault e
  | .refused e => .refused e

/-! ### One word in the loop buffer (R39 to R44) -/

/-- The FC field that a bundle with this syllable in S0 has (R45). -/
def fcOf : Option Syl → Nat
  | some (.instr (.fuse _ _)) => 1
  | some (.instr .decpl) => 2
  | some (.late (.rejn _)) => 3
  | _ => 0

/-- The header syllable of a bundle that holds this word alone (R43): IB, SR and FC as the syllable asks. (Open points: DESIGN CHOICE, log 13.) -/
def headerFor (slot w : Nat) : Nat :=
  let y := slotSyl (slot, w)
  2 ^ (24 + slot) + fcOf y * 2 ^ 20 + (y == some (.instr .snaprel)).toNat * 2 ^ 19 + (y.any sylEnds).toNat * 2 ^ 18

/-- A segment of a bundle with one word, in the lowest slot that its opcode may stand in, and of an empty last bundle. (Open points: DESIGN CHOICE, log 13.) -/
def oneBundle (frame w : Nat) : Segment :=
  let slot := (firstSlot (fld w 25 7)).getD 0
  { frame := frame, next := 0, len := 28, word0 := 0, word8 := 0x2001C, bad := none
    bundles := [{ off := 16, hdr := headerFor slot w, words := [(slot, w)] }, { off := 24, hdr := 2 ^ 22, words := [] }] }

/-- The word is what the current core issues next: the current half holds it, a task is bound, and nothing else is due before it. (Open points: DESIGN CHOICE, log 13.) -/
def placeWord (s : State) (w : Nat) : State :=
  { s with
    agenda := []
    core := { s.core with
      task := some s.bound
      sstep := none
      preempt := false
      front := { freeze := s.core.front.freeze, step := s.core.front.step, cur := some (oneBundle 0 w) } } }

end State

end Sys2Proof.Machine
end

