-- ==== Sys2Proof/Machine/Step.lean ====
section
/-! DEFINITION. The step, and the placing of one instruction where the step takes its next one. -/

namespace Sys2Proof.Machine

/-- One step: the next move of the agenda, else one cycle of the current core. -/
def step (s : State) : Host.Outcome State Fault Refusal := s.moveOn

/-- The state with one instruction word, alone in a bundle of the current loop-buffer half, as what the current core issues next
(assumption log 13). -/
def State.withFetchWord (s : State) (nbits w : Nat) : State := if nbits = 32 then s.placeWord w else s

end Sys2Proof.Machine
end

