-- ==== Sys2Proof/Safety.lean ====
section
/-! DEFINITION. The terms in which claims are stated: an instruction that completes, what a frame keeps, and the invariant of home memory. -/

namespace Sys2Proof.Machine

/-- The instruction answers a next state, and `P` holds of that state. -/
def Completes (i : Instr) (s : State) (P : State → Prop) : Prop := ∃ t, exec i s = .next t ∧ P t

/-- Byte `a` of home memory. -/
def State.homeByte (s : State) (a : Nat) : Byte := cget s.mem.cells a

/-- Home memory is in its canonical form (assumption log 3). -/
def State.memWf (s : State) : Bool := Memory.wf s.mem.cells

/-- `t` differs from `s` at most in the results in flight and in what is known of the bundle that issues: every register, flag, special register,
accumulator, byte of scratchpad and byte of memory is as before (R19, R22). -/
def OnlyResults (s t : State) : Prop :=
  t = { s with core := { s.core with flight := t.core.flight, front := { s.core.front with run := t.core.front.run } } }

/-- The results in flight of `t` are those of `s`, and further ones that `P` describes. -/
def NewResults (s t : State) (P : Flight → Prop) : Prop := ∃ l, t.core.flight = s.core.flight ++ l ∧ ∀ f ∈ l, P f

/-- `t` differs from `s` at most in the results in flight, the statistics counters and what is known of the bundle that issues (R140): every register, flag, accumulator,
byte of scratchpad and byte of memory is as before. -/
def OnlyVector (s t : State) : Prop :=
  t = { s with core := { s.core with
    flight := t.core.flight, front := { s.core.front with run := t.core.front.run }
    vec := { s.core.vec with counts := t.core.vec.counts, pcounts := t.core.vec.pcounts } } }

/-- The answer to `i` is a next state with one more result in flight: a write of vector register `d` under the mask `m`, usable `lat` cycles later, whose element `e` of
width `w` in an enabled lane is `g e`; nothing else changes but counters of events (R137, R139, R140). -/
def VecWrites (i : Instr) (s : State) (d : BitVec 5) (w : Nat) (m : Pred) (lat : Nat) (g : Nat → Nat) : Prop :=
  Completes i s fun t => OnlyVector s t ∧ ∃ val, t.core.flight = s.core.flight ++ [⟨lat, .v d.toNat m val⟩] ∧
    ∀ e, e < 4096 / w → m.getLsbD (e / (32 / w)) = true → vElem w val e = g e % 2 ^ w

/-- The answer to `i` is `s` with predicate `p` written `lat` cycles later, bit `k` being `g k` (R67, R137). -/
def PredWrites (i : Instr) (s : State) (p : BitVec 4) (lat : Nat) (g : Nat → Prop) : Prop :=
  ∃ val : Pred, exec i s = .next (s.setP p val lat) ∧ ∀ k, k < 128 → (val.getLsbD k = true ↔ g k)

/-- The matrix engine accepts the task's syllables: no handler runs, the claim is held, and this is not an MCFG's drain slot (R164, R170, R178). -/
def MxOpen (s : State) : Prop :=
  s.core.regs.z.stat.tm = false ∧ s.core.front.released = false ∧ s.core.mx.claim = true ∧ s.core.mx.mcfgAt.map (fun c => c + 1) ≠ some s.core.cycle

/-- The answer to `i` queues the command `c` on plane `p`, whose kind becomes `k`; `w` swaps the gm registers one cycle later (R171, R174, R214). -/
def MxQueued (i : Instr) (s : State) (c : MxCmd) (p : Nat) (k : PlaneKind) (w : Bool) : Prop :=
  Completes i s fun t => t.core.mx.queue = s.core.mx.queue ++ [c] ∧ t.core.mx.kind p = k ∧ (∀ q, q ≠ p → t.core.mx.kind q = s.core.mx.kind q) ∧
    t.core.flight = s.core.flight ++ (if w then [⟨1, .swap false 0xF⟩] else []) ∧ t.core.mx.slots = s.core.mx.slots ∧ t.core.regs = s.core.regs ∧
    t.core.spad = s.core.spad ∧ t.mem = s.mem ∧ t.ticket = s.ticket + 1

/-- A read-modify-write of a variable of this device passes from `v` on without a wait or a race: room at the sync home, the release part and its publication, the acquire part when
`acq` holds, the compaction of records on the word, and the operation, which leaves `z` and answers `old` (R270 to R272, R281). -/
def RmwPasses (v : State) (ia pa n : Nat) (f : Word → Option Word) (eager acq : Bool) (z : State) (old : Word) : Prop :=
  ∃ p w st e y c, v.core.released = none ∧ v.imageWait ia = false ∧ v.publishRoom ia v.myDie = (p, true) ∧ p.releasePart = (w, st, none) ∧
    (let q := w.publish ia w.myDie st
     (if eager then q.forceDie q.myDie st else (q, true)) = (e, true)) ∧
    (let r := e.modCore fun c => { c with released := none }
     (if acq then r.acquirePart (varOf ia) false (r.varSources ia) eager else (r, Acq.done)) = (y, .done)) ∧
    y.compactAt ia n = (c, true) ∧ c.atomicAt ia pa n f = (z, old)

/-- Nothing at memory makes a syllable that synchronises on the variable wait or race: no log holds a record, and only dies have released on it (R270 to R272). -/
def SyncQuiet (v : State) (ia : Nat) : Prop := v.mem.recs = [] ∧ v.coreId < 352 ∧ ∀ kv ∈ v.varSources ia, kv.1 < 4

/-- A read-modify-write of the variable finds nothing to wait for: memory is quiet, no release is half done, the round buffer and the sync home have room (R270, R281, R406). -/
def RmwReady (v : State) (ia : Nat) : Prop :=
  SyncQuiet v ia ∧ v.core.released = none ∧ v.imageWait ia = false ∧ (v.publishRoom ia v.myDie).2 = true

/-- The results in flight of `t` are those of `s` and a write of x register `d`, usable `lat` cycles later; a write of x0 is discarded (R67). -/
def WritesX (s t : State) (d : BitVec 6) (w : Word) (lat : Nat) : Prop :=
  t.core.flight = s.core.flight ++ (if d = 0 then [] else [⟨lat, .x d.toNat w⟩])

/-- The bundle that issues is known to end its region (R28). -/
def EndsRegion (t : State) : Prop := ∀ r, t.core.front.run = some r → r.ended = true

/-- The answer `o` accepts a copy job (R216 to R219, R223): whenever the handle, the alignment, both sides, their pages, the footprints and the queue let it, one job
with this geometry joins the queue, and nothing else that a program can read has changed but the shape registers that `swap` exchanges. -/
def CopyAccepted (s : State) (dir : JobDir) (src dst : Word) (ext : List Nat) (str dstr : List Int) (w : Nat) (hd : BitVec 4) (swap : Bool) (o : Out) : Prop :=
  ∀ (x y : Nat) (a b : Side) (u : State),
    (hd = 0 ∨ s.handleWait hd (dir == .sh) 1 = some true) →
    x = (src.toNat + if hd ≠ 0 ∧ dir = .sh then (s.h hd).headSlot else 0) % 2 ^ 64 →
    y = (dst.toNat + if hd ≠ 0 ∧ dir ≠ .sh then (s.h hd).tailSlot else 0) % 2 ^ 64 →
    x % w = 0 → y % w = 0 → (∀ z ∈ str ++ dstr, z % (w : Int) = 0) →
    (∀ k, (if dir = .hs ∨ dir = .rm then s.globalSide x (interval x ext str w) .rd k else s.spadSide x (interval x ext str w) k) = k s a) →
    (∀ k, (if dir = .sh ∨ dir = .rm then s.globalSide y (interval y ext dstr w) .w k else s.spadSide y (interval y ext dstr w) k) = k s b) →
    (∀ k, State.walkPages (fun ia => if a.glob && decide (a.lo ≤ ia) && decide (ia < a.hi) then a.inc else b.inc) k (State.sidePages a ++ State.sidePages b) s = k u) →
    u.det = false → u.core.copy.jobs.length < 16 →
    ∃ t j, o = .next t ∧ t.core.copy.jobs = u.core.copy.jobs ++ [j] ∧ j.dir = dir ∧ j.src = a.base ∧ j.dst = b.base ∧ j.w = w ∧ j.ext = ext ∧
      j.str = str ∧ j.dstr = dstr ∧ j.hd = hd.toNat ∧ j.running = false ∧ j.foot = { reads := a.range, writes := b.range } ∧
      t.core.flight = u.core.flight ++ (if swap then [⟨1, .swap true 0xF⟩] else []) ∧ t.core.regs.x = u.core.regs.x ∧ t.core.regs.v = u.core.regs.v ∧
      t.core.spad = u.core.spad ∧ t.mem = u.mem

end Sys2Proof.Machine
end

