-- ==== Sys2Proof/Certificates/Slice0/Obligations.lean ====
section
/-! DEFINITION. The statements for the provers, one per group of rules of the spec. -/

open Sys2Proof Sys2Proof.Machine

/-- R69: the integer operations of two registers and their .W forms write their results with latency 1. R70, R71: the immediate forms, LUI and AUB always
execute and write with latency 1; AUB adds to the address of the stored bundle. -/
def Obligations.ScalarAluResults : Prop :=
  (∀ (s : State) (d a b : BitVec 6) (q : BitVec 3), s.sqOn q = true →
    exec (.add d a b q) s = .next (s.setX d (s.x a + s.x b) 1) ∧
    exec (.sub d a b q) s = .next (s.setX d (s.x a - s.x b) 1) ∧
    exec (.and d a b q) s = .next (s.setX d (s.x a &&& s.x b) 1) ∧
    exec (.or d a b q) s = .next (s.setX d (s.x a ||| s.x b) 1) ∧
    exec (.xor d a b q) s = .next (s.setX d (s.x a ^^^ s.x b) 1) ∧
    exec (.shl d a b q) s = .next (s.setX d (s.x a <<< ((s.x b).toNat % 64)) 1) ∧
    exec (.shr d a b q) s = .next (s.setX d (s.x a >>> ((s.x b).toNat % 64)) 1) ∧
    exec (.sra d a b q) s = .next (s.setX d ((s.x a).sshiftRight ((s.x b).toNat % 64)) 1) ∧
    exec (.addW d a b q) s = .next (s.setX d (((s.x a).truncate 32 + (s.x b).truncate 32).signExtend 64) 1) ∧
    exec (.subW d a b q) s = .next (s.setX d (((s.x a).truncate 32 - (s.x b).truncate 32).signExtend 64) 1) ∧
    exec (.andW d a b q) s = .next (s.setX d (((s.x a).truncate 32 &&& (s.x b).truncate 32).signExtend 64) 1) ∧
    exec (.orW d a b q) s = .next (s.setX d (((s.x a).truncate 32 ||| (s.x b).truncate 32).signExtend 64) 1) ∧
    exec (.xorW d a b q) s = .next (s.setX d (((s.x a).truncate 32 ^^^ (s.x b).truncate 32).signExtend 64) 1) ∧
    exec (.shlW d a b q) s = .next (s.setX d (((s.x a).truncate 32 <<< ((s.x b).toNat % 32)).signExtend 64) 1) ∧
    exec (.shrW d a b q) s = .next (s.setX d (((s.x a).truncate 32 >>> ((s.x b).toNat % 32)).signExtend 64) 1) ∧
    exec (.sraW d a b q) s = .next (s.setX d ((((s.x a).truncate 32).sshiftRight ((s.x b).toNat % 32)).signExtend 64) 1)) ∧
  (∀ (s : State) (d a : BitVec 6) (i : BitVec 13) (n : BitVec 7) (u : BitVec 19),
    exec (.addi d a i) s = .next (s.setX d (s.x a + i.signExtend 64) 1) ∧
    exec (.andi d a i) s = .next (s.setX d (s.x a &&& i.signExtend 64) 1) ∧
    exec (.ori d a i) s = .next (s.setX d (s.x a ||| i.signExtend 64) 1) ∧
    exec (.xori d a i) s = .next (s.setX d (s.x a ^^^ i.signExtend 64) 1) ∧
    exec (.shli d a n) s = .next (s.setX d (s.x a <<< n.toNat) 1) ∧
    exec (.shri d a n) s = .next (s.setX d (s.x a >>> n.toNat) 1) ∧
    exec (.srai d a n) s = .next (s.setX d ((s.x a).sshiftRight n.toNat) 1) ∧
    exec (.slti d a i) s = .next (s.setX d (if (s.x a).toInt < (i.signExtend 64).toInt then 1 else 0) 1) ∧
    exec (.sltiu d a i) s = .next (s.setX d (if (s.x a).toNat < (i.signExtend 64).toNat then 1 else 0) 1) ∧
    exec (.lui d u) s = .next (s.setX d ((u ++ (0 : BitVec 13)).signExtend 64) 1) ∧
    exec (.aub d u) s = .next (s.setX d (BitVec.ofNat 64 s.bundleAddr + (u ++ (0 : BitVec 13)).signExtend 64) 1))

/-- R72: products with latency 3 and quotients with latency 20, with the two edge cases of division; a value of fn that the table does not name is no
instruction and raises ILLEGAL. -/
def Obligations.MultiplyDivideResults : Prop :=
  (∀ (s : State) (d a b : BitVec 6) (q : BitVec 3), s.sqOn q = true →
    exec (.mul d a b q) s = .next (s.setX d (s.x a * s.x b) 3) ∧
    exec (.mulh d a b q) s = .next (s.setX d (BitVec.ofInt 64 ((s.x a).toInt * (s.x b).toInt / 2 ^ 64)) 3) ∧
    exec (.mulhu d a b q) s = .next (s.setX d (BitVec.ofNat 64 ((s.x a).toNat * (s.x b).toNat / 2 ^ 64)) 3) ∧
    exec (.madd d a b q) s = .next (s.setX d (s.x d + s.x a * s.x b) 3) ∧
    exec (.div d a b q) s = .next (s.setX d (if s.x b = 0 then BitVec.allOnes 64 else BitVec.ofInt 64 ((s.x a).toInt.tdiv (s.x b).toInt)) 20) ∧
    exec (.divu d a b q) s = .next (s.setX d (if s.x b = 0 then BitVec.allOnes 64 else BitVec.ofNat 64 ((s.x a).toNat / (s.x b).toNat)) 20) ∧
    exec (.rem d a b q) s = .next (s.setX d (if s.x b = 0 then s.x a else BitVec.ofInt 64 ((s.x a).toInt.tmod (s.x b).toInt)) 20) ∧
    exec (.remu d a b q) s = .next (s.setX d (if s.x b = 0 then s.x a else BitVec.ofNat 64 ((s.x a).toNat % (s.x b).toNat)) 20)) ∧
  BitVec.ofInt 64 ((-2 ^ 63 : Int).tdiv (-1)) = BitVec.ofInt 64 (-2 ^ 63) ∧ BitVec.ofInt 64 ((-2 ^ 63 : Int).tmod (-1)) = 0 ∧
  (∀ (d a b : BitVec 6) (q : BitVec 3) (op fn : Nat), ((op = 0x10 ∧ 3 ≤ fn) ∨ (op = 0x11 ∧ 4 ≤ fn) ∨ (op = 0x19 ∧ 1 ≤ fn)) → fn < 16 →
    decodeTableWord 32 (op * 2 ^ 25 + d.toNat * 2 ^ 19 + a.toNat * 2 ^ 13 + b.toNat * 2 ^ 7 + fn * 2 ^ 3 + q.toNat) = none)

/-- R73: comparison, selection, counting and bit-field forms. -/
def Obligations.CompareSelectFieldResults : Prop :=
  ∀ (s : State) (d a b : BitVec 6) (f : BitVec 4) (q : BitVec 3), s.sqOn q = true →
    exec (.min d a b q) s = .next (s.setX d (if (s.x b).toInt < (s.x a).toInt then s.x b else s.x a) 1) ∧
    exec (.max d a b q) s = .next (s.setX d (if (s.x a).toInt < (s.x b).toInt then s.x b else s.x a) 1) ∧
    exec (.minu d a b q) s = .next (s.setX d (if (s.x b).toNat < (s.x a).toNat then s.x b else s.x a) 1) ∧
    exec (.maxu d a b q) s = .next (s.setX d (if (s.x a).toNat < (s.x b).toNat then s.x b else s.x a) 1) ∧
    exec (.slt d a b q) s = .next (s.setX d (if (s.x a).toInt < (s.x b).toInt then 1 else 0) 1) ∧
    exec (.sltu d a b q) s = .next (s.setX d (if (s.x a).toNat < (s.x b).toNat then 1 else 0) 1) ∧
    exec (.seq d a b q) s = .next (s.setX d (if s.x a = s.x b then 1 else 0) 1) ∧
    exec (.sne d a b q) s = .next (s.setX d (if s.x a = s.x b then 0 else 1) 1) ∧
    exec (.sel d a b f q) s = .next (s.setX d (if (s.p f).getLsbD 0 then s.x a else s.x b) 1) ∧
    exec (.addsc d a b f q) s = .next (s.setX d (s.x a + (s.x b <<< f.toNat)) 1) ∧
    exec (.clz d a q) s = .next (s.setX d (BitVec.ofNat 64 (clz (s.x a))) 1) ∧
    exec (.ctz d a q) s = .next (s.setX d (BitVec.ofNat 64 (ctz (s.x a))) 1) ∧
    exec (.popc d a q) s = .next (s.setX d (BitVec.ofNat 64 (popc (s.x a))) 1) ∧
    (let pos := (s.x b).toNat % 64
     let wid := min ((s.x b).toNat / 256 % 64 + 1) (64 - pos)
     let g := (s.x a).toNat / 2 ^ pos % 2 ^ wid
     exec (.bfx d a b q) s = .next (s.setX d (BitVec.ofInt 64 (sval wid g)) 1) ∧
     exec (.bfxu d a b q) s = .next (s.setX d (BitVec.ofNat 64 g) 1) ∧
     exec (.bfi d a b q) s = .next (s.setX d (BitVec.ofNat 64 ((s.x d).toNat % 2 ^ pos + (s.x a).toNat % 2 ^ wid * 2 ^ pos +
       (s.x d).toNat / 2 ^ (pos + wid) * 2 ^ (pos + wid))) 1)) ∧
    (s.x a ≠ 0 → (s.x a).getLsbD (63 - clz (s.x a)) = true ∧ ∀ k, 63 - clz (s.x a) < k → (s.x a).getLsbD k = false) ∧
    (s.x a ≠ 0 → (s.x a).getLsbD (ctz (s.x a)) = true ∧ ∀ k, k < ctz (s.x a) → (s.x a).getLsbD k = false) ∧
    (s.x a = 0 → clz (s.x a) = 64 ∧ ctz (s.x a) = 64)

/-- R74, R75: the FP32 forms act on bits [31:0] with latency 4, and leave bits [63:32] of a float or truth value 0. -/
def Obligations.ScalarFloatResults : Prop :=
  ∀ (s : State) (d a b : BitVec 6) (q : BitVec 3), s.sqOn q = true →
    (let x := (s.x a).toNat % 2 ^ 32
     let y := (s.x b).toNat % 2 ^ 32
     exec (.fadd d a b q) s = .next (s.setX d (BitVec.ofNat 64 (fp32.add x y).1) 4) ∧
     exec (.fsub d a b q) s = .next (s.setX d (BitVec.ofNat 64 (fp32.sub x y).1) 4) ∧
     exec (.fmul d a b q) s = .next (s.setX d (BitVec.ofNat 64 (fp32.mul x y).1) 4) ∧
     exec (.fmin d a b q) s = .next (s.setX d (BitVec.ofNat 64 (fp32.min x y)) 4) ∧
     exec (.fmax d a b q) s = .next (s.setX d (BitVec.ofNat 64 (fp32.max x y)) 4) ∧
     exec (.feq d a b q) s = .next (s.setX d (if (fp32.decode x).eq (fp32.decode y) then 1 else 0) 4) ∧
     exec (.flt d a b q) s = .next (s.setX d (if (fp32.decode x).lt (fp32.decode y) then 1 else 0) 4) ∧
     exec (.fle d a b q) s = .next (s.setX d (if (fp32.decode x).le (fp32.decode y) then 1 else 0) 4) ∧
     exec (.fcvtFi d a q) s = .next (s.setX d (fcvtInt (-2 ^ 63) (2 ^ 63 - 1) x) 4) ∧
     exec (.fcvtFu d a q) s = .next (s.setX d (fcvtInt 0 (2 ^ 64 - 1) x) 4)) ∧
    exec (.fcvtIf d a q) s = .next (s.setX d (BitVec.ofNat 64 (fp32.roundNE (decide ((s.x a).toInt < 0)) (s.x a).toInt.natAbs 1).1) 4) ∧
    exec (.fcvtUf d a q) s = .next (s.setX d (BitVec.ofNat 64 (fp32.roundNE false (s.x a).toNat 1).1) 4)

/-- R76, R77: SETP compares 64-bit values and writes its result to all 128 lanes of the predicate that xd[3:0] names, PLOG computes lane by lane on the
predicates that bits [3:0] of its fields name, with p0 read as all ones; each with latency 1, as a destination of its bundle. -/
def Obligations.PredicateResults : Prop :=
  ∀ (s : State) (p : BitVec 4) (a b : BitVec 6) (g h : BitVec 4) (q : BitVec 3),
    (s.sqOn q = true →
      exec (.setpEq p a b q) s = .next (s.setP p (if s.x a = s.x b then BitVec.allOnes 128 else 0) 1) ∧
      exec (.setpNe p a b q) s = .next (s.setP p (if s.x a = s.x b then 0 else BitVec.allOnes 128) 1) ∧
      exec (.setpLt p a b q) s = .next (s.setP p (if (s.x a).toInt < (s.x b).toInt then BitVec.allOnes 128 else 0) 1) ∧
      exec (.setpLtu p a b q) s = .next (s.setP p (if (s.x a).toNat < (s.x b).toNat then BitVec.allOnes 128 else 0) 1) ∧
      exec (.setpGe p a b q) s = .next (s.setP p (if (s.x b).toInt ≤ (s.x a).toInt then BitVec.allOnes 128 else 0) 1) ∧
      exec (.setpGeu p a b q) s = .next (s.setP p (if (s.x b).toNat ≤ (s.x a).toNat then BitVec.allOnes 128 else 0) 1) ∧
      exec (.pand p g h q) s = .next (s.setP p (s.p g &&& s.p h) 1) ∧
      exec (.por p g h q) s = .next (s.setP p (s.p g ||| s.p h) 1) ∧
      exec (.pxor p g h q) s = .next (s.setP p (s.p g ^^^ s.p h) 1) ∧
      exec (.pnot p g q) s = .next (s.setP p (~~~(s.p g)) 1) ∧
      exec (.pmov p g q) s = .next (s.setP p (s.p g) 1)) ∧
    s.p 0 = BitVec.allOnes 128 ∧
    (let S := fun fn => some (0x1E * 2 ^ 25 + p.toNat * 2 ^ 19 + a.toNat * 2 ^ 13 + b.toNat * 2 ^ 7 + fn * 2 ^ 3 + q.toNat)
     let L := fun fn h => some (0x1F * 2 ^ 25 + p.toNat * 2 ^ 19 + g.toNat * 2 ^ 13 + h * 2 ^ 7 + fn * 2 ^ 3 + q.toNat)
     encode (.setpEq p a b q) = S 0 ∧ encode (.setpNe p a b q) = S 1 ∧ encode (.setpLt p a b q) = S 2 ∧ encode (.setpLtu p a b q) = S 3 ∧
     encode (.setpGe p a b q) = S 4 ∧ encode (.setpGeu p a b q) = S 5 ∧ encode (.pand p g h q) = L 0 h.toNat ∧ encode (.por p g h q) = L 1 h.toNat ∧
     encode (.pxor p g h q) = L 2 h.toNat ∧ encode (.pnot p g q) = L 3 0 ∧ encode (.pmov p g q) = L 4 0) ∧
    (p ≠ 0 → ∀ i : Instr, i ∈ [.setpEq p a b q, .setpNe p a b q, .setpLt p a b q, .setpLtu p a b q, .setpGe p a b q, .setpGeu p a b q,
      .pand p g h q, .por p g h q, .pxor p g h q, .pnot p g q, .pmov p g q] → sylDests (.instr i) = [.p p.toNat])

/-- R78 to R80: a taken transfer latches its target; BRA and CALL count positions from their own bundle and may reach into the successor segment, JR, JRL
and RET take a byte address; CALL and JRL write the address of the next stored bundle. R50: a branch to a position below 0, past the successor's last
bundle, or past the last segment is ILLEGAL. -/
def Obligations.TransfersLatch : Prop :=
  (∀ (s : State) (d a : BitVec 6) (o : BitVec 21) (q : BitVec 3) (g : Segment), s.sqOn q = true → s.core.front.cur = some g →
    (0 ≤ (s.pos : Int) + o.toInt → (s.pos : Int) + o.toInt < g.bundles.length →
      exec (.bra q o) s = .next (s.latch (.pos false ((s.pos : Int) + o.toInt).toNat)) ∧
      exec (.call q o) s = .next ((s.latch (.pos false ((s.pos : Int) + o.toInt).toNat)).setX 1 s.returnAddr 1)) ∧
    (∀ n, s.core.front.succ = some n → g.next ≠ 0 → n.bad = none → (g.bundles.length : Int) ≤ s.pos + o.toInt →
      (s.pos : Int) + o.toInt < g.bundles.length + n.bundles.length →
      exec (.bra q o) s = .next (s.latch (.pos true (((s.pos : Int) + o.toInt).toNat - g.bundles.length))) ∧
      exec (.call q o) s = .next ((s.latch (.pos true (((s.pos : Int) + o.toInt).toNat - g.bundles.length))).setX 1 s.returnAddr 1)) ∧
    exec (.jr a q) s = .next (s.latch (.addr (s.x a))) ∧
    exec (.jrl d a q) s = .next ((s.latch (.addr (s.x a))).setX d s.returnAddr 1) ∧
    exec (.ret q) s = .next (s.latch (.addr (s.x 1))) ∧
    (∀ b, g.bundles[s.pos + 1]? = some b → s.returnAddr = BitVec.ofNat 64 (g.frame + b.off)) ∧
    (g.bundles[s.pos + 1]? = none → s.returnAddr = BitVec.ofNat 64 (if g.next = 0 then g.frame + g.len else g.next + 16))) ∧
  (∀ (s : State) (o : BitVec 21) (q : BitVec 3) (g : Segment), s.sqOn q = true → s.core.front.cur = some g →
    ((s.pos : Int) + o.toInt < 0 ∨ ((g.bundles.length : Int) ≤ s.pos + o.toInt ∧ g.next = 0) ∨
      (∃ n, s.core.front.succ = some n ∧ n.bad = none ∧ (g.bundles.length + n.bundles.length : Int) ≤ s.pos + o.toInt)) →
    exec (.bra q o) s = .next s.illegal ∧ exec (.call q o) s = .next s.illegal)

/-- R81: JTAB past its table sets JOOR and transfers nothing; a readable entry is the target; any failure is JTAB_FAULT at the entry's address. -/
def Obligations.JtabOutcomes : Prop :=
  ∀ (s : State) (d a b : BitVec 6) (q : BitVec 3), s.sqOn q = true →
    ((s.x d).toNat ≤ (s.x a).toNat → exec (.jtab d a b q) s = .next (s.modStat fun t => { t with joor := true })) ∧
    ((s.x a).toNat < (s.x d).toNat → ∀ u r, s.readView64 (s.x b + 8 * s.x a) = (u, r) →
      exec (.jtab d a b q) s = .next (match r with
        | some t => u.latch (.addr t)
        | none => u.raise { code := 0x0D, addr := s.x b + 8 * s.x a }))

/-- R82, R86: LOOP, LOOPI and LOOPSR start a level over the bundles after their own; a count of 0 skips the body; a body that does not end in the segment
is ILLEGAL. -/
def Obligations.LoopsStart : Prop :=
  ∀ (s : State) (l : BitVec 2) (a b : BitVec 6) (n : BitVec 6) (i : BitVec 13) (q : BitVec 3),
    (s.segBundles.length ≤ s.pos + 1 + i.toNat →
      exec (.loop l a i) s = .next s.illegal ∧ exec (.loopi l n i) s = .next s.illegal) ∧
    (s.pos + 1 + i.toNat < s.segBundles.length →
      exec (.loopi l n i) s = .next (s.modFront fun f => { f with
        loops := tset f.loops l.toNat { start := s.pos + 1, stop := s.pos + 1 + i.toNat, rem := n.toNat + 1 } }) ∧
      (s.x a ≠ 0 → exec (.loop l a i) s = .next (s.modFront fun f => { f with
        loops := tset f.loops l.toNat { start := s.pos + 1, stop := s.pos + 1 + i.toNat, rem := (s.x a).toNat } })) ∧
      (s.x a = 0 → exec (.loop l a i) s = .next ((s.modFront fun f => { f with loops := terase f.loops l.toNat }).modRun
        fun r => { r with skipTo := some (s.pos + 1 + i.toNat + 1) }))) ∧
    (s.sqOn q = true → ∀ bs c, (s.x a).toNat % 64 = 0 → (s.ctx s.bound.ctx).translate? (s.x a).toNat .rd = some c →
      tget? s.core.rcache c.ia = some bs → s.pos + 1 + fld (s.x b).toNat 0 13 < s.segBundles.length →
      0 < at' bs (8 + 4 * fld (s.x b).toNat 13 2) 4 →
      Completes (.loopsr a b l q) s fun t => t.core.front.loops = tset s.core.front.loops l.toNat
        { start := s.pos + 1, stop := s.pos + 1 + fld (s.x b).toNat 0 13, rem := at' bs (8 + 4 * fld (s.x b).toNat 13 2) 4 })

/-- R87, R89: RFENCE empties the record cache, RFENCE.A drops one record of it, and IDEM sets IB for the next bundle. R90, R91: a suspension is taken up
for the end of the bundle once no copy job, no held cause and no bad load is left. PARK names the counter's home address and the target in x8. R24,
R90, R91: any suspension while TM = 1 kills the task with a double fault; PARK is ILLEGAL in a non-affine task and on another device's counter,
NO_WINDOW without a window, MISALIGN off an 8-byte boundary. Where the spec leaves a point of this open the clause states the model's choice, not a
rule: assumption log 25. -/
def Obligations.SuspensionOutcomes : Prop :=
  (∀ (s : State) (a : BitVec 6) (q : BitVec 3), s.sqOn q = true →
    exec (.rfence q) s = .next { s with core := { s.core with rcache := [] } } ∧
    ((s.ctx s.bound.ctx).cover? (s.x a).toNat = none → exec (.rfenceA a q) s = .next s) ∧
    (∀ w, (s.ctx s.bound.ctx).cover? (s.x a).toNat = some w → Completes (.rfenceA a q) s fun t =>
      t = { s with core := { s.core with rcache := t.core.rcache } } ∧
      ∀ e, e ∈ t.core.rcache ↔ e ∈ s.core.rcache ∧ e.1 ≠ ((tget {} (s.ctx s.bound.ctx).aws w).ibase * 65536 +
        ((s.x a).toNat - (tget {} (s.ctx s.bound.ctx).aws w).vbase * 65536)) / 64 * 64) ∧
    exec .idem s = .next (s.modRun fun r => { r with idem := true })) ∧
  (∀ (s : State) (a : BitVec 6) (q : BitVec 3), s.sqOn q = true → s.core.regs.z.stat.tm = false → s.core.front.loops = [] →
    s.core.misses = [] → s.core.copy.jobs = [] → s.core.copy.err = [] →
    exec (.suspYield q) s = .next (s.modRun fun r => { r with after := some .yield }) ∧
    exec (.suspExit q) s = .next (s.modRun fun r => { r with after := some .exit }) ∧
    (∀ c, s.core.regs.z.stat.af = true → (s.ctx s.bound.ctx).translate? (s.x a).toNat .rd = some c → (s.x a).toNat % 8 = 0 →
      s.isRemote c.ia = false →
      exec (.suspPark a q) s = .next (s.modRun fun r => { r with after := some (.park (BitVec.ofNat 64 c.ia) (s.x 8)) }))) ∧
  (∀ (s : State) (a : BitVec 6) (q : BitVec 3), s.sqOn q = true →
    (s.core.regs.z.stat.tm = true →
      exec (.suspYield q) s = .next (s.killBound { code := 0x16 } s.sylSlot) ∧
      exec (.suspPark a q) s = .next (s.killBound { code := 0x16 } s.sylSlot) ∧
      exec (.suspExit q) s = .next (s.killBound { code := 0x16 } s.sylSlot)) ∧
    (s.core.regs.z.stat.tm = false → s.core.regs.z.stat.af = false → exec (.suspPark a q) s = .next s.illegal) ∧
    (s.core.regs.z.stat.tm = false → s.core.regs.z.stat.af = true → s.core.front.loops = [] →
      ((s.ctx s.bound.ctx).translate? (s.x a).toNat .rd = none → exec (.suspPark a q) s = .next (s.noWindow (s.x a))) ∧
      (∀ c, (s.ctx s.bound.ctx).translate? (s.x a).toNat .rd = some c → (s.x a).toNat % 8 ≠ 0 →
        exec (.suspPark a q) s = .next (s.misalign (s.x a) 8)) ∧
      (∀ c, (s.ctx s.bound.ctx).translate? (s.x a).toNat .rd = some c → (s.x a).toNat % 8 = 0 → s.isRemote c.ia = true →
        exec (.suspPark a q) s = .next s.illegal)))

/-- R22, R23, R38: with TEN = 1, TM = 0 and ZTVEC set, a cause of delivery class H or D that no debugger takes enters the handler: the snapshot of the
bundle that issues holds the re-entry, the results in flight, the queued matrix commands, the loops and the bundle-entry values of the x, p, v and sc
registers that committed slots wrote; ZSTAT, ZCAUSE, ZADDR and ZBUNDLE are written; the bundle at ZTVEC is next; the registers, scratchpad and memory
are as before. R24, R38: a cause while TM = 1 kills the task with DOUBLE_FAULT, the original code in DETAIL and the original ZADDR; a class C cause,
and one with TEN = 0 or ZTVEC = 0, kills it with the cause itself; an attached debugger takes a class D cause first: the core halts, and with TM = 0
the trap's state is captured as for a handler, with no bundle at ZTVEC. Where the spec leaves a point of this open the clause states the model's
choice, not a rule: assumption log 20. -/
def Obligations.TrapEntry : Prop :=
  (∀ (s : State) (c : Cause) (slot srf bundle resume : Nat), slot < 8 → srf < 8 → c.cls ≠ .containment → (c.cls = .debug → s.root.debugger = false) →
    s.core.regs.z.stat.tm = false → s.core.regs.z.stat.ten = true → s.core.regs.z.handler ≠ 0 → s.core.spireOut = [] →
    ∃ t p, s.takeTrap c slot srf bundle resume = t ∧ t.core.snap = some p ∧
      p.queue = s.core.mx.queue ∧ p.drain = s.core.mx.drain ∧ p.loops = s.core.front.loops ∧
      (∀ r, s.core.front.run = some r → p.addr = BitVec.ofNat 64 resume ∧ p.slot = srf ∧ p.flight = s.core.flight ∧ p.misses = s.core.misses ∧ p.latched = r.latched ∧
        (∀ n w, RegWrite.x n w ∈ r.wrote → tget? p.image.x n = some (s.x (BitVec.ofNat 6 n))) ∧
        (∀ n w, RegWrite.p n w ∈ r.wrote → tget? p.image.p n = some (s.p (BitVec.ofNat 4 n))) ∧
        (∀ n m w, RegWrite.v n m w ∈ r.wrote → tget? p.image.v n = some (s.v (BitVec.ofNat 5 n))) ∧
        (∀ n w, RegWrite.sc n w ∈ r.wrote → tget? p.image.sc n = some (s.sc (BitVec.ofNat 4 n)))) ∧
      t.core.regs.z.stat = { s.core.regs.z.stat with sv := true, ss := false, tm := true, srf := BitVec.ofNat 3 srf } ∧
      t.core.regs.z.cause = { detail := c.detail, slot := BitVec.ofNat 3 slot, code := c.code } ∧
      t.core.regs.z.addr = c.addr ∧ t.core.regs.z.bundle = BitVec.ofNat 64 bundle ∧
      t.core.regs.z.snapLen.toNat % 64 = 0 ∧ 64 ≤ t.core.regs.z.snapLen.toNat ∧ t.core.regs.z.snapLen.toNat ≤ 16384 ∧
      t.core.front.latched = some (.addr (BitVec.ofNat 64 (s.core.regs.z.tvec.toNat / 4 * 4))) ∧ t.core.front.run = none ∧
      t.core.flight = [] ∧ t.core.mx.queue = [] ∧ t.core.front.loops = [] ∧
      t.core.regs.x = s.core.regs.x ∧ t.core.regs.p = s.core.regs.p ∧ t.core.regs.v = s.core.regs.v ∧ t.core.regs.sc = s.core.regs.sc ∧
      t.core.regs.h = s.core.regs.h ∧ t.core.spad = s.core.spad ∧ t.mem = s.mem) ∧
  (∀ (s : State) (c : Cause) (slot srf bundle resume : Nat),
    (c.cls = .containment → s.takeTrap c slot srf bundle resume = s.killBound c slot) ∧
    (c.cls = .debug → s.root.debugger = true → s.core.regs.z.stat.tm = true → s.takeTrap c slot srf bundle resume = s.modFront fun f => { f with halted := true }) ∧
    (c.cls = .debug → s.root.debugger = true → s.core.regs.z.stat.tm = false → s.core.spireOut = [] →
      ∃ t, s.takeTrap c slot srf bundle resume = t ∧ t.core.front.halted = true ∧ t.core.snap.isSome = true ∧ t.core.front.latched = none ∧ t.core.front.run = none ∧
        t.core.regs.z.stat = { s.core.regs.z.stat with sv := true, ss := false, tm := true, srf := BitVec.ofNat 3 srf } ∧
        t.core.regs.z.cause = { detail := c.detail, slot := BitVec.ofNat 3 slot, code := c.code } ∧ t.core.regs.z.addr = c.addr ∧
        t.core.regs.z.bundle = BitVec.ofNat 64 bundle ∧ t.core.regs.x = s.core.regs.x ∧ t.core.spad = s.core.spad ∧ t.mem = s.mem) ∧
    (c.cls = .handler → s.core.regs.z.stat.tm = true →
      s.takeTrap c slot srf bundle resume = s.killBound { code := 0x16, addr := c.addr, detail := c.code.zeroExtend 32 } slot) ∧
    (c.cls = .handler → s.core.regs.z.stat.tm = false → (s.core.regs.z.stat.ten = false ∨ s.core.regs.z.tvec.toNat < 4) →
      s.takeTrap c slot srf bundle resume = s.killBound c slot))

/-- R94, R95: TRAP and BRK raise their cause with the immediate in DETAIL and count as committed, so the handler's re-entry is slot 1; TRAP.NZ of 0 has no
effect; an attached debugger takes BRK: the same is captured, and the core halts. -/
def Obligations.SoftTraps : Prop :=
  ∀ (s : State) (a : BitVec 6) (c : BitVec 13), s.core.regs.z.stat.tm = false → s.core.regs.z.stat.ten = true → s.core.regs.z.handler ≠ 0 →
    (Completes (.trap c) s fun t => t.core.regs.z.cause = { detail := c.zeroExtend 32, slot := 0, code := 0x0F } ∧ t.core.regs.z.stat.srf = 1 ∧
      t.core.regs.z.stat.tm = true ∧ t.core.regs.z.bundle = BitVec.ofNat 64 s.bundleAddr) ∧
    (s.x a ≠ 0 → Completes (.trapNz a c) s fun t => t.core.regs.z.cause = { detail := c.zeroExtend 32, slot := 0, code := 0x0F } ∧
      t.core.regs.z.stat.srf = 1 ∧ t.core.regs.z.stat.tm = true ∧ t.core.regs.z.bundle = BitVec.ofNat 64 s.bundleAddr) ∧
    (s.x a = 0 → exec (.trapNz a c) s = .next s) ∧
    (s.root.debugger = false → Completes (.brk c) s fun t => t.core.regs.z.cause = { detail := c.zeroExtend 32, slot := 0, code := 0x10 } ∧
      t.core.regs.z.stat.srf = 1 ∧ t.core.regs.z.stat.tm = true ∧ t.core.regs.z.bundle = BitVec.ofNat 64 s.bundleAddr) ∧
    (s.root.debugger = true → Completes (.brk c) s fun t => t.core.regs.z.cause = { detail := c.zeroExtend 32, slot := 0, code := 0x10 } ∧
      t.core.regs.z.stat.srf = 1 ∧ t.core.regs.z.stat.tm = true ∧ t.core.regs.z.bundle = BitVec.ofNat 64 s.bundleAddr ∧ t.core.front.halted = true)

/-- R25, R96: TRET of a snapshot clears SV and TM, restores the loops and the matrix queue, and enters its bundle again at its re-entry slot; the results
and loads in flight of the snapshot go on when that bundle is at hand; without a snapshot it is ILLEGAL, and a fill that a SNAPLD has pending holds
it. R97, R98: SNAPST schedules the image's bytes for 36 cycles later and sets SS; SNAPLD reads a header, schedules the fill of the buffer for 36
cycles later and sets SV; SNAPREL asks for SV := 0 and TM := 0 at the end of its bundle; each is ILLEGAL where its rule requires more. Where the spec
leaves a point of this open the clause states the model's choice, not a rule: assumption log 20, 21, 22. -/
def Obligations.SnapshotsAndReturn : Prop :=
  (∀ (s : State), (s.core.regs.z.stat.sv = false → exec .tret s = .next s.illegal) ∧
    (s.core.regs.z.stat.sv = true → (∃ o ∈ s.core.snapOps, o.isStore = false) → exec .tret s = .next s.hold) ∧
    (∀ p, s.core.regs.z.stat.sv = true → s.core.snap = some p → (∀ o ∈ s.core.snapOps, o.isStore = true) →
      Completes .tret s fun t => t.core.regs.z.stat = { s.core.regs.z.stat with sv := false, tm := false } ∧ t.core.snap = none ∧
        t.core.front.reenter = some p ∧ t.core.front.loops = p.loops ∧ t.core.flight = s.core.flight ∧ t.core.misses = s.core.misses ∧
        t.resumeSnap.core.flight = p.flight ++ s.core.flight ∧ t.resumeSnap.core.misses = p.misses ++ s.core.misses ∧
        t.core.mx.queue = s.core.mx.queue ++ p.queue ∧ t.core.mx.drain = p.drain ∧
        t.core.regs.x = s.core.regs.x ∧ t.core.regs.p = s.core.regs.p ∧ t.core.regs.v = s.core.regs.v ∧ t.core.spad = s.core.spad ∧ t.mem = s.mem)) ∧
  (∀ (s : State) (a : BitVec 6),
    (∀ p, s.snapNow = some p → s.core.regs.z.stat.sv = true → (s.x a).toNat % 64 = 0 → s.spadOk (s.x a).toNat s.core.regs.z.snapLen.toNat = true →
      Completes (.snapst a) s fun t => t.core.regs.z.stat = { s.core.regs.z.stat with ss := true } ∧ t.core.snap = s.core.snap ∧
        (∃ im, t.archive = im :: s.archive ∧ im.snap = p ∧ im.len = s.core.regs.z.snapLen.toNat ∧
          t.core.snapOps = s.core.snapOps ++ [.st (s.x a).toNat im 36]) ∧ t.core.spad = s.core.spad ∧ t.mem = s.mem) ∧
    (s.core.regs.z.stat.sv = false ∨ (s.x a).toNat % 64 ≠ 0 ∨ s.spadOk (s.x a).toNat s.core.regs.z.snapLen.toNat = false → exec (.snapst a) s = .next s.illegal) ∧
    (s.core.regs.z.stat.tm = false → (s.x a).toNat % 64 = 0 → s.spadOk (s.x a).toNat 64 = true →
      (let n := at' (s.spadBytes (s.x a).toNat 64) 0 2
       ((n % 64 ≠ 0 ∨ n < 64 ∨ 16384 < n ∨ 7 < at' (s.spadBytes (s.x a).toNat 64) 4 1 ∨ s.spadOk (s.x a).toNat n = false) → exec (.snapld a) s = .next s.illegal) ∧
       (n % 64 = 0 → 64 ≤ n → n ≤ 16384 → at' (s.spadBytes (s.x a).toNat 64) 4 1 ≤ 7 → s.spadOk (s.x a).toNat n = true →
       Completes (.snapld a) s fun t => t.core.regs.z.stat = { s.core.regs.z.stat with sv := true } ∧
         (∃ p, t.core.snapOps = s.core.snapOps.filter SnapOp.isStore ++ [.ld p 36] ∧ p.slot = at' (s.spadBytes (s.x a).toNat 64) 4 1 ∧
           p.addr = BitVec.ofNat 64 (at' (s.spadBytes (s.x a).toNat 64) 8 8)) ∧ t.core.spad = s.core.spad ∧ t.mem = s.mem))) ∧
    (s.core.regs.z.stat.tm = true ∨ (s.x a).toNat % 64 ≠ 0 ∨ s.spadOk (s.x a).toNat 64 = false → exec (.snapld a) s = .next s.illegal) ∧
    (s.core.regs.z.stat.ss = true → Completes .snaprel s fun t => (∀ r, s.core.front.run = some r → t.core.front.run = some { r with snaprel := true }) ∧
      t.core.regs = s.core.regs ∧ t.core.spad = s.core.spad ∧ t.mem = s.mem) ∧
    (s.core.regs.z.stat.ss = false → exec .snaprel s = .next s.illegal))

/-- R37, R92: MFS reads a listed register with latency 1; MTS writes the RW registers with latency 1 and is ignored by the RO ones; an unassigned number
is ILLEGAL. R35, R36, R37, R99: the words that MFS reads of ZSTAT, ZCAUSE, ZADDR, ZBUNDLE, ZSNAP, ZTVEC, ZTID and DBGCTL, field by field, outside a
re-entered bundle. R7, R35: what MTS writes of ZSTAT: TEN and F8 take the word's bits, SLICEUP, JOOR and DEFOV are cleared by a 1, and every read-only
field stays. -/
def Obligations.SystemRegisters : Prop :=
  (∀ (s : State) (d a : BitVec 6) (n : BitVec 13),
    (∀ w, s.sys n.toNat = some w → exec (.mfs d n) s = .next (s.setX d w 1)) ∧
    (s.sys n.toNat = none → exec (.mfs d n) s = .next s.illegal ∧ exec (.mts a n) s = .next s.illegal) ∧
    (s.sys n.toNat ≠ none → n.toNat ∈ [0, 5, 6, 0x20, 0x21, 0x22] → exec (.mts a n) s = .next (s.result 1 (.z n.toNat (s.x a)))) ∧
    (s.sys n.toNat ≠ none → n.toNat ∉ [0, 5, 6, 0x20, 0x21, 0x22] → exec (.mts a n) s = .next s)) ∧
  (∀ (s : State), s.image = {} →
    (let z := s.core.regs.z
     (∃ w, s.sys 0 = some w ∧ w.getLsbD 31 = z.stat.tm ∧ w.getLsbD 30 = z.stat.sv ∧ w.getLsbD 29 = z.stat.ten ∧ w.getLsbD 28 = z.stat.sliceup ∧
       w.getLsbD 27 = z.stat.joor ∧ w.getLsbD 26 = z.stat.defov ∧ w.getLsbD 25 = z.stat.f8 ∧ w.getLsbD 24 = z.stat.det ∧ w.getLsbD 23 = z.stat.af ∧
       w.extractLsb' 20 3 = z.stat.srf ∧ w.getLsbD 19 = z.stat.ss ∧ w.extractLsb' 32 32 = 0 ∧ w.extractLsb' 0 19 = 0) ∧
     (∃ w, s.sys 1 = some w ∧ w.extractLsb' 32 32 = z.cause.detail ∧ w.extractLsb' 11 21 = 0 ∧ w.extractLsb' 8 3 = z.cause.slot ∧
       w.extractLsb' 0 8 = z.cause.code) ∧
     s.sys 2 = some z.addr ∧ s.sys 3 = some z.bundle ∧ s.sys 4 = some (z.snapLen.zeroExtend 64) ∧ s.sys 5 = some z.tvec ∧
     s.sys 6 = some (z.tid.zeroExtend 64) ∧
     (∃ w, s.sys 0x10 = some w ∧ w.getLsbD 0 = s.core.front.step ∧ w.getLsbD 1 = s.core.front.freeze ∧ w.extractLsb' 2 62 = 0))) ∧
  (∀ (t : ZStat) (w : Word), (t.mts w).ten = w.getLsbD 29 ∧ (t.mts w).f8 = w.getLsbD 25 ∧ (t.mts w).sliceup = (t.sliceup && !w.getLsbD 28) ∧
    (t.mts w).joor = (t.joor && !w.getLsbD 27) ∧ (t.mts w).defov = (t.defov && !w.getLsbD 26) ∧ (t.mts w).tm = t.tm ∧ (t.mts w).sv = t.sv ∧
    (t.mts w).det = t.det ∧ (t.mts w).af = t.af ∧ (t.mts w).srf = t.srf ∧ (t.mts w).ss = t.ss)

/-- R307: WDOG reads ZWDOG and lowers or raises BUDGET to at most the launch's WDCAP; a request of 0 changes nothing. R101, R102, R347: LAUNCH tests its
descriptor, its ring and the room of the ring; a ring without entries is ILLEGAL, a full ring suspends the task before the bundle, and otherwise it
reserves the slot that RES names and writes its entry there. It then waits for PUB, and once it has published, the entry counts as submitted on its
ring and slot for the task's context, and the region ends. R103: CANCEL of an identifier that names no live unit has no effect. Of a launch in
progress it marks the launch, its record's status and level, and reaches each of its tasks; of a graph it ends the graph and cancels its launches with
level 2; of a phase it cancels the phase's graph with level 3, or keeps a phase that is to run again from running; of a job it stops the job, cancels
its phases with level 4 and enters the journal. A task that has ended stays as it is, a bound one stops at its next boundary, a ready one and one that
waits is ready with the level that its kill names. Where the spec leaves a point of this open the clause states the model's choice, not a rule:
assumption log 18, 27. -/
def Obligations.LaunchCancelWatchdog : Prop :=
  (∀ (s : State) (d a : BitVec 6), Completes (.wdog d a) s fun t => t.core.flight = (s.setX d s.core.regs.z.wdogWord 1).core.flight ∧
    t.core.regs = { s.core.regs with z := { s.core.regs.z with
      budget := if (s.x a).toNat % 2 ^ 32 = 0 then s.core.regs.z.budget
        else BitVec.ofNat 32 (min ((s.x a).toNat % 2 ^ 32) ((s.boundLaunch.map Launch.wdcap).getD 0)) } } ∧ t.mem = s.mem ∧ t.core.spad = s.core.spad) ∧
  (∀ (s : State) (a r : BitVec 6),
    (let done := fun (u t : State) (k : Nat) => (∃ e, t.sched.submits = u.sched.submits ++ [e] ∧ e.ctx = u.bound.ctx ∧ e.ring = r.toNat ∧ e.slot = k) ∧
       t.mem = u.mem ∧ t.core.published = none ∧ t.core.regs = u.core.regs ∧ t.core.spad = u.core.spad ∧ ∀ x, t.core.front.run = some x → x.ended = true
     (∀ n k u, s.core.slotHeld = some (n, k) → s.core.published = none →
       (s.ringTry (s.ringReg n) k = (u, true) → Completes (.launch a r) s fun t => done u t k) ∧
       (s.ringTry (s.ringReg n) k = (u, false) → exec (.launch a r) s = .next u.hold)) ∧
     (∀ k, s.core.slotHeld = none → s.core.published = some k → Completes (.launch a r) s fun t => done s t k) ∧
     (s.core.slotHeld = none → s.core.published = none → s.core.front.holdPage = none →
       ((s.x a).toNat % 64 ≠ 0 → exec (.launch a r) s = .next (s.misalign (s.x a) 64)) ∧
       ((s.x a).toNat % 64 = 0 → (s.ctx s.bound.ctx).translate? (s.x a).toNat .rd = none → exec (.launch a r) s = .next (s.noWindow (s.x a))) ∧
       (∀ c, (s.x a).toNat % 64 = 0 → (s.ctx s.bound.ctx).translate? (s.x a).toNat .rd = some c →
         (s.isRemote c.ia = true → exec (.launch a r) s = .next s.illegal) ∧
         (∀ u, s.isRemote c.ia = false → s.walk s.myDie c.ia = (u, .absent) → exec (.launch a r) s = .next (u.abort c.ia)) ∧
         (∀ u pa w v g, s.isRemote c.ia = false → s.walk s.myDie c.ia = (u, .page pa w) → u.viewRead c.ia pa 64 = (v, g) →
           (g.lost = true → exec (.launch a r) s = .next (v.uncorrectable c.ia pa)) ∧
           (g.lost = false → ringLog (v.ringReg r.toNat) = 0 → exec (.launch a r) s = .next v.illegal) ∧
           (∀ x res pub con, g.lost = false → ringLog (v.ringReg r.toNat) ≠ 0 → v.ringWords v.myDie (v.ringReg r.toNat) = (x, some (res, pub, con)) →
             (2 ^ ringLog (v.ringReg r.toNat) ≤ res - con → exec (.launch a r) s = .next (x.submitFull r.toNat)) ∧
             (∀ y z b, res - con < 2 ^ ringLog (v.ringReg r.toNat) → x.ringReserve x.myDie (v.ringReg r.toNat) res g.data = (y, true) →
               (let held := ({ y with core := { y.core with slotHeld := some (r.toNat, res) } } : State)
                held.core.published = none → held.ringTry (held.ringReg r.toNat) res = (z, b) →
                (b = true → Completes (.launch a r) s fun t => done z t res) ∧ (b = false → exec (.launch a r) s = .next z.hold))))))))) ∧
  (∀ (s : State) (a : BitVec 6),
    (let id := (s.x a).toNat % 2 ^ 32
     (s.launch? id = none → exec (.cancel a .launch) s = .next s) ∧ (s.graph? id = none → exec (.cancel a .graph) s = .next s) ∧
     (s.phase? id = none → exec (.cancel a .phase) s = .next s) ∧ (s.job? id = none → exec (.cancel a .job) s = .next s) ∧
     (∀ L, s.launch? id = some L → L.final = 1 → L.complete = false →
       exec (.cancel a .launch) s = .next ((s.sched.tasks.filter fun q => q.launch == id).foldl (fun s q => s.cancelTask q 1)
         (s.modLaunchAny id fun l => { l with final := 2, cancel := 1 }))) ∧
     (∀ L, s.launch? id = some L → (L.final ≠ 1 ∨ L.complete = true) → exec (.cancel a .launch) s = .next s) ∧
     (∀ G, s.graph? id = some G → (G.complete = true → exec (.cancel a .graph) s = .next s) ∧
       (G.complete = false → exec (.cancel a .graph) s = .next ((s.sched.launches.filter fun l => l.graph == id && !l.complete).foldl (fun s l => s.cancelLaunch l.id 2 2)
         (s.modGraph id fun g => { g with ended := true, active := [] })))) ∧
     (∀ P, s.phase? id = some P → (P.complete = true → exec (.cancel a .phase) s = .next s) ∧
       (P.complete = false → P.graph = 0 → exec (.cancel a .phase) s = .next (s.modPhase id fun p => { p with stopped := true })) ∧
       (P.complete = false → P.graph ≠ 0 → exec (.cancel a .phase) s = .next (s.cancelGraph P.graph 3 2))) ∧
     (∀ J, s.job? id = some J → ((J.stopped = true ∨ J.complete = true) → exec (.cancel a .job) s = .next s) ∧
       (J.stopped = false → J.complete = false → exec (.cancel a .job) s = .next (((s.sched.phases.filter fun p => p.job == id && !p.complete).foldl
         (fun s p => s.cancelPhase p.id 4 2) (s.modJob id fun j => { j with stopped := true, active := false })).event 7 0 id)))) ∧
    (∀ q n, q.state = .bound n → s.cancelTask q 1 = s.modTaskRec q.launch q.index fun t => { t with cancel := some 1 }) ∧
    (∀ q, (q.state = .done ∨ q.state = .killed) → s.cancelTask q 1 = s) ∧
    (∀ q, q.state = .ready → s.cancelTask q 1 = (s.modTaskRec q.launch q.index fun t => { t with cancel := some 1 }).markCan q) ∧
    (∀ q, (q.state = .parked ∨ q.state = .faultWait) →
      s.cancelTask q 1 = (s.makeReady q.launch q.index fun t => { t with cancel := some 1, pages := [], unqueued := [] }).markCan q))

/-- R203: LD reads `size` bytes of scratchpad, extended to 64 bits by its size code, with latency 4. R203 and the frame of ST: the low `size` bytes of the
source stand at the address, and every other byte of scratchpad, every register and all of memory are as before. -/
def Obligations.ScratchpadScalar : Prop :=
  (∀ (s : State) (d a : BitVec 6) (z : MSize) (o : BitVec 10),
    (let va := s.x a + o.signExtend 64 * BitVec.ofNat 64 (MSize.bytes z)
     let n := MSize.bytes z
     (va.toNat % n = 0 → s.spadOk va.toNat n = true →
       exec (.ld d a z o) s = .next ((s.readSlots [(va.toNat, va.toNat + n)]).setX d (match z with
         | .b => (BitVec.ofNat 8 (leNat (s.spadBytes va.toNat 1))).signExtend 64
         | .bu => (BitVec.ofNat 8 (leNat (s.spadBytes va.toNat 1))).zeroExtend 64
         | .h => (BitVec.ofNat 16 (leNat (s.spadBytes va.toNat 2))).signExtend 64
         | .hu => (BitVec.ofNat 16 (leNat (s.spadBytes va.toNat 2))).zeroExtend 64
         | .w => (BitVec.ofNat 32 (leNat (s.spadBytes va.toNat 4))).signExtend 64
         | .wu => (BitVec.ofNat 32 (leNat (s.spadBytes va.toNat 4))).zeroExtend 64
         | .d => BitVec.ofNat 64 (leNat (s.spadBytes va.toNat 8))) 4)) ∧
     (va.toNat % n ≠ 0 → exec (.ld d a z o) s = .next (s.misalign va n)) ∧
     (va.toNat % n = 0 → s.spadOk va.toNat n = false → exec (.ld d a z o) s = .next s.illegal))) ∧
  (∀ (s : State) (r a : BitVec 6) (z : MSize) (o : BitVec 10),
    (let va := (s.x a + o.signExtend 64 * BitVec.ofNat 64 (MSize.bytes z)).toNat
     let n := MSize.bytes z
     (va % n = 0 → s.spadOk va n = true → Completes (.st r a z o) s fun t =>
       t = { s with core := { s.core with spad := t.core.spad } } ∧
       ∀ k, t.spadByte k = if va ≤ k ∧ k < va + n then BitVec.ofNat 8 ((s.x r).toNat / 2 ^ (8 * (k - va))) else s.spadByte k) ∧
     (va % n ≠ 0 → exec (.st r a z o) s = .next (s.misalign (BitVec.ofNat 64 va) n)) ∧
     (va % n = 0 → s.spadOk va n = false → exec (.st r a z o) s = .next s.illegal)))

/-- R204, R205, R210: LDV, LDV.S, LDV.B and GATH load 4 bytes into each enabled lane, with latency 6 or 8; a disabled lane keeps its value, since the
write carries the mask. R204, R205: where the lane forms trap: a misaligned base of a contiguous or broadcast form whatever the predicate, the lowest
misaligned enabled lane of a strided or indexed form, and an enabled lane outside the task's range. -/
def Obligations.ScratchpadLanes : Prop :=
  (∀ (s : State) (d : BitVec 5) (a x : BitVec 6) (o : BitVec 8) (va b : BitVec 5) (t : VTy) (p : BitVec 4),
    (let base := (s.x a + o.signExtend 64 * 32).toNat
     base % 32 = 0 →
       ((∀ i, i < 128 → (s.p p).getLsbD i = true → s.spadOk ((base + 4 * i) % 2 ^ 64) 4 = true) →
         ∃ val l, exec (.ldv d a o p) s = .next ((s.readSlots l).setV d (s.p p) val 6) ∧
           ∀ i, i < 128 → (s.p p).getLsbD i = true → (lane val i).toNat = leNat (s.spadBytes ((base + 4 * i) % 2 ^ 64) 4)) ∧
       ((∀ i, i < 128 → (s.p p).getLsbD i = true → s.spadOk ((base + 4 * (i % 8)) % 2 ^ 64) 4 = true) →
         ∃ val l, exec (.ldvB d a o p) s = .next ((s.readSlots l).setV d (s.p p) val 6) ∧
           ∀ i, i < 128 → (s.p p).getLsbD i = true → (lane val i).toNat = leNat (s.spadBytes ((base + 4 * (i % 8)) % 2 ^ 64) 4))) ∧
    (let addr := fun i : Nat => (s.x a + BitVec.ofNat 64 i * s.x x).toNat
     (∀ i, i < 128 → (s.p p).getLsbD i = true → addr i % 4 = 0 ∧ s.spadOk (addr i) 4 = true) →
       ∃ val l, exec (.ldvS d a x p) s = .next ((s.readSlots l).setV d (s.p p) val 6) ∧
         ∀ i, i < 128 → (s.p p).getLsbD i = true → (lane val i).toNat = leNat (s.spadBytes (addr i) 4)) ∧
    (let addr := fun i : Nat => (s.x (b.zeroExtend 6) + (lane (s.v va) i).zeroExtend 64).toNat
     (t = .f32 ∨ t = .i32) → (∀ i, i < 128 → (s.p p).getLsbD i = true → addr i % 4 = 0 ∧ s.spadOk (addr i) 4 = true) →
       ∃ val l, exec (.gath d va b t p) s = .next ((s.readSlots l).setV d (s.p p) val 8) ∧
         ∀ i, i < 128 → (s.p p).getLsbD i = true → (lane val i).toNat = leNat (s.spadBytes (addr i) 4))) ∧
  (∀ (s : State) (d : BitVec 5) (a x : BitVec 6) (o : BitVec 8) (va b : BitVec 5) (p : BitVec 4),
    (let base := s.x a + o.signExtend 64 * 32
     (base.toNat % 32 ≠ 0 → exec (.ldv d a o p) s = .next (s.misalign base 32) ∧ exec (.ldvB d a o p) s = .next (s.misalign base 32) ∧
       exec (.stv d a o p) s = .next (s.misalign base 32)) ∧
     (base.toNat % 32 = 0 → (∃ i, i < 128 ∧ (s.p p).getLsbD i = true ∧ s.spadOk ((base.toNat + 4 * i) % 2 ^ 64) 4 = false) →
       exec (.ldv d a o p) s = .next s.illegal ∧ exec (.stv d a o p) s = .next s.illegal)) ∧
    (let addr := fun i : Nat => s.x a + BitVec.ofNat 64 i * s.x x
     ∀ i, i < 128 → (s.p p).getLsbD i = true → (addr i).toNat % 4 ≠ 0 →
       (∀ k, k < 128 → (s.p p).getLsbD k = true → (addr k).toNat % 4 ≠ 0 → (addr i).toNat ≤ (addr k).toNat) →
       exec (.ldvS d a x p) s = .next (s.misalign (addr i) 4) ∧ exec (.stvS d a x p) s = .next (s.misalign (addr i) 4)) ∧
    (let addr := fun i : Nat => s.x (b.zeroExtend 6) + (lane (s.v va) i).zeroExtend 64
     ∀ i, i < 128 → (s.p p).getLsbD i = true → (addr i).toNat % 4 ≠ 0 →
       (∀ k, k < 128 → (s.p p).getLsbD k = true → (addr k).toNat % 4 ≠ 0 → (addr i).toNat ≤ (addr k).toNat) →
       exec (.gath d va b .f32 p) s = .next (s.misalign (addr i) 4) ∧ exec (.scat d va b .i32 p) s = .next (s.misalign (addr i) 4)))

/-- R204, R205 and the frame of the storing forms, with no bound check on: each enabled lane's 4 bytes are written, the highest lane's where two lanes
name one address, and every other byte of scratchpad, every register, what is in flight and all of memory are as before. -/
def Obligations.ScratchpadLaneStores : Prop :=
  ∀ (s : State) (v : BitVec 5) (a x : BitVec 6) (o : BitVec 8) (va b : BitVec 5) (t : VTy) (p : BitVec 4), s.core.vec.bounds = [] →
    (∀ (i : Instr) (addr : Nat → Nat),
      ((i = .stv v a o p ∧ (s.x a + o.signExtend 64 * 32).toNat % 32 = 0 ∧ addr = fun k => ((s.x a + o.signExtend 64 * 32).toNat + 4 * k) % 2 ^ 64) ∨
       (i = .stvS v a x p ∧ addr = fun k => (s.x a + BitVec.ofNat 64 k * s.x x).toNat) ∨
       (i = .scat v va b t p ∧ (t = .f32 ∨ t = .i32) ∧ addr = fun k => (s.x (b.zeroExtend 6) + (lane (s.v va) k).zeroExtend 64).toNat)) →
      (∀ k, k < 128 → (s.p p).getLsbD k = true → addr k % 4 = 0 ∧ s.spadOk (addr k) 4 = true) →
      Completes i s fun u =>
        (∀ k, k < 128 → (s.p p).getLsbD k = true → (∀ m, k < m → m < 128 → (s.p p).getLsbD m = true → addr m ≠ addr k) →
          ∀ j, j < 4 → u.spadByte (addr k + j) = BitVec.ofNat 8 ((lane (s.v v) k).toNat / 2 ^ (8 * j))) ∧
        (∀ y, (∀ k, k < 128 → (s.p p).getLsbD k = true → y < addr k ∨ addr k + 4 ≤ y) → u.spadByte y = s.spadByte y) ∧
        u.core.regs = s.core.regs ∧ u.core.flight = s.core.flight ∧ u.core.copy = s.core.copy ∧ u.mem = s.mem ∧ u.core.mx = s.core.mx)

/-- R206, R208, R209, R210: LDG of this device delivers the bytes of the task's view 24 cycles after a hit, and a load that misses waits for its data; LDG
of another device parks the task at the end of its bundle where R85 and R362 allow it; LDC delivers the bytes of the launch's constant line 12 cycles
after a hit, and waits after a miss. Both name NO_WINDOW, MISALIGN and MEM_UNCORRECTABLE, and a page that is not resident aborts; LDC outside a
constant window is NO_WINDOW, and of another device ILLEGAL. Where the spec leaves a point of this open the clause states the model's choice, not a
rule: assumption log 15, 24, 68. -/
def Obligations.GlobalLoads : Prop :=
  ∀ (s : State) (d a : BitVec 6) (z : MSize) (o : BitVec 9) (c10 : BitVec 10),
    (let va := s.x a + o.signExtend 64 * BitVec.ofNat 64 (MSize.bytes z)
     let n := MSize.bytes z
     ((s.ctx s.bound.ctx).translate? va.toNat .rd = none → exec (.ldg d a z o) s = .next (s.noWindow va)) ∧
     (∀ c, (s.ctx s.bound.ctx).translate? va.toNat .rd = some c →
       (va.toNat % n ≠ 0 → exec (.ldg d a z o) s = .next (s.misalign va n)) ∧
       (va.toNat % n = 0 → s.isRemote c.ia = false →
         (∀ u, s.walk s.myDie c.ia = (u, .absent) → exec (.ldg d a z o) s = .next (u.abort c.ia)) ∧
         (∀ u pa m v g, s.walk s.myDie c.ia = (u, .page pa m) → u.viewRead c.ia pa n = (v, g) →
           (let val := extendLoad (MSize.signed z) n (leNat g.data)
            (m = false → g.missed = false → g.lost = false → Completes (.ldg d a z o) s fun t => t = v.setX d val 24 ∧
              t.core.flight = v.core.flight ++ (if d = 0 then [] else [⟨24, .x d.toNat val⟩])) ∧
            (d ≠ 0 → (m = true ∨ g.missed = true) → (g.lost = false ∨ g.missed = true) → Completes (.ldg d a z o) s fun t =>
              t.core.misses = v.core.misses ++ [{ ia := c.ia, vec := false, reg := d.toNat, w := .x d.toNat val, bad := g.lost }] ∧ t.core.regs = v.core.regs ∧
              t.core.flight = v.core.flight ∧ t.mem = v.mem) ∧
            (g.lost = true → g.missed = false → exec (.ldg d a z o) s = .next (v.uncorrectable c.ia pa))))) ∧
       (va.toNat % n = 0 → s.isRemote c.ia = true →
         (s.core.front.loops ≠ [] → exec (.ldg d a z o) s = .next s.illegal) ∧
         (s.core.front.loops = [] → s.core.regs.z.stat.tm = true → exec (.ldg d a z o) s = .next s.suspendMasked) ∧
         (s.core.front.loops = [] → s.core.regs.z.stat.tm = false → s.core.misses = [] → s.core.copy.jobs = [] → s.core.copy.err = [] →
           (s.peer (s.holderOf c.ia)).state = .up → (s.peer (s.holderOf c.ia)).inc = c.inc →
           Completes (.ldg d a z o) s fun t => (∀ r, s.core.front.run = some r → ∃ l, t.core.front.run = some { r with after := some (.remote l) } ∧
             l.ia = c.ia ∧ l.size = n ∧ l.reg = d.toNat ∧ l.vec = false ∧ l.signed = MSize.signed z) ∧ t.core.regs = s.core.regs ∧ t.mem = s.mem)))) ∧
    (let va := s.x a + c10.signExtend 64 * BitVec.ofNat 64 (MSize.bytes z)
     let n := MSize.bytes z
     ((s.ctx s.bound.ctx).translate? va.toNat .rd = none → exec (.ldc d a z c10) s = .next (s.noWindow va)) ∧
     (∀ c, (s.ctx s.bound.ctx).translate? va.toNat .rd = some c →
       (s.constWin c.win = false → exec (.ldc d a z c10) s = .next (s.noWindow va)) ∧
       (s.constWin c.win = true → va.toNat % n ≠ 0 → exec (.ldc d a z c10) s = .next (s.misalign va n)) ∧
       (s.constWin c.win = true → va.toNat % n = 0 → s.isRemote c.ia = true → exec (.ldc d a z c10) s = .next s.illegal) ∧
       (s.constWin c.win = true → va.toNat % n = 0 → s.isRemote c.ia = false →
         (∀ u, s.walk s.myDie c.ia = (u, .absent) → exec (.ldc d a z c10) s = .next (u.abort c.ia)) ∧
         (∀ u pa m, s.walk s.myDie c.ia = (u, .page pa m) →
           (∀ l, (u.cluster (clusterOf u.coreId)).bcast.find? (fun l => l.launch == u.bound.launch && l.ia == c.ia / 64 * 64) = some l →
             (let val := extendLoad (MSize.signed z) n (at' l.data (c.ia % 64) n)
              (m = false → u.homeLost c.ia pa = false → Completes (.ldc d a z c10) s fun t => t = u.setX d val 12 ∧
                t.core.flight = u.core.flight ++ (if d = 0 then [] else [⟨12, .x d.toNat val⟩])) ∧
              (m = false → u.homeLost c.ia pa = true → exec (.ldc d a z c10) s = .next (u.uncorrectable c.ia pa)))) ∧
           (∀ v bs, (u.cluster (clusterOf u.coreId)).bcast.find? (fun l => l.launch == u.bound.launch && l.ia == c.ia / 64 * 64) = none → d ≠ 0 →
             u.homeRead (c.ia / 64 * 64) (pa / 64 * 64) 64 = (v, some bs) → Completes (.ldc d a z c10) s fun t =>
               t.core.misses = v.core.misses ++ [{ ia := c.ia, vec := false, reg := d.toNat, w := .x d.toNat (extendLoad (MSize.signed z) n (at' bs (c.ia % 64) n)), bad := false }] ∧
               t.core.regs = v.core.regs ∧ t.core.flight = v.core.flight ∧ t.mem = v.mem ∧
               (t.cluster (clusterOf t.coreId)).bcast = { launch := v.bound.launch, ia := c.ia / 64 * 64, data := bs } :: (v.cluster (clusterOf v.coreId)).bcast)))))

/-- R206, R259 and the frame of STG, with no bound check on: a store to this device appends one record that holds the source's bytes at the intermediate
address, and changes no byte of home memory and no register. R206, R211: STG names NO_WINDOW without a window that permits a write, MISALIGN off its
size, and CONST_WRITE in a window that is constant for the launch. -/
def Obligations.GlobalStores : Prop :=
  (∀ (s u : State) (r a : BitVec 6) (z : MSize) (o : BitVec 9) (c : Access) (pa : Nat) (m : Bool),
    (let va := s.x a + o.signExtend 64 * BitVec.ofNat 64 (MSize.bytes z)
     let n := MSize.bytes z
     s.core.vec.bounds = [] → (s.ctx s.bound.ctx).translate? va.toNat .w = some c → va.toNat % n = 0 → s.constWin c.win = false →
     s.isRemote c.ia = false → s.walk s.myDie c.ia = (u, .page pa m) → s.mem.logUsed s.coreId ≤ 384 * 1024 →
     Completes (.stg r a z o) s fun t => t.core.regs = s.core.regs ∧ t.core.flight = s.core.flight ∧ t.core.spad = s.core.spad ∧
       (∀ x, t.homeByte x = s.homeByte x) ∧
       ∃ e, t.mem.recs = s.mem.recs ++ [e] ∧ e.core = s.coreId ∧ e.launch = s.bound.launch ∧ e.index = s.bound.index ∧ e.addr = c.ia ∧ e.len = n ∧
         e.stamp = none ∧ e.seq = (s.core.seq + 1).toNat ∧
         ∀ x, e.byte? x = if c.ia ≤ x ∧ x < c.ia + n then some (BitVec.ofNat 8 ((s.x r).toNat / 2 ^ (8 * (x - c.ia)))) else none)) ∧
  (∀ (s : State) (r a : BitVec 6) (z : MSize) (o : BitVec 9),
    (let va := s.x a + o.signExtend 64 * BitVec.ofNat 64 (MSize.bytes z)
     let n := MSize.bytes z
     ((s.ctx s.bound.ctx).translate? va.toNat .w = none → exec (.stg r a z o) s = .next (s.noWindow va)) ∧
     (∀ c, (s.ctx s.bound.ctx).translate? va.toNat .w = some c →
       (va.toNat % n ≠ 0 → exec (.stg r a z o) s = .next (s.misalign va n)) ∧
       (va.toNat % n = 0 → s.constWin c.win = true → exec (.stg r a z o) s = .next (s.constWrite va.toNat c.win)) ∧
       (va.toNat % n = 0 → s.constWin c.win = false → s.isRemote c.ia = false →
         ∀ u, s.walk s.myDie c.ia = (u, .absent) → exec (.stg r a z o) s = .next (u.abort c.ia)))))

/-- R207: an aligned LDGV or STGV with no enabled lane has no effect, a misaligned one traps whatever the predicate, and one whose single enabled chunk is
readable here loads its lanes 24 cycles after a hit; an STGV of one chunk with no bound check on appends the enabled lanes' bytes. -/
def Obligations.GlobalVectorForms : Prop :=
  ∀ (s : State) (d : BitVec 5) (a : BitVec 6) (o : BitVec 9) (p : BitVec 4),
    (let b := s.x a + o.signExtend 64 * 32
     (b.toNat % 32 ≠ 0 → exec (.ldgv d a o p) s = .next (s.misalign b 32) ∧ exec (.stgv d a o p) s = .next (s.misalign b 32)) ∧
     (b.toNat % 32 = 0 → s.p p = 0 → exec (.ldgv d a o p) s = .next s ∧ exec (.stgv d a o p) s = .next s) ∧
     (∀ c u pa v g, b.toNat % 32 = 0 → s.p p ≠ 0 → (∀ i, 8 ≤ i → (s.p p).getLsbD i = false) →
       (s.ctx s.bound.ctx).translate? b.toNat .rd = some c → s.isRemote c.ia = false → s.walk s.myDie c.ia = (u, .page pa false) →
       u.viewRead c.ia pa 32 = (v, g) → g.missed = false → g.lost = false →
       ∃ val, exec (.ldgv d a o p) s = .next (v.setV d (s.p p) val 24) ∧ ∀ i, i < 8 → (lane val i).toNat = at' g.data (4 * i) 4) ∧
     (∀ c u pa m, b.toNat % 32 = 0 → s.p p ≠ 0 → (∀ i, 8 ≤ i → (s.p p).getLsbD i = false) → s.core.vec.bounds = [] →
       (s.ctx s.bound.ctx).translate? b.toNat .w = some c → s.constWin c.win = false → s.isRemote c.ia = false →
       s.walk s.myDie c.ia = (u, .page pa m) → s.mem.logUsed s.coreId ≤ 384 * 1024 →
       Completes (.stgv d a o p) s fun t => t.core.regs = s.core.regs ∧ t.core.spad = s.core.spad ∧ (∀ x, t.homeByte x = s.homeByte x) ∧
         ∃ e, t.mem.recs = s.mem.recs ++ [e] ∧ e.stamp = none ∧ ∀ x, e.byte? x =
           if c.ia ≤ x ∧ x < c.ia + 32 ∧ (s.p p).getLsbD ((x - c.ia) / 4) = true then
             some (BitVec.ofNat 8 ((lane (s.v d) ((x - c.ia) / 4)).toNat / 2 ^ (8 * ((x - c.ia) % 4)))) else none))

/-- R266: the bytes of the task's own latest unreleased record are what its next read through the view returns, whatever home or a cached line holds.
Where the spec leaves a point of this open the clause states the model's choice, not a rule: assumption log 24. -/
def Obligations.OwnStoreVisible : Prop :=
  ∀ (s : State) (ia len : Nat) (cells : List Host.Cell) (inc : BitVec 16) (x : Nat) (b home : Byte) (st : Nat),
    s.core.seq.toNat + 1 < 2 ^ 55 → (∀ r ∈ s.mem.recs, s.inU r = true → r.seq ≤ s.core.seq.toNat) → tget? cells x = some b →
    (s.append ia len cells false inc).viewByte x home st = (b, true)

/-- R272, R275, R267, R279: an ACQ of a variable of this device writes the variable's value once the acquire part has passed, raises the race that the
part found, or holds while a compaction that it forces waits; where no log holds a record and only dies have released on the variable it completes at
every scope. A variable out of the scope's reach is ILLEGAL, and the window and alignment are tested first; an answer of another device is followed by
the acquire part on this device's releases, and its value is written. R265, R266, R272: an acquire of this die's release with a stamp raises P and A
to at least that stamp, moves no other part of the view, and makes every record of the die with a stamp up to it visible to the task. Where the spec
leaves a point of this open the clause states the model's choice, not a rule: assumption log 33, 34. -/
def Obligations.AcquireEffects : Prop :=
  (∀ (s : State) (d a : BitVec 6) (sc : Scope) (q : BitVec 3), s.sqOn q = true →
    ((s.ctx s.bound.ctx).translate? (s.x a).toNat .rd = none → exec (.acq d a sc q) s = .next (s.noWindow (s.x a))) ∧
    (∀ c, (s.ctx s.bound.ctx).translate? (s.x a).toNat .rd = some c →
      ((s.x a).toNat % 8 ≠ 0 → exec (.acq d a sc q) s = .next (s.misalign (s.x a) 8)) ∧
      ((s.x a).toNat % 8 = 0 → s.isRemote c.ia = true → sc ∉ [Scope.peer, .domain, .group, .network, .system] →
        exec (.acq d a sc q) s = .next s.illegal) ∧
      ((s.x a).toNat % 8 = 0 → s.isRemote c.ia = true → sc ∈ [Scope.peer, .domain, .group, .network, .system] → s.core.released = none →
        ∀ v n w, s.core.answer = some (.sync v n) → (({ s with core := { s.core with asked := none, answer := none, released := none } } : State).acquirePart
          (varOf c.ia) true (s.farSources c.ia) (Scope.eager sc)) = (w, .done) → exec (.acq d a sc q) s = .next (w.setX d v 1)) ∧
      ((s.x a).toNat % 8 = 0 → s.isRemote c.ia = false → ∀ u pa m v bs, s.walk s.myDie c.ia = (u, .page pa m) → u.homeRead c.ia pa 8 = (v, some bs) →
        (∀ w r, v.acquirePart (varOf c.ia) false (v.varSources c.ia) (sc == .host || sc == .network || sc == .system) = (w, r) →
          (r = .done → exec (.acq d a sc q) s = .next (w.setX d (BitVec.ofNat 64 (leNat bs)) 1)) ∧
          (∀ e, r = .race e → exec (.acq d a sc q) s = .next (w.raise e)) ∧
          (r = .wait → exec (.acq d a sc q) s = .next w.hold)) ∧
        (SyncQuiet v c.ia → Completes (.acq d a sc q) s fun t => WritesX s t d (BitVec.ofNat 64 (leNat bs)) 1 ∧ t.core.regs = s.core.regs ∧ t.core.spad = s.core.spad ∧
          t.mem.cells = s.mem.cells)))) ∧
  (∀ (s t : State) (b : Bound) (ia st : Nat), s.core.task = some b → s.coreId < 352 → s.acquirePart ia false [(s.myDie, st)] false = (t, .done) →
    t.core.task = some { b with vp := max b.vp st, va := max b.va st } ∧ t.mem = s.mem ∧ t.core.regs = s.core.regs ∧
    ∀ r ∈ t.mem.recs, dieOf r.core = t.myDie → ∀ n, r.stamp = some n → n ≤ st → t.replayed r = true)

/-- R271, R278: the release part without a conflict takes the next stamp, gives it to every covered record and to no other, and leaves home memory as it
is. R271, R275, R267: a REL of a variable of this device releases, adds 1 to the variable with the release's stamp, publishes the stamp, and writes
the new value; at a scope that is not eager that is all, and at an eager one it holds until its die's records up to the stamp are compacted. A race is
raised with nothing published, loads still on their way hold it, and so does the room that its sync home lacks. Where memory is quiet it completes at
every scope, and leaves the new value at the word and every other byte of home memory as it was. Where the spec leaves a point of this open the clause
states the model's choice, not a rule: assumption log 33, 34, 89. -/
def Obligations.ReleaseEffects : Prop :=
  (∀ (s : State), s.conflicts (wordsOf (s.mem.recs.filter s.covers)) = [] →
    ∃ t, s.releasePart = (t, s.mem.clock, none) ∧ t.mem.clock = s.mem.clock + 1 ∧ t.mem.cells = s.mem.cells ∧
      t.mem.recs = s.mem.recs.map (fun r => if s.covers r = true then { r with stamp := some s.mem.clock } else r) ∧ t.core.regs = s.core.regs) ∧
  (∀ (s : State) (d a : BitVec 6) (sc : Scope) (q : BitVec 3) (c : Access), s.sqOn q = true →
    (s.ctx s.bound.ctx).translate? (s.x a).toNat .rdw = some c → (s.x a).toNat % 8 = 0 →
    (s.constWin c.win = true → exec (.rel d a sc q) s = .next (s.constWrite (s.x a).toNat c.win)) ∧
    (s.constWin c.win = false → s.isRemote c.ia = true → sc ∉ [Scope.peer, .domain, .group, .network, .system] → exec (.rel d a sc q) s = .next s.illegal) ∧
    (s.constWin c.win = false → s.isRemote c.ia = false → s.loadsOut = true → exec (.rel d a sc q) s = .next s.hold) ∧
    (s.constWin c.win = false → s.isRemote c.ia = false → s.loadsOut = false → s.core.released = none →
      ∀ u pa m v bs, s.walk s.myDie c.ia = (u, .page pa m) → u.homeRead c.ia pa 8 = (v, some bs) → v.imageWait c.ia = false →
        (∀ p, v.publishRoom c.ia v.myDie = (p, false) → exec (.rel d a sc q) s = .next p.hold) ∧
        (∀ p, v.publishRoom c.ia v.myDie = (p, true) →
          (∀ w st e, p.releasePart = (w, st, some e) → exec (.rel d a sc q) s = .next (w.raise e)) ∧
          (∀ w st, p.releasePart = (w, st, none) → (let new := BitVec.ofNat 64 ((leNat bs + 1) % 2 ^ 64)
            let y := ((w.atomicWrite c.ia pa (leBytes 8 ((leNat bs + 1) % 2 ^ 64)) st).1).publish c.ia w.myDie st
            (sc ∉ [Scope.host, .network, .system] → exec (.rel d a sc q) s = .next ((y.modCore fun c => { c with released := none }).setX d new 1).endRegion) ∧
            (sc ∈ [Scope.host, .network, .system] → ∀ z, (y.forceDie y.myDie st = (z, true) →
                exec (.rel d a sc q) s = .next ((z.modCore fun c => { c with released := none }).setX d new 1).endRegion) ∧
              (y.forceDie y.myDie st = (z, false) → exec (.rel d a sc q) s = .next (z.modCore fun c => { c with released := some (st, new) }).hold))))) ∧
        (RmwReady v c.ia → Completes (.rel d a sc q) s fun t => WritesX s t d (BitVec.ofNat 64 ((leNat bs + 1) % 2 ^ 64)) 1 ∧ EndsRegion t ∧ t.core.released = none ∧
          t.core.regs = s.core.regs ∧ t.core.spad = s.core.spad ∧ (∀ x, (x < pa ∨ pa + 8 ≤ x) → t.homeByte x = s.homeByte x) ∧
          (pa % 8 = 0 → s.protector? c.ia = none → (∀ b ∈ s.mem.bad, b ≠ pa / 32) → (∀ x, pa ≤ x → x < pa + 8 → tget 0 s.mem.stamps x ≤ s.mem.clock) →
            leNat (t.mem.bytes pa 8) = (leNat bs + 1) % 2 ^ 64))))

/-- R273: a FENCE releases on its scope's fence variable, at an eager scope compacts its die up to that stamp, then acquires from the variable, and ends
the region; it returns nothing. A race of either part is raised, loads still on their way hold it, and so does a compaction that waits. Where memory
is quiet it completes, with its own stamp on the fence variable. R284, R285: LOGMARK writes the task's log position, LOGTRUNC discards the task's
unreleased records above a position and says whether some had been released, LOGCMP compacts the die's released records up to the stamp of the task's
last release, or of the die's on a variable, and writes their number, holding while one waits; the first two are ILLEGAL without LOGPRIV. Where the
spec leaves a point of this open the clause states the model's choice, not a rule: assumption log 34, 35. -/
def Obligations.FenceAndLog : Prop :=
  (∀ (s : State) (sc : Scope) (q : BitVec 3), s.sqOn q = true → s.core.released = none →
    (s.loadsOut = true → exec (.fence sc q) s = .next s.hold) ∧
    (s.loadsOut = false →
      (∀ u st e, s.releasePart = (u, st, some e) → exec (.fence sc q) s = .next (u.raise e)) ∧
      (∀ u st, s.releasePart = (u, st, none) →
        (let y := u.fencePublish sc st
         ∀ z b, (if sc = .host ∨ sc = .network ∨ sc = .system then y.forceDie y.myDie st else (y, true)) = (z, b) →
           (let again := fun s : State => (s.modCore fun c => { c with released := some (st, 0) }).hold
            let v := z.modCore fun c => { c with released := none }
            (b = false → exec (.fence sc q) s = .next (again z)) ∧
            (b = true → ∀ w r, v.acquirePart 0 false (v.fenceSources sc) (sc == .host || sc == .network || sc == .system) = (w, r) →
              (r = .done → exec (.fence sc q) s = .next w.endRegion) ∧ (∀ e, r = .race e → exec (.fence sc q) s = .next (w.raise e)) ∧
              (r = .wait → exec (.fence sc q) s = .next (again w)))))) ∧
      (s.mem.recs = [] → s.coreId < 352 → (∀ kv ∈ s.fenceSources sc, kv.1 < 4) →
        Completes (.fence sc q) s fun t => EndsRegion t ∧ t.core.released = none ∧ t.core.regs = s.core.regs ∧ t.core.flight = s.core.flight ∧ t.core.spad = s.core.spad ∧
          t.mem.cells = s.mem.cells ∧ tget? (t.fenceSources sc) s.myDie = some s.mem.clock))) ∧
  (∀ (s : State) (d a : BitVec 6) (q : BitVec 3), s.sqOn q = true →
    ((s.ctx s.bound.ctx).logPriv = false → exec (.logmark d q) s = .next s.illegal ∧ exec (.logtrunc d a q) s = .next s.illegal) ∧
    ((s.ctx s.bound.ctx).logPriv = true →
      exec (.logmark d q) s = .next (s.setX d (BitVec.ofNat 64 (s.coreId * 2 ^ 55 + s.bound.lastSeq % 2 ^ 55)) 1) ∧
      ((∃ j ∈ s.core.copy.jobs, j.dir = .sh ∨ j.dir = .rm ∨ j.dir = .tevict) → exec (.logtrunc d a q) s = .next s.hold) ∧
      ((∀ j ∈ s.core.copy.jobs, j.dir ≠ .sh ∧ j.dir ≠ .rm ∧ j.dir ≠ .tevict) →
        (let here := (s.x a).toNat / 2 ^ 55 = s.coreId
         let pos := if here then (s.x a).toNat % 2 ^ 55 else s.bound.seq0
         Completes (.logtrunc d a q) s fun t =>
           t.mem = { s.mem with recs := s.mem.recs.filter fun r =>
             !(r.core == s.coreId && r.stamp.isNone && (r.launch == s.bound.launch && r.index == s.bound.index) && decide (pos < r.seq)) } ∧
           WritesX s t d (if (if here then decide (pos < s.bound.relSeq) else s.releasedSince ((s.x a).toNat / 2 ^ 55) ((s.x a).toNat % 2 ^ 55)) = true then 1 else 0) 1 ∧
           t.core.regs = s.core.regs ∧ (∀ b, s.core.task = some b → t.core.task = some { b with mark := min b.mark pos })))) ∧
    (a ≠ 0 → (s.ctx s.bound.ctx).translate? (s.x a).toNat .rd = none → exec (.logcmp d a q) s = .next (s.noWindow (s.x a))) ∧
    (∀ c, a ≠ 0 → (s.ctx s.bound.ctx).translate? (s.x a).toNat .rd = some c → (s.x a).toNat % 8 ≠ 0 → exec (.logcmp d a q) s = .next (s.misalign (s.x a) 8)) ∧
    (∀ n, s.core.compacted = none →
      (a = 0 ∧ n = s.bound.lastRel ∨ ∃ c, a ≠ 0 ∧ (s.ctx s.bound.ctx).translate? (s.x a).toNat .rd = some c ∧ (s.x a).toNat % 8 = 0 ∧ n = s.dieStamp c.ia) →
      (let k := (s.mem.recs.filter fun r => match r.stamp with
         | some st => dieOf r.core == s.myDie && decide (0 < st) && decide (st ≤ n)
         | none => false).length
       (∀ u, s.forceDie s.myDie n = (u, true) → Completes (.logcmp d a q) s fun t => WritesX u t d (BitVec.ofNat 64 k) 1 ∧ t.mem = u.mem ∧ t.core.compacted = none) ∧
       (∀ u, s.forceDie s.myDie n = (u, false) → exec (.logcmp d a q) s = .next (u.modCore fun c => { c with compacted := some (n, k) }).hold)) ∧
      (s.mem.recs = [] → Completes (.logcmp d a q) s fun t => WritesX s t d 0 1 ∧ t.mem = s.mem ∧ t.core.regs = s.core.regs)))

/-- R281, R28: AMO and CAS on a word of this device release, acquire, run the operation at the home atomic unit once the released records on the word are
compacted, and write the old value, at every scope of their field; the ten operations and the comparison of CAS. They complete where memory is quiet,
leaving the new value at the word and every other byte of home memory as it was. Their window, alignment and constant-window tests come first, and a
word of another device needs a scope that reaches it. R281, R264: the home atomic unit answers the old word, and with no record to compact and no
group protecting the word, leaves the new one there and every other byte of home as it was. Where the spec leaves a point of this open the clause
states the model's choice, not a rule: assumption log 32, 33, 34. -/
def Obligations.AtomicEffects : Prop :=
  (∀ (s : State) (d a b : BitVec 6) (k : BitVec 3) (i : Instr) (n : Nat) (f : Word → Option Word),
    ((i = .amoAdd d a b k ∧ n = 8 ∧ f = fun o => some (o + s.x b)) ∨ (i = .amoAnd d a b k ∧ n = 8 ∧ f = fun o => some (o &&& s.x b)) ∨
     (i = .amoOr d a b k ∧ n = 8 ∧ f = fun o => some (o ||| s.x b)) ∨ (i = .amoXor d a b k ∧ n = 8 ∧ f = fun o => some (o ^^^ s.x b)) ∨
     (i = .amoMin d a b k ∧ n = 8 ∧ f = fun o => some (if o.toInt ≤ (s.x b).toInt then o else s.x b)) ∨
     (i = .amoMax d a b k ∧ n = 8 ∧ f = fun o => some (if o.toInt ≤ (s.x b).toInt then s.x b else o)) ∨
     (i = .amoMinu d a b k ∧ n = 8 ∧ f = fun o => some (if o.toNat ≤ (s.x b).toNat then o else s.x b)) ∨
     (i = .amoMaxu d a b k ∧ n = 8 ∧ f = fun o => some (if o.toNat ≤ (s.x b).toNat then s.x b else o)) ∨
     (i = .amoSwap d a b k ∧ n = 8 ∧ f = fun _ => some (s.x b)) ∨
     (i = .amoFadd d a b k ∧ n = 4 ∧ f = fun o => some (BitVec.ofNat 64 (fp32.add (o.toNat % 2 ^ 32) ((s.x b).toNat % 2 ^ 32)).1)) ∨
     (i = .cas d a b k ∧ n = 8 ∧ f = fun o => if o = s.x d then some (s.x b) else none)) →
    ((s.ctx s.bound.ctx).translate? (s.x a).toNat .rdw = none → exec i s = .next (s.noWindow (s.x a))) ∧
    (∀ c, (s.ctx s.bound.ctx).translate? (s.x a).toNat .rdw = some c →
      ((s.x a).toNat % n ≠ 0 → exec i s = .next (s.misalign (s.x a) n)) ∧
      ((s.x a).toNat % n = 0 → s.constWin c.win = true → exec i s = .next (s.constWrite (s.x a).toNat c.win)) ∧
      ((s.x a).toNat % n = 0 → s.constWin c.win = false → s.isRemote c.ia = true → k.toNat < 3 → exec i s = .next s.illegal) ∧
      ((s.x a).toNat % n = 0 → s.constWin c.win = false → s.isRemote c.ia = false → s.loadsOut = true → exec i s = .next s.hold) ∧
      ((s.x a).toNat % n = 0 → s.constWin c.win = false → s.isRemote c.ia = false → s.loadsOut = false →
        (∀ u, s.walk s.myDie c.ia = (u, .absent) → exec i s = .next (u.abort c.ia)) ∧
        (∀ u pa m v bs, s.walk s.myDie c.ia = (u, .page pa m) → u.homeRead c.ia pa n = (v, some bs) →
          (∀ z old, RmwPasses v c.ia pa n f (k.toNat == 2 || k.toNat == 6 || k.toNat == 7) true z old → exec i s = .next (z.setX d old 1).endRegion) ∧
          (RmwReady v c.ia → (let old := BitVec.ofNat 64 (leNat (s.mem.bytes pa n))
            Completes i s fun t => WritesX s t d old 1 ∧ EndsRegion t ∧ t.core.released = none ∧ t.core.regs = s.core.regs ∧ t.core.spad = s.core.spad ∧
              (f old = none → t.mem.cells = s.mem.cells) ∧ (∀ x, (x < pa ∨ pa + n ≤ x) → t.homeByte x = s.homeByte x) ∧
              (pa % n = 0 → s.protector? c.ia = none → (∀ b ∈ s.mem.bad, b ≠ pa / 32) → (∀ x, pa ≤ x → x < pa + n → tget 0 s.mem.stamps x ≤ s.mem.clock) →
                ∀ new, f old = some new → leNat (t.mem.bytes pa n) = new.toNat % 2 ^ (8 * n)))))))) ∧
  (∀ (s t : State) (ia pa n : Nat) (f : Word → Option Word) (old : Word), (n = 4 ∨ n = 8) → pa % n = 0 → s.mem.recs = [] → s.protector? ia = none →
    (∀ x, pa ≤ x → x < pa + n → tget 0 s.mem.stamps x ≤ s.mem.clock) → (∀ k ∈ s.mem.bad, k ≠ pa / 32) → s.sched.tasks = [] →
    s.atomicAt ia pa n f = (t, old) →
    old = BitVec.ofNat 64 (leNat (s.mem.bytes pa n)) ∧
    (f old = none → t.mem.cells = s.mem.cells) ∧
    (∀ v, f old = some v → leNat (t.mem.bytes pa n) = v.toNat % 2 ^ (8 * n) ∧ ∀ x, (x < pa ∨ pa + n ≤ x) → t.homeByte x = s.homeByte x))

/-- R301, R302, R304: TSEQ in canonical mode takes the slice of the task's index, and otherwise adds 1 to the cursor as an AMO does and takes the slice of
its old value, into x8, x9 and x10; a malformed descriptor is ILLEGAL. R301, R302: slice k of a descriptor: x8 is its first linear index, x9 the
number of iterations left in it, x10 the packed coordinates; past the end, x8 is the total and x9 is 0. Where the spec leaves a point of this open the
clause states the model's choice, not a rule: assumption log 34, 36. -/
def Obligations.TileSequencer : Prop :=
  (∀ (s : State) (a : BitVec 6) (c : Access) (u : State) (pa : Nat) (m : Bool) (v : State) (g : ViewGot),
    (s.ctx s.bound.ctx).translate? (s.x a).toNat .rdw = some c → (s.x a).toNat % 64 = 0 → s.constWin c.win = false → s.isRemote c.ia = false →
    s.walk s.myDie c.ia = (u, .page pa m) → u.viewRead c.ia pa 64 = (v, g) → g.lost = false →
    (TileDesc.ofBytes g.data = none → exec (.tseq a) s = .next v.illegal) ∧
    (∀ t, TileDesc.ofBytes g.data = some t → v.core.regs.z.stat.det = true → exec (.tseq a) s = .next (v.takeSlice t v.bound.index).endRegion) ∧
    (∀ t z old, TileDesc.ofBytes g.data = some t → v.core.regs.z.stat.det = false → v.loadsOut = false →
      RmwPasses v (c.ia + 24) (pa + 24) 8 (fun o => some (o + 1)) false true z old → exec (.tseq a) s = .next (z.takeSlice t old.toNat).endRegion)) ∧
  (∀ (s : State) (t : TileDesc) (k : Nat),
    (t.total ≤ k * t.slice → s.takeSlice t k = ((s.setX 8 (BitVec.ofNat 64 t.total) 1).setX 9 0 1).setX 10 0 1) ∧
    (k * t.slice < t.total → 0 < t.slice → s.takeSlice t k = ((s.setX 8 (BitVec.ofNat 64 (k * t.slice)) 1).setX 9
      (BitVec.ofNat 64 (min t.slice (t.total - k * t.slice))) 1).setX 10 (BitVec.ofNat 64 (t.coords (k * t.slice))) 1))

/-- R283: SSTEP releases on the superstep variable, waits for the task's own SENDs, then counts its arrival: the next bundle is held for the generation,
and the region ends. R303, R304, R389: CCADD releases, then adds to its counter at home and ends the region; CCWAIT, and NETWAIT at network scope,
hold while the counter is below their value and acquire it once it is reached, CCWAIT on a counter of the network engine at network scope too; a
counter of another device is ILLEGAL to all three. Where memory is quiet each completes once its counter has the value. R388 to R390: a NETPOST that
has published its slot records its work request with its ring, slot, context and bytes, and ends the region once the records that it released are
compacted; while its turn to publish has not come, it waits. Where the spec leaves a point of this open the clause states the model's choice, not a
rule: assumption log 34, 76. -/
def Obligations.CountersAndPosts : Prop :=
  (∀ (s : State) (q : BitVec 3) (pkg : Bool) (i : Instr), (i = if pkg then .sstepPackage q else .sstepDie q) → s.sqOn q = true → s.core.released = none →
    (s.loadsOut = true → exec i s = .next s.hold) ∧
    (s.loadsOut = false → ∀ u st, s.releasePart = (u, st, none) → u.core.chans = [] →
      Completes i s fun t => (∃ g, t.core.sstep = some (pkg, g)) ∧ t.core.released = none ∧ t.core.regs = u.core.regs ∧ t.mem = u.mem ∧
        (∀ r, t.core.front.run = some r → r.ended = true))) ∧
  (∀ (s : State) (a b : BitVec 6),
    (∀ c, (s.ctx s.bound.ctx).translate? (s.x a).toNat .rdw = some c → (s.x a).toNat % 8 = 0 → s.constWin c.win = false →
      (s.isRemote c.ia = true → exec (.ccadd a b) s = .next s.illegal) ∧
      (s.isRemote c.ia = false → s.loadsOut = true → exec (.ccadd a b) s = .next s.hold) ∧
      (s.isRemote c.ia = false → s.loadsOut = false → ∀ u pa m v bs, s.walk s.myDie c.ia = (u, .page pa m) → u.homeRead c.ia pa 8 = (v, some bs) →
        (∀ z old, RmwPasses v c.ia pa 8 (fun o => some (o + s.x b)) false false z old → exec (.ccadd a b) s = .next z.endRegion) ∧
        (RmwReady v c.ia → Completes (.ccadd a b) s fun t => EndsRegion t ∧ t.core.regs = s.core.regs ∧ t.core.flight = s.core.flight ∧ t.core.spad = s.core.spad ∧
          (∀ x, (x < pa ∨ pa + 8 ≤ x) → t.homeByte x = s.homeByte x) ∧
          (pa % 8 = 0 → s.protector? c.ia = none → (∀ k ∈ s.mem.bad, k ≠ pa / 32) → (∀ x, pa ≤ x → x < pa + 8 → tget 0 s.mem.stamps x ≤ s.mem.clock) →
            leNat (t.mem.bytes pa 8) = (leNat (s.mem.bytes pa 8) + (s.x b).toNat) % 2 ^ 64)))) ∧
    (∀ c, (s.ctx s.bound.ctx).translate? (s.x a).toNat .rd = some c → (s.x a).toNat % 8 = 0 →
      (s.isRemote c.ia = true → exec (.ccwait a b) s = .next s.illegal ∧ exec (.netwait a b) s = .next s.illegal) ∧
      (s.isRemote c.ia = false → ∀ u pa m v bs, s.walk s.myDie c.ia = (u, .page pa m) → u.homeRead c.ia pa 8 = (v, some bs) →
        (leNat bs < (s.x b).toNat → exec (.ccwait a b) s = .next v.hold ∧ exec (.netwait a b) s = .next v.hold) ∧
        ((s.x b).toNat ≤ leNat bs →
          (∀ w r, v.acquirePart (varOf c.ia) false (v.varSources c.ia) (v.netCounter c.ia) = (w, r) → (r = .done → exec (.ccwait a b) s = .next w) ∧
            (∀ e, r = .race e → exec (.ccwait a b) s = .next (w.raise e)) ∧ (r = .wait → exec (.ccwait a b) s = .next w.hold)) ∧
          (∀ w r, v.acquirePart (varOf c.ia) false (v.varSources c.ia) true = (w, r) → (r = .done → exec (.netwait a b) s = .next w) ∧
            (∀ e, r = .race e → exec (.netwait a b) s = .next (w.raise e)) ∧ (r = .wait → exec (.netwait a b) s = .next w.hold)) ∧
          (SyncQuiet v c.ia → ∀ i, (i = Instr.ccwait a b ∨ i = Instr.netwait a b) → Completes i s fun t => t.core.regs = s.core.regs ∧ t.core.flight = s.core.flight ∧
            t.core.spad = s.core.spad ∧ t.mem.cells = s.mem.cells ∧ t.core.front.hold = s.core.front.hold))))) ∧
  (∀ (s : State) (a b : BitVec 6), s.core.released = none →
    (let ring := (s.x b).toNat % 64
     let posted := fun (u t : State) (k : Nat) (bs : List Byte) => (∃ x, t.net.work = u.net.work ++ [x] ∧ x.ctx = u.bound.ctx ∧ x.ring = ring ∧ x.slot = k ∧
       x.core = some u.coreId ∧ x.bytes = bs ∧ x.started = false) ∧ t.core.regs = u.core.regs ∧ t.mem = u.mem ∧ EndsRegion t
     (∀ n k u, s.core.slotHeld = some (n, k) → s.core.published = none → s.ringTry (s.ringReg n) k = (u, false) → exec (.netpost a b) s = .next u.hold) ∧
     (∀ n k v u r, s.core.slotHeld = some (n, k) → s.core.published = none → s.ringTry (s.ringReg n) k = (v, true) → (∀ e ∈ v.mem.recs, e.stamp = none) →
       (v.modCore fun c => { c with published := none }).readIa v.myDie (ringEntry (v.ringReg (64 + ring)) k) 64 2 = (u, r) →
       Completes (.netpost a b) s fun t => posted u t k (r.getD [])) ∧
     (∀ k u r, s.core.slotHeld = none → s.core.published = some k → (∀ e ∈ s.mem.recs, e.stamp = none) →
       (s.modCore fun c => { c with published := none }).readIa s.myDie (ringEntry (s.ringReg (64 + ring)) k) 64 2 = (u, r) →
       Completes (.netpost a b) s fun t => posted u t k (r.getD []))))

/-- R214, R216 to R218: a CPY takes its geometry from the gy register, after the exchange that sw asks for, its source from xa and its destination from
xb. R215, R216 to R219: a CPYR whose record is in the record cache takes its source and geometry from the record and its destination from xb. Where
the spec leaves a point of this open the clause states the model's choice, not a rule: assumption log 28. -/
def Obligations.CopyAcceptance : Prop :=
  (∀ (s : State) (g : BitVec 2) (a b : BitVec 6) (w : Bool) (c : CWidth) (h : BitVec 4),
    (let r := (if w then (s.shapes (4 + g.toNat)).2 else (s.shapes (4 + g.toNat)).1).toNat
     let ext := [elemOf 32 r 0, elemOf 32 r 1, elemOf 32 r 2, elemOf 32 r 3]
     let str := [sval 32 (elemOf 32 r 4), sval 32 (elemOf 32 r 5), sval 32 (elemOf 32 r 6), sval 32 (elemOf 32 r 7)]
     let dstr := [sval 32 (elemOf 32 r 8), sval 32 (elemOf 32 r 9), sval 32 (elemOf 32 r 10), sval 32 (elemOf 32 r 11)]
     let n := match c with | .e1 => 1 | .e2 => 2 | .e4 => 4
     CopyAccepted s .hs (s.x a) (s.x b) ext str dstr n h w (exec (.cpyHs g a b w c h) s) ∧
     CopyAccepted s .sh (s.x a) (s.x b) ext str dstr n h w (exec (.cpySh g a b w c h) s) ∧
     CopyAccepted s .ss (s.x a) (s.x b) ext str dstr n h w (exec (.cpySs g a b w c h) s) ∧
     CopyAccepted s .rm (s.x a) (s.x b) ext str dstr n 0 w (exec (.cpyRm g a b w c) s))) ∧
  (∀ (s : State) (a b : BitVec 6) (w : Bool) (c : CWidth) (h : BitVec 4) (q : Access) (bs : List Byte), (s.x a).toNat % 64 = 0 →
    (s.ctx s.bound.ctx).translate? (s.x a).toNat .rd = some q → s.core.rcache = [(q.ia, bs)] →
    (let ext := [at' bs 8 4, at' bs 12 4, at' bs 16 4, at' bs 20 4]
     let str := [sval 32 (at' bs 24 4), sval 32 (at' bs 28 4), sval 32 (at' bs 32 4), sval 32 (at' bs 36 4)]
     let dstr := [sval 32 (at' bs 40 4), sval 32 (at' bs 44 4), sval 32 (at' bs 48 4), sval 32 (at' bs 52 4)]
     let n := match c with | .e1 => 1 | .e2 => 2 | .e4 => 4
     CopyAccepted s .hs (BitVec.ofNat 64 (at' bs 0 8)) (s.x b) ext str dstr n h w (exec (.cpyrHs a b w c h) s) ∧
     CopyAccepted s .sh (BitVec.ofNat 64 (at' bs 0 8)) (s.x b) ext str dstr n h w (exec (.cpyrSh a b w c h) s) ∧
     CopyAccepted s .ss (BitVec.ofNat 64 (at' bs 0 8)) (s.x b) ext str dstr n h w (exec (.cpyrSs a b w c h) s) ∧
     CopyAccepted s .rm (BitVec.ofNat 64 (at' bs 0 8)) (s.x b) ext str dstr n 0 w (exec (.cpyrRm a b w c) s)))

/-- R199, R200, R202: HWAIT, HWAITF, HADVP and HADVC on a handle. A wait that is met has no effect, one that a command of the opposite role may end
stalls, any other is ILLEGAL, as is a handle with COUNT = 0 or an advance beyond what is free or filled. R197, R201: HSET loads a handle whose fields
obey their ranges and whose slots lie in the task's range, while no command on it is outstanding; otherwise it is ILLEGAL. -/
def Obligations.HandleEffects : Prop :=
  (∀ (s : State) (h : BitVec 4) (n : BitVec 13),
    ((s.h h).count ≠ 0 → n.toNat ≤ (s.h h).count →
      (n.toNat ≤ (s.h h).fill - (s.h h).cp → exec (.hwait h n) s = .next s) ∧
      (n.toNat ≤ (s.h h).count - (s.h h).fill - (s.h h).pp → exec (.hwaitf h n) s = .next s) ∧
      ((s.h h).fill - (s.h h).cp < n.toNat → (s.core.regs.h[h.toNat]?.getD {}).pp ≠ 0 →
        exec (.hwait h n) s = .next (s.modFront fun f => { f with hold := .stall })) ∧
      ((s.h h).fill - (s.h h).cp < n.toNat → (s.core.regs.h[h.toNat]?.getD {}).pp = 0 → exec (.hwait h n) s = .next s.illegal) ∧
      ((s.h h).count - (s.h h).fill - (s.h h).pp < n.toNat → (s.core.regs.h[h.toNat]?.getD {}).cp ≠ 0 →
        exec (.hwaitf h n) s = .next (s.modFront fun f => { f with hold := .stall })) ∧
      ((s.h h).count - (s.h h).fill - (s.h h).pp < n.toNat → (s.core.regs.h[h.toNat]?.getD {}).cp = 0 → exec (.hwaitf h n) s = .next s.illegal)) ∧
    ((s.h h).count = 0 ∨ (s.h h).count < n.toNat → exec (.hwait h n) s = .next s.illegal ∧ exec (.hwaitf h n) s = .next s.illegal) ∧
    ((s.h h).count ≠ 0 → n.toNat ≤ (s.h h).count - (s.h h).fill - (s.h h).pp → exec (.hadvp h n) s = .next (s.result 1 (.hadv h.toNat true n.toNat))) ∧
    ((s.h h).count ≠ 0 → n.toNat ≤ (s.h h).fill - (s.h h).cp → exec (.hadvc h n) s = .next (s.result 1 (.hadv h.toNat false n.toNat))) ∧
    ((s.h h).count = 0 → exec (.hadvp h n) s = .next s.illegal ∧ exec (.hadvc h n) s = .next s.illegal) ∧
    ((s.h h).count - (s.h h).fill - (s.h h).pp < n.toNat → exec (.hadvp h n) s = .next s.illegal) ∧
    ((s.h h).fill - (s.h h).cp < n.toNat → exec (.hadvc h n) s = .next s.illegal)) ∧
  (∀ (s : State) (h : BitVec 4) (a b : BitVec 6) (q : BitVec 3), s.sqOn q = true →
    (let base := (s.x a).toNat % 2 ^ 21
     let size := (s.x a).toNat / 2 ^ 32 % 2 ^ 21
     let count := (s.x b).toNat % 2 ^ 9
     let ok := (s.x a).toNat = base + size * 2 ^ 32 ∧
       (s.x b).toNat = count + (s.x b).toNat / 2 ^ 16 % 2 ^ 8 * 2 ^ 16 + (s.x b).toNat / 2 ^ 24 % 2 ^ 8 * 2 ^ 24 + (s.x b).toNat / 2 ^ 32 % 2 ^ 9 * 2 ^ 32 ∧
       base % 32 = 0 ∧ size % 32 = 0 ∧ 32 ≤ size ∧ size ≤ 1048576 ∧ 1 ≤ count ∧ count ≤ 256 ∧ (s.x b).toNat / 2 ^ 16 % 2 ^ 8 < count ∧
       (s.x b).toNat / 2 ^ 24 % 2 ^ 8 < count ∧ (s.x b).toNat / 2 ^ 32 % 2 ^ 9 ≤ count ∧ s.spadOk base (count * size) = true ∧
       (s.h h).pp = 0 ∧ (s.h h).cp = 0
     (ok → exec (.hset h a b q) s = .next (s.result 1 (.hset h.toNat (s.x a) (s.x b)))) ∧ (¬ ok → exec (.hset h a b q) s = .next s.illegal)))

/-- R194 to R196: TLOOK answers the slot that a tag hit names, or all ones; TINV, TLOCK and TUNLOCK change VALID, READS and LOCK as their rows say; a slot
outside the range is ILLEGAL. R195: TFILL of a granule of this device sets the entry's TAG, TID, READS and OWNER with VALID = 0 and starts a job of 2
KiB into the slot; TEVICT of a valid slot starts the job that writes it to its TAG. Where the spec leaves a point of this open the clause states the
model's choice, not a rule: assumption log 77. -/
def Obligations.TagTable : Prop :=
  (∀ (s : State) (d a : BitVec 6) (q : BitVec 3), s.sqOn q = true →
    ((s.ctx s.bound.ctx).translate? (s.x a).toNat .rd = none → exec (.tlook d a q) s = .next (s.noWindow (s.x a))) ∧
    (∀ c, (s.ctx s.bound.ctx).translate? (s.x a).toNat .rd = some c →
      ((∀ e ∈ s.core.copy.tags, ¬ (e.2.valid = true ∧ e.2.tag = c.ia / 2048 ∧ s.spadOk (2048 * e.1) 2048 = true)) →
        exec (.tlook d a q) s = .next (s.setX d (BitVec.allOnes 64) 4)) ∧
      (∀ n t, s.core.copy.tags = [(n, t)] → t.valid = true → t.tag = c.ia / 2048 → s.spadOk (2048 * n) 2048 = true →
        exec (.tlook d a q) s = .next (s.setX d (BitVec.ofNat 64 n) 4))) ∧
    (let n := (s.x a).toNat % 1024
     let t := tget {} s.core.copy.tags n
     (s.spadOk (2048 * n) 2048 = false → exec (.tinv a q) s = .next s.illegal ∧ exec (.tlock d a q) s = .next s.illegal ∧
       exec (.tunlock d a q) s = .next s.illegal ∧ exec (.tevict a q) s = .next s.illegal) ∧
     (s.spadOk (2048 * n) 2048 = true →
       (t.lock = true → exec (.tinv a q) s = .next s ∧ exec (.tlock d a q) s = .next (s.setX d 1 1) ∧
         Completes (.tunlock d a q) s fun u => tget {} u.core.copy.tags n = { t with lock := false } ∧ u.core.flight = (s.setX d 0 1).core.flight) ∧
       (t.lock = false → exec (.tunlock d a q) s = .next (s.setX d 1 1) ∧
         (Completes (.tinv a q) s fun u => tget {} u.core.copy.tags n = { t with valid := false, reads := 0 } ∧
           (∀ m, m ≠ n → tget {} u.core.copy.tags m = tget {} s.core.copy.tags m) ∧ u.core.flight = s.core.flight ∧ u.core.spad = s.core.spad) ∧
         ((s.ctx s.bound.ctx).lockq.toNat ≤ s.locksHeld s.bound.ctx → exec (.tlock d a q) s = .next (s.setX d 2 1)) ∧
         (s.locksHeld s.bound.ctx < (s.ctx s.bound.ctx).lockq.toNat →
           Completes (.tlock d a q) s fun u => tget {} u.core.copy.tags n = { t with lock := true, owner := s.resNo } ∧
             u.core.flight = (s.setX d 0 1).core.flight ∧ u.core.spad = s.core.spad)) ∧
       (t.valid = false → exec (.tevict a q) s = .next s)))) ∧
  (∀ (s u : State) (a b : BitVec 6) (q : BitVec 3) (c : Access) (pa : Nat) (m : Bool), s.sqOn q = true →
    ((s.ctx s.bound.ctx).translate? (s.x a).toNat .rd = some c → c.ia % 2048 ≠ 0 → exec (.tfill a b q) s = .next (s.misalign (s.x a) 2048)) ∧
    (let n := (s.x b).toNat % 1024
     (s.ctx s.bound.ctx).translate? (s.x a).toNat .rd = some c → c.ia % 2048 = 0 → s.spadOk (2048 * n) 2048 = true → s.isRemote c.ia = false →
     s.walk s.myDie c.ia = (u, .page pa m) → s.det = false → s.core.copy.jobs.length < 16 →
     Completes (.tfill a b q) s fun t => (∃ j, t.core.copy.jobs = s.core.copy.jobs ++ [j] ∧ j.dir = .tfill ∧ j.src = c.ia ∧ j.dst = 2048 * n ∧ j.slot = n ∧
         j.foot = { reads := [⟨true, c.ia, c.ia + 2048⟩], writes := [⟨false, 2048 * n, 2048 * n + 2048⟩] }) ∧
       tget {} t.core.copy.tags n = { (tget {} s.core.copy.tags n : TagEntry) with
         tag := c.ia / 2048, tid := (s.x b).toNat / 2 ^ 26 % 2 ^ 8, reads := (s.x b).toNat / 2 ^ 10 % 2 ^ 16, owner := s.resNo, valid := false } ∧ t.core.spad = s.core.spad) ∧
    (let n := (s.x a).toNat % 1024
     let t := tget {} s.core.copy.tags n
     s.spadOk (2048 * n) 2048 = true → t.valid = true → s.constGranule (t.tag * 2048) = none → s.isRemote (t.tag * 2048) = false →
     s.walk s.myDie (t.tag * 2048) = (u, .page pa m) → s.det = false → s.core.copy.jobs.length < 16 →
     Completes (.tevict a q) s fun w => (∃ j, w.core.copy.jobs = s.core.copy.jobs ++ [j] ∧ j.dir = .tevict ∧ j.src = 2048 * n ∧ j.dst = t.tag * 2048 ∧ j.slot = n) ∧
       w.core.copy.tags = s.core.copy.tags ∧ w.core.spad = s.core.spad))

/-- R213, R214, R227: GSET and GSWAP schedule their change of the shape registers for the next bundle, ENGR reads a doubleword of the map with latency 4
and ENGW schedules its write; an offset off the map is ILLEGAL and one off 8 bytes MISALIGN. R221, R224: FOOTR and FOOTW declare one range of the
program's or the network engine's set, up to eight; FOOTCLR empties that set; SPFENCE and CPYW pass once no command that they name is outstanding,
CPYW raising a held cause first. Where the spec leaves a point of this open the clause states the model's choice, not a rule: assumption log 30. -/
def Obligations.EngineSetup : Prop :=
  (∀ (s : State) (k : Bool) (r : BitVec 2) (a b : BitVec 6) (f m : BitVec 4),
    exec (.gset k r a f) s = .next (s.result 1 (.gset (k.toNat * 4 + r.toNat) f.toNat ((s.x a).truncate 32))) ∧
    exec (.gswap k m) s = .next (s.result 1 (.swap k m)) ∧
    ((s.x a).toNat % 8 ≠ 0 → exec (.engw a b) s = .next (s.misalign (s.x a) 8) ∧ exec (.engr a b) s = .next (s.misalign (s.x a) 8)) ∧
    ((s.x a).toNat % 8 = 0 → engMap (s.x a).toNat = false → exec (.engw a b) s = .next s.illegal ∧ exec (.engr a b) s = .next s.illegal) ∧
    ((s.x a).toNat % 8 = 0 → engMap (s.x a).toNat = true → exec (.engr a b) s = .next (s.setX b (s.engRead (s.x a).toNat) 4) ∧
      (s.badOpen (s.x a).toNat (s.x b) = false → exec (.engw a b) s = .next (s.result 1 (.eng (s.x a).toNat (s.x b)))))) ∧
  (∀ (s : State) (g y : Bool) (a b : BitVec 6) (h : BitVec 4) (q : BitVec 3), s.sqOn q = true →
    (s.x b = 0 → exec (.footr g y a b q) s = .next s ∧ exec (.footw g y a b q) s = .next s) ∧
    (s.x b ≠ 0 → 8 ≤ (if y then s.core.copy.footNet else s.core.copy.footProg).length →
      exec (.footr g y a b q) s = .next s.illegal ∧ exec (.footw g y a b q) s = .next s.illegal) ∧
    (s.x b ≠ 0 → (if y then s.core.copy.footNet else s.core.copy.footProg).length < 8 → s.det = false → s.spadOk (s.x a).toNat (s.x b).toNat = true →
      (let r : Range := ⟨false, (s.x a).toNat, (s.x a).toNat + (s.x b).toNat⟩
       exec (.footr false y a b q) s = .next (({ s with ticket := s.ticket + 1 } : State).modCopy fun c =>
         if y then { c with footNet := c.footNet ++ [(⟨s.ticket, { reads := [r] }⟩ : Declared)] } else { c with footProg := c.footProg ++ [(⟨s.ticket, { reads := [r] }⟩ : Declared)] }) ∧
       exec (.footw false y a b q) s = .next (({ s with ticket := s.ticket + 1 } : State).modCopy fun c =>
         if y then { c with footNet := c.footNet ++ [(⟨s.ticket, { writes := [r] }⟩ : Declared)] } else { c with footProg := c.footProg ++ [(⟨s.ticket, { writes := [r] }⟩ : Declared)] }))) ∧
    (∀ (w : Bool) c, s.x b ≠ 0 → (if y then s.core.copy.footNet else s.core.copy.footProg).length < 8 → s.det = false →
      (s.ctx s.bound.ctx).rangeIn? (s.x a).toNat (s.x b).toNat (if w then .w else .rd) = some c →
      (let r : Range := ⟨true, c.ia, c.ia + (s.x b).toNat⟩
       exec (if w then .footw true y a b q else .footr true y a b q) s = .next (({ s with ticket := s.ticket + 1 } : State).modCopy fun c =>
         let f : Declared := ⟨s.ticket, if w then { writes := [r] } else { reads := [r] }⟩
         if y then { c with footNet := c.footNet ++ [f] } else { c with footProg := c.footProg ++ [f] }))) ∧
    exec (.footclr y q) s = .next (s.modCopy fun c => if y then { c with footNet := [] } else { c with footProg := [] }) ∧
    ((∀ j ∈ s.core.copy.jobs, j.dir = .rm) → (∀ c ∈ s.core.mx.inWork, c.op ≠ .mload) → (∀ o ∈ s.core.snapOps, o.isStore = false) →
      exec (.spfence q) s = .next s) ∧
    ((∃ j ∈ s.core.copy.jobs, j.dir ≠ .rm) → exec (.spfence q) s = .next s.hold) ∧
    ((∃ j ∈ s.core.copy.jobs, h = 0 ∨ j.hd = h.toNat) → exec (.cpyw h) s = .next s.hold) ∧
    ((∀ j ∈ s.core.copy.jobs, h ≠ 0 ∧ j.hd ≠ h.toNat) → (∀ e ∈ s.core.copy.err, h ≠ 0 ∧ e.hd ≠ h.toNat) → exec (.cpyw h) s = .next s) ∧
    (∀ e rest, (∀ j ∈ s.core.copy.jobs, h ≠ 0 ∧ j.hd ≠ h.toNat) → s.core.copy.err = e :: rest → (h = 0 ∨ e.hd = h.toNat) →
      exec (.cpyw h) s = .next ((s.modCopy fun c => { c with err := rest }).raise e.cause)))

/-- R242, R245, R246: FUSE with a legal mask puts its wait, with mask and address, into the bundle that issues and is ILLEGAL otherwise, DECPL marks its
coupled group for the split at the boundary, and REJN puts its wait with its address there or, outside a group, answers 2; a core that waits stands on
the line of its cluster. R242, R246: what the line makes of the waits: a FUSE ends with 0 once every other core of its mask waits with the same mask
and address, and with 1 once one of them waits otherwise or is in a group; a REJN ends once every member of its group waits in one, with 0 where all
have one address and 1 otherwise. Where the spec leaves a point of this open the clause states the model's choice, not a rule: assumption log 19. -/
def Obligations.FuseInstructions : Prop :=
  (∀ (s : State) (d a : BitVec 6),
    (let n := lowCore s.coreId
     let m := (s.x a).truncate 4
     let k := clusterOf s.coreId
     let waits := fun (t : State) (w : LineWait) => (∀ r, s.core.front.run = some r → ∃ r', t.core.front.run = some r' ∧ r'.line = some w ∧ r'.todo = r.todo ∧ r'.addr = r.addr) ∧
       t.clusters = s.clusters ∧ t.core.regs = s.core.regs ∧ t.core.flight = s.core.flight ∧ t.mem = s.mem
     ((m = 3 ∨ m = 12 ∨ m = 15) → m.getLsbD n = true → (∀ g ∈ (s.cluster k).groups, g.mask.getLsbD n = false) →
       Completes (.fuse d a) s fun t => waits t (.fuse m s.bundleAddr d.toNat s.time)) ∧
     ((m ≠ 3 ∧ m ≠ 12 ∧ m ≠ 15) ∨ m.getLsbD n = false ∨ (∃ g ∈ (s.cluster k).groups, g.mask.getLsbD n = true) →
       exec (.fuse d a) s = .next s.illegal) ∧
     ((∀ g ∈ (s.cluster k).groups, g.mask.getLsbD n = false) →
       exec (.rejn d) s = .next (s.setX d 2 1) ∧ Completes .decpl s fun t => (t.cluster k).groups = (s.cluster k).groups ∧ t.core = s.core) ∧
     (∀ g, (s.cluster k).groups = [g] → g.mask.getLsbD n = true →
       (Completes (.rejn d) s fun t => waits t (.rejn s.bundleAddr d.toNat)) ∧
       (Completes .decpl s fun t => t.core = s.core ∧ t.mem = s.mem ∧
         (t.cluster k).groups = [if g.coupled.getLsbD n = true then { g with split := true } else g])) ∧
     (∀ w, tget? ((s.waitOn w).cluster k).line n = some w ∧ (s.waitOn w).core = s.core ∧ (s.waitOn w).mem = s.mem))) ∧
  (∀ (c : Cluster) (i : Nat) (mask : BitVec 4) (addr : Nat),
    ((∀ j, j < 4 → j ≠ i → mask.getLsbD j = true → (∀ g ∈ c.groups, g.mask.getLsbD j = false) ∧ ∃ d t, tget? c.line j = some (.fuse mask addr d t)) →
      c.fuseEnd i mask addr = some 0) ∧
    ((∃ j, j < 4 ∧ j ≠ i ∧ mask.getLsbD j = true ∧ ((∃ g ∈ c.groups, g.mask.getLsbD j = true) ∨
      ∃ m x d t, tget? c.line j = some (.fuse m x d t) ∧ (m ≠ mask ∨ x ≠ addr))) → c.fuseEnd i mask addr = some 1) ∧
    ((∀ j, j < 4 → j ≠ i → mask.getLsbD j = true → (∀ g ∈ c.groups, g.mask.getLsbD j = false) ∧ tget? c.line j = none) → (∃ j, j < 4 ∧ j ≠ i ∧ mask.getLsbD j = true) →
      c.fuseEnd i mask addr = none) ∧
    (∀ g : FuseGroup, (∀ j, j < 4 → g.mask.getLsbD j = true → ∃ d, tget? c.line j = some (.rejn addr d)) → c.rejnEnd (some g) addr = some 0) ∧
    (∀ g : FuseGroup, (∀ j, j < 4 → g.mask.getLsbD j = true → ∃ x d, tget? c.line j = some (.rejn x d)) →
      (∃ j x d, j < 4 ∧ g.mask.getLsbD j = true ∧ tget? c.line j = some (.rejn x d) ∧ x ≠ addr) → c.rejnEnd (some g) addr = some 1) ∧
    (∀ g : FuseGroup, (∃ j, j < 4 ∧ g.mask.getLsbD j = true ∧ tget? c.line j = none) → c.rejnEnd (some g) addr = none))

/-- R252 to R254: BARR sends one arrival and BARM its value to the group's root, BARW writes GEN once it has passed its operand, all ones for a disabled
group or an all-ones operand, and holds otherwise; a BARM value with a reserved bit, or with members but no mask, is ILLEGAL. R251 to R253: what a
root makes of an arrival and of a BARM value: the arrival that reaches N completes the generation and applies a staged N and MASK, N = 0 breaks the
group, and a value that meets arrivals is staged. Where the spec leaves a point of this open the clause states the model's choice, not a rule:
assumption log 42. -/
def Obligations.BarrierInstructions : Prop :=
  (∀ (s : State) (d : BitVec 6) (g : BitVec 7),
    (let mir : SpireGroup := tget {} (s.cluster (clusterOf s.coreId)).mirror g.toNat
     (Completes (.barr d g) s fun t => t.core.spireOut = s.core.spireOut ++ [⟨g.toNat, none, d.toNat, if g.toNat < 64 then 64 else 192⟩] ∧
       t.core.regs = s.core.regs ∧ t.core.flight = s.core.flight ∧ t.mem = s.mem ∧ (∀ r, t.core.front.run = some r → r.ended = true)) ∧
     ((s.x d).toNat < mir.gen.toNat → exec (.barw d g) s = .next (s.setX d mir.gen 1)) ∧
     (mir.gen.toNat ≤ (s.x d).toNat → (s.x d = BitVec.allOnes 64 ∨ mir.n = 0) → exec (.barw d g) s = .next (s.setX d (BitVec.allOnes 64) 1)) ∧
     (mir.gen.toNat ≤ (s.x d).toNat → s.x d ≠ BitVec.allOnes 64 → mir.n ≠ 0 → exec (.barw d g) s = .next s.hold) ∧
     ((s.x d).toNat < 2 ^ 48 → ((s.x d).toNat / 2 ^ 22 % 2 ^ 10 = 0) → (64 ≤ g.toNat → (s.x d).toNat / 2 ^ 4 % 2 ^ 18 = 0) →
       ((s.x d).toNat / 2 ^ 32 = 0 ∨ (s.x d).toNat % 2 ^ 22 ≠ 0) →
       exec (.barm d g) s = .next { s with core := { s.core with spireOut := s.core.spireOut ++ [⟨g.toNat, some (s.x d), 0, if g.toNat < 64 then 64 else 192⟩] } }) ∧
     (2 ^ 48 ≤ (s.x d).toNat ∨ (s.x d).toNat / 2 ^ 22 % 2 ^ 10 ≠ 0 ∨ (64 ≤ g.toNat ∧ (s.x d).toNat / 2 ^ 4 % 2 ^ 18 ≠ 0) ∨
       ((s.x d).toNat / 2 ^ 32 ≠ 0 ∧ (s.x d).toNat % 2 ^ 22 = 0) → exec (.barm d g) s = .next s.illegal))) ∧
  (∀ (g : SpireGroup) (w : Word),
    (g.arrived + 1 ≠ g.n → g.arrive = { g with arrived := g.arrived + 1 }) ∧
    (g.arrived + 1 = g.n → g.staged = none → g.arrive = { g with gen := g.gen + 1, arrived := 0 }) ∧
    (∀ n m, g.arrived + 1 = g.n → g.staged = some (n, m) → g.arrive = { gen := g.gen + 1, n := n, mask := m, arrived := 0, staged := none }) ∧
    (w.extractLsb' 32 16 = 0 → g.configure w = { g with arrived := 0, staged := none, n := 0 }) ∧
    (w.extractLsb' 32 16 ≠ 0 → g.arrived = 0 → g.configure w = { g with n := w.extractLsb' 32 16, mask := w.extractLsb' 0 22, staged := none }) ∧
    (w.extractLsb' 32 16 ≠ 0 → g.arrived ≠ 0 → g.configure w = { g with staged := some (w.extractLsb' 32 16, w.extractLsb' 0 22) }))

/-- R376: SEND on an open send channel with credit puts its lanes, the disabled ones as 0, in flight for the receiver and takes one credit; without credit
it stalls; on an entry that is closed, receives, or whose lanes do not fit, it is ILLEGAL. R376, R377: RECV and the two RADD forms consume the head
element of an open receive channel: an enabled lane of its range is loaded, or added to with the incoming lane on the left, with latency 6 or 9, and
the element counts as held. R376, R378: RECV stalls on an empty channel and is ILLEGAL once every element is held; CHWAIT passes, stalls or is ILLEGAL
as its row says, on the send and on the receive side. Where the spec leaves a point of this open the clause states the model's choice, not a rule:
assumption log 41. -/
def Obligations.ChannelInstructions : Prop :=
  (∀ (s : State) (c : BitVec 6) (v : BitVec 5) (l : BitVec 6) (p : BitVec 4),
    (let e := tget {} s.core.chans c.toNat
     let b := 2 * l.toNat
     (e.state = .opened → e.recv = false → b + e.lanes ≤ 128 → 0 < e.cred → e.kind < 2 →
       Completes (.send c v l p) s fun t => ∃ x, tget {} t.core.chans c.toNat =
           { e with xfer := BitVec.ofNat 32 (satAdd 32 e.xfer.toNat 1), cred := e.cred - 1, pending := e.pending ++ [x] } ∧
         x.lanes.length = e.lanes ∧ (∀ j, j < e.lanes → x.lanes[j]? = some (if (s.p p).getLsbD (b + j) then lane (s.v v) (b + j) else 0)) ∧
         (e.proto = true → x.stamp = BitVec.ofNat 8 e.rank) ∧ (∀ m, m ≠ c.toNat → tget {} t.core.chans m = tget {} s.core.chans m) ∧
         t.core.regs = s.core.regs ∧ t.core.flight = s.core.flight ∧ t.mem = s.mem ∧ (∀ r, t.core.front.run = some r → r.ended = true)) ∧
     (e.state = .opened → e.recv = false → b + e.lanes ≤ 128 → e.cred = 0 → exec (.send c v l p) s = .next (s.modFront fun f => { f with hold := .stall })) ∧
     (e.state = .closed ∨ e.recv = true ∨ 128 < b + e.lanes → exec (.send c v l p) s = .next s.illegal))) ∧
  (∀ (s : State) (c : BitVec 6) (v : BitVec 5) (l : BitVec 6) (p : BitVec 4) (x : ChanElem) (rest : List ChanElem),
    (let e := tget {} s.core.chans c.toNat
     let b := 2 * l.toNat
     let on := fun i : Nat => (s.p p).getLsbD i && decide (b ≤ i) && decide (i < b + e.lanes)
     e.state = .opened → e.recv = true → b + e.lanes ≤ 128 → e.held.length ≠ e.depth → e.buf = x :: rest →
     ∀ (i : Instr) (lat : Nat) (f : Nat → Nat),
       ((i = .recv c v l p ∧ lat = 6 ∧ f = fun k => (x.lanes.getD (k - b) 0).toNat) ∨
        (i = .raddF32 c v l p ∧ lat = 9 ∧ e.proto = true ∧ e.ty = 0 ∧ (s.det = true → x.stamp.toNat + 1 = e.rank) ∧
          f = fun k => (fp32.add (x.lanes.getD (k - b) 0).toNat (lane (s.v v) k).toNat).1) ∨
        (i = .raddBf16 c v l p ∧ lat = 9 ∧ e.proto = true ∧ e.ty = 1 ∧ (s.det = true → x.stamp.toNat + 1 = e.rank) ∧
          f = fun k => (bf16.add ((x.lanes.getD (k - b) 0).toNat % 2 ^ 16) ((lane (s.v v) k).toNat % 2 ^ 16)).1 +
            (bf16.add ((x.lanes.getD (k - b) 0).toNat / 2 ^ 16) ((lane (s.v v) k).toNat / 2 ^ 16)).1 * 2 ^ 16)) →
       Completes i s fun t => tget {} t.core.chans c.toNat =
           { e with xfer := BitVec.ofNat 32 (satAdd 32 e.xfer.toNat 1), buf := rest, held := e.held ++ [x] } ∧
         ∃ m w, t.core.flight = s.core.flight ++ [⟨lat, .v v.toNat m w⟩] ∧ (∀ k, k < 128 → m.getLsbD k = on k) ∧
           (∀ k, k < 128 → on k = true → lane w k = BitVec.ofNat 32 (f k)) ∧ t.core.regs = s.core.regs ∧ t.mem = s.mem)) ∧
  (∀ (s : State) (c n : BitVec 6) (v : BitVec 5) (l : BitVec 6) (p : BitVec 4),
    (let e := tget {} s.core.chans c.toNat
     let stall : Out := .next (s.modFront fun f => { f with hold := .stall })
     e.state = .opened →
       (e.recv = true → 2 * l.toNat + e.lanes ≤ 128 → e.held.length = e.depth → exec (.recv c v l p) s = .next s.illegal) ∧
       (e.recv = true → 2 * l.toNat + e.lanes ≤ 128 → e.held.length ≠ e.depth → e.buf = [] → exec (.recv c v l p) s = stall) ∧
       (e.recv = true → n = 0 → exec (.chwait c n) s = .next s) ∧
       (e.recv = true → n ≠ 0 → n.toNat ≤ e.depth - e.held.length →
         exec (.chwait c n) s = if n.toNat ≤ e.buf.length then .next s else stall) ∧
       (e.recv = true → e.depth - e.held.length < n.toNat → exec (.chwait c n) s = .next s.illegal) ∧
       (e.recv = false → n = 0 → exec (.chwait c n) s = if e.cred = e.depthPeer then .next s else stall) ∧
       (e.recv = false → n ≠ 0 → n.toNat ≤ e.depthPeer → exec (.chwait c n) s = if n.toNat ≤ e.cred then .next s else stall) ∧
       (e.recv = false → e.depthPeer < n.toNat → exec (.chwait c n) s = .next s.illegal)))

/-- R142, R143, R144, R156: the element-wise arithmetic, each element from the elements of its own index, rounded once or wrapped at its width; only
enabled lanes are written. Where the spec leaves a point of this open the clause states the model's choice, not a rule: assumption log 40. -/
def Obligations.VectorArithmetic : Prop :=
  ∀ (s : State) (d a b c : BitVec 5) (t : VTy) (p : BitVec 4) (y : Bool),
    (let w := VTy.width t
     let A := vElem w (s.v a)
     let B := vElem w (s.v b)
     let V := fun (i : Instr) (lat : Nat) (fp : FFmt → Nat → Nat) (int : IFmt → Nat → Int) => VecWrites i s d w (s.p p) lat fun e =>
       match VTy.fmt s.f8 t with
       | .fp f => fp f e
       | .int f => ofSval w (int f e)
     V (.vadd d a b t p) 3 (fun f e => (f.add (A e) (B e)).1) (fun f e => f.decode (A e) + f.decode (B e)) ∧
     V (.vsub d a b t p) 3 (fun f e => (f.sub (A e) (B e)).1) (fun f e => f.decode (A e) - f.decode (B e)) ∧
     V (.vmul d a b t p) 5 (fun f e => (f.mul (A e) (B e)).1) (fun f e => f.decode (A e) * f.decode (B e)) ∧
     V (.vminmaxMin d a b t p) 3 (fun f e => f.min (A e) (B e)) (fun f e => min (f.decode (A e)) (f.decode (B e))) ∧
     V (.vminmaxMax d a b t p) 3 (fun f e => f.max (A e) (B e)) (fun f e => max (f.decode (A e)) (f.decode (B e))) ∧
     V (.vabs d a t p) 3 (fun f e => if (f.decode (A e)).isNaN then f.nanCode else A e % 2 ^ (w - 1)) (fun f e => (f.decode (A e)).natAbs) ∧
     V (.vneg d a t p) 3 (fun f e => if (f.decode (A e)).isNaN then f.nanCode else A e ^^^ 2 ^ (w - 1)) (fun f e => -f.decode (A e))) ∧
    (let A := vElem 32 (s.v a)
     let B := vElem 32 (s.v b)
     let C := fun e => (fp32.decode (vElem 32 (s.v c) e)).scale quantBits
     let P := fun e => if y then
         [(bf16.decode (vElem 16 (s.v a) (2 * e))).mul (bf16.decode (vElem 16 (s.v b) (2 * e))),
          (bf16.decode (vElem 16 (s.v a) (2 * e + 1))).mul (bf16.decode (vElem 16 (s.v b) (2 * e + 1)))]
       else [(fp32.decode (A e)).mul (fp32.decode (B e))]
     let R := fun (l : List FVal) => (fp32.encode (2 * quantBits) (FVal.sum l)).1
     VecWrites (.vfma d a b c y p) s d 32 (s.p p) 5 (fun e => R (P e ++ [C e])) ∧
     VecWrites (.vfms d a b c y p) s d 32 (s.p p) 5 (fun e => R (P e ++ [(C e).neg])) ∧
     VecWrites (.vfnma d a b c y p) s d 32 (s.p p) 5 (fun e => R ((P e).map FVal.neg ++ [C e])) ∧
     VecWrites (.vdiv d a b .f32 p) s d 32 (s.p p) 20 (fun e => (fp32.div (A e) (B e)).1) ∧
     VecWrites (.vdiv d a b .i32 p) s d 32 (s.p p) 20 (fun e =>
       if B e = 0 then 0xFFFFFFFF else ofSval 32 ((sval 32 (A e)).tdiv (sval 32 (B e)))))

/-- R145: bitwise logic on whole lanes, and shifts by the low bits of the amount. R146, R160: VCMP sets the bit of an enabled lane when the relation holds
for every element of the lane, and VBND when some element is a NaN or outside the bounds; the bits of disabled lanes are 0. -/
def Obligations.VectorLogicAndCompare : Prop :=
  (∀ (s : State) (d a b : BitVec 5) (t : VTy) (p : BitVec 4),
    (let A := fun e => lane (s.v a) e
     let B := fun e => lane (s.v b) e
     VecWrites (.vlogicAnd d a b t p) s d 32 (s.p p) 3 (fun e => (A e &&& B e).toNat) ∧
     VecWrites (.vlogicOr d a b t p) s d 32 (s.p p) 3 (fun e => (A e ||| B e).toNat) ∧
     VecWrites (.vlogicXor d a b t p) s d 32 (s.p p) 3 (fun e => (A e ^^^ B e).toNat) ∧
     VecWrites (.vlogicAndn d a b t p) s d 32 (s.p p) 3 (fun e => (A e &&& ~~~B e).toNat) ∧
     VecWrites (.vlogicNot d a t p) s d 32 (s.p p) 3 (fun e => (~~~A e).toNat)) ∧
    (let w := VTy.width t
     let A := vElem w (s.v a)
     let N := fun e => vElem w (s.v b) e % w
     VecWrites (.vshiftShl d a b t p) s d w (s.p p) 3 (fun e => A e * 2 ^ N e) ∧
     VecWrites (.vshiftShr d a b t p) s d w (s.p p) 3 (fun e => A e / 2 ^ N e) ∧
     VecWrites (.vshiftSra d a b t p) s d w (s.p p) 3 (fun e => ofSval w (sval w (A e) / ((2 ^ N e : Nat) : Int))))) ∧
  (∀ (s : State) (pd : BitVec 4) (a b : BitVec 5) (t : VTy) (g : BitVec 4),
    (let w := VTy.width t
     let k := 32 / w
     let V := fun (i : Instr) (fp : FVal → FVal → Bool) (int : Int → Int → Prop) => PredWrites i s pd 2 fun l =>
       (s.p g).getLsbD l = true ∧ ∀ j, j < k → match VTy.fmt s.f8 t with
         | .fp f => fp (f.decode (vElem w (s.v a) (l * k + j))) (f.decode (vElem w (s.v b) (l * k + j))) = true
         | .int f => int (f.decode (vElem w (s.v a) (l * k + j))) (f.decode (vElem w (s.v b) (l * k + j)))
     V (.vcmpEq pd a b t g) FVal.eq (fun x y => x = y) ∧
     V (.vcmpNe pd a b t g) (fun x y => !x.eq y) (fun x y => x ≠ y) ∧
     V (.vcmpLt pd a b t g) FVal.lt (fun x y => x < y) ∧
     V (.vcmpLe pd a b t g) (fun x y => x.lt y || x.eq y) (fun x y => x ≤ y) ∧
     V (.vcmpGt pd a b t g) (fun x y => y.lt x) (fun x y => y < x) ∧
     V (.vcmpGe pd a b t g) (fun x y => y.lt x || y.eq x) (fun x y => y ≤ x) ∧
     (let e := tget {} s.core.vec.bounds s.tid
      PredWrites (.vbnd pd a t g) s pd 2 fun l => (s.p g).getLsbD l = true ∧ ∃ j, j < k ∧
        let x := (VTy.fmt s.f8 t).decode (vElem w (s.v a) (l * k + j))
        x = .nan ∨ x.lt (fp32.decode e.lo.toNat) = true ∨ (fp32.decode e.hi.toNat).lt x = true)))

/-- R147, R151, R153: VSEL writes every lane, whatever the predicate, from va where its bit is 1 and from vb elsewhere; the three forms of VPERM move
whole lanes to the enabled lanes, with the higher index bits ignored; VIOTA writes the element's number, FP32 exact and UINT8 modulo 256. -/
def Obligations.VectorMoves : Prop :=
  ∀ (s : State) (d a b : BitVec 5) (p : BitVec 4),
    (let A := fun i => (lane (s.v a) i).toNat
     let B := fun i => (lane (s.v b) i).toNat
     VecWrites (.vsel d a b p) s d 32 (BitVec.allOnes 128) 2 (fun e => if (s.p p).getLsbD e then A e else B e) ∧
     VecWrites (.vpermIdx d a b p) s d 32 (s.p p) 4 (fun i => A (B i % 128)) ∧
     VecWrites (.vpermRot d a b p) s d 32 (s.p p) 4 (fun i => A ((i + (s.x (b.zeroExtend 6)).toNat) % 128)) ∧
     VecWrites (.vpermPsh d a b p) s d 32 (s.p p) 4 (fun i => if i % 2 = 0 then A (i / 2) else B (i / 2))) ∧
    (∃ f : Nat → Nat, (∀ e, e < 128 → fp32.decode (f e) = .fin false (e * 2 ^ quantBits)) ∧ VecWrites (.viota d .f32 p) s d 32 (s.p p) 2 f) ∧
    VecWrites (.viota d .i32 p) s d 32 (s.p p) 2 (fun e => e) ∧
    VecWrites (.viota d .i16 p) s d 16 (s.p p) 2 (fun e => e) ∧
    VecWrites (.viota d .u8 p) s d 8 (s.p p) 2 (fun e => e % 256)

/-- R148, R152, R154, R162: conversions keep element indices and write 0 past the converted ones; compression, expansion, broadcasts, extraction and the
mask forms. -/
def Obligations.VectorConvertMask : Prop :=
  ∀ (s : State) (d a b : BitVec 5) (t u : VTy) (p q : BitVec 4),
    (let n := 128 * min (32 / VTy.width t) (32 / VTy.width u)
     let D := fun (r : RMode) (draw : Nat → Nat) (e : Nat) => if e < n then
         (convertElem (VTy.fmt s.f8 t) (VTy.fmt s.f8 u) r (draw e) (vElem (VTy.width t) (s.v a) e)).1 else 0
     VecWrites (.vcvt d a .rne t u p) s d (VTy.width u) (s.p p) 3 (D .rne fun _ => 0) ∧
     VecWrites (.vcvt d a .rz t u p) s d (VTy.width u) (s.p p) 3 (D .rz fun _ => 0) ∧
     Completes (.vcvt d a .rs t u p) s fun x => x.core.regs.z.rpos = s.core.regs.z.rpos + BitVec.ofNat 64 n ∧
       (∃ val, x.core.flight = s.core.flight ++ [⟨3, .v d.toNat (s.p p) val⟩] ∧
         ∀ e, e < 4096 / VTy.width u → (s.p p).getLsbD (e / (32 / VTy.width u)) = true → vElem (VTy.width u) val e = D .rs s.draw e % 2 ^ VTy.width u) ∧
       x.core.regs.v = s.core.regs.v ∧ x.core.spad = s.core.spad ∧ x.mem = s.mem) ∧
    (let A := fun i => (lane (s.v a) i).toNat
     let on := (List.range 128).filter fun i => (s.p p).getLsbD i
     let both := (List.range 128).filter fun i => (s.p q).getLsbD i && (s.p p).getLsbD i
     VecWrites (.vmaskCompress d a p) s d 32 (BitVec.allOnes 128) 4 (fun i => (on[i]?.map A).getD 0) ∧
     VecWrites (.vmaskExpand d a p) s d 32 (s.p p) 4 (fun i => A (on.filter fun j => decide (j < i)).length) ∧
     exec (.vmaskPopc d q p) s = .next (s.setX (d.zeroExtend 6) (BitVec.ofNat 64 both.length) 2) ∧
     exec (.vmaskFirst d q p) s = .next (s.setX (d.zeroExtend 6) (BitVec.ofNat 64 (both.head?.getD 128)) 2)) ∧
    (let w := VTy.width t
     let v := vElem w (s.v a) ((s.x (b.zeroExtend 6)).toNat % (128 * (32 / w)))
     VecWrites (.vbcast d a t p) s d w (s.p p) 3 (fun _ => (s.x (a.zeroExtend 6)).toNat) ∧
     exec (.vext d a b t) s = .next (s.setX (d.zeroExtend 6) (match t with
       | .i32 => BitVec.ofInt 64 (sval 32 v)
       | .i16 => BitVec.ofInt 64 (sval 16 v)
       | .i8 => BitVec.ofInt 64 (sval 8 v)
       | _ => BitVec.ofNat 64 v) 3))

/-- R122, R123, R149, R150: VRED combines the lanes in the fixed binary tree on lane index, with disabled lanes as the identity, and writes lane 0 alone,
whatever the predicate; VSCAN delivers the prefix sums of the fixed structure, a NaN in its canonical form, to the enabled lanes; on INT32 these are
the plain sums modulo 2^32. -/
def Obligations.VectorReduceScan : Prop :=
  ∀ (s : State) (d a : BitVec 5) (p : BitVec 4) (tree scan : (Nat → Nat → Nat) → (Nat → Nat) → Nat → Nat → Nat),
    (∀ f g i, tree f g 0 i = g i ∧ scan f g 0 i = g i) →
    (∀ f g k i, tree f g (k + 1) i = f (tree f g k (2 * i)) (tree f g k (2 * i + 1)) ∧
      scan f g (k + 1) i = if 2 ^ k ≤ i then f (scan f g k (i - 2 ^ k)) (scan f g k i) else scan f g k i) →
    (let L := fun (id : Nat) (i : Nat) => if (s.p p).getLsbD i then vElem 32 (s.v a) i else id
     let addF := fun x y => (fp32.add x y).1
     let maxI := fun x y => if sval 32 x ≤ sval 32 y then y else x
     let minI := fun x y => if sval 32 x ≤ sval 32 y then x else y
     VecWrites (.vredAdd d a .f32 p) s d 32 1 7 (fun _ => tree addF (L 0x80000000) 7 0) ∧
     VecWrites (.vredMax d a .f32 p) s d 32 1 7 (fun _ => tree fp32.max (L 0xFF800000) 7 0) ∧
     VecWrites (.vredMin d a .f32 p) s d 32 1 7 (fun _ => tree fp32.min (L 0x7F800000) 7 0) ∧
     VecWrites (.vredAdd d a .i32 p) s d 32 1 7 (fun _ => sumTo 128 (L 0)) ∧
     VecWrites (.vredMax d a .i32 p) s d 32 1 7 (fun _ => tree maxI (L 0x80000000) 7 0) ∧
     VecWrites (.vredMin d a .i32 p) s d 32 1 7 (fun _ => tree minI (L 0x7FFFFFFF) 7 0) ∧
     VecWrites (.vscan d a .f32 p) s d 32 (s.p p) 9 (fun i => fp32.canon (scan addF (L 0x80000000) 7 i)) ∧
     VecWrites (.vscan d a .i32 p) s d 32 (s.p p) 9 (fun i => sumTo (i + 1) (L 0)))

/-- R155: VTRANS writes each enabled lane with the function of it, latency 12, and the special cases of every form. R157, R158, R161: VROW copies the row
that the latch presents, or counts an empty read; DEFER appends the lowest enabled lanes that fit and sets DEFOV when one does not, REFILL takes the
oldest entries, COUNT reads the fill. Where the spec leaves a point of this open the clause states the model's choice, not a rule: assumption log 82,
84. -/
def Obligations.VectorFunctionsLatch : Prop :=
  ((∀ (s : State) (d a : BitVec 5) (p : BitVec 4),
    let V := fun (i : Instr) (fn : TransFn) => VecWrites i s d 32 (s.p p) 12 fun e => (transLane fn (vElem 32 (s.v a) e)).1
    V (.vtransRcp d a p) .rcp ∧ V (.vtransRsq d a p) .rsq ∧ V (.vtransExp2 d a p) .exp2 ∧ V (.vtransLog2 d a p) .log2 ∧
    V (.vtransTanh d a p) .tanh ∧ V (.vtransSin d a p) .sin ∧ V (.vtransCos d a p) .cos ∧ V (.vtransSqrt d a p) .sqrt) ∧
  (∀ (fn : TransFn) (x : Nat), fp32.decode x = .nan → transLane fn x = (0x7FC00000, {})) ∧
  (∀ (x m : Nat), fp32.decode x = .fin true m → 0 < m →
    (transLane .rsq x).1 = 0x7FC00000 ∧ (transLane .log2 x).1 = 0x7FC00000 ∧ (transLane .sqrt x).1 = 0x7FC00000) ∧
  (let I := fun fn => (transLane fn 0x7F800000).1
   let J := fun fn => (transLane fn 0xFF800000).1
   let Z := fun fn => (transLane fn 0).1
   let M := fun fn => (transLane fn 0x80000000).1
   Z .rcp = 0x7F800000 ∧ M .rcp = 0xFF800000 ∧ I .rcp = 0 ∧ J .rcp = 0x80000000 ∧ Z .rsq = 0x7F800000 ∧ M .rsq = 0xFF800000 ∧ I .rsq = 0 ∧
   J .exp2 = 0 ∧ I .exp2 = 0x7F800000 ∧ Z .log2 = 0xFF800000 ∧ M .log2 = 0xFF800000 ∧ (transLane .log2 0x3F800000).1 = 0 ∧ I .log2 = 0x7F800000 ∧
   I .tanh = 0x3F800000 ∧ J .tanh = 0xBF800000 ∧ Z .tanh = 0 ∧ M .tanh = 0x80000000 ∧ I .sin = 0x7FC00000 ∧ J .sin = 0x7FC00000 ∧
   Z .sin = 0 ∧ M .sin = 0x80000000 ∧ I .cos = 0x7FC00000 ∧ J .cos = 0x7FC00000 ∧ Z .cos = 0x3F800000 ∧ M .cos = 0x3F800000 ∧
   M .sqrt = 0x80000000 ∧ I .sqrt = 0x7F800000)) ∧
  (∀ (s : State) (d a : BitVec 5) (pd p : BitVec 4),
    (∀ n age, s.core.mx.drain = some ⟨n, age⟩ → 8 ≤ age → age < 136 →
      Completes (.vrow d p) s fun t => t.core.flight = s.core.flight ++ [⟨2, .v d.toNat (s.p p) (s.core.mx.rowOf n (age - 8))⟩] ∧
        t.core.vec = s.core.vec ∧ t.core.mx = s.core.mx ∧ t.core.regs = s.core.regs) ∧
    ((∀ n age, s.core.mx.drain = some ⟨n, age⟩ → age < 8 ∨ 136 ≤ age) →
      exec (.vrow d p) s = .next (s.modVec fun v => { v with empty := BitVec.ofNat 32 (min (2 ^ 32 - 1) (v.empty.toNat + 1)) })) ∧
    (let q := s.core.vec.dq
     let on := (List.range 128).filter fun i => (s.p p).getLsbD i
     let m := 4096 - q.length
     Completes (.vdefDefer pd a p) s (fun t =>
       t.core.vec.dq = q ++ (on.take m).map (fun i => lane (s.v a) i) ∧
       (t.core.regs.z.stat.defov = true ↔ s.core.regs.z.stat.defov = true ∨ m < on.length) ∧
       (pd ≠ 0 → ∃ val : Pred, t.core.flight = s.core.flight ++ [⟨2, .p pd.toNat val⟩] ∧ ∀ i, i < 128 → (val.getLsbD i = true ↔ i ∈ on.take m)) ∧
       (pd = 0 → t.core.flight = s.core.flight) ∧ t.core.regs.v = s.core.regs.v ∧ t.core.spad = s.core.spad ∧ t.mem = s.mem) ∧
     Completes (.vdefRefill d p) s (fun t =>
       t.core.vec.dq = q.drop on.length ∧ t.core.regs = s.core.regs ∧ t.core.spad = s.core.spad ∧ t.mem = s.mem ∧
       ∃ (mask : Pred) (val : VReg), t.core.flight = s.core.flight ++ [⟨3, .v d.toNat mask val⟩] ∧
         (∀ i, i < 128 → (mask.getLsbD i = true ↔ i ∈ on.take q.length)) ∧
         ∀ (k e : Nat), (on.take q.length)[k]? = some e → q[k]? = some (lane val e)) ∧
     exec (.vdefCount d) s = .next (s.setX (d.zeroExtend 6) (BitVec.ofNat 64 q.length) 2)))

/-- R164, R169, R170, R178: the claim, its release and the pair; every MX syllable is ILLEGAL in a handler, after SNAPREL and (but for MCLAIM) without the
claim, and FORMAT with reason 6 in the cycle after an MCFG. R171, R173 to R177: what MMA, MMAQ, MZERO and MDRAIN accept, what they queue, and what
FORMAT reports of the first check that fails. Where the spec leaves a point of this open the clause states the model's choice, not a rule: assumption
log 37, 39, 82. -/
def Obligations.MatrixClaimAndCommands : Prop :=
  (∀ (s : State),
    (s.core.regs.z.stat.tm = false → s.core.front.released = false → s.core.mx.mcfgAt.map (fun c => c + 1) ≠ some s.core.cycle →
      (s.core.mx.claim = true → exec .mclaim s = .next s) ∧
      (s.core.mx.claim = false → Completes .mclaim s fun t =>
        t = { s with core := { s.core with mx := t.core.mx } } ∧ t.core.mx.claim = true ∧ t.core.mx.pair = .bf16 ∧ t.core.mx.ae5 = false ∧ t.core.mx.be5 = false ∧
        ∀ n, (tget {} t.core.mx.slots n).tag = none ∧ t.core.mx.kind n = .none ∧
          (tget {} t.core.mx.slots n).elems = (tget {} s.core.mx.slots n).elems ∧ (tget {} t.core.mx.planes n).rows = (tget {} s.core.mx.planes n).rows)) ∧
    (MxOpen s →
      Completes .mrel s (fun t => t.core.mx.claim = false ∧ t.core.mx.queue = [] ∧ t.core.mx.load = none ∧ t.core.mx.array = none ∧ t.core.mx.drain = none ∧
        t.core.mx.slots = s.core.mx.slots ∧ t.core.mx.planes = s.core.mx.planes ∧ t.core.regs.x = s.core.regs.x ∧ t.core.regs.v = s.core.regs.v ∧
        t.core.flight = s.core.flight ∧ t.core.spad = s.core.spad ∧ t.mem = s.mem) ∧
      ∀ b a p, exec (.mcfg b a p) s = .next { s with core := { s.core with mx := { s.core.mx with pair := p, ae5 := a, be5 := b, mcfgAt := some s.core.cycle } } }) ∧
    (∀ i, i = .mrel ∨ (∃ b a p, i = .mcfg b a p) ∨ (∃ n a w c h, i = .mloadA n a w c h ∨ i = .mloadB n a w c h ∨ i = .mloadBt n a w c h) ∨
        (∃ a b l w c, i = .mma a b l w c ∨ i = .mmaAcc a b l w c) ∨
        (∃ a b l w c, i = .mmaqF4 a b l w c ∨ i = .mmaqF4Acc a b l w c ∨ i = .mmaqI4 a b l w c ∨ i = .mmaqI4Acc a b l w c) ∨ (∃ l, i = .mzero l) ∨
        (∃ l w, i = .mdrain l w) →
      ((s.core.regs.z.stat.tm = true ∨ s.core.front.released = true ∨ s.core.mx.claim = false) → exec i s = .next s.illegal) ∧
      (s.core.regs.z.stat.tm = false → s.core.front.released = false → s.core.mx.claim = true → s.core.mx.mcfgAt = some (s.core.cycle - 1) → 0 < s.core.cycle →
        exec i s = .next (s.raise { code := 0x03, detail := 0x6FF })))) ∧
  (∀ (s : State) (a b : BitVec 6) (l w : Bool) (fc : FClass) (sc : BitVec 4), MxOpen s → s.core.mx.queue.length < 2 →
    (let m := s.core.mx
     let ta := (tget {} m.slots a.toNat).tag
     let tb := (tget {} m.slots b.toNat).tag
     let k := MPair.kind m.pair
     let cmd : MxCmd := { op := .mma, ticket := s.ticket, since := s.core.cycle, tid := s.tid, pair := m.pair, ae5 := m.ae5, be5 := m.be5, plane := l.toNat }
     (∀ ga gb : SlotTag, ta = some ga → tb = some gb → MPair.cls m.pair = (FClass.code fc) →
        ga.formB = false → ga.cls = (FClass.code fc) → MPair.takes m.pair ga.skind = true → gb.formB = true → gb.cls = (FClass.code fc) → MPair.takes m.pair gb.skind = true →
        (let c := { cmd with slotA := a.toNat, slotB := b.toNat, cls := (FClass.code fc), skind := ga.skind, skindB := gb.skind }
         MxQueued (.mma a b l w fc) s c l.toNat k w ∧
         ((m.kind l.toNat = .zero ∨ m.kind l.toNat = k) → MxQueued (.mmaAcc a b l w fc) s { c with acc := true } l.toNat k w) ∧
         (m.kind l.toNat ≠ .zero → m.kind l.toNat ≠ k → exec (.mmaAcc a b l w fc) s = .next (s.raise {
            code := 0x03, detail := BitVec.ofNat 32 (0x500 + (if k = .int32 then 7 else 6) * 16 + (match m.kind l.toNat with | .none => 4 | .zero => 5 | .fp32 => 6 | .int32 => 7)) })))) ∧
     (MPair.cls m.pair ≠ (FClass.code fc) → exec (.mma a b l w fc) s = .next (s.raise { code := 0x03, detail := BitVec.ofNat 32 (0x100 + MPair.cls m.pair * 16 + (FClass.code fc)) })) ∧
     (MPair.cls m.pair = (FClass.code fc) → ta = none → exec (.mma a b l w fc) s = .next (s.raise { code := 0x03, detail := BitVec.ofNat 32 (0x20F + (FClass.code fc) * 16) })) ∧
     (∀ ga gb : SlotTag, ta = some ga → tb = some gb → m.pair = .bf16 → ga = ⟨false, 0, 0⟩ → gb = ⟨true, 2, 0⟩ →
        (let c := { cmd with op := .mmaq, slotA := a.toNat, slotB := b.toNat, sc := sc.toNat }
         MxQueued (.mmaqF4 a b l w sc) s c l.toNat .fp32 w ∧ MxQueued (.mmaqI4 a b l w sc) s { c with alt := true } l.toNat .fp32 w ∧
         ((m.kind l.toNat = .zero ∨ m.kind l.toNat = .fp32) → MxQueued (.mmaqF4Acc a b l w sc) s { c with acc := true } l.toNat .fp32 w ∧
           MxQueued (.mmaqI4Acc a b l w sc) s { c with alt := true, acc := true } l.toNat .fp32 w))) ∧
     (m.pair ≠ .bf16 → exec (.mmaqF4 a b l w sc) s = .next (s.raise { code := 0x03, detail := BitVec.ofNat 32 (0x700 + mPairCode m.pair) })) ∧
     MxQueued (.mzero l) s { cmd with op := .mzero } l.toNat .zero false ∧
     ((∀ c, (c ∈ m.queue ∨ m.array = some c) → c.op ≠ .mload → c.plane ≠ l.toNat) → m.drain = none →
       Completes (.mdrain l w) s fun t => t.core.mx = { m with drain := some ⟨l.toNat, 0⟩ } ∧ t.core.regs = s.core.regs ∧ t.mem = s.mem ∧
         t.core.flight = s.core.flight ++ (if w then [⟨1, .swap false 0xF⟩] else [])) ∧
     (((∃ c, (c ∈ m.queue ∨ m.array = some c) ∧ c.op ≠ .mload ∧ c.plane = l.toNat) ∨ m.drain ≠ none) → exec (.mdrain l w) s = .next s.illegal)))

/-- R166 to R168: an MLOAD that passes its checks takes its geometry from the shape registers, writes the slot's tag and joins the queue; the checks in
their order; and the tile that the load takes from the scratchpad, with zeros past ROWS and COLS. Where the spec leaves a point of this open the
clause states the model's choice, not a rule: assumption log 38. -/
def Obligations.MatrixLoad : Prop :=
  (∀ (s : State) (n a : BitVec 6) (w formB bt : Bool) (fc : FClass) (hd : BitVec 4) (i : Instr), MxOpen s → s.core.mx.queue.length < 2 →
    ((formB, bt, i) = (false, false, .mloadA n a w fc hd) ∨ (formB, bt, i) = (true, false, .mloadB n a w fc hd) ∨ (formB, bt, i) = (true, true, .mloadBt n a w fc hd)) →
    (hd = 0 ∨ s.handleWait hd true 1 = some true) →
    (let G := fun k f => let c := s.shapes k; elemOf 32 (if w then c.2 else c.1).toNat f
     let g := if formB then 1 else 0
     let kc := clsChunk (FClass.code fc)
     let sk := G (g + 2) 0
     let base := ((s.x a).toNat + (if hd = 0 then 0 else (s.h hd).headSlot)) % 2 ^ 64
     let c : MxCmd := { op := .mload, slotA := n.toNat, alt := bt, formB := formB, cls := (FClass.code fc), skind := sk, base := base, rows := G g 0, cols := G g 1, stride := G g 2
                        soff := G (g + 2) 1, sstride := G (g + 2) 2, bandoff := G (g + 2) 3, hd := hd.toNat, ticket := s.ticket, since := s.core.cycle, tid := s.tid
                        pair := s.core.mx.pair, ae5 := s.core.mx.ae5, be5 := s.core.mx.be5 }
     ((base % 32 ≠ 0 ∨ c.stride % 32 ≠ 0) → exec i s = .next (s.misalign (BitVec.ofNat 64 base) 32)) ∧
     (base % 32 = 0 → c.stride % 32 = 0 →
       (((if formB ∧ bt = false then kc else 128) < c.rows ∨ (if formB ∧ bt = false then 128 else kc) < c.cols) → exec i s = .next s.illegal) ∧
       (c.rows ≤ (if formB ∧ bt = false then kc else 128) → c.cols ≤ (if formB ∧ bt = false then 128 else kc) →
         (∀ r ∈ MxCmd.reads c, s.spadOk r.lo (r.hi - r.lo) = true) →
         (sk = 0 ∨ (sk = 1 ∧ (FClass.code fc) = 2 ∧ (formB = false ∨ bt = true) ∧ c.cols % 8 = 0) ∨
           (sk = 2 ∧ ((FClass.code fc) = 1 ∨ (FClass.code fc) = 2) ∧ (formB = false ∨ bt = true) ∧ c.cols % 32 = 0)) →
         s.det = false →
         Completes i s fun t => t.core.mx.queue = s.core.mx.queue ++ [c] ∧ (tget {} t.core.mx.slots n.toNat).tag = some ⟨formB, (FClass.code fc), sk⟩ ∧
           (∀ q, q ≠ n.toNat → tget {} t.core.mx.slots q = tget {} s.core.mx.slots q) ∧
           t.core.flight = s.core.flight ++ (if w then [⟨1, .swap false 0xF⟩] else []) ∧ t.core.regs.x = s.core.regs.x ∧ t.core.regs.v = s.core.regs.v ∧
           t.core.spad = s.core.spad ∧ t.mem = s.mem) ∧
       (c.rows ≤ (if formB ∧ bt = false then kc else 128) → c.cols ≤ (if formB ∧ bt = false then 128 else kc) →
         (∀ r ∈ MxCmd.reads c, s.spadOk r.lo (r.hi - r.lo) = true) →
         ((sk = 1 ∧ (FClass.code fc) ≠ 2) ∨ (sk = 2 ∧ (FClass.code fc) ≠ 1 ∧ (FClass.code fc) ≠ 2) ∨ ((sk = 1 ∨ sk = 2) ∧ formB = true ∧ bt = false)) →
         exec i s = .next (s.raise { code := 0x03, detail := BitVec.ofNat 32 (0x400 + (FClass.code fc) * 16 + sk) }))))) ∧
  (∀ (s : State) (c : MxCmd) (r k : Nat), c.cls < 4 → r < 128 → k < clsChunk c.cls →
    (let E := fun sr col => if sr < c.rows ∧ col < c.cols then s.spadElem (c.base + sr * c.stride) (clsBits c.cls) col % 2 ^ clsBits c.cls else 0
     let T := (s.mloadTake c).elems.toNat
     (c.formB = false → elemOf (clsBits c.cls) T (r * clsChunk c.cls + k) = E r k) ∧
     (c.formB = true → c.alt = false → elemOf (clsBits c.cls) T (k * 128 + r) = E k r) ∧
     (c.formB = true → c.alt = true → elemOf (clsBits c.cls) T (k * 128 + r) = E r k)))

/-- R118 to R120, R174, R175: one cycle of an array command gives every cell the rounded sum of what it held and the cycle's products, and an INT8 cell
the clamped sum. Where the spec leaves a point of this open the clause states the model's choice, not a rule: assumption log 40, 83. -/
def Obligations.MatrixArithmetic : Prop :=
  (∀ (c : MxCmd) (a b : OpSlot) (p : Plane) (n i j : Nat), i < 128 → j < 128 →
    (let old := if n = 0 ∧ c.acc = false then 0 else vElem 32 (tget 0 p.rows i) j
     let new := vElem 32 (tget 0 (c.cycle a b p n).1.rows i) j
     (c.op = .mma →
       (let kc := clsChunk c.cls
        let ps := (chunkKs c.cls n).map fun k => (operand c.pair c.ae5 c.skind a (a.elem (clsBits c.cls) (i * kc + k)) i k).mul
          (operand c.pair c.be5 c.skindB b (b.elem (clsBits c.cls) (k * 128 + j)) j k)
        (c.pair ≠ .int8 → new = (fp32.encode (2 * quantBits) (FVal.sum ((fp32.decode old).scale quantBits :: ps))).1 % 2 ^ 32) ∧
        (c.pair = .int8 → new = ofSval 32 (max (-2 ^ 31) (min (2 ^ 31 - 1) (sval 32 old + (ps.map FVal.toInt).sum)))))) ∧
     (c.op = .mmaq → new = (fp32.encode (2 * quantBits) (FVal.sum [(fp32.decode old).scale quantBits,
       (bf16.decode (a.elem 16 (i * 128 + n))).mul (weight c.alt (b.elem 4 (n * 128 + j)) (scEntry c.scVal j)).1])).1 % 2 ^ 32) ∧
     (c.op = .mzero → new = 0))) ∧
  (∀ (s : State) (c : MxCmd), s.core.mx.array = some c →
    (tget {} s.arrayCycle.core.mx.planes c.plane).rows = (c.cycle (tget {} s.core.mx.slots c.slotA) (tget {} s.core.mx.slots c.slotB) (tget {} s.core.mx.planes c.plane) c.done).1.rows ∧
    (c.done + 1 < c.length → s.arrayCycle.core.mx.array = some { c with done := c.done + 1 }) ∧ (c.length ≤ c.done + 1 → s.arrayCycle.core.mx.array = none)) ∧
  (∀ (s : State) (c : MxCmd), s.core.mx.load = some c → c.op = .mload →
    (c.done + 1 < 64 → s.loadCycle.core.mx.load = some { c with done := c.done + 1 } ∧ s.loadCycle.core.mx.slots = s.core.mx.slots) ∧
    (64 ≤ c.done + 1 → s.loadCycle.core.mx.load = none ∧ (tget {} s.loadCycle.core.mx.slots c.slotA).elems = c.elems ∧
      ∀ q, q ≠ c.slotA → tget {} s.loadCycle.core.mx.slots q = tget {} s.core.mx.slots q))

/-- R181 to R185, R188, R189: the scale slot loads scale registers, packs and unpacks blocks, draws from the task's stream and reads the counters, each
with its latency. -/
def Obligations.ScaleSlot : Prop :=
  ∀ (s : State) (d a : BitVec 5) (n : BitVec 4) (x : BitVec 6) (o : BitVec 9) (k : Bool) (r : RMode) (p : BitVec 4),
    (let b := s.x x + o.signExtend 64 * 32
     (b.toNat % 32 ≠ 0 → exec (.scldBlk n x o) s = .next (s.misalign b 32) ∧ exec (.scldBand n x o) s = .next (s.misalign b 32)) ∧
     (b.toNat % 32 = 0 → s.spadOk b.toNat 256 = true → ∃ val l, exec (.scldBlk n x o) s = .next ((s.readSlots l).setSc n val 4) ∧
       ∀ e, e < 128 → scEntry val e = leNat (s.spadBytes (b.toNat + 2 * e) 2)) ∧
     (b.toNat % 32 = 0 → s.spadOk b.toNat 4 = true → ∃ val l, exec (.scldBand n x o) s = .next ((s.readSlots l).setSc n val 4) ∧
       ∀ e, e < 128 → scEntry val e = leNat (s.spadBytes (b.toNat + 2 * (e / 64)) 2))) ∧
    (let V := fun e => if (s.p p).getLsbD e then fp32.decode (vElem 32 (s.v a) e) else .fin false 0
     let U := fun e => if r = .rs then s.draw e else 0
     let Q := fun (i : Instr) (w blk : Nat) (elem scale : Nat → Nat) => Completes i s fun t =>
       t.core.regs.z.rpos = s.core.regs.z.rpos + (if r = .rs then 128 else 0) ∧ t.core.regs.v = s.core.regs.v ∧ t.core.spad = s.core.spad ∧ t.mem = s.mem ∧
       ∃ val, t.core.flight = s.core.flight ++ [⟨6, .v d.toNat (BitVec.allOnes 128) val⟩] ∧ (∀ e, e < 128 → vElem w val e = elem e % 2 ^ w) ∧
         (∀ g, g < 128 / blk → vElem 8 val (128 + g) = scale g % 256) ∧ ∀ m, m < 512 → (16 * w ≤ m ∧ m < 128) ∨ 128 + 128 / blk ≤ m → vElem 8 val m = 0
     let X := fun (emax b : Nat) => mxExp emax (amaxOf V (32 * b) 32)
     let f := fp8Kind k
     let beta := scEntry (s.sc n) 0
     Q (.qcvtF8 d a k r p) 8 32 (fun e => (f.convert r (U e) (160 + X (if k then 15 else 8) (e / 32)).toNat (V e)).1) (fun b => (X (if k then 15 else 8) b + 127).toNat) ∧
     Q (.qcvtMx4 d a r p) 4 32
       (fun e => if blockAny V (32 * (e / 32)) 32 FVal.isNaN then 0 else (e2m1.convert r (U e) (160 + X 2 (e / 32)).toNat (V e)).1)
       (fun b => if blockAny V (32 * b) 32 FVal.isNaN then 0xFF else (X 2 b + 127).toNat) ∧
     ((∀ neg m, bf16.decode beta ≠ .fin neg m ∨ m = 0) → Q (.qcvtDb4 d a n r p) 4 8 (fun _ => 0) (fun _ => 0xFF)) ∧
     (∀ neg m, bf16.decode beta = .fin neg m → m ≠ 0 →
       Q (.qcvtDb4 d a n r p) 4 8
         (fun e => let b := e / 8
           let sb := db4Scale m (amaxOf V (8 * b) 8) (blockAny V (8 * b) 8 fun v => v.isInf false || v.isInf true)
           if blockAny V (8 * b) 8 FVal.isNaN ∨ sb = 0 then 0 else (match V e with
             | .fin ng y => (e2m1.narrow r (U e) (ng != neg) (y * 2 ^ 7) ((e3m5 sb).getD 1 * m)).1
             | .inf ng => (if ng != neg then 8 else 0) + 7
             | .nan => 0))
         (fun b => if blockAny V (8 * b) 8 FVal.isNaN then 0xFF
           else db4Scale m (amaxOf V (8 * b) 8) (blockAny V (8 * b) 8 fun v => v.isInf false || v.isInf true)))) ∧
    (∀ beta amax : Nat, 0 < beta → 0 < amax → (let c := db4Scale beta amax false
       c ≤ 0xFE ∧ (∀ c', c' < c → 6 * beta * (e3m5 c').getD 0 < amax * 2 ^ 7) ∧ (c < 0xFE → amax * 2 ^ 7 ≤ 6 * beta * (e3m5 c).getD 0))) ∧
    VecWrites (.qcvtUnp d a n k p) s d 32 (s.p p) 6 (fun e => (fp32.encode quantBits (mxValue (fp8Kind k) (vElem 8 (s.v a) e) (elemOf 8 (s.sc n).toNat (e / 32)))).1) ∧
    (let R := fun (i : Instr) (f : Nat → Nat) => Completes i s fun t => t.core.regs.z.rpos = s.core.regs.z.rpos + 128 ∧ t.core.regs.v = s.core.regs.v ∧ t.mem = s.mem ∧
       ∃ val, t.core.flight = s.core.flight ++ [⟨3, .v d.toNat (s.p p) val⟩] ∧
         ∀ e, e < 128 → vElem 32 val e = f (philoxDraw s.core.regs.z.rkey.toNat s.core.regs.z.rstr.toNat ((s.core.regs.z.rpos.toNat + e) % 2 ^ 64)) % 2 ^ 32
     R (.rndgInt d p) id ∧ R (.rndgUni d p) (fun u => (fp32.roundNE false (u / 256) (2 ^ 24)).1)) ∧
    VecWrites (.statc d p) s d 32 (s.p p) 2 (fun e =>
      let st := tget {} ((s.core.front.run.bind Run.counts).getD s.core.vec.counts) (s.tid / 32 * 32 + e / 4)
      match e % 4 with
      | 0 => st.sat
      | 1 => st.flush
      | 2 => st.nan
      | _ => st.viol)

/-- R404, R405: a descriptor of 32 bytes whose window, page, slot, range and alignment hold reaches the registration step; PROT registers a region that
meets no other, UNPROT withdraws a registration of the open round or marks one in force, and both are ILLEGAL otherwise. R408, R409, R414: RPREP of
the next round on a slot without a round record releases and closes the round; RCOMM holds until the decision, acquires and writes the outcome; RSTAT
reads ROUNDLAST, the slot's status, or that there is no record to restore. Where the spec leaves a point of this open the clause states the model's
choice, not a rule: assumption log 73, 75, 87. -/
def Obligations.GroupSyllables : Prop :=
  (∀ (s : State) (a : BitVec 6),
    ((s.ctx s.bound.ctx).translate? (s.x a).toNat .rd = none → exec (.prot a) s = .next (s.noWindow (s.x a)) ∧ exec (.unprot a) s = .next (s.noWindow (s.x a))) ∧
    (∀ c, (s.ctx s.bound.ctx).translate? (s.x a).toNat .rd = some c →
      ((s.x a).toNat % 32 ≠ 0 → exec (.prot a) s = .next (s.misalign (s.x a) 32) ∧ exec (.unprot a) s = .next (s.misalign (s.x a) 32)) ∧
      (∀ u pa m v g d (r : Access), (s.x a).toNat % 32 = 0 → s.isRemote c.ia = false → s.walk s.myDie c.ia = (u, .page pa m) → u.viewRead c.ia pa 32 = (v, g) → g.lost = false →
        RegDesc.ofBytes g.data = some d → d.fits (v.group d.slot) = true → (v.group d.slot).cfg.en = true →
        ((v.group d.slot).state = .run ∨ (v.group d.slot).state = .degraded) → (v.group d.slot).cfg.isData = true →
        (v.ctx v.bound.ctx).rangeIn? d.va d.len .rdw = some r → v.isRemote r.ia = false → v.constWin r.win = false →
        (let x := v.group d.slot
         let new : Region := ⟨r.ia, d.len, d.goff⟩
         let all := v.groups.flatMap fun kv => kv.2.allRegs
         (((∃ e ∈ all, e.ia < r.ia + d.len ∧ r.ia < e.ia + e.len) ∨ (∃ e ∈ x.allRegs, e.goff < d.goff + d.len ∧ d.goff < e.goff + e.len) ∨ 1024 ≤ all.length) →
           exec (.prot a) s = .next v.illegal) ∧
         ((∀ e ∈ all, r.ia + d.len ≤ e.ia ∨ e.ia + e.len ≤ r.ia) → (∀ e ∈ x.allRegs, d.goff + d.len ≤ e.goff ∨ e.goff + e.len ≤ d.goff) → all.length < 1024 →
           exec (.prot a) s = .next (v.modGroup d.slot fun g => { g with joining := g.joining ++ [new] }).endRegion) ∧
         (new ∈ x.joining → exec (.unprot a) s = .next (v.modGroup d.slot fun g => { g with joining := g.joining.erase new }).endRegion) ∧
         (new ∉ x.joining → (new ∈ x.regs ∨ new ∈ x.closedJoin) → new ∉ x.leaving → new ∉ x.closedLeave →
           exec (.unprot a) s = .next (v.modGroup d.slot fun g => { g with leaving := g.leaving ++ [new] }).endRegion) ∧
         (new ∉ x.joining → ((new ∉ x.regs ∧ new ∉ x.closedJoin) ∨ new ∈ x.leaving ∨ new ∈ x.closedLeave) → exec (.unprot a) s = .next v.illegal))))) ∧
  (∀ (s : State) (a b : BitVec 6),
    (let n := (s.x a).toNat % 8
     let g := s.group n
     (((s.x a).toNat / 8 ≠ 0 ∨ g.cfg.en = false ∨ g.cfg.isData = false) → exec (.rprep a b) s = .next s.illegal ∧ exec (.rcomm a b) s = .next s.illegal) ∧
     ((s.x a).toNat < 8 → g.cfg.en = true → g.cfg.isData = true →
       (g.rb = true → exec (.rprep a b) s = .next s.hold) ∧
       (g.rb = false → (s.x b ≠ g.roundLast + 1 ∨ g.phase ≠ 0) → exec (.rprep a b) s = .next s.illegal) ∧
       (g.rb = false → s.x b = g.roundLast + 1 → g.phase = 0 → g.cfg.rrec = 0 → s.loadsOut = false → s.core.released = none →
         (s.mem.recs = [] → Completes (.rprep a b) s fun t => EndsRegion t ∧ t.core.regs = s.core.regs ∧ t.core.flight = s.core.flight) ∧
         (∀ u st e, s.releasePart = (u, st, some e) → exec (.rprep a b) s = .next (u.raise e)) ∧
         (∀ u st v w x, s.releasePart = (u, st, none) → (u.fencePublish .package st).modCore (fun c => { c with released := none }) = v →
           v.takeStamp = (w, x) →
           (let y := (w.compact fun r t => decide (t ≤ x) && r.cells.any fun c => ((w.group n).covers? c.1).isSome).1
            y.roundWaits n x = false → exec (.rprep a b) s = .next ((y.writeRecord n (y.x b) []).closeRound n).endRegion))) ∧
       (g.phase ≠ 0 → exec (.rcomm a b) s = .next s.hold) ∧
       (g.phase = 0 → (∀ u r, s.acquirePart 0 false (s.fenceSources .package) false = (u, r) →
         (r = .done → exec (.rcomm a b) s = .next (u.setX b (BitVec.ofNat 64 (g.outcome.getD 2)) 1).endRegion) ∧
         (∀ e, r = .race e → exec (.rcomm a b) s = .next (u.raise e)) ∧ (r = .wait → exec (.rcomm a b) s = .next u.hold)) ∧
         (s.mem.recs = [] → s.coreId < 352 → (∀ kv ∈ s.fenceSources .package, kv.1 < 4) → Completes (.rcomm a b) s fun t =>
           WritesX s t b (BitVec.ofNat 64 (g.outcome.getD 2)) 1 ∧ EndsRegion t ∧ t.core.regs = s.core.regs ∧ t.mem.cells = s.mem.cells))) ∧
     (((s.x a).toNat / 64 ≠ 0 ∨ g.cfg.en = false) → exec (.rstat a b) s = .next s.illegal) ∧
     ((s.x a).toNat < 64 → g.cfg.en = true →
       ((s.x a).toNat / 8 = 0 → exec (.rstat a b) s = .next (s.setX b g.roundLast 1).endRegion) ∧
       ((s.x a).toNat / 8 = 1 → exec (.rstat a b) s = .next (s.setX b g.stat 1).endRegion) ∧
       ((s.x a).toNat / 8 = 2 → g.cfg.rrec = 0 → exec (.rstat a b) s = .next (s.setX b 3 1).endRegion) ∧
       (3 ≤ (s.x a).toNat / 8 → exec (.rstat a b) s = .next s.illegal))))

/-- R17, R33, R44, R47, R86, R206, R305, R307, R421: an empty bundle's idle cycles; an idle core picks up the task that the scheduler chooses and places
on it; every coupled member of a group leaves at one safe point; a slice that is over asks for a pre-emption; COUNT at a budget that is not 0 kills;
the data of a missed load, a record and a segment arrive. R20, R97, R157, R171, R216, R220, R261, R276, R283, R347, R363: the write and the fill of a
snapshot image; the log's time limit; compaction by a die's resurfacer; the answers of another device; the end of a superstep; the end of a wait for a
ring's PUB; the matrix units, the row latch in a cycle without a bundle, and the copy engine. R95, R99: with a debugger attached, DBGCTL's writes take
effect and a halted core goes on; attaching and detaching, at which halted cores go on. Where the spec leaves a point of this open the clause states
the model's choice, not a rule: assumption log 6, 8, 10, 14, 18, 29, 33, 34, 53, 68, 92, 93, 96. -/
def Obligations.CoreEvents : Prop :=
  (∀ (s : State) (core : Nat), core < 352 →
    (∀ rep, exec (.emptyBundle rep) s = .next { s with core := { s.core with front := { s.core.front with emptyLeft := rep.toNat + 1 } } }) ∧
    (∀ t : Task, s.choice core = some t → s.placement t = some core →
      exec (.bindTask core t.launch t.index) s = .next ((((s.decide' t core).focus core).pickUp t).focus s.coreId)) ∧
    ((s.coreAt core).preempt = true → (∀ c ∈ s.coupledCores core, (s.focus c).atSafePoint = true ∧ (s.focus c).nextAddr = (s.focus core).nextAddr) →
      exec (.preemptTake core) s = .next ((s.coupledCores core).foldl (fun v c => v.onCore c fun u =>
        { u with core := { u.core with preAt := some u.time, front := { u.core.front with leaving := some (.preempt, u.nextAddr), hold := .none } } }) s)) ∧
    (s.sliceOver core = true → Completes (.sliceExpire core) s fun t => (t.coreAt core).preempt = true ∧ t.mem = s.mem ∧ t.sched = s.sched ∧
      ∀ g i, (s.cluster (clusterOf core)).groups.find? (fun g => g.coupled.getLsbD (lowCore core)) = some g → i < 4 → g.coupled.getLsbD i = true →
        (t.coreAt (clusterOf core * 4 + i)).preempt = true) ∧
    ((s.coreAt core).task.isSome = true → (let u := s.focus core
      let f := u.core.front
      (u.core.regs.z.budget ≠ 0 → u.core.regs.z.budget.toNat ≤ u.core.regs.z.wcount.toNat → (f.run = none ∨ f.hold ≠ .none) →
        exec (.watchdogExpire core) s = .next ((u.killBound { code := 0x15, detail := u.core.regs.z.wcount } 0).focus s.coreId)) ∧
      (∀ k m, u.core.misses[k]? = some m → m.bad = false →
        exec (.loadArrive core k) s = .next ((({ u with core := { u.core with misses := u.core.misses.eraseIdx k } } : State).applyWrite m.w).focus s.coreId)) ∧
      (∀ va a v pa x w g, u.heldRecord = some va → (u.ctx u.bound.ctx).translate? va.toNat .rd = some a → f.hold = .fetch → a.ia % 64 = 0 → u.isRemote a.ia = false →
        u.recordHit a.ia = none → u.walk u.myDie a.ia = (v, .page pa x) → v.viewRead a.ia pa 64 = (w, g) → g.lost = false →
        exec (.recordCacheFill core a.ia) s = .next (({ (w.recordFill a.ia g.data) with core := { (w.recordFill a.ia g.data).core with
          front := { (w.recordFill a.ia g.data).core.front with holdPage := none } } } : State).focus s.coreId)) ∧
      (∀ g v n, f.cur = some g → g.bad = none → g.next ≠ 0 → f.succ = none → u.takeSegment g.next = (v, n) →
        exec (.segmentExpand core g.next) s = .next (({ v with core := { v.core with front := { v.core.front with succ := some n } } } : State).focus s.coreId)) ∧
      (∀ (a : Word) v n, f.cur = none → f.latched = some (.addr a) → f.bubbles = 0 → u.takeSegment (a.toNat / 8192 * 8192) = (v, n) →
        exec (.segmentExpand core (a.toNat / 8192 * 8192)) s = .next (({ v with core := { v.core with
          front := { v.core.front with cur := some n, succ := none, entry := none } } } : State).focus s.coreId)))) ∧
    (∀ (l : RemoteLoad) (t : Task) launch index, s.task? launch index = some t → t.state = .parked → t.park = some (.remote l true) →
      (∀ bs v, l.rest = [] → s.replyWrite t l bs = (v, none) →
        exec (.remoteReply launch index (.value bs)) s = .next (v.makeReady t.launch t.index fun t => { t with held := none })) ∧
      (∀ c d, (c = 0x0A ∨ c = 0x0B ∨ c = 0x0C) → exec (.remoteReply launch index (.error c d)) s = .next (s.makeReady t.launch t.index fun t => { t with
        held := some { cause := { code := c, addr := BitVec.ofNat 64 l.ia, detail := d }, trap := true, bundle := l.bundle } })) ∧
      (∀ c d, (c = 0x12 ∨ c = 0x13 ∨ c = 0x14) → exec (.remoteReply launch index (.error c d)) s = .next (s.makeReady t.launch t.index fun t => { t with
        held := some { cause := { code := c, addr := BitVec.ofNat 64 l.ia, detail := d }, trap := false, bundle := l.bundle } })))) ∧
  ((∀ (s : State) (core : Nat), core < 352 → (let u := s.focus core
    (∀ a im n, u.core.snapOps = [.st a im n] → n ≤ 1 →
      exec (.snapstWrite core) s = .next ((({ u with core := { u.core with snapOps := [] } } : State).spadPut a im.bytes).focus s.coreId)) ∧
    (∀ r c d, (s.coreAt core).asked = none → s.mem.recs.find? (fun r => r.core == core && r.sent) = some r →
      (∀ bs, exec (.syncOpComplete core (.value bs)) s = .next { s with mem := s.mem.drop r }) ∧
      (c ≠ 0x0B → exec (.syncOpComplete core (.error c d)) s = .next { s with mem := s.mem.modRec r fun x => { x with sent := false } })) ∧
    ((s.coreAt core).task.isSome = true →
      (∀ p n, u.core.snapOps = [.ld p n] → n ≤ 1 →
        exec (.snapldFill core) s = .next (({ u with core := { u.core with snapOps := [], snap := some p } } : State).focus s.coreId)) ∧
      (∀ t, u.core.front.logSince = some t → t + (u.die u.myDie).logStall.toNat ≤ s.time →
        exec (.logfullTimeout core) s = .next (({ u with core := { u.core with front := { u.core.front with logDue := true } } } : State).focus s.coreId)) ∧
      (∀ r d, (s.coreAt core).asked = some (d, true) → (s.coreAt core).answer = none → u.answerFits r = true → r ≠ .value [] →
        exec (.syncOpComplete core r) s = .next (({ u with core := { u.core with answer := some r } } : State).focus s.coreId)) ∧
      (∀ ring k v h c w, u.core.slotHeld = some (ring, k) → u.ringWords u.myDie (u.ringReg ring) = (v, some (h, k, c)) → v.ringReady (u.ringReg ring) = (w, true) →
        Completes (.ringPubWaitEnd core) s fun t => ∃ z, z = w.ringPublish (u.ringReg ring) k ∧
          t = ({ z with core := { z.core with slotHeld := none, published := some k } } : State).focus s.coreId) ∧
      (u.frozen = false →
        (∀ c rest, u.core.mx.queue = c :: rest → u.mxReady c = true → (let v : State := { u with core := { u.core with mx := { u.core.mx with queue := rest } } }
          exec (.mxCommandStart core) s = .next (State.focus (if c.op = .mload
            then (v.readSlots (c.reads.map fun r => (r.lo, r.hi))).modMx fun m => { m with load := some (v.mloadTake c) }
            else { v with core := { v.core with mx := { v.core.mx with array := some { c with scVal := u.core.regs.sc[c.sc]?.getD 0 } } } }) s.coreId))) ∧
        (∀ c, u.core.mx.load = some c → c.length ≤ c.done + 1 → u.core.mx.array = none →
          exec (.mxCommandEnd core) s = .next ((u.loadEnd c).focus s.coreId)) ∧
        (∀ c, u.core.mx.load = none → u.core.mx.array = some c → c.length ≤ c.done + 1 →
          exec (.mxCommandEnd core) s = .next (u.arrayCycle.focus s.coreId))) ∧
      (u.core.mx.drain.isSome = true → u.core.front.halted = false → (0 < u.core.front.bubbles ∨ 1 < u.core.front.emptyLeft) →
        exec (.drainRow core) s = .next (u.coreClock.passCycle.1.focus s.coreId)) ∧
      (∀ j js, u.core.copy.jobs = j :: js →
        (j.running = false → u.frozen = false → (u.det = true ∨ u.conflict? 1 j.ticket j.foot = none) →
          (let v : State := { u with core := { u.core with copy := { u.core.copy with jobs := { j with running := true, tick := u.time } :: js } } }
           exec (.copyJobStart core) s = .next (State.focus (if j.dir = .sh ∨ j.dir = .ss ∨ j.dir = .tevict
             then v.readSlots ((loopIndices j.ext).map fun i => (elemAddr j.src j.str i, elemAddr j.src j.str i + j.w)) else v) s.coreId))) ∧
        (∀ r t, j.running = true → u.frozen = false → u.jobReach j = none → u.jobRun j none = r → r.lost = none → r.wait = false →
          r.s.jobRecords j.dstInc (State.runsOf r.glob) = (t, true) →
          exec (.copyJobEnd core) s = .next ((({ t with core := { t.core with copy := { t.core.copy with
            bytes := t.core.copy.bytes + BitVec.ofNat 64 (j.w * j.ext.foldl (· * ·) 1)
            tags := match j.dir with
              | .tfill => tmod {} t.core.copy.tags j.slot fun e => { e with valid := true }
              | .tevict => tmod {} t.core.copy.tags j.slot fun e => if e.lock then e else { e with valid := false }
              | _ => t.core.copy.tags } } } : State).jobGone j true).focus s.coreId)) ∧
        (∀ (e : CopyErr) r t, j.running = true → e.code ∈ ([0x0A, 0x0B, 0x0C, 0x12, 0x13, 0x14] : List (BitVec 8)) → u.jobRun j (some e.addr.toNat) = r → r.lost ≠ none →
          r.s.jobRecords j.dstInc (State.runsOf r.glob) = (t, true) →
          exec (.copyJobFail core e) s = .next (((t.jobGone j false).modCopy fun c => { c with
            err := c.err ++ [⟨{ code := e.code, addr := e.addr, detail := e.detail }, j.hd⟩] }).focus s.coreId)))))) ∧
  (∀ (s : State) (d bound : Nat), exec (.resurfacerCompact d bound) s =
    .next (s.compactList [] (s.mem.compactible fun r st => dieOf r.core == d && decide (st ≤ bound))).1) ∧
  (∀ (s : State) (dev : Nat) (r : RemoteReply), dev < 128 → exec (.syncOpComplete (352 + dev) r) s = .next (s.modFabric fun f =>
    { f with forces := modFirst (fun x => x.dev == dev && !x.done) (fun x => { x with done := true }) f.forces })) ∧
  (∀ (s : State) (launch : Nat), (let ends := fun (key : Nat) (dies : List Nat) => (((dies.foldl (fun u d => (u.compactDie d u.mem.clock).1) s).clearOwners key).modStep launch key
      fun v => { v with gen := v.gen + 1, arrived := [] })
    (∀ d, d < 4 → (s.superStep launch d).arrived ≠ [] → (∀ i ∈ s.participants launch d, i ∈ (s.superStep launch d).arrived) →
      exec (.sstepRelease launch d .die) s = .next (ends d [d])) ∧
    (∀ d, (s.superStep launch 4).arrived ≠ [] → (∀ i ∈ s.participants launch 4, i ∈ (s.superStep launch 4).arrived) →
      exec (.sstepRelease launch d .package) s = .next (ends 4 [0, 1, 2, 3]))))) ∧
  (∀ (s : State) (core : Nat), core < 352 →
    (s.root.debugger = true →
      (∀ v, exec (.dbgctlWrite core v) s = .next (s.modCoreAt core fun c => { c with front := { c.front with step := v.getLsbD 0, freeze := v.getLsbD 1 } })) ∧
      Completes (.debuggerContinue core) s fun t => t.mem = s.mem ∧ t.root = s.root ∧ (t.coreAt core).front.halted = false ∧ (t.coreAt core).front.debug = false) ∧
    exec (.debuggerAttach true) s = .next { s with root := { s.root with debugger := true } } ∧
    Completes (.debuggerAttach false) s fun t => t.root = { s.root with debugger := false } ∧ t.mem = s.mem)

/-- R373, R375, R376, R378, R380: openings and closes by ENGW, pairings, breaks, elements and credits of channels; a frozen core's channels do not move
(R99). R242, R251 to R255: an arrival and a value reach the root of their group, an arrival's answer its core, and the mirrors of the group's cores
the root's state; a FUSE that has waited 2,000 ticks on the line ends with status 2. Where the spec leaves a point of this open the clause states the
model's choice, not a rule: assumption log 8, 26, 43. -/
def Obligations.ChannelAndSpireEvents : Prop :=
  (∀ (s : State) (core ch : Nat), core < 352 →
    ((s.coreAt core).task.isSome = true → (let u := s.focus core
      ∀ f w, u.core.front.run = none → f.w = .eng (0xC000 + 64 * ch) w →
        ((u.engDue ch true = some f → exec (.channelOpen core ch) s = .next ((({ u with core := { u.core with flight := u.core.flight.erase f } } : State).applyWrite f.w).focus s.coreId)) ∧
        (u.engDue ch false = some f → exec (.channelClose core ch) s = .next ((({ u with core := { u.core with flight := u.core.flight.erase f } } : State).applyWrite f.w).focus s.coreId))))) ∧
    (let c := s.chanAt core ch
     (c.kind = 2 → (c.state = .opening ∨ c.state = .opened) → s.unroutedFor c.dev c.since = true →
       exec (.channelRouteTimeout core ch) s = .next (s.modChanAt core ch fun c => if c.state = .closed then c else { c with state := .broken, err := 3 })) ∧
     (s.frozenAt core = false →
       (∀ depth agree, c.state ≠ .opening → exec (.channelPair core ch depth agree) s = .next s) ∧
       (∀ depth agree, c.state = .opening → c.kind = 2 → (s.peer c.dev).state = .up → (s.peer c.dev).inc = c.inc →
         exec (.channelPair core ch depth agree) s = .next (if agree then
           s.modChanAt core ch fun c => { c with state := .opened, depthPeer := depth.toNat + 1, cred := if c.recv then 0 else depth.toNat + 1 }
           else s.modChanAt core ch fun c => if c.state = .closed then c else { c with state := .broken, err := 1 })) ∧
       (∀ depth agree, c.state = .opening → c.kind ≠ 2 → (let n := c.peerCore core
         let d := s.chanAt n c.pch
         (d.state = .opening ∨ d.state = .opened) → d.names n core ch = true →
         ((d.recv = c.recv ∨ d.lanes ≠ c.lanes ∨ d.ty ≠ c.ty ∨ d.proto ≠ c.proto) →
           exec (.channelPair core ch depth agree) s = .next ((s.chanBreak core ch 1).chanBreak n c.pch 1)) ∧
         (d.recv ≠ c.recv → d.lanes = c.lanes → d.ty = c.ty → d.proto = c.proto → (let put := fun (e o : Chan) =>
             if e.state = .opening then { e with state := .opened, depthPeer := o.depth, cred := if e.recv then 0 else o.depth } else e
           exec (.channelPair core ch depth agree) s = .next ((s.modChanAt core ch fun e => put e d).modChanAt n c.pch fun e => put e c))))) ∧
       (∀ e, c.state = .opened →
         (c.recv = true → c.kind = 2 → c.buf.length + c.held.length < c.depth →
           exec (.channelElementArrive core ch e) s = .next (s.modChanAt core ch fun c => { c with buf := c.buf ++ [e] })) ∧
         (c.recv = false → c.pending.head? = some e → c.kind = 2 →
           exec (.channelElementArrive core ch e) s = .next (s.modChanAt core ch fun c => { c with pending := c.pending.tail })) ∧
         (c.recv = false → c.pending.head? = some e → c.kind ≠ 2 → (let n := c.peerCore core
           let v := s.modChanAt core ch fun c => { c with pending := c.pending.tail }
           s.frozenAt n = false → (v.chanAt n c.pch).state = .opened →
           exec (.channelElementArrive core ch e) s = .next (v.modChanAt n c.pch fun d => { d with buf := d.buf ++ [e] })))) ∧
       (c.state = .opened → c.recv = false →
         (c.kind = 2 → c.cred + c.pending.length < c.depthPeer →
           exec (.channelCreditReturn core ch) s = .next (s.modChanAt core ch fun c => { c with cred := c.cred + 1 })) ∧
         (c.kind ≠ 2 → exec (.channelCreditReturn core ch) s = .next (s.modChanAt core ch fun c => { c with cred := c.cred + c.owed, owed := 0 })))) ∧
     (s.frozenAt core = true → ∀ depth agree e, exec (.channelPair core ch depth agree) s = .next s ∧ exec (.channelElementArrive core ch e) s = .next s ∧
       exec (.channelCreditReturn core ch) s = .next s))) ∧
  (∀ (s : State) (core : Nat), core < 352 →
    (∀ (m : SpireMsg) rest (g : BitVec 7), (s.coreAt core).spireOut = m :: rest → m.group = g.toNat →
      (let u := s.modCoreAt core fun c => { c with spireOut := rest }
       let r := u.spireRoot core g.toNat
       (∀ v, m.value = some v → exec (.barmApply core g v) s = .next ((u.setSpireRoot core g.toNat (r.configure v)).mirrorAll core g.toNat)) ∧
       (m.value = none →
         (let v := if r.admits g.toNat core then u.setSpireRoot core g.toNat r.arrive else u
          exec (.barrierArrival core g) s = .next ((if m.dest = 0 then v else v.modCoreAt core fun c => { c with flight := c.flight ++
            [⟨max 1 m.left, .x m.dest (if r.admits g.toNat core then r.gen else BitVec.allOnes 64)⟩] }).mirrorAll core g.toNat))))) ∧
    (∀ d k g, d < 4 → k < 22 → g < 80 → exec (.spireMirrorUpdate d k g) s = .next (s.modCluster (d * 22 + k) fun c =>
      { c with mirror := tset c.mirror g (s.spireRoot (4 * (d * 22 + k)) g) })) ∧
    (∀ p e d since, tget? (s.cluster (clusterOf core)).line (lowCore core) = some (.fuse p e d since) → since + 2000 ≤ s.time →
      exec (.fuseTimeout core) s = .next (let t := s.modCluster (clusterOf core) fun c => { c with line := terase c.line (lowCore core) }
        if d = 0 then t else t.modCoreAt core fun c => { c with regs := { c.regs with x := c.regs.x.setIfInBounds d 2 } })))

/-- R310, R311, R348, R351: the command processor visits the next polled ring with an acquire of its PUB and takes the entry at CON while CON is behind
PUB; a launch whose tasks have ended completes, with its record; an active node acts, an end node by leaving the active nodes; the next phase of a job
starts, and a phase to be run again restarts its graph. R294, R299, R333, R341, R370: a register write of a master that is not the owner does nothing;
the owner's writes of the plain registers take their values after a journal entry; a read of the fault queue pops it; and the invalidations and page
completions of a die. Where the spec leaves a point of this open the clause states the model's choice, not a rule: assumption log 46, 48, 49, 50, 53,
56, 57, 58. -/
def Obligations.UnitAndRegisterEvents : Prop :=
  (∀ (s : State),
    (∀ n, (s.polled.find? fun n => decide (s.sched.poll ≤ n)).or s.polled.head? = some n →
      (let u := ({ s with sched := { s.sched with poll := n + 1 } } : State)
       let w := tget 0 (u.ctx (n / 64)).rings (n % 64)
       (∀ v, u.agentAcquire (ringBase w + 8) = (v, false) → exec .ringPollVisit s = .next v) ∧
       (∀ v t r pub con, u.agentAcquire (ringBase w + 8) = (v, true) → v.ringWords 0 w = (t, some (r, pub, con)) →
         (con < pub → exec .ringPollVisit s = .next (t.takeEntry (n / 64) (n % 64) w con)) ∧ (pub ≤ con → exec .ringPollVisit s = .next t)))) ∧
    (s.polled = [] → exec .ringPollVisit s = .next s) ∧
    (∀ (l : Launch), (s.sched.launches.find? fun x => x.id == l.id && !x.complete) = some l →
      (s.launchEnded l = false → exec (.launchComplete l.id) s = .next s) ∧
      (s.launchEnded l = true → l.det = false → l.again = false → (l.graph = 0 ∨ l.orphan = true) →
        (let u := if l.stats = 0 then s else (s.supWrite 0 l.ctx l.stats (State.statsBlock l.totals)).1
         let v := u.putRecord { l with stop := u.time } l.final (leBytes 48 0)
         exec (.launchComplete l.id) s = .next { v with sched := { v.sched with
           launches := v.sched.launches.map fun x => if x.id == l.id && !x.complete then { x with status := x.final, complete := true, stop := v.time } else x } }))) ∧
    (∀ gid n (g : Graph), s.graph? gid = some g →
      (n ∉ g.active → exec (.graphNodeActivate gid n) s = .next (s.graphSettle gid)) ∧
      (n ∈ g.active → g.complete = false → exec (.graphNodeActivate gid n) s = .next ((s.nodeAct g n).graphSettle g.id) ∧
        ∀ u b, s.supRead 0 g.ctx (State.nodeAddr g n) 64 = (u, some b) → at' b 0 1 = 3 → zeros b 1 1 = true → zeros b 4 4 = true → zeros b 40 24 = true →
        (at' b 16 4 = 0xFFFFFFFF ∨ at' b 16 4 < g.nodes) → (at' b 20 4 = 0xFFFFFFFF ∨ at' b 20 4 < g.nodes) →
        exec (.graphNodeActivate gid n) s = .next ((u.modGraph g.id fun g => { g with active := g.active.erase n }).graphSettle g.id))) ∧
    (∀ (j : JobRun), s.job? j.id = some j → j.stopped = false → j.complete = false →
      (j.active = false → (j.cur < j.nphase → exec (.phaseStart j.id) s = .next (s.startPhase j)) ∧ (j.nphase ≤ j.cur → exec (.phaseStart j.id) s = .next s)) ∧
      (j.active = true → ∀ p, (s.sched.phases.find? fun p => p.job == j.id && !p.complete && p.graph == 0 && p.gaddr != 0) = some p →
        (s.sched.launches.any fun l => !l.complete && (s.graph? l.graph).any fun g => g.phase == p.id) = false → p.stopped = false →
        ∀ t, s.startGraph p p.gaddr = (t, true) → exec (.phaseStart j.id) s = .next t))) ∧
  (∀ (s : State) (m : Nat) (v : Word), (s.root.owner.id = 0 ∨ s.time < s.root.owner.beat + s.root.owner.lease.toNat) →
    (m = 0 ∨ s.root.owner.id ≠ m →
      (∀ off, off % 8 = 0 → off < 2 ^ 17 → off ≠ 0x010 → off ≠ 0x1010 → exec (.registerWrite off m v) s = .next s) ∧
      (∀ c, exec (.jobSubmit c m v) s = .next s ∧ exec (.unitCancel c m v) s = .next s) ∧
      (∀ d, exec (.tlbInvalidate d m v) s = .next s ∧ exec (.pageDone d m v) s = .next s) ∧ exec (.ptrootWrite m v) s = .next s ∧
      ∀ c w, exec (.awaWrite c w m v) s = .next s) ∧
    (m ≠ 0 → s.root.owner.id = m →
      (let J := fun (off : Nat) => s.command m 0 off v
       exec (.registerWrite 0x028 m v) s = .next ((J 0x028).modRoot fun r => { r with owner := { r.owner with lease := BitVec.ofNat 32 v.toNat } }) ∧
       exec (.registerWrite 0x5008 m v) s = .next ((J 0x5008).modFabric fun f => { f with reroute := BitVec.ofNat 32 v.toNat }) ∧
       exec (.registerWrite 0x7010 m v) s = .next ((J 0x7010).modNet fun n => { n with addr0 := v }) ∧
       (∀ d, d < 4 → exec (.registerWrite (0x2000 + 0x400 * d) m v) s = .next ((J (0x2000 + 0x400 * d)).modDie d fun x => { x with logStall := BitVec.ofNat 32 v.toNat }) ∧
         exec (.tlbInvalidate d m v) s = .next ((J (0x2000 + 0x400 * d + 0x18)).writeTlbInv d v) ∧
         exec (.pageDone d m v) s = .next ((J (0x2000 + 0x400 * d + 0x28)).writePgDone d v)) ∧
       (s.anyCtx = false → exec (.ptrootWrite m v) s = .next ([0, 1, 2, 3].foldl (fun s d => s.dropTlb d (BitVec.allOnes 64))
         ((J 0x050).modRoot fun r => { r with ptroot := v &&& 0x0000FFFFFFF00001 }))) ∧
       (s.anyCtx = true → exec (.ptrootWrite m v) s = .next (s.command m 1 0x050 v)) ∧
       (∀ c w, (let off := 0x10000 + 0x1000 * c + 0x100 + 32 * w + 24
         let a := (tget {} (s.ctx c).aws w).withWord 3 v
         ((s.ctx c).en = false → (a.a.getLsbD 0 = false ∨ a.twoDevices = false) →
           exec (.awaWrite c w m v) s = .next ((J off).modCtx c fun x => { x with aws := tset x.aws w a })) ∧
         (((s.ctx c).en = true ∨ (a.a.getLsbD 0 = true ∧ a.twoDevices = true)) → exec (.awaWrite c w m v) s = .next (s.command m 1 off v)))) ∧
       (∀ c, (let off := 0x10000 + 0x1000 * c + 0x28
         let u := (J off).modCtx c fun x => { x with jobSub := v &&& 0xFFFFFFFFFFFFFFC0 }
         (v.getLsbD 0 = false → exec (.jobSubmit c m v) s = .next u) ∧
         (v.getLsbD 0 = true → (s.ctx c).en = true → exec (.jobSubmit c m v) s = .next (u.submitJob c (v &&& 0xFFFFFFFFFFFFFFC0).toNat)) ∧
         (v.getLsbD 0 = true → (s.ctx c).en = false → exec (.jobSubmit c m v) s = .next ((u.modCtx c fun x => { x with jobRej := true }).event 7 1 0)))) ∧
       (∀ c, (let u := J (0x10000 + 0x1000 * c + 0x30)
         let id := v.toNat % 2 ^ 32
         let level := v.toNat / 2 ^ 32 % 8
         (level = 1 → exec (.unitCancel c m v) s = .next (u.cancelUnit .launch id)) ∧ (level = 2 → exec (.unitCancel c m v) s = .next (u.cancelUnit .graph id)) ∧
         (level = 3 → exec (.unitCancel c m v) s = .next (u.cancelUnit .phase id)) ∧ (level = 4 → exec (.unitCancel c m v) s = .next (u.cancelUnit .job id)))))) ∧
    (∀ d, exec (.tlbinvComplete d) s = .next (s.finishTlbInv d)) ∧
    (∀ d r, s.regRead m (0x2000 + 0x400 * d + 0x20) = some r →
      exec (.fltqPop d m) s = .next (((s.modDie d fun d => { d with fltq := d.fltq.tail }).fltqRefill d).serveWaiting.send (.readValue m r))))

/-- R331, R336, R338, R339, R342 to R345, R353: entry to stage 0 at power-on and at a thermal cut, with the images verified; the staged start; a failed
link between dies; the device number; claims, the hand-over, the beat and the lapse of the lease; loss of the standby supply; the mirror of a journal
entry, which shows at home wherever no write of a greater stamp stands (R276); and JIDX. Where the spec leaves a point of this open the clause states
the model's choice, not a rule: assumption log 5, 12, 59, 60, 61, 62, 63, 86. -/
def Obligations.PackageEvents : Prop :=
  ∀ (s : State),
    (∀ images : List (Bool × Digest), Completes (.powerOnReset images) s fun t =>
      t.root.stage.stage = 0 ∧ t.root.inc = (if s.root.inc + 1 = 0 then 1 else s.root.inc + 1) ∧ t.root.owner = {} ∧ t.trav.retired = s.trav.retired ∧ t.mem.cells = [] ∧
      (t.root.stage.verified = true ↔ 4 ≤ images.length ∧ ∀ i ∈ images, i.1 = true) ∧ t.root.stage.err = !t.root.stage.verified ∧
      t.root.journal.jseq = s.root.journal.jseq + 1) ∧
    (s.root.stage.stage = 0 → s.root.stage.verified = true → Completes .hostLinkUp s fun t => t.root.stage.stage = 1 ∧ t.root.journal.jseq = s.root.journal.jseq + 1 ∧ t.mem = s.mem) ∧
    (s.root.stage.verified = false → exec .hostLinkUp s = .next s) ∧
    (∀ failed (g : Go), s.root.stage.pending = some g → g.stage = 2 → s.root.stage.stage = 1 →
      (let new := failed.eraseDups.filter fun f => decide (f < 16) && !s.trav.retired.contains f
       Completes (.stageAdvanceCompute failed) s fun t => t.trav.retired = s.trav.retired ++ new ∧ t.root.stage.pending = none ∧
         ((s.trav.retired ++ new).length ≤ 4 → t.root.stage.stage = 2) ∧ (4 < (s.trav.retired ++ new).length → t.root.stage.stage = 1 ∧ t.root.stage.err = true))) ∧
    (∀ g, s.root.stage.pending = some g → g.stage = 3 → s.time < g.tick + 1000000000 → (∀ k, k < 8 → (s.port k).en = false ∨ (s.port k).state = .run) →
      exec .stageAdvanceFabric s = .next (s.toStage 3 g.master (leBytes 8 g.value.toNat))) ∧
    (∀ g, s.root.stage.pending = some g → g.stage = 4 → s.time < g.tick + 1000000000 → s.groupsRestored = some true →
      exec .stageAdvanceGroup s = .next (s.toStage 4 g.master (leBytes 8 g.value.toNat))) ∧
    (∀ g, s.root.stage.pending = some g → g.stage ≠ 2 → g.tick + 1000000000 ≤ s.time →
      exec .stageAdvanceTimeout s = .next { s with root := { s.root with stage := { s.root.stage with err := true, pending := none } } }) ∧
    (Completes .thermalCut s fun t => t.root.stage.stage = 0 ∧ t.root.stage.err = true ∧ t.root.images = s.root.images ∧
      t.root.inc = (if s.root.inc + 1 = 0 then 1 else s.root.inc + 1) ∧ t.root.owner = {} ∧ t.mem.cells = [] ∧
      (t.root.stage.verified = true ↔ 4 ≤ s.root.images.length ∧ ∀ i ∈ s.root.images, i.1 = true) ∧ t.root.stage.cause = if t.root.stage.verified then 3 else 1) ∧
    (∀ on, Completes (.thermalThrottle on) s fun t => t.root.throttled = on ∧ t.mem = s.mem ∧ t.core = s.core) ∧
    (∀ d1 d2, exec (.dieLinkFail d1 d2) s = .next (if State.linked d1 d2 then s.linkFails d1 d2 else s)) ∧
    (∀ n, s.root.stage.stage = 1 → Completes (.devnumSet n) s fun t => t.root.devnum = n ∧ t.root.stage = s.root.stage ∧ t.mem = s.mem) ∧
    (∀ n, s.root.stage.stage ≠ 1 → exec (.devnumSet n) s = .next s) ∧
    (∀ m v, s.root.stage.stage ≠ 0 → m ≠ 0 → (s.root.owner.id = 0 ∨ s.time < s.root.owner.beat + s.root.owner.lease.toNat) →
      (v.toNat / 2 ^ 32 = s.root.owner.epoch.toNat → v.toNat % 4 = m → (s.root.owner.id = 0 ∨ s.root.owner.succ.toNat = m) →
        Completes (.owncasClaim m v) s fun t => t.root.owner.id = m ∧ t.root.owner.epoch = s.root.owner.epoch + 1 ∧ t.root.owner.succ = 0 ∧ t.root.owner.beat = s.time) ∧
      ((v.toNat / 2 ^ 32 ≠ s.root.owner.epoch.toNat ∨ v.toNat % 4 ≠ m ∨ (s.root.owner.id ≠ 0 ∧ s.root.owner.succ.toNat ≠ m)) →
        exec (.owncasClaim m v) s = .next { s with root := { s.root with owner := { s.root.owner with results := tset s.root.owner.results m 2 } } })) ∧
    (∀ m v, s.root.owner.id = m → m ≠ 0 → s.time < s.root.owner.beat + s.root.owner.lease.toNat →
      Completes (.ownhandWrite m v) s (fun t => t.root.owner = { s.root.owner with succ := BitVec.ofNat 4 v.toNat } ∧ t.mem = s.mem) ∧
      exec (.ownbeatRenew m) s = .next { s with root := { s.root with owner := { s.root.owner with beat := s.time } } }) ∧
    (s.root.owner.id ≠ 0 → s.root.owner.beat + s.root.owner.lease.toNat ≤ s.time →
      Completes .leaseLapse s fun t => t.root.owner.id = 0 ∧ t.root.owner.epoch = s.root.owner.epoch + 1 ∧ t.root.owner.succ = 0 ∧ t.mem = s.mem) ∧
    ((s.root.owner.id = 0 ∨ s.time < s.root.owner.beat + s.root.owner.lease.toNat) → exec .leaseLapse s = .next s) ∧
    exec .standbySupplyLoss s = .next { s with root := { s.root with journal := { s.root.journal with entries := [], jseq := s.root.journal.jstart - 1 } } } ∧
    (∀ q e, s.journalEntry? q = some e → (let pa := s.root.journal.mirror.toNat / 2 ^ 22 % 2 ^ 25 * 2 ^ 22 + 64 * (q % 65536)
      s.root.journal.mirror.toNat / 2 ^ 22 % 2 ^ 25 ≠ 0 → s.trav.serves pa = true →
        Completes (.journalMirrorWrite q) s fun t => t.core = s.core ∧ t.root = s.root ∧ 
          ∀ i, i < 64 → tget 0 s.mem.stamps (pa + i) ≤ s.mem.clock → (e.bytes[i]?).any (fun b => t.homeByte (pa + i) == b) = true)) ∧
    (∀ m v, exec (.jidxWrite m v) s = .next { s with root := { s.root with journal := { s.root.journal with jidx := tset s.root.journal.jidx m v } } })

/-- R317, R319, R320, R322, R325, R326, R332: the triggers of a retirement; the relocation list and the copy of a granule; the sweep's move of a granule,
its hold and the two ways out of it; requests of a block and of the host die; the end of a hold, a bank's refresh and a new refresh window; and a
granule that is moved reads at its new place as it read at the old. Where the spec leaves a point of this open the clause states the model's choice,
not a rule: assumption log 54, 55, 90, 99. -/
def Obligations.TraverseEvents : Prop :=
  ∀ (s : State),
    (∀ m v, (s.root.owner.id = 0 ∨ s.time < s.root.owner.beat + s.root.owner.lease.toNat) → m ≠ 0 → s.root.owner.id = m →
      (let u := (s.command m 0 0x3020 v).modTrav fun t => { t with stackField := BitVec.ofNat 4 v.toNat }
       exec (.retireTrigger m v) s = .next (if v.getLsbD 4 then u.trigger (v.toNat % 16) else u)) ∧
      (s.trav.state = .relocate → s.trav.listGo = false → v.getLsbD 0 = true → v.toNat / 2 ^ 48 ≠ 0 → exec (.reloclistGo m v) s =
        .next ((s.command m 0 0x3030 v).modTrav fun t => { t with
          listCount := BitVec.ofNat 16 (v.toNat / 2 ^ 48), listAddr := v.toNat / 32 % 2 ^ 43 * 32, listGo := true, listIdx := 0, pagePtr := 0, relSize := 0 })) ∧
      (s.trav.state = .hold → exec (.travlossZeroFill m) s = .next (s.command m 0 0x3040 1).zeroLost ∧
        exec (.travlossReread m) s = .next ((s.command m 0 0x3040 2).modTrav fun t => { t with state := .sweep, lossValid := false, lossGran := 0 })) ∧
      (s.trav.state ≠ .hold → exec (.travlossZeroFill m) s = .next s ∧ exec (.travlossReread m) s = .next s)) ∧
    (∀ f, s.trav.auto = true → s.trav.ceth ≠ 0 → f < 16 → tget 0 s.trav.cecnt f = s.trav.ceth.toNat → f ∉ s.trav.retired → s.trav.pend ≠ some f →
      exec (.autoRetireTrigger f) s = .next (s.trigger f)) ∧
    (∀ f, s.trav.auto = false → exec (.autoRetireTrigger f) s = .next s) ∧
    ((s.trav.state ≠ .relocate ∨ s.trav.listGo = false) → exec .relocGranuleCopy s = .next s) ∧
    (s.trav.state = .relocate → s.trav.listGo = true → s.trav.listCount.toNat ≤ s.trav.listIdx → exec .relocGranuleCopy s = .next s.endList) ∧
    (s.trav.state = .relocate → s.trav.listGo = true → s.trav.listIdx < s.trav.listCount.toNat → s.trav.relSize ≠ 0 →
      (let old := s.trav.relOld + 2048 * s.trav.pagePtr
       let new := s.trav.relNew + 2048 * s.trav.pagePtr
       ∀ u bad, s.readGranule old = (u, bad) →
         ((bad = [] ∨ u.blocksProtected bad = true) →
           (let w := ((u.healGranule old).healGranule new).request new
            let v : State := { w with mem := w.mem.moveGranule old new, trav := { w.trav with pagePtr := w.trav.pagePtr + 1 } }
            exec .relocGranuleCopy s = .next (if v.trav.relSize ≤ v.trav.pagePtr then v.endPage else v))) ∧
         (bad ≠ [] → u.blocksProtected bad = false → exec .relocGranuleCopy s = .next u))) ∧
    (∀ (m : Mem) (src dst i : Nat), (dst + 2048 ≤ src ∨ src + 2048 ≤ dst) → i < 2048 →
      cget (m.moveGranule src dst).cells (dst + i) = cget m.cells (src + i) ∧ ∀ x, (x < dst ∨ dst + 2048 ≤ x) → cget (m.moveGranule src dst).cells x = cget m.cells x) ∧
    (s.trav.state ≠ .sweep → exec .sweepGranuleMove s = .next s) ∧
    (s.trav.state = .sweep → ∀ u bad, s.readGranule (2048 * s.trav.gran) = (u, bad) →
      ((bad = [] ∨ u.blocksProtected bad = true) →
        (let h := u.healGranule (2048 * s.trav.gran)
         let new := mapGranule h.trav.retired.reverse h.trav.gran
         exec .sweepGranuleMove s = .next (h.modCtrl new.1 fun c => (c.enterWindow h.refreshWindow).request new.2 h.time).granuleDone)) ∧
      (bad ≠ [] → u.blocksProtected bad = false → exec .sweepGranuleMove s = .next (({ u with trav := { u.trav with
        state := .hold, lossValid := true, lossGran := 2048 * s.trav.gran } } : State).event 8 0 u.trav.retStack))) ∧
    (∀ pa, s.trav.serves pa = true → exec (.memRequest (.read pa)) s = .next (s.readBlock pa false).1) ∧
    (∀ pa, s.trav.serves pa = false → exec (.memRequest (.read pa)) s = .next s) ∧
    (∀ a n u bs, s.readIa 0 (s.localIa a) n 2 = (u, some bs) → exec (.memRequest (.hostLoad a n)) s = .next (u.send (.readValue 1 (BitVec.ofNat 64 (leNat bs))))) ∧
    (∀ a bs, s.imageWait (s.localIa a) = false → exec (.memRequest (.hostStore a bs)) s = .next (s.writeIa 0 (s.localIa a) bs 2).1) ∧
    (∀ a e v pa u w x, s.peekPa? (s.localIa a) = some pa → s.imageWait (s.localIa a) = false → s.syncReady (hostSource - 4) (s.localIa a) 8 true true = (u, true) →
      u.homeRead (s.localIa a) pa 8 = (w, some x) → (let z := w.takeStamp
        let r := (z.1.publish (s.localIa a) hostSource z.2).atomicAt (s.localIa a) pa 8 fun old => if old = e then some v else none
        exec (.memRequest (.hostCas a e v)) s = .next (r.1.send (.readValue 1 r.2)))) ∧
    (∀ c b t, tget? (s.ctrl c).holds b = some t → t + (s.ctrl c).trfm.toNat ≤ s.time →
      exec (.rfmHoldEnd c b) s = .next (s.modCtrl c fun x => { x with holds := terase x.holds b })) ∧
    (∀ c b, c < 16 → (tget? (s.ctrl c).opened b).isSome = true → exec (.periodicRefresh c b) s = .next (s.modCtrl c fun x => { x with opened := terase x.opened b })) ∧
    (∀ c, c < 16 → (s.ctrl c).window < s.refreshWindow → exec (.refreshWindowClear c) s = .next (s.modCtrl c fun x => x.enterWindow s.refreshWindow))

/-- R354, R356 to R358: a frame comes from the device whose light arrives on its wavelength; one whose class is not admitted is dropped, a bad one or one
beyond a gap is answered by a NAK, and a good one acknowledged and taken; a stream without acknowledgement for 50 µs dies, and three probes in a row
that are answered revive it. R359 to R361, R365, R368, R370: a session is set up, comes up or is refused, ends when no good frame has come for 1 ms,
and takes a new key; ACCEPT, the migration window and the commands of a port; faults of a port; and a peer's reachability. R358, R362, R363, R366 to
R368: a wait for a route that is over ends with UNREACHABLE; a request of another device, in the place of its sequence number, is answered, forwarded
to the present holder, or waits; a roaming page moves when the registry grants it. Where the spec leaves a point of this open the clause states the
model's choice, not a rule: assumption log 64, 65, 66, 67, 68, 69, 86. -/
def Obligations.FabricEvents : Prop :=
  (∀ (s : State),
    (∀ k lam (f : Frame), (let p := wavelength lam s.devNum
      (s.frameOpen k p f = false → exec (.frameReceive k lam f) s = .next s) ∧
      (s.frameOpen k p f = true → s.frameBad k p f = true → exec (.frameReceive k lam f) s = .next ((s.tagTake k p f).nak k p)) ∧
      (s.frameOpen k p f = true → s.frameBad k p f = false →
        (let v := s.phaseTake k p f
         let w := v.modPeer (f.src.toNat % 128) fun q => { q with lastGood := v.time }
         let u := (w.modStream k p fun t => t.ack (f.ack.toNat % 65536) w.time).pump k p
         let gap := (f.sseq.toNat + 65536 - (s.stream k p).rxNext) % 65536
         (∀ q, f.nak = some q → exec (.frameReceive k lam f) s = .next (u.nakTake k p q.toNat)) ∧
         (f.nak = none → gap = 0 → (let z := u.modStream k p fun t => { t with rxNext := (t.rxNext + 1) % 65536 }
           exec (.frameReceive k lam f) s = .next ((z.send (.ack k p (z.stream k p).rxNext)).frameTake k p (s.opened k p f)))) ∧
         (f.nak = none → 0 < gap → gap < 32768 → exec (.frameReceive k lam f) s = .next (u.nak k p)) ∧
         (f.nak = none → 32768 ≤ gap → exec (.frameReceive k lam f) s = .next (u.send (.ack k p (u.stream k p).rxNext))))))) ∧
    (∀ k p, (let t := s.stream k p
      (t.dead = false → t.retry ≠ [] → t.since + 5000 ≤ s.time → exec (.streamAckTimeout k p) s = .next (s.killStream k p)) ∧
      ((t.dead = true ∨ t.retry = [] ∨ s.time < t.since + 5000) → exec (.streamAckTimeout k p) s = .next s) ∧
      (t.dead = true → ((s.port k).state = .locked ∨ (s.port k).state = .run) → t.since + 10000000 ≤ s.time → (let u := s.send (.probe k (wavelength s.devNum p))
        exec (.streamProbe k p false) s = .next (u.modStream k p fun t => { t with probes := 0, dead := true, since := s.time }) ∧
        (t.probes ≠ 2 → exec (.streamProbe k p true) s = .next (u.modStream k p fun x => { x with probes := t.probes + 1, dead := true, since := s.time })) ∧
        (t.probes = 2 → exec (.streamProbe k p true) s =
          .next (State.streamsChanged s (u.modStream k p fun x => { x with probes := 0, dead := false, since := s.time }).settleRoutes))))))) ∧
  (∀ (s : State),
    (∀ p, p < 128 → p ≠ s.devNum → (∃ k, k < 8 ∧ ((s.port k).state = .locked ∨ (s.port k).state = .run)) →
      ((s.peer p).state = .none ∨ ((s.peer p).state = .down ∧ (s.peer p).downAt + 100000 ≤ s.time)) →
      (let u := (s.modPeer p fun x => { x with state := .setup, spdm := 0 }).noteRoutes
       exec (.sessionSetup p) s = .next (if s.devNum < p then u.post p (.spdm p .getVersion false []) else u))) ∧
    (∀ p inc chain meas, (s.peer p).state = .setup →
      ((chain = false ∨ ((s.peer p).spdm = 7 ∧ (∃ k, k < 4 ∧ tget 0 s.fabric.accept k ≠ 0) ∧ ∀ k, k < 4 → tget 0 s.fabric.accept k ≠ meas)) →
        Completes (.sessionUp p inc chain meas) s fun t => (t.peer p).state = .refused ∧ t.root.journal.jseq = s.root.journal.jseq + 1) ∧
      (chain = true → (s.peer p).spdm = 7 → ((∀ k, k < 4 → tget 0 s.fabric.accept k = 0) ∨ ∃ k, k < 4 ∧ tget 0 s.fabric.accept k = meas) →
        exec (.sessionUp p inc chain meas) s = .next (s.sessionEnds p inc chain meas))) ∧
    (∀ p, (s.peer p).state = .up → (s.peer p).lastGood + 100000 ≤ s.time → exec (.sessionLivenessTimeout p) s = .next (s.sessionDown p)) ∧
    (∀ p, (s.peer p).state ≠ .up → exec (.sessionLivenessTimeout p) s = .next s) ∧
    (∀ p, (s.peer p).state = .up → (let u := (s.post p (.spdm p .keyUpdate false [])).modPeer p fun x => { x with txGen := x.txGen + 1, txFrames := 0 }
      exec (.keyUpdate p) s = .next { u with fabric := { u.fabric with
        streams := u.fabric.streams.map fun kv => (kv.1, if kv.1 % 128 = p then { kv.2 with frames := 0 } else kv.2) } })) ∧
    (∀ m v, (s.root.owner.id = 0 ∨ s.time < s.root.owner.beat + s.root.owner.lease.toNat) → m ≠ 0 → s.root.owner.id = m →
      (∀ k w, exec (.acceptWrite m k w v) s = .next ((s.command m 0 (0x5400 + 0x40 * k + 8 * w) v).writeAccept k w v)) ∧
      exec (.migwinWrite m) s = .next (s.command m 0 0x5020 0).endWindow ∧
      (∀ k, 2 ≤ s.root.stage.stage →
        (let C := fun (c : Nat) => s.command m 0 (0x5100 + 0x40 * k) (BitVec.ofNat 64 (c * 2 ^ 32 + (s.port k).en.toNat))
         ((s.port k).state = .unlocked → (s.port k).en = true → Completes (.portLock m k) s fun t => (t.port k).state = .locked ∧ t.root.journal.jseq = s.root.journal.jseq + 1) ∧
         ((s.port k).state = .locked → exec (.portRun m k) s = .next (((C 2).modPort k fun p => { p with state := .run }).settleRoutes.settleStage)) ∧
         ((s.port k).state = .run → exec (.portUnlock m k) s = .next (((C 3).modPort k fun p => { p with state := .unlocked }).killPort k)) ∧
         ((s.port k).state = .locked → exec (.portUnlock m k) s = .next ((C 3).modPort k fun p => { p with state := .unlocked }).noteRoutes) ∧
         ((s.port k).state = .error → exec (.portUnlock m k) s = .next ((C 3).modPort k fun p => { p with state := .unlocked, ecause := 0 }))))) ∧
    (∀ k, (s.port k).state = .run → exec (.portOpticalFault k) s = .next ((s.modPort k fun p => { p with state := .error, ecause := 2 }).killPort k) ∧
      exec (.portMeasCheck k false) s = .next ((s.modPort k fun p => { p with state := .error, ecause := 3 }).killPort k) ∧ exec (.portMeasCheck k true) s = .next s) ∧
    (∀ k, (s.port k).state = .locked → exec (.portOpticalFault k) s = .next (s.modPort k fun p => { p with state := .error, ecause := 2 }).noteRoutes) ∧
    (∀ p relay, (s.peer p).state = .up → exec (.reachAdvert p relay) s = .next ((s.send (.advert p s.liveMask)).modPeer p fun x => { x with advert := relay }).settleRoutes)) ∧
  (∀ (s : State),
    (∀ p l i t (r : RemoteLoad) b, s.task? l i = some t → t.state = .parked → t.park = some (.remote r b) → s.holderOf r.ia = p → s.unroutedFor p r.tick = true →
      exec (.rerouteTimeout p (.load l i)) s = .next (s.replyTo t r (.error 0x0C (BitVec.ofNat 32 p)))) ∧
    (∀ p c b, c < 352 → (s.coreAt c).asked = some (p, b) → (s.coreAt c).answer = none → s.unroutedFor p (s.coreAt c).askedAt = true →
      exec (.rerouteTimeout p (.sync c)) s = .next (s.modCoreAt c fun k => { k with answer := some (.error 0x0C (BitVec.ofNat 32 p)) })) ∧
    (∀ p c j r, c < 352 → (s.coreAt c).copy.jobs.head? = some j → j.running = true → s.unroutedFor p j.tick = true →
      ((j.foot.reads ++ j.foot.writes).find? fun r => r.glob && s.holderOf r.lo == p) = some r →
      exec (.rerouteTimeout p (.copy c)) s = .next (s.onCore c fun u => u.jobFailAt { code := 0x0C, addr := BitVec.ofNat 64 r.lo, detail := BitVec.ofNat 32 p })) ∧
    (∀ p c ring slot w, (s.net.work.find? fun w => w.ctx == c && w.ring == ring && w.slot == slot && w.started && !w.finished && (w.op == 3 || w.op == 4)) = some w →
      s.unroutedFor p w.tick = true → exec (.rerouteTimeout p (.work c ring slot)) s = .next (s.workFail w true)) ∧
    (∀ p (r : RemoteReq) q rest, (s.peer p).due = q :: rest → frameCount (opBytes r.op) ≤ (s.peer p).due.length → (s.peer p).state = .up → 3 ≤ s.root.stage.stage → p ≠ s.devNum →
      (let u := s.modPeer p fun x => { x with due := x.due.drop (frameCount (opBytes r.op)) }
       let d := u.holderOf (u.reqIa r.addr)
       let far := State.opNamed r.op = true ∧ u.isRemote (u.reqIa r.addr) = true
       (r.inc ≠ u.root.inc → exec (.remoteRequest p r) s = .next (u.answerReq p q false (.error 0x0B (u.root.inc.zeroExtend 32)))) ∧
       (r.inc = u.root.inc → far → exec (.remoteRequest p r) s = .next ((u.post d (.request d (u.peer d).txPseq r.addr (u.peer d).inc r.op)).modFabric
         fun f => { f with forwards := f.forwards ++ [(d, p, q)] })) ∧
       (r.inc = u.root.inc → ¬far → (∀ v o, u.perform p q r = (v, some o) → exec (.remoteRequest p r) s = .next (v.answerReq p q (State.RemoteReq.bulk r) o)) ∧
         ∀ v, u.perform p q r = (v, none) → exec (.remoteRequest p r) s = .next (v.modFabric fun f => { f with waiting := f.waiting ++ [(p, q, r)] })))) ∧
    (∀ page asker core refused, (let ia := page * 65536
      (roaming ia = false → exec (.roamMoveRequest page asker core refused) s = .next s) ∧
      (roaming ia = true → asker ≠ s.devNum → devOf ia = s.devNum → exec (.roamMoveRequest page asker core refused) s = .next (s.decideMove page asker refused).1) ∧
      (roaming ia = true → asker = s.devNum → s.fabric.migTh ≠ 0 → s.holderOf ia ≠ s.devNum →
        s.fabric.migTh.toNat ≤ ((tget [] s.fabric.accesses page).filter fun t => decide (s.time < t + 10000)).length →
        (let u := s.modFabric fun f => { f with accesses := terase f.accesses page }
         (devOf ia ≠ s.devNum → (let v := u.post (devOf ia) (.moveRequest (devOf ia) page)
           exec (.roamMoveRequest page asker core refused) s = .next (if refused then v.moveRefused page core else v))) ∧
         (devOf ia = s.devNum → ∀ v, u.decideMove page asker u.freeFrame.isNone = (v, true) → exec (.roamMoveRequest page asker core refused) s = .next v))))) ∧
    (∀ page h data, (let ia := page * 65536
      (roaming ia = false → exec (.roamCopyEnd page h data) s = .next s) ∧
      (roaming ia = true → devOf ia = s.devNum → (tget { holder := s.devNum } s.fabric.directory page).moving ≠ some h → exec (.roamCopyEnd page h data) s = .next s) ∧
      (roaming ia = true → devOf ia ≠ s.devNum → s.poolFrame? ia = none → ∀ f, s.freeFrame = some f → exec (.roamCopyEnd page s.devNum data) s = .next (s.takePage page f data)) ∧
      (roaming ia = true → devOf ia ≠ s.devNum → h ≠ s.devNum → s.holderOf ia ≠ s.devNum → exec (.roamCopyEnd page h data) s =
        .next (s.modFabric fun f => { f with pool := f.pool.filter fun kv => kv.2 != page, holders := tset f.holders page h }).serveWaiting))))

/-- R382, R383, R385, R388, R392 to R396: a visit of a network ring takes the request at CON while CON is behind PUB; contributions, results and partial
results of a reduction; the start and the end of a step of LAP, and its refusal; a packet is a duplicate, is rejected, or is written; SACKs,
retransmissions, errors and links. Where the spec leaves a point of this open the clause states the model's choice, not a rule: assumption log 70, 71. -/
def Obligations.NetEvents : Prop :=
  ∀ (s : State),
    (s.netPolled = [] → ∀ agree, exec (.netRingPoll agree) s = .next s) ∧
    (∀ n agree, (s.netPolled.find? fun n => decide (s.net.poll ≤ n)).or s.netPolled.head? = some n →
      (let u := ({ s with net := { s.net with poll := n + 1 } } : State)
       let w := tget 0 (u.ctx (n / 64)).netRings (n % 64)
       (∀ v, u.agentAcquire (ringBase w + 8) = (v, false) → exec (.netRingPoll agree) s = .next v) ∧
       ∀ v t r pub con, u.agentAcquire (ringBase w + 8) = (v, true) → v.ringWords 0 w = (t, some (r, pub, con)) →
         (pub ≤ con → exec (.netRingPoll agree) s = .next t) ∧
         (con < pub → ∀ x bs y q, t.readIa 0 (ringEntry w con) 64 2 = (x, some bs) → x.workAt (n / 64) (n % 64) con bs = (y, q) → y.workWaits q = false → y.sourceAbsent? q = none →
           exec (.netRingPoll agree) s = .next (((y.takeStamp.1.setHomeWord 0 (ringBase w + 16) ((con + 1) % 2 ^ 64) y.takeStamp.2).1.wakeRing (n / 64) (64 + n % 64)).workStart q agree)))) ∧
    (∀ g seq k rank ty data missing, (s.cgroup g).en = true →
      ((s.cgroup g).root = (s.cgroup g).myrank → exec (.reduceContribution g seq k rank ty data missing) s = .next (s.contribute g seq k rank ty data)) ∧
      ((s.cgroup g).root ≠ (s.cgroup g).myrank → exec (.reduceContribution g seq k rank ty data missing) s = .next (s.resultArrives g seq k data missing)) ∧
      ((s.cgroup g).root = (s.cgroup g).myrank → s.findChunk g seq k = none → 2 ≤ (s.cgroup g).nranks.toNat → rank < (s.cgroup g).nranks.toNat → (s.cgroup g).nranks.toNat ≤ 128 →
        exec (.reduceContribution g seq k rank ty data missing) s =
          .next (s.setChunk { group := g, seq := seq, chunk := k, ty := ty, first := s.time, parts := tset [] rank data }))) ∧
    (∀ c d x y : Nat, redElem 2 [c] = fp32.canon c ∧ redElem 1 [c] = bf16.canon c ∧ redElem 2 [c, d] = (fp32.add c d).1 ∧ redElem 2 [c, d, x] = (fp32.add (fp32.add c d).1 x).1 ∧
      redElem 1 [c, d, x] = (bf16.add (bf16.add c d).1 x).1 ∧ redElem 2 [c, d, x, y] = (fp32.add (fp32.add (fp32.add c d).1 x).1 y).1) ∧
    (∀ g seq k c, s.findChunk g seq k = some c → c.flushed = false → c.result = none → (s.cgroup g).treduce.toNat ≠ 0 → c.first + (s.cgroup g).treduce.toNat ≤ s.time →
      exec (.reduceFlush g seq k) s = .next (s.sendChunk c)) ∧
    (∀ c (w : WorkReq), (s.net.work.find? fun w => w.ctx == c && w.op == 3 && w.started && !w.copying && decide (w.done < w.word36) && decide (w.done + 1 ≤ s.lapR w)) = some w →
      (∀ bs d, (if w.len = 0 then some [] else (s.lapBuf w w.done).bind fun ia => (s.readIa 0 ia w.len (w.len / 65536 + 2)).2) = some bs →
        s.rankDev w.group (((s.cgroup w.group).myrank.toNat + 1) % (s.cgroup w.group).nranks.toNat) = some d →
        exec (.lapStepStart c) s = .next ((s.modWork w fun w => { w with copying := true, tick := s.time }).post d (.lap d w.group w.done bs)))) ∧
    (∀ c (w : WorkReq), (s.net.work.find? fun w => w.ctx == c && w.op == 3 && w.copying) = some w →
      exec (.lapStepEnd c .refused) s = .next (s.workFail w true) ∧
      (w.done + 1 ≠ w.word36 → exec (.lapStepEnd c .copied) s = .next (s.modWork w fun _ => { w with copying := false, done := w.done + 1 })) ∧
      (w.done + 1 = w.word36 → exec (.lapStepEnd c .copied) s = .next (((s.modWork w fun _ => { w with copying := false, done := w.done + 1, finished := true, foot := {} }).netCount c w.lctr).lapSettle
        { w with copying := false, done := w.done + 1, finished := true }))) ∧
    (∀ c (w : WorkReq) bs ia u, (s.net.work.find? fun w => w.ctx == c && w.op == 3 && w.started && decide (w.arrived < w.word36)) = some w → bs.length = w.len →
      s.lapBuf w (w.arrived + 1) = some ia → (s.writeIa 0 ia bs (bs.length / 65536 + 2)).1 = u →
      exec (.lapStepEnd c (.arrived bs)) s = .next (((u.modWork w fun _ => { w with arrived := w.arrived + 1 }).netCount c w.status).lapSettle { w with arrived := w.arrived + 1 })) ∧
    (∀ p : Packet, (let k := State.rxKey p.src
      ((p.psn < (s.pdc k).cack ∨ p.psn ∈ (s.pdc k).got) → exec (.msgPacketReceive p) s =
        .next ((s.modNet fun n => { n with dup := BitVec.ofNat 16 (min 65535 (n.dup.toNat + 1)) }).modPdc k fun d => { d with sackDue := true })) ∧
      ((s.pdc k).cack ≤ p.psn → p.psn ∉ (s.pdc k).got → (s.ctx p.ctx.toNat).en = false → exec (.msgPacketReceive p) s =
        .next ((s.modNet fun n => { n with rej := BitVec.ofNat 16 (min 65535 (n.rej.toNat + 1)) }).send (.packetError p.src))) ∧
      ((s.pdc k).cack ≤ p.psn → p.psn ∉ (s.pdc k).got → (s.ctx p.ctx.toNat).en = true → ∀ e ia pa m u w, s.netEntry (s.ctx p.ctx.toNat).netRes p.res = some e →
        at' e 24 3 = p.job.toNat → p.roff + p.len ≤ at' e 8 8 → s.supIa p.ctx.toNat (at' e 0 8 + p.roff + p.off) p.data.length .w = some ia → s.walk 0 ia = (u, .page pa m) →
        s.imageWait ia = false → s.writeIa 0 ia p.data 3 = (w, true) →
        (let c := ((w.net.rxMsgs.find? fun m => m.1 == p.src && m.2.1 == p.first).map fun m => m.2.2).getD 0 + 1
         let rest := w.net.rxMsgs.filter fun m => !(m.1 == p.src && m.2.1 == p.first)
         let z := (w.modPdc k fun d => d.take p.psn).modNet fun x => { x with rxMsgs := if c = p.count then rest else (p.src, p.first, c) :: rest }
         exec (.msgPacketReceive p) s = .next (if c = p.count then z.netCount p.ctx.toNat (at' e 16 8) else z))))) ∧
    (∀ p, (let k := State.rxKey p
      ((s.pdc k).sackDue = true → exec (.sackSend p) s = .next ((s.modPdc k fun d => { d with sackDue := false }).send (.sack p (State.sackOf (s.pdc k))))) ∧
      ((s.pdc k).sackDue = false → exec (.sackSend p) s = .next s))) ∧
    (∀ p a, exec (.sackReceive p a) s = .next (s.sackTake p a)) ∧
    (∀ p, (∀ x ∈ (s.pdc p).sent, x.acked = true ∨ s.time < x.last + s.net.rto.toNat) → exec (.rtoExpire p) s = .next s) ∧
    (∀ p x, (s.pdc p).sent = [x] → x.acked = false → x.last + s.net.rto.toNat ≤ s.time → exec (.rtoExpire p) s = .next (s.retransmit p x.psn)) ∧
    (∀ p psn w, s.msgOf p psn = some w → exec (.packetErrorAnswer p psn) s = .next ((s.workFail w true).pdcTrim p)) ∧
    (∀ p psn, s.msgOf p psn = none → exec (.packetErrorAnswer p psn) s = .next s) ∧
    (∀ k up, k < 8 → exec (.ueportLinkChange k up) s = .next { s with net := { s.net with ports := tset s.net.ports k ((s.uePort k).1, up) } })

/-- R400, R401, R406, R408, R410, R411, R416, R417: joining and leaving; formation, its failures and its time limit; deltas and their acknowledgements;
prepared members; decisions, and the round that a stored decision applies; the death of a member; the start of a rebuild on the replacement and on a
survivor, its shares, and its resumption. Where the spec leaves a point of this open the clause states the model's choice, not a rule: assumption log
72, 73, 74, 87. -/
def Obligations.GroupEvents : Prop :=
  ∀ (s : State) (n : Nat),
    (∀ m, (s.root.owner.id = 0 ∨ s.time < s.root.owner.beat + s.root.owner.lease.toNat) → m ≠ 0 → s.root.owner.id = m →
      (let v := fun (e : Bool) => GCfg.word { (s.group n).cfg with en := e, repl := if e then false else (s.group n).cfg.repl }
       let J := fun (e : Bool) => s.command m 0 (0x8000 + 0x100 * n) (v e)
       ((s.group n).cfg.en = true → exec (.groupJoin m n) s = .next (s.command m 1 (0x8000 + 0x100 * n) (v true)) ∧
         exec (.groupLeave m n) s = .next ((J false).leave n { (s.group n).cfg with en := false })) ∧
       ((s.group n).cfg.en = false →
         (s.joinRefused n { (s.group n).cfg with en := true, repl := false } = true → exec (.groupJoin m n) s = .next (s.command m 1 (0x8000 + 0x100 * n) (v true))) ∧
         (s.joinRefused n { (s.group n).cfg with en := true, repl := false } = false → exec (.groupJoin m n) s = .next ((J true).join n { (s.group n).cfg with en := true, repl := false }))) ∧
       ((s.group n).rbHeld = true → exec (.rebuildResume m n) s =
         .next (((s.command m 0 (0x8000 + 0x100 * n + 0x58) 2).modGroup n fun g => { g with rbHeld := false, err := 0 }).rebuildRun n)))) ∧
    (let g := s.group n
     let F := fun (e : BitVec 8) => s.modGroup n fun g => { cfg := { g.cfg with en := false }, err := e }
     (g.state ≠ .forming → ∀ a, exec (.groupForm n a) s = .next s) ∧
     (g.state = .forming →
       exec (.groupForm n false) s = .next (F 2) ∧
       ((∃ i, i < g.cfg.members ∧ s.memberUp n i = false) → exec (.groupForm n true) s = .next s) ∧
       ((∀ i, i < g.cfg.members → s.memberUp n i = true) →
         (g.cfg.badPlacement = true → g.cfg.ovr = false → exec (.groupForm n true) s = .next (F 1)) ∧
         ((g.cfg.badPlacement = false ∨ g.cfg.ovr = true) → exec (.groupForm n true) s =
           .next (((if g.cfg.isData then s else s.zeroParity n).modGroup n fun h => { cfg := h.cfg, state := .run, weak := g.cfg.badPlacement }).groupEvent n))) ∧
       ((∃ i, i < g.cfg.members ∧ s.longLost n i = true) → exec (.groupFormTimeout n) s = .next (F 2))) ∧
     (∀ d : Delta, g.cfg.en = true → g.cfg.isData = false → (g.state = .run ∨ g.state = .degraded) → (∀ x ∈ g.staged, x.src ≠ d.src ∨ x.round ≠ d.round ∨ x.goff ≠ d.goff) → g.bufferRoom 1 = true →
       exec (.deltaReceive n d) s = .next ((s.modGroup n fun g => { g with staged := g.staged ++
         [{ round := d.round, src := d.src, goff := d.goff, data := scaleBytes (gfCoef (g.cfg.myidx.toNat - g.cfg.k.toNat) d.src) d.data }] }).post (g.cfg.dev d.src)
           (.deltaAck (g.cfg.dev d.src) g.cfg.gid { src := g.cfg.myidx.toNat, round := d.round, goff := d.goff }))) ∧
     (∀ d : Delta, (g.cfg.en = false ∨ g.cfg.isData = true) → exec (.deltaReceive n d) s = .next s) ∧
     (∀ a : DeltaAck, g.phase = 1 → a.round = g.roundLast + 1 →
       (let u := s.modGroup n fun g => { g with unacked := g.unacked.erase (a.src, a.goff) }
        (g.unacked.erase (a.src, a.goff) = [] → exec (.deltaAckReceive n a) s = .next (u.becomePrepared n)) ∧
        (g.unacked.erase (a.src, a.goff) ≠ [] → exec (.deltaAckReceive n a) s = .next u))) ∧
     (∀ a : DeltaAck, (g.phase ≠ 1 ∨ a.round ≠ g.roundLast + 1) → exec (.deltaAckReceive n a) s = .next s) ∧
     (∀ src round regs, (g.rb = false ∨ g.dead.getLsbD src = false) → exec (.preparedReceive n src round regs) s = .next (s.preparedAt n src round regs)) ∧
     (∀ src (d : Decision), g.cfg.en = false → exec (.decisionReceive n ⟨src, d⟩) s = .next s) ∧
     (∀ src (d : Decision), g.cfg.en = true →
       (src ∈ g.asking → exec (.decisionReceive n ⟨src, d⟩) s = .next (s.askedOne n src (some d))) ∧
       (src ∉ g.asking → g.state = .rebuild → exec (.decisionReceive n ⟨src, d⟩) s = .next (s.takeDecisionRebuild n d)) ∧
       (src ∉ g.asking → (g.state = .run ∨ g.state = .degraded ∨ g.state = .failed) → g.roundLast < d.round →
         (((s.storeDecision n d).group n).rb = false → exec (.decisionReceive n ⟨src, d⟩) s = .next (s.storeDecision n d)))) ∧
     (∀ d : Decision, d.commit = true → d.round = g.roundLast + 1 → g.decisions = [] → g.cfg.isData = true →
       ((s.storeDecision n d).group n).roundLast = d.round) ∧
     (∀ i left, (left = true ∨ s.longLost n i = true) → exec (.memberDeadTimeout n i left) s = .next (s.declareMember n i)) ∧
     (∀ i, s.longLost n i = false → exec (.memberDeadTimeout n i false) s = .next s) ∧
     (∀ i, g.state ≠ .off → (g.state ≠ .degraded ∨ g.rb = true ∨ g.dead.getLsbD i = false) → exec (.rebuildStart ⟨n, i⟩) s = .next s) ∧
     (∀ i, g.state = .degraded → g.rb = false → g.dead.getLsbD i = true →
       exec (.rebuildStart ⟨n, i⟩) s = .next (((s.modGroup n fun g => { g with rb := true, rbidx := BitVec.ofNat 4 i }).groupEvent n).sendShares n i)) ∧
     (∀ i, g.state = .off → g.cfg.repl = true → g.cfg.en = false → s.joinRefused n { g.cfg with en := true } = false →
       exec (.rebuildStart ⟨n, i⟩) s = .next (s.join n { g.cfg with en := true })) ∧
     (∀ x : Share, g.state ≠ .rebuild → exec (.rebuildShareReceive n x) s = .next s) ∧
     (∀ x : Share, g.state = .rebuild → g.rbNext ≤ x.off → x.lost = false →
       exec (.rebuildShareReceive n x) s = .next ((s.modGroup n fun g => { g with shares := x :: g.shares.filter fun y => !(y.src == x.src && y.off == x.off) }).rebuildRun n)))

/-- R19, R22, R60: a step runs the instruction that the decoder reads. An empty agenda makes a step a cycle of the current core. When the core's next
bundle enters at position `p`, its header legal, no acquire, gate, stall, group or pre-emption holding it, and its lowest syllable word decodes to `i`
in a slot that admits it, the step is `exec i` at that state, the slot and the word being noted; then the syllables that are left run, the bundle ends
when none is left, and the cycle ends, with a lease that has run out. A trap, a halt or a hold that `i` brings ends the cycle there. An event of the
agenda that is well formed is executed as the instruction it is. R57, R58, R60: a syllable word that does not decode in its slot raises ILLEGAL there,
and no slot from it on executes. Where the spec leaves a point of this open the clause states the model's choice, not a rule: assumption log 6, 17,
97. -/
def Obligations.StepRunsDecoded : Prop :=
  ((∀ (k w : Nat) (y : Syl) (i : Instr), w < 2 ^ 32 → decodeTableWord 32 w = some i → slotAdmits (fld w 25 7) k = true → State.slotSyl (k, w) = some y → y.toInstr = i) ∧
  (∀ (s : State) (i : Instr) (l : List Move), s.agenda = .event i :: l → i.wf = true → encode i = none → step s = match exec i { s with agenda := l } with
    | .next t => .next t.settleLease
    | .fault e => .fault e
    | .refused e => .refused e) ∧
  (∀ (s u v t c e q : State) (d : State) (p k w : Nat) (rest : List (Nat × Nat)) (g : Segment) (b : Stored) (ib : Bool) (y : Syl) (r : Run),
    s.agenda = [] → s.beginCycle.core.task.isSome = true → s.beginCycle.core.front.halted = false →
    u = s.beginCycle.boundaryKill.modFront (fun f => { f with hold := .none }) → s.beginCycle.boundaryKill.core.task.isSome = true →
    u.core.front.leaving = none → u.core.front.run = none → u.clusterHeld = false → u.core.front.bubbles = 0 → u.core.front.emptyLeft = 0 →
    u.takePreempt u.coreId = (v, false) → v.due = (t, .at p) → t.core.front.cur = some g → g.bundles[p]? = some b → t.core.front.reenter = none → c.core.front.reenter = none →
    ib = (bitAt b.hdr 18 || t.core.front.idemNext) → t.headerIllegal b.hdr b.words ib = false →
    d = (if ib && !t.core.front.marked then ((t.markRegion (g.frame + b.off)).modTask fun b => { b with idem := t.core.front.idemNext }).modFront
      fun f => { f with marked := true } else t) →
    d.entryAcquire = (c, .done) → e = c.fuseEntry true → e.fuseGo = true → b.words = (k, w) :: rest → r = c.runOf (g.frame + b.off) p b ib → r.bad ≠ some k →
    (∀ e ∈ b.words, ∀ z, State.slotSyl (e.1, e.2) = some z →
      (c.modFront fun f => { f with run := some r }).gateClosed z = false ∧ (c.modFront fun f => { f with run := some r }).readMiss z false = none ∧
      (c.modFront fun f => { f with run := some r }).stallOf e z = none) →
    State.slotSyl (k, w) = some y →
    q = ((e.notePreempt.modFront fun f => { f with reenter := none, idemNext := false, marked := false }).modFront fun f =>
      { f with run := some { r with slot := k, word := w } }) →
    q.readMiss y true = none →
    match exec y.toInstr q with
    | .next n =>
      if n.core.front.run.isNone ∨ (n.core.front.halted = false ∧ n.core.front.hold ≠ HoldWhy.none) then step s = .next n.endCycle.settleLease
      else if n.core.front.halted then step s = .next n.dropHead.endCycle.settleLease
      else
        match State.runSlots rest.length n.dropHead.noteEnded with
        | .next n' =>
          step s = .next (match n'.core.front.run with
            | none => n'
            | some r' => if r'.todo.isEmpty && !n'.core.front.halted && n'.core.front.hold == HoldWhy.none then n'.endBundle else n').endCycle.settleLease
        | .fault e => step s = .fault e
        | .refused e => step s = .refused e
    | .fault e => step s = .fault e
    | .refused e => step s = .refused e)) ∧
  (∀ (s : State) (r : Run) (n k w : Nat) (rest : List (Nat × Nat)), s.core.front.run = some r → r.todo = (k, w) :: rest →
    (r.bad = some k ∨ slotAdmits (fld w 25 7) k = false ∨ (∃ e, decodeSyl w = .error e)) →
    State.runSlots (n + 1) s = .next (s.modRun fun r => { r with slot := k, word := w }).illegal ∧
    (fld w 25 7 = 0 ∨ fld w 25 7 = 0x7F → decodeSyl w = .error .guardOpcode))

/-- The words that the spec's examples give (R43, R72, R163 and the worked programs of 08_core_programs.md) decode to the instructions that the spec says
they are. -/
def Obligations.DecodeWords : Prop :=
  decodeTableWord 32 0x02188280 = some (.add 3 4 5 0) ∧ decodeTableWord 32 0x12186001 = some (.addi 3 3 1) ∧
  decodeTableWord 32 0x4428C380 = some (.jtab 5 6 7 0) ∧ decodeTableWord 32 0x47084001 = some (.loopi 1 2 1) ∧
  decodeTableWord 32 0x4E000010 = some (.suspExit 0) ∧ decodeTableWord 32 0x4A014008 = some (.rfenceA 10 0) ∧
  decodeTableWord 32 0x64118100 = some (.ldv 1 6 16 0) ∧ decodeTableWord 32 0x6665C002 = some (.stv 6 23 0 2) ∧
  decodeTableWord 32 0x6A28DA00 = some (.stg 5 6 .d 0) ∧ decodeTableWord 32 0x7A1A8A80 = some (.hset 3 20 21 0) ∧
  decodeTableWord 32 0x8218E020 = some (.rel 3 7 .die 0) ∧ decodeTableWord 32 0x80216058 = some (.acq 4 11 .system 0) ∧
  decodeTableWord 32 0x94014013 = some (.cpyHs 0 10 0 false .e2 3) ∧ decodeTableWord 32 0x9C018000 = some (.tseq 12) ∧
  decodeTableWord 32 0xA82190A2 = some (.vfma 2 3 4 5 false 2) ∧ decodeTableWord 32 0xB6620020 = some (.vcvt 6 4 .rne .f32 .f16 0) ∧
  decodeTableWord 32 0xC4100000 = some (.vrow 1 0) ∧ decodeTableWord 32 0xD408A080 = some (.mloadB 1 5 false .b16 0) ∧
  decodeTableWord 32 0xD6002000 = some (.mma 0 1 false false .b16) ∧ decodeTableWord 32 0xE2520810 = some (.qcvtDb4 5 4 2 .rne 0) ∧
  decodeTableWord 32 0xE8110000 = some (.send 2 4 0 0) ∧ decodeTableWord 32 0xEC090400 = some (.raddF32 1 4 0 0) ∧
  decodeTableWord 32 0xF420E000 = some (.fuse 4 7) ∧ decodeTableWord 32 0xF620E000 = some (.wdog 4 7) ∧
  decodeTableWord 32 0xFA110200 = some (.rstat 8 4) ∧ decodeTableWord 32 0xFC098500 = some (.netwait 12 10)

/-- R54 to R59: the word of a well-formed syllable decodes to that syllable, with every operand at every value that the encoding admits. -/
def Obligations.DecodeEncodeRoundTrip : Prop :=
  ∀ (i : Instr) (w : Nat), i.wf = true → encode i = some w → w < 2 ^ 32 ∧ decodeTableWord 32 w = some i

/-- R55, R67: a syllable that its scalar predicate suppresses has no effect and raises no fault. -/
def Obligations.SuppressedHasNoEffect : Prop := ∀ (i : Instr) (s : State), s.sqOn (instrSq i) = false → exec i s = .next s

/-- R19, R20, R68, R137: a result in flight leaves its register as it stands until its latency has elapsed in advancing cycles, and then writes it; a
vector write keeps the lanes that its mask does not enable. R22, R23, R67: scheduling a result changes no register, flag, special register,
accumulator, scratchpad byte or byte of memory; a write to x0 or p0 is discarded, and x0 reads 0 and p0 all ones. Where the spec leaves a point of
this open the clause states the model's choice, not a rule: assumption log 7. -/
def Obligations.ResultsInFlight : Prop :=
  (∀ (s : State) (n lat : Nat) (l r : List Flight), 1 ≤ lat →
    (∀ val : Word, n < 64 → s.core.flight = l ++ ⟨lat, .x n val⟩ :: r → (∀ f ∈ l ++ r, ∀ w, f.w ≠ .x n w) →
      (∀ k, k < lat → (State.tickFlight^[k] s).core.regs.x[n]? = s.core.regs.x[n]?) ∧ (State.tickFlight^[lat] s).core.regs.x[n]? = some val) ∧
    (∀ val : Pred, n < 16 → s.core.flight = l ++ ⟨lat, .p n val⟩ :: r → (∀ f ∈ l ++ r, ∀ w, f.w ≠ .p n w) →
      (∀ k, k < lat → (State.tickFlight^[k] s).core.regs.p[n]? = s.core.regs.p[n]?) ∧ (State.tickFlight^[lat] s).core.regs.p[n]? = some val) ∧
    (∀ (m : Pred) (val old : VReg), n < 32 → s.core.regs.v[n]? = some old → s.core.flight = l ++ ⟨lat, .v n m val⟩ :: r → (∀ f ∈ l ++ r, ∀ m w, f.w ≠ .v n m w) →
      (∀ k, k < lat → (State.tickFlight^[k] s).core.regs.v[n]? = some old) ∧
      ∃ new, (State.tickFlight^[lat] s).core.regs.v[n]? = some new ∧ ∀ i, i < 128 → lane new i = if m.getLsbD i then lane val i else lane old i)) ∧
  (∀ (s : State) (d : BitVec 6) (p : BitVec 4) (v : BitVec 5) (k : BitVec 4) (m : Pred) (w : Word) (u : Pred) (y : VReg) (z : ScReg) (lat : Nat),
    OnlyResults s (s.setX d w lat) ∧ OnlyResults s (s.setP p u lat) ∧ OnlyResults s (s.setV v m y lat) ∧ OnlyResults s (s.setSc k z lat) ∧
    s.setX 0 w lat = s ∧ s.setP 0 u lat = s ∧ s.x 0 = 0 ∧ s.p 0 = BitVec.allOnes 128 ∧
    (d ≠ 0 → NewResults s (s.setX d w lat) fun f => f = ⟨lat, .x d.toNat w⟩) ∧ (p ≠ 0 → NewResults s (s.setP p u lat) fun f => f = ⟨lat, .p p.toNat u⟩) ∧
    (∀ a, (s.setX d w lat).homeByte a = s.homeByte a) ∧
    (∀ e, (s.setX d w lat).x e = s.x e))

/-- R342: a step leaves no owner whose lease has run out: after every step there is no owner, or the owner's lease has ticks to go; and a step that only
lets time pass takes ID to 0, EPOCH one up and SUCC to 0 when it ends the lease. Where the spec leaves a point of this open the clause states the
model's choice, not a rule: assumption log 62, 96. -/
def Obligations.LeaseEndsOnTime : Prop :=
  (∀ s t : State, step s = .next t → t.root.owner.id = 0 ∨ t.time < t.root.owner.beat + t.root.owner.lease.toNat) ∧
  (∀ s t : State, s.root.owner.id ≠ 0 → s.root.owner.beat + s.root.owner.lease.toNat ≤ s.time → s.settleLease = t →
    t.root.owner.id = 0 ∧ t.root.owner.epoch = s.root.owner.epoch + 1 ∧ t.root.owner.succ = 0 ∧ t.root.journal.jseq = s.root.journal.jseq + 1 ∧ t.mem = s.mem ∧ t.core = s.core)

/-- R7, R35, R36, R263, R299, R306, R315, R324, R327, R335, R339, R341, R344, R352, R357, R389, R390: what the machine holds right after reset, where the
spec gives the value. Where the spec leaves a point of this open the clause states the model's choice, not a rule: assumption log 2. -/
def Obligations.ResetValues : Prop :=
  let s := State.reset
  s.root.stage.stage = 0 ∧ s.root.owner.id = 0 ∧ s.root.owner.epoch = 0 ∧ s.core.task = none ∧ s.others = [] ∧
  s.core.regs.z.stat = {} ∧ s.core.regs.z.cause = {} ∧ s.root.journal.entries = [] ∧
  (∀ m, s.regRead m 0x028 = some 1000000 ∧ s.regRead m 0x048 = some 1 ∧ s.regRead m 0x058 = some 1 ∧ s.regRead m 0x3000 = some (BitVec.ofNat 64 (16 * 2 ^ 36)) ∧
    s.regRead m 0x3018 = some 0xFFFF ∧ s.regRead m 0x3028 = some 0x10100 ∧
    (∀ d, d < 4 → s.regRead m (0x2000 + 0x400 * d) = some 10000 ∧ s.regRead m (0x2000 + 0x400 * d + 0x8) = some 0x6004 ∧
      s.regRead m (0x2000 + 0x400 * d + 0x10) = some 400 ∧ s.regRead m (0x2000 + 0x400 * d + 0x20) = some 0) ∧
    (∀ c, c < 16 → s.regRead m (0x4000 + 0x100 * c) = some 0x2300000800) ∧
    s.regRead m 0x5000 = some 0x44000C80000 ∧ s.regRead m 0x5008 = some 200000 ∧ s.regRead m 0x5010 = some (BitVec.allOnes 64) ∧ s.regRead m 0x5018 = some (BitVec.allOnes 64) ∧
    (∀ k, k < 8 → s.regRead m (0x5100 + 0x40 * k) = some 1 ∧ s.regRead m (0x7100 + 8 * k) = some 2) ∧ s.regRead m 0x7000 = some 0x7000013880302)
end

