-- ==== Sys2Proof/Laws/Bits.lean ====
section
/-! SUPPORT. Packing and unpacking of elements, lanes and bytes. -/

namespace Sys2Proof.Machine

theorem packElems_lt (w n : Nat) (f : Nat → Nat) : packElems w n f < 2 ^ (w * n) := by
  induction n with
  | zero => simp [packElems]
  | succ n ih =>
    have h1 : f n % 2 ^ w < 2 ^ w := Nat.mod_lt _ (Nat.two_pow_pos w)
    have h2 : 2 ^ (w * (n + 1)) = 2 ^ w * 2 ^ (w * n) := by rw [Nat.mul_succ, Nat.pow_add, Nat.mul_comm]
    have h3 : (f n % 2 ^ w + 1) * 2 ^ (w * n) ≤ 2 ^ w * 2 ^ (w * n) := Nat.mul_le_mul_right _ h1
    rw [Nat.add_mul, Nat.one_mul] at h3
    show packElems w n f + f n % 2 ^ w * 2 ^ (w * n) < _
    omega

/-- Element `e` of a packed value is the low `w` bits of what was packed there. -/
theorem elemOf_packElems (w n : Nat) (f : Nat → Nat) {e : Nat} (h : e < n) : elemOf w (packElems w n f) e = f e % 2 ^ w := by
  induction n with
  | zero => omega
  | succ n ih =>
    have hp := Nat.two_pow_pos (w * n)
    show elemOf w (packElems w n f + f n % 2 ^ w * 2 ^ (w * n)) e = _
    rcases Nat.lt_succ_iff_lt_or_eq.mp h with h' | rfl
    · rw [← ih h']
      unfold elemOf
      obtain ⟨k, rfl⟩ : ∃ k, n = e + 1 + k := ⟨n - (e + 1), by omega⟩
      have e1 : 2 ^ (w * (e + 1 + k)) = 2 ^ (w * k) * 2 ^ w * 2 ^ (w * e) := by
        rw [← Nat.pow_add, ← Nat.pow_add]; congr 1; ring
      rw [e1, show ∀ a b : Nat, a * (b * 2 ^ w * 2 ^ (w * e)) = (a * b) * 2 ^ w * 2 ^ (w * e) by intros; ring,
        Nat.add_mul_div_right _ _ (Nat.two_pow_pos _), Nat.add_mul_mod_self_right]
    · unfold elemOf
      rw [Nat.add_mul_div_right _ _ hp, Nat.div_eq_of_lt (packElems_lt w e f), Nat.zero_add, Nat.mod_mod]

/-- Element `e` of a vector register built from elements of width `w`. -/
theorem elemOf_ofElems (w : Nat) (f : Nat → Nat) {e : Nat} (hw : 4096 % w = 0) (h : e < 4096 / w) : elemOf w (ofElems w f).toNat e = f e % 2 ^ w := by
  have hm : w * (4096 / w) = 4096 := by have := Nat.div_add_mod 4096 w; omega
  have hlt := packElems_lt w (4096 / w) f
  rw [hm] at hlt
  rw [ofElems, BitVec.toNat_ofNat, Nat.mod_eq_of_lt hlt, elemOf_packElems w _ f h]

/-- Lane `i` of a vector register built from lanes. -/
@[simp] theorem lane_ofLanes (f : Nat → BitVec 32) {i : Nat} (h : i < 128) : lane (ofLanes f) i = f i := by
  have hlt := packElems_lt 32 128 (fun i => (f i).toNat)
  have he := elemOf_packElems 32 128 (fun i => (f i).toNat) h
  apply BitVec.eq_of_toNat_eq
  rw [lane, ofLanes, BitVec.toNat_ofNat, BitVec.toNat_ofNat, Nat.mod_eq_of_lt (a := packElems _ _ _) (by simpa using hlt)]
  exact he.trans (Nat.mod_eq_of_lt (f i).isLt)

/-- R137: an enabled lane is the new one, a disabled lane keeps its value. -/
theorem lane_mergeLanes (m : Pred) (old new : VReg) {i : Nat} (h : i < 128) :
    lane (mergeLanes m old new) i = if m.getLsbD i then lane new i else lane old i := by
  rw [mergeLanes, lane_ofLanes _ h]

theorem leBytes_length (n v : Nat) : (leBytes n v).length = n := by
  induction n generalizing v with
  | zero => rfl
  | succ n ih => simp [leBytes, ih]

/-- Little-endian bytes read back as the value's low bits. -/
theorem leNat_leBytes (n v : Nat) : leNat (leBytes n v) = v % 256 ^ n := by
  induction n generalizing v with
  | zero => simp [leBytes, leNat, Nat.mod_one]
  | succ n ih =>
    have h : v % 256 ^ (n + 1) = v % 256 + 256 * (v / 256 % 256 ^ n) := by
      rw [Nat.pow_succ, Nat.mul_comm (256 ^ n) 256, Nat.mod_mul]
    simp only [leBytes, leNat, ih, BitVec.toNat_ofNat, h]

end Sys2Proof.Machine
end

