-- ==== Sys2Proof/Laws/State.lean ====
section
/-! SUPPORT. One lemma for each field of the state and each update of a part of it, true by definition, and what focusing a core leaves alone. -/

namespace Sys2Proof.Machine

namespace State

variable (s : State)

@[simp] theorem modCore_core (f : Core → Core) : (s.modCore f).core = f s.core := rfl
@[simp] theorem modCore_coreId (f : Core → Core) : (s.modCore f).coreId = s.coreId := rfl
@[simp] theorem modCore_others (f : Core → Core) : (s.modCore f).others = s.others := rfl
@[simp] theorem modCore_clusters (f : Core → Core) : (s.modCore f).clusters = s.clusters := rfl
@[simp] theorem modCore_dies (f : Core → Core) : (s.modCore f).dies = s.dies := rfl
@[simp] theorem modCore_mem (f : Core → Core) : (s.modCore f).mem = s.mem := rfl
@[simp] theorem modCore_sched (f : Core → Core) : (s.modCore f).sched = s.sched := rfl
@[simp] theorem modCore_root (f : Core → Core) : (s.modCore f).root = s.root := rfl
@[simp] theorem modCore_time (f : Core → Core) : (s.modCore f).time = s.time := rfl
@[simp] theorem modCore_spire (f : Core → Core) : (s.modCore f).spire = s.spire := rfl
@[simp] theorem modCore_fence (f : Core → Core) : (s.modCore f).fence = s.fence := rfl
@[simp] theorem modCore_rsync (f : Core → Core) : (s.modCore f).rsync = s.rsync := rfl
@[simp] theorem modCore_ctrls (f : Core → Core) : (s.modCore f).ctrls = s.ctrls := rfl
@[simp] theorem modCore_trav (f : Core → Core) : (s.modCore f).trav = s.trav := rfl
@[simp] theorem modCore_fabric (f : Core → Core) : (s.modCore f).fabric = s.fabric := rfl
@[simp] theorem modCore_net (f : Core → Core) : (s.modCore f).net = s.net := rfl
@[simp] theorem modCore_groups (f : Core → Core) : (s.modCore f).groups = s.groups := rfl
@[simp] theorem modCore_agenda (f : Core → Core) : (s.modCore f).agenda = s.agenda := rfl
@[simp] theorem modCore_out (f : Core → Core) : (s.modCore f).out = s.out := rfl
@[simp] theorem modCore_free (f : Core → Core) : (s.modCore f).free = s.free := rfl
@[simp] theorem modCore_ticket (f : Core → Core) : (s.modCore f).ticket = s.ticket := rfl
@[simp] theorem modCore_archive (f : Core → Core) : (s.modCore f).archive = s.archive := rfl

@[simp] theorem modMem_core (f : Mem → Mem) : (s.modMem f).core = s.core := rfl
@[simp] theorem modMem_coreId (f : Mem → Mem) : (s.modMem f).coreId = s.coreId := rfl
@[simp] theorem modMem_others (f : Mem → Mem) : (s.modMem f).others = s.others := rfl
@[simp] theorem modMem_clusters (f : Mem → Mem) : (s.modMem f).clusters = s.clusters := rfl
@[simp] theorem modMem_dies (f : Mem → Mem) : (s.modMem f).dies = s.dies := rfl
@[simp] theorem modMem_mem (f : Mem → Mem) : (s.modMem f).mem = f s.mem := rfl
@[simp] theorem modMem_sched (f : Mem → Mem) : (s.modMem f).sched = s.sched := rfl
@[simp] theorem modMem_root (f : Mem → Mem) : (s.modMem f).root = s.root := rfl
@[simp] theorem modMem_time (f : Mem → Mem) : (s.modMem f).time = s.time := rfl
@[simp] theorem modMem_spire (f : Mem → Mem) : (s.modMem f).spire = s.spire := rfl
@[simp] theorem modMem_fence (f : Mem → Mem) : (s.modMem f).fence = s.fence := rfl
@[simp] theorem modMem_rsync (f : Mem → Mem) : (s.modMem f).rsync = s.rsync := rfl
@[simp] theorem modMem_ctrls (f : Mem → Mem) : (s.modMem f).ctrls = s.ctrls := rfl
@[simp] theorem modMem_trav (f : Mem → Mem) : (s.modMem f).trav = s.trav := rfl
@[simp] theorem modMem_fabric (f : Mem → Mem) : (s.modMem f).fabric = s.fabric := rfl
@[simp] theorem modMem_net (f : Mem → Mem) : (s.modMem f).net = s.net := rfl
@[simp] theorem modMem_groups (f : Mem → Mem) : (s.modMem f).groups = s.groups := rfl
@[simp] theorem modMem_agenda (f : Mem → Mem) : (s.modMem f).agenda = s.agenda := rfl
@[simp] theorem modMem_out (f : Mem → Mem) : (s.modMem f).out = s.out := rfl
@[simp] theorem modMem_free (f : Mem → Mem) : (s.modMem f).free = s.free := rfl
@[simp] theorem modMem_ticket (f : Mem → Mem) : (s.modMem f).ticket = s.ticket := rfl
@[simp] theorem modMem_archive (f : Mem → Mem) : (s.modMem f).archive = s.archive := rfl

@[simp] theorem modSched_core (f : Sched → Sched) : (s.modSched f).core = s.core := rfl
@[simp] theorem modSched_coreId (f : Sched → Sched) : (s.modSched f).coreId = s.coreId := rfl
@[simp] theorem modSched_others (f : Sched → Sched) : (s.modSched f).others = s.others := rfl
@[simp] theorem modSched_clusters (f : Sched → Sched) : (s.modSched f).clusters = s.clusters := rfl
@[simp] theorem modSched_dies (f : Sched → Sched) : (s.modSched f).dies = s.dies := rfl
@[simp] theorem modSched_mem (f : Sched → Sched) : (s.modSched f).mem = s.mem := rfl
@[simp] theorem modSched_sched (f : Sched → Sched) : (s.modSched f).sched = f s.sched := rfl
@[simp] theorem modSched_root (f : Sched → Sched) : (s.modSched f).root = s.root := rfl
@[simp] theorem modSched_time (f : Sched → Sched) : (s.modSched f).time = s.time := rfl
@[simp] theorem modSched_spire (f : Sched → Sched) : (s.modSched f).spire = s.spire := rfl
@[simp] theorem modSched_fence (f : Sched → Sched) : (s.modSched f).fence = s.fence := rfl
@[simp] theorem modSched_rsync (f : Sched → Sched) : (s.modSched f).rsync = s.rsync := rfl
@[simp] theorem modSched_ctrls (f : Sched → Sched) : (s.modSched f).ctrls = s.ctrls := rfl
@[simp] theorem modSched_trav (f : Sched → Sched) : (s.modSched f).trav = s.trav := rfl
@[simp] theorem modSched_fabric (f : Sched → Sched) : (s.modSched f).fabric = s.fabric := rfl
@[simp] theorem modSched_net (f : Sched → Sched) : (s.modSched f).net = s.net := rfl
@[simp] theorem modSched_groups (f : Sched → Sched) : (s.modSched f).groups = s.groups := rfl
@[simp] theorem modSched_agenda (f : Sched → Sched) : (s.modSched f).agenda = s.agenda := rfl
@[simp] theorem modSched_out (f : Sched → Sched) : (s.modSched f).out = s.out := rfl
@[simp] theorem modSched_free (f : Sched → Sched) : (s.modSched f).free = s.free := rfl
@[simp] theorem modSched_ticket (f : Sched → Sched) : (s.modSched f).ticket = s.ticket := rfl
@[simp] theorem modSched_archive (f : Sched → Sched) : (s.modSched f).archive = s.archive := rfl

@[simp] theorem modRoot_core (f : Root → Root) : (s.modRoot f).core = s.core := rfl
@[simp] theorem modRoot_coreId (f : Root → Root) : (s.modRoot f).coreId = s.coreId := rfl
@[simp] theorem modRoot_others (f : Root → Root) : (s.modRoot f).others = s.others := rfl
@[simp] theorem modRoot_clusters (f : Root → Root) : (s.modRoot f).clusters = s.clusters := rfl
@[simp] theorem modRoot_dies (f : Root → Root) : (s.modRoot f).dies = s.dies := rfl
@[simp] theorem modRoot_mem (f : Root → Root) : (s.modRoot f).mem = s.mem := rfl
@[simp] theorem modRoot_sched (f : Root → Root) : (s.modRoot f).sched = s.sched := rfl
@[simp] theorem modRoot_root (f : Root → Root) : (s.modRoot f).root = f s.root := rfl
@[simp] theorem modRoot_time (f : Root → Root) : (s.modRoot f).time = s.time := rfl
@[simp] theorem modRoot_spire (f : Root → Root) : (s.modRoot f).spire = s.spire := rfl
@[simp] theorem modRoot_fence (f : Root → Root) : (s.modRoot f).fence = s.fence := rfl
@[simp] theorem modRoot_rsync (f : Root → Root) : (s.modRoot f).rsync = s.rsync := rfl
@[simp] theorem modRoot_ctrls (f : Root → Root) : (s.modRoot f).ctrls = s.ctrls := rfl
@[simp] theorem modRoot_trav (f : Root → Root) : (s.modRoot f).trav = s.trav := rfl
@[simp] theorem modRoot_fabric (f : Root → Root) : (s.modRoot f).fabric = s.fabric := rfl
@[simp] theorem modRoot_net (f : Root → Root) : (s.modRoot f).net = s.net := rfl
@[simp] theorem modRoot_groups (f : Root → Root) : (s.modRoot f).groups = s.groups := rfl
@[simp] theorem modRoot_agenda (f : Root → Root) : (s.modRoot f).agenda = s.agenda := rfl
@[simp] theorem modRoot_out (f : Root → Root) : (s.modRoot f).out = s.out := rfl
@[simp] theorem modRoot_free (f : Root → Root) : (s.modRoot f).free = s.free := rfl
@[simp] theorem modRoot_ticket (f : Root → Root) : (s.modRoot f).ticket = s.ticket := rfl
@[simp] theorem modRoot_archive (f : Root → Root) : (s.modRoot f).archive = s.archive := rfl

@[simp] theorem modTrav_core (f : Trav → Trav) : (s.modTrav f).core = s.core := rfl
@[simp] theorem modTrav_coreId (f : Trav → Trav) : (s.modTrav f).coreId = s.coreId := rfl
@[simp] theorem modTrav_others (f : Trav → Trav) : (s.modTrav f).others = s.others := rfl
@[simp] theorem modTrav_clusters (f : Trav → Trav) : (s.modTrav f).clusters = s.clusters := rfl
@[simp] theorem modTrav_dies (f : Trav → Trav) : (s.modTrav f).dies = s.dies := rfl
@[simp] theorem modTrav_mem (f : Trav → Trav) : (s.modTrav f).mem = s.mem := rfl
@[simp] theorem modTrav_sched (f : Trav → Trav) : (s.modTrav f).sched = s.sched := rfl
@[simp] theorem modTrav_root (f : Trav → Trav) : (s.modTrav f).root = s.root := rfl
@[simp] theorem modTrav_time (f : Trav → Trav) : (s.modTrav f).time = s.time := rfl
@[simp] theorem modTrav_spire (f : Trav → Trav) : (s.modTrav f).spire = s.spire := rfl
@[simp] theorem modTrav_fence (f : Trav → Trav) : (s.modTrav f).fence = s.fence := rfl
@[simp] theorem modTrav_rsync (f : Trav → Trav) : (s.modTrav f).rsync = s.rsync := rfl
@[simp] theorem modTrav_ctrls (f : Trav → Trav) : (s.modTrav f).ctrls = s.ctrls := rfl
@[simp] theorem modTrav_trav (f : Trav → Trav) : (s.modTrav f).trav = f s.trav := rfl
@[simp] theorem modTrav_fabric (f : Trav → Trav) : (s.modTrav f).fabric = s.fabric := rfl
@[simp] theorem modTrav_net (f : Trav → Trav) : (s.modTrav f).net = s.net := rfl
@[simp] theorem modTrav_groups (f : Trav → Trav) : (s.modTrav f).groups = s.groups := rfl
@[simp] theorem modTrav_agenda (f : Trav → Trav) : (s.modTrav f).agenda = s.agenda := rfl
@[simp] theorem modTrav_out (f : Trav → Trav) : (s.modTrav f).out = s.out := rfl
@[simp] theorem modTrav_free (f : Trav → Trav) : (s.modTrav f).free = s.free := rfl
@[simp] theorem modTrav_ticket (f : Trav → Trav) : (s.modTrav f).ticket = s.ticket := rfl
@[simp] theorem modTrav_archive (f : Trav → Trav) : (s.modTrav f).archive = s.archive := rfl

@[simp] theorem modFabric_core (f : Fabric → Fabric) : (s.modFabric f).core = s.core := rfl
@[simp] theorem modFabric_coreId (f : Fabric → Fabric) : (s.modFabric f).coreId = s.coreId := rfl
@[simp] theorem modFabric_others (f : Fabric → Fabric) : (s.modFabric f).others = s.others := rfl
@[simp] theorem modFabric_clusters (f : Fabric → Fabric) : (s.modFabric f).clusters = s.clusters := rfl
@[simp] theorem modFabric_dies (f : Fabric → Fabric) : (s.modFabric f).dies = s.dies := rfl
@[simp] theorem modFabric_mem (f : Fabric → Fabric) : (s.modFabric f).mem = s.mem := rfl
@[simp] theorem modFabric_sched (f : Fabric → Fabric) : (s.modFabric f).sched = s.sched := rfl
@[simp] theorem modFabric_root (f : Fabric → Fabric) : (s.modFabric f).root = s.root := rfl
@[simp] theorem modFabric_time (f : Fabric → Fabric) : (s.modFabric f).time = s.time := rfl
@[simp] theorem modFabric_spire (f : Fabric → Fabric) : (s.modFabric f).spire = s.spire := rfl
@[simp] theorem modFabric_fence (f : Fabric → Fabric) : (s.modFabric f).fence = s.fence := rfl
@[simp] theorem modFabric_rsync (f : Fabric → Fabric) : (s.modFabric f).rsync = s.rsync := rfl
@[simp] theorem modFabric_ctrls (f : Fabric → Fabric) : (s.modFabric f).ctrls = s.ctrls := rfl
@[simp] theorem modFabric_trav (f : Fabric → Fabric) : (s.modFabric f).trav = s.trav := rfl
@[simp] theorem modFabric_fabric (f : Fabric → Fabric) : (s.modFabric f).fabric = f s.fabric := rfl
@[simp] theorem modFabric_net (f : Fabric → Fabric) : (s.modFabric f).net = s.net := rfl
@[simp] theorem modFabric_groups (f : Fabric → Fabric) : (s.modFabric f).groups = s.groups := rfl
@[simp] theorem modFabric_agenda (f : Fabric → Fabric) : (s.modFabric f).agenda = s.agenda := rfl
@[simp] theorem modFabric_out (f : Fabric → Fabric) : (s.modFabric f).out = s.out := rfl
@[simp] theorem modFabric_free (f : Fabric → Fabric) : (s.modFabric f).free = s.free := rfl
@[simp] theorem modFabric_ticket (f : Fabric → Fabric) : (s.modFabric f).ticket = s.ticket := rfl
@[simp] theorem modFabric_archive (f : Fabric → Fabric) : (s.modFabric f).archive = s.archive := rfl

@[simp] theorem modNet_core (f : Net → Net) : (s.modNet f).core = s.core := rfl
@[simp] theorem modNet_coreId (f : Net → Net) : (s.modNet f).coreId = s.coreId := rfl
@[simp] theorem modNet_others (f : Net → Net) : (s.modNet f).others = s.others := rfl
@[simp] theorem modNet_clusters (f : Net → Net) : (s.modNet f).clusters = s.clusters := rfl
@[simp] theorem modNet_dies (f : Net → Net) : (s.modNet f).dies = s.dies := rfl
@[simp] theorem modNet_mem (f : Net → Net) : (s.modNet f).mem = s.mem := rfl
@[simp] theorem modNet_sched (f : Net → Net) : (s.modNet f).sched = s.sched := rfl
@[simp] theorem modNet_root (f : Net → Net) : (s.modNet f).root = s.root := rfl
@[simp] theorem modNet_time (f : Net → Net) : (s.modNet f).time = s.time := rfl
@[simp] theorem modNet_spire (f : Net → Net) : (s.modNet f).spire = s.spire := rfl
@[simp] theorem modNet_fence (f : Net → Net) : (s.modNet f).fence = s.fence := rfl
@[simp] theorem modNet_rsync (f : Net → Net) : (s.modNet f).rsync = s.rsync := rfl
@[simp] theorem modNet_ctrls (f : Net → Net) : (s.modNet f).ctrls = s.ctrls := rfl
@[simp] theorem modNet_trav (f : Net → Net) : (s.modNet f).trav = s.trav := rfl
@[simp] theorem modNet_fabric (f : Net → Net) : (s.modNet f).fabric = s.fabric := rfl
@[simp] theorem modNet_net (f : Net → Net) : (s.modNet f).net = f s.net := rfl
@[simp] theorem modNet_groups (f : Net → Net) : (s.modNet f).groups = s.groups := rfl
@[simp] theorem modNet_agenda (f : Net → Net) : (s.modNet f).agenda = s.agenda := rfl
@[simp] theorem modNet_out (f : Net → Net) : (s.modNet f).out = s.out := rfl
@[simp] theorem modNet_free (f : Net → Net) : (s.modNet f).free = s.free := rfl
@[simp] theorem modNet_ticket (f : Net → Net) : (s.modNet f).ticket = s.ticket := rfl
@[simp] theorem modNet_archive (f : Net → Net) : (s.modNet f).archive = s.archive := rfl

@[simp] theorem modDie_core (n : Nat) (f : Die → Die) : (s.modDie n f).core = s.core := rfl
@[simp] theorem modDie_coreId (n : Nat) (f : Die → Die) : (s.modDie n f).coreId = s.coreId := rfl
@[simp] theorem modDie_others (n : Nat) (f : Die → Die) : (s.modDie n f).others = s.others := rfl
@[simp] theorem modDie_clusters (n : Nat) (f : Die → Die) : (s.modDie n f).clusters = s.clusters := rfl
@[simp] theorem modDie_dies (n : Nat) (f : Die → Die) : (s.modDie n f).dies = tmod {} s.dies n f := rfl
@[simp] theorem modDie_mem (n : Nat) (f : Die → Die) : (s.modDie n f).mem = s.mem := rfl
@[simp] theorem modDie_sched (n : Nat) (f : Die → Die) : (s.modDie n f).sched = s.sched := rfl
@[simp] theorem modDie_root (n : Nat) (f : Die → Die) : (s.modDie n f).root = s.root := rfl
@[simp] theorem modDie_time (n : Nat) (f : Die → Die) : (s.modDie n f).time = s.time := rfl
@[simp] theorem modDie_spire (n : Nat) (f : Die → Die) : (s.modDie n f).spire = s.spire := rfl
@[simp] theorem modDie_fence (n : Nat) (f : Die → Die) : (s.modDie n f).fence = s.fence := rfl
@[simp] theorem modDie_rsync (n : Nat) (f : Die → Die) : (s.modDie n f).rsync = s.rsync := rfl
@[simp] theorem modDie_ctrls (n : Nat) (f : Die → Die) : (s.modDie n f).ctrls = s.ctrls := rfl
@[simp] theorem modDie_trav (n : Nat) (f : Die → Die) : (s.modDie n f).trav = s.trav := rfl
@[simp] theorem modDie_fabric (n : Nat) (f : Die → Die) : (s.modDie n f).fabric = s.fabric := rfl
@[simp] theorem modDie_net (n : Nat) (f : Die → Die) : (s.modDie n f).net = s.net := rfl
@[simp] theorem modDie_groups (n : Nat) (f : Die → Die) : (s.modDie n f).groups = s.groups := rfl
@[simp] theorem modDie_agenda (n : Nat) (f : Die → Die) : (s.modDie n f).agenda = s.agenda := rfl
@[simp] theorem modDie_out (n : Nat) (f : Die → Die) : (s.modDie n f).out = s.out := rfl
@[simp] theorem modDie_free (n : Nat) (f : Die → Die) : (s.modDie n f).free = s.free := rfl
@[simp] theorem modDie_ticket (n : Nat) (f : Die → Die) : (s.modDie n f).ticket = s.ticket := rfl
@[simp] theorem modDie_archive (n : Nat) (f : Die → Die) : (s.modDie n f).archive = s.archive := rfl

@[simp] theorem modCluster_core (n : Nat) (f : Cluster → Cluster) : (s.modCluster n f).core = s.core := rfl
@[simp] theorem modCluster_coreId (n : Nat) (f : Cluster → Cluster) : (s.modCluster n f).coreId = s.coreId := rfl
@[simp] theorem modCluster_others (n : Nat) (f : Cluster → Cluster) : (s.modCluster n f).others = s.others := rfl
@[simp] theorem modCluster_clusters (n : Nat) (f : Cluster → Cluster) : (s.modCluster n f).clusters = tmod {} s.clusters n f := rfl
@[simp] theorem modCluster_dies (n : Nat) (f : Cluster → Cluster) : (s.modCluster n f).dies = s.dies := rfl
@[simp] theorem modCluster_mem (n : Nat) (f : Cluster → Cluster) : (s.modCluster n f).mem = s.mem := rfl
@[simp] theorem modCluster_sched (n : Nat) (f : Cluster → Cluster) : (s.modCluster n f).sched = s.sched := rfl
@[simp] theorem modCluster_root (n : Nat) (f : Cluster → Cluster) : (s.modCluster n f).root = s.root := rfl
@[simp] theorem modCluster_time (n : Nat) (f : Cluster → Cluster) : (s.modCluster n f).time = s.time := rfl
@[simp] theorem modCluster_spire (n : Nat) (f : Cluster → Cluster) : (s.modCluster n f).spire = s.spire := rfl
@[simp] theorem modCluster_fence (n : Nat) (f : Cluster → Cluster) : (s.modCluster n f).fence = s.fence := rfl
@[simp] theorem modCluster_rsync (n : Nat) (f : Cluster → Cluster) : (s.modCluster n f).rsync = s.rsync := rfl
@[simp] theorem modCluster_ctrls (n : Nat) (f : Cluster → Cluster) : (s.modCluster n f).ctrls = s.ctrls := rfl
@[simp] theorem modCluster_trav (n : Nat) (f : Cluster → Cluster) : (s.modCluster n f).trav = s.trav := rfl
@[simp] theorem modCluster_fabric (n : Nat) (f : Cluster → Cluster) : (s.modCluster n f).fabric = s.fabric := rfl
@[simp] theorem modCluster_net (n : Nat) (f : Cluster → Cluster) : (s.modCluster n f).net = s.net := rfl
@[simp] theorem modCluster_groups (n : Nat) (f : Cluster → Cluster) : (s.modCluster n f).groups = s.groups := rfl
@[simp] theorem modCluster_agenda (n : Nat) (f : Cluster → Cluster) : (s.modCluster n f).agenda = s.agenda := rfl
@[simp] theorem modCluster_out (n : Nat) (f : Cluster → Cluster) : (s.modCluster n f).out = s.out := rfl
@[simp] theorem modCluster_free (n : Nat) (f : Cluster → Cluster) : (s.modCluster n f).free = s.free := rfl
@[simp] theorem modCluster_ticket (n : Nat) (f : Cluster → Cluster) : (s.modCluster n f).ticket = s.ticket := rfl
@[simp] theorem modCluster_archive (n : Nat) (f : Cluster → Cluster) : (s.modCluster n f).archive = s.archive := rfl

@[simp] theorem modCtrl_core (n : Nat) (f : Ctrl → Ctrl) : (s.modCtrl n f).core = s.core := rfl
@[simp] theorem modCtrl_coreId (n : Nat) (f : Ctrl → Ctrl) : (s.modCtrl n f).coreId = s.coreId := rfl
@[simp] theorem modCtrl_others (n : Nat) (f : Ctrl → Ctrl) : (s.modCtrl n f).others = s.others := rfl
@[simp] theorem modCtrl_clusters (n : Nat) (f : Ctrl → Ctrl) : (s.modCtrl n f).clusters = s.clusters := rfl
@[simp] theorem modCtrl_dies (n : Nat) (f : Ctrl → Ctrl) : (s.modCtrl n f).dies = s.dies := rfl
@[simp] theorem modCtrl_mem (n : Nat) (f : Ctrl → Ctrl) : (s.modCtrl n f).mem = s.mem := rfl
@[simp] theorem modCtrl_sched (n : Nat) (f : Ctrl → Ctrl) : (s.modCtrl n f).sched = s.sched := rfl
@[simp] theorem modCtrl_root (n : Nat) (f : Ctrl → Ctrl) : (s.modCtrl n f).root = s.root := rfl
@[simp] theorem modCtrl_time (n : Nat) (f : Ctrl → Ctrl) : (s.modCtrl n f).time = s.time := rfl
@[simp] theorem modCtrl_spire (n : Nat) (f : Ctrl → Ctrl) : (s.modCtrl n f).spire = s.spire := rfl
@[simp] theorem modCtrl_fence (n : Nat) (f : Ctrl → Ctrl) : (s.modCtrl n f).fence = s.fence := rfl
@[simp] theorem modCtrl_rsync (n : Nat) (f : Ctrl → Ctrl) : (s.modCtrl n f).rsync = s.rsync := rfl
@[simp] theorem modCtrl_ctrls (n : Nat) (f : Ctrl → Ctrl) : (s.modCtrl n f).ctrls = tmod {} s.ctrls n f := rfl
@[simp] theorem modCtrl_trav (n : Nat) (f : Ctrl → Ctrl) : (s.modCtrl n f).trav = s.trav := rfl
@[simp] theorem modCtrl_fabric (n : Nat) (f : Ctrl → Ctrl) : (s.modCtrl n f).fabric = s.fabric := rfl
@[simp] theorem modCtrl_net (n : Nat) (f : Ctrl → Ctrl) : (s.modCtrl n f).net = s.net := rfl
@[simp] theorem modCtrl_groups (n : Nat) (f : Ctrl → Ctrl) : (s.modCtrl n f).groups = s.groups := rfl
@[simp] theorem modCtrl_agenda (n : Nat) (f : Ctrl → Ctrl) : (s.modCtrl n f).agenda = s.agenda := rfl
@[simp] theorem modCtrl_out (n : Nat) (f : Ctrl → Ctrl) : (s.modCtrl n f).out = s.out := rfl
@[simp] theorem modCtrl_free (n : Nat) (f : Ctrl → Ctrl) : (s.modCtrl n f).free = s.free := rfl
@[simp] theorem modCtrl_ticket (n : Nat) (f : Ctrl → Ctrl) : (s.modCtrl n f).ticket = s.ticket := rfl
@[simp] theorem modCtrl_archive (n : Nat) (f : Ctrl → Ctrl) : (s.modCtrl n f).archive = s.archive := rfl

@[simp] theorem modGroup_core (n : Nat) (f : GSlot → GSlot) : (s.modGroup n f).core = s.core := rfl
@[simp] theorem modGroup_coreId (n : Nat) (f : GSlot → GSlot) : (s.modGroup n f).coreId = s.coreId := rfl
@[simp] theorem modGroup_others (n : Nat) (f : GSlot → GSlot) : (s.modGroup n f).others = s.others := rfl
@[simp] theorem modGroup_clusters (n : Nat) (f : GSlot → GSlot) : (s.modGroup n f).clusters = s.clusters := rfl
@[simp] theorem modGroup_dies (n : Nat) (f : GSlot → GSlot) : (s.modGroup n f).dies = s.dies := rfl
@[simp] theorem modGroup_mem (n : Nat) (f : GSlot → GSlot) : (s.modGroup n f).mem = s.mem := rfl
@[simp] theorem modGroup_sched (n : Nat) (f : GSlot → GSlot) : (s.modGroup n f).sched = s.sched := rfl
@[simp] theorem modGroup_root (n : Nat) (f : GSlot → GSlot) : (s.modGroup n f).root = s.root := rfl
@[simp] theorem modGroup_time (n : Nat) (f : GSlot → GSlot) : (s.modGroup n f).time = s.time := rfl
@[simp] theorem modGroup_spire (n : Nat) (f : GSlot → GSlot) : (s.modGroup n f).spire = s.spire := rfl
@[simp] theorem modGroup_fence (n : Nat) (f : GSlot → GSlot) : (s.modGroup n f).fence = s.fence := rfl
@[simp] theorem modGroup_rsync (n : Nat) (f : GSlot → GSlot) : (s.modGroup n f).rsync = s.rsync := rfl
@[simp] theorem modGroup_ctrls (n : Nat) (f : GSlot → GSlot) : (s.modGroup n f).ctrls = s.ctrls := rfl
@[simp] theorem modGroup_trav (n : Nat) (f : GSlot → GSlot) : (s.modGroup n f).trav = s.trav := rfl
@[simp] theorem modGroup_fabric (n : Nat) (f : GSlot → GSlot) : (s.modGroup n f).fabric = s.fabric := rfl
@[simp] theorem modGroup_net (n : Nat) (f : GSlot → GSlot) : (s.modGroup n f).net = s.net := rfl
@[simp] theorem modGroup_groups (n : Nat) (f : GSlot → GSlot) : (s.modGroup n f).groups = tmod {} s.groups n f := rfl
@[simp] theorem modGroup_agenda (n : Nat) (f : GSlot → GSlot) : (s.modGroup n f).agenda = s.agenda := rfl
@[simp] theorem modGroup_out (n : Nat) (f : GSlot → GSlot) : (s.modGroup n f).out = s.out := rfl
@[simp] theorem modGroup_free (n : Nat) (f : GSlot → GSlot) : (s.modGroup n f).free = s.free := rfl
@[simp] theorem modGroup_ticket (n : Nat) (f : GSlot → GSlot) : (s.modGroup n f).ticket = s.ticket := rfl
@[simp] theorem modGroup_archive (n : Nat) (f : GSlot → GSlot) : (s.modGroup n f).archive = s.archive := rfl

@[simp] theorem modRegs_coreId (f : Regs → Regs) : (s.modRegs f).coreId = s.coreId := rfl
@[simp] theorem modRegs_others (f : Regs → Regs) : (s.modRegs f).others = s.others := rfl
@[simp] theorem modRegs_clusters (f : Regs → Regs) : (s.modRegs f).clusters = s.clusters := rfl
@[simp] theorem modRegs_dies (f : Regs → Regs) : (s.modRegs f).dies = s.dies := rfl
@[simp] theorem modRegs_mem (f : Regs → Regs) : (s.modRegs f).mem = s.mem := rfl
@[simp] theorem modRegs_sched (f : Regs → Regs) : (s.modRegs f).sched = s.sched := rfl
@[simp] theorem modRegs_root (f : Regs → Regs) : (s.modRegs f).root = s.root := rfl
@[simp] theorem modRegs_time (f : Regs → Regs) : (s.modRegs f).time = s.time := rfl
@[simp] theorem modRegs_spire (f : Regs → Regs) : (s.modRegs f).spire = s.spire := rfl
@[simp] theorem modRegs_fence (f : Regs → Regs) : (s.modRegs f).fence = s.fence := rfl
@[simp] theorem modRegs_rsync (f : Regs → Regs) : (s.modRegs f).rsync = s.rsync := rfl
@[simp] theorem modRegs_ctrls (f : Regs → Regs) : (s.modRegs f).ctrls = s.ctrls := rfl
@[simp] theorem modRegs_trav (f : Regs → Regs) : (s.modRegs f).trav = s.trav := rfl
@[simp] theorem modRegs_fabric (f : Regs → Regs) : (s.modRegs f).fabric = s.fabric := rfl
@[simp] theorem modRegs_net (f : Regs → Regs) : (s.modRegs f).net = s.net := rfl
@[simp] theorem modRegs_groups (f : Regs → Regs) : (s.modRegs f).groups = s.groups := rfl
@[simp] theorem modRegs_agenda (f : Regs → Regs) : (s.modRegs f).agenda = s.agenda := rfl
@[simp] theorem modRegs_out (f : Regs → Regs) : (s.modRegs f).out = s.out := rfl
@[simp] theorem modRegs_free (f : Regs → Regs) : (s.modRegs f).free = s.free := rfl
@[simp] theorem modRegs_ticket (f : Regs → Regs) : (s.modRegs f).ticket = s.ticket := rfl
@[simp] theorem modRegs_archive (f : Regs → Regs) : (s.modRegs f).archive = s.archive := rfl
@[simp] theorem modRegs_core_regs (f : Regs → Regs) : (s.modRegs f).core.regs = f s.core.regs := rfl
@[simp] theorem modRegs_core_front (f : Regs → Regs) : (s.modRegs f).core.front = s.core.front := rfl
@[simp] theorem modRegs_core_task (f : Regs → Regs) : (s.modRegs f).core.task = s.core.task := rfl
@[simp] theorem modRegs_core_flight (f : Regs → Regs) : (s.modRegs f).core.flight = s.core.flight := rfl
@[simp] theorem modRegs_core_misses (f : Regs → Regs) : (s.modRegs f).core.misses = s.core.misses := rfl
@[simp] theorem modRegs_core_snap (f : Regs → Regs) : (s.modRegs f).core.snap = s.core.snap := rfl
@[simp] theorem modRegs_core_snapOps (f : Regs → Regs) : (s.modRegs f).core.snapOps = s.core.snapOps := rfl
@[simp] theorem modRegs_core_rcache (f : Regs → Regs) : (s.modRegs f).core.rcache = s.core.rcache := rfl
@[simp] theorem modRegs_core_vcache (f : Regs → Regs) : (s.modRegs f).core.vcache = s.core.vcache := rfl
@[simp] theorem modRegs_core_spad (f : Regs → Regs) : (s.modRegs f).core.spad = s.core.spad := rfl
@[simp] theorem modRegs_core_copy (f : Regs → Regs) : (s.modRegs f).core.copy = s.core.copy := rfl
@[simp] theorem modRegs_core_mx (f : Regs → Regs) : (s.modRegs f).core.mx = s.core.mx := rfl
@[simp] theorem modRegs_core_vec (f : Regs → Regs) : (s.modRegs f).core.vec = s.core.vec := rfl
@[simp] theorem modRegs_core_chans (f : Regs → Regs) : (s.modRegs f).core.chans = s.core.chans := rfl
@[simp] theorem modRegs_core_chdrop (f : Regs → Regs) : (s.modRegs f).core.chdrop = s.core.chdrop := rfl
@[simp] theorem modRegs_core_seq (f : Regs → Regs) : (s.modRegs f).core.seq = s.core.seq := rfl
@[simp] theorem modRegs_core_preempt (f : Regs → Regs) : (s.modRegs f).core.preempt = s.core.preempt := rfl
@[simp] theorem modRegs_core_asked (f : Regs → Regs) : (s.modRegs f).core.asked = s.core.asked := rfl
@[simp] theorem modRegs_core_askedAt (f : Regs → Regs) : (s.modRegs f).core.askedAt = s.core.askedAt := rfl
@[simp] theorem modRegs_core_answer (f : Regs → Regs) : (s.modRegs f).core.answer = s.core.answer := rfl
@[simp] theorem modRegs_core_slotHeld (f : Regs → Regs) : (s.modRegs f).core.slotHeld = s.core.slotHeld := rfl
@[simp] theorem modRegs_core_published (f : Regs → Regs) : (s.modRegs f).core.published = s.core.published := rfl
@[simp] theorem modRegs_core_released (f : Regs → Regs) : (s.modRegs f).core.released = s.core.released := rfl
@[simp] theorem modRegs_core_compacted (f : Regs → Regs) : (s.modRegs f).core.compacted = s.core.compacted := rfl
@[simp] theorem modRegs_core_sstep (f : Regs → Regs) : (s.modRegs f).core.sstep = s.core.sstep := rfl
@[simp] theorem modRegs_core_spireOut (f : Regs → Regs) : (s.modRegs f).core.spireOut = s.core.spireOut := rfl
@[simp] theorem modRegs_core_bindTick (f : Regs → Regs) : (s.modRegs f).core.bindTick = s.core.bindTick := rfl
@[simp] theorem modRegs_core_preAt (f : Regs → Regs) : (s.modRegs f).core.preAt = s.core.preAt := rfl
@[simp] theorem modRegs_core_cycle (f : Regs → Regs) : (s.modRegs f).core.cycle = s.core.cycle := rfl
@[simp] theorem modRegs_core_skew (f : Regs → Regs) : (s.modRegs f).core.skew = s.core.skew := rfl

@[simp] theorem modFront_coreId (f : Front → Front) : (s.modFront f).coreId = s.coreId := rfl
@[simp] theorem modFront_others (f : Front → Front) : (s.modFront f).others = s.others := rfl
@[simp] theorem modFront_clusters (f : Front → Front) : (s.modFront f).clusters = s.clusters := rfl
@[simp] theorem modFront_dies (f : Front → Front) : (s.modFront f).dies = s.dies := rfl
@[simp] theorem modFront_mem (f : Front → Front) : (s.modFront f).mem = s.mem := rfl
@[simp] theorem modFront_sched (f : Front → Front) : (s.modFront f).sched = s.sched := rfl
@[simp] theorem modFront_root (f : Front → Front) : (s.modFront f).root = s.root := rfl
@[simp] theorem modFront_time (f : Front → Front) : (s.modFront f).time = s.time := rfl
@[simp] theorem modFront_spire (f : Front → Front) : (s.modFront f).spire = s.spire := rfl
@[simp] theorem modFront_fence (f : Front → Front) : (s.modFront f).fence = s.fence := rfl
@[simp] theorem modFront_rsync (f : Front → Front) : (s.modFront f).rsync = s.rsync := rfl
@[simp] theorem modFront_ctrls (f : Front → Front) : (s.modFront f).ctrls = s.ctrls := rfl
@[simp] theorem modFront_trav (f : Front → Front) : (s.modFront f).trav = s.trav := rfl
@[simp] theorem modFront_fabric (f : Front → Front) : (s.modFront f).fabric = s.fabric := rfl
@[simp] theorem modFront_net (f : Front → Front) : (s.modFront f).net = s.net := rfl
@[simp] theorem modFront_groups (f : Front → Front) : (s.modFront f).groups = s.groups := rfl
@[simp] theorem modFront_agenda (f : Front → Front) : (s.modFront f).agenda = s.agenda := rfl
@[simp] theorem modFront_out (f : Front → Front) : (s.modFront f).out = s.out := rfl
@[simp] theorem modFront_free (f : Front → Front) : (s.modFront f).free = s.free := rfl
@[simp] theorem modFront_ticket (f : Front → Front) : (s.modFront f).ticket = s.ticket := rfl
@[simp] theorem modFront_archive (f : Front → Front) : (s.modFront f).archive = s.archive := rfl
@[simp] theorem modFront_core_regs (f : Front → Front) : (s.modFront f).core.regs = s.core.regs := rfl
@[simp] theorem modFront_core_front (f : Front → Front) : (s.modFront f).core.front = f s.core.front := rfl
@[simp] theorem modFront_core_task (f : Front → Front) : (s.modFront f).core.task = s.core.task := rfl
@[simp] theorem modFront_core_flight (f : Front → Front) : (s.modFront f).core.flight = s.core.flight := rfl
@[simp] theorem modFront_core_misses (f : Front → Front) : (s.modFront f).core.misses = s.core.misses := rfl
@[simp] theorem modFront_core_snap (f : Front → Front) : (s.modFront f).core.snap = s.core.snap := rfl
@[simp] theorem modFront_core_snapOps (f : Front → Front) : (s.modFront f).core.snapOps = s.core.snapOps := rfl
@[simp] theorem modFront_core_rcache (f : Front → Front) : (s.modFront f).core.rcache = s.core.rcache := rfl
@[simp] theorem modFront_core_vcache (f : Front → Front) : (s.modFront f).core.vcache = s.core.vcache := rfl
@[simp] theorem modFront_core_spad (f : Front → Front) : (s.modFront f).core.spad = s.core.spad := rfl
@[simp] theorem modFront_core_copy (f : Front → Front) : (s.modFront f).core.copy = s.core.copy := rfl
@[simp] theorem modFront_core_mx (f : Front → Front) : (s.modFront f).core.mx = s.core.mx := rfl
@[simp] theorem modFront_core_vec (f : Front → Front) : (s.modFront f).core.vec = s.core.vec := rfl
@[simp] theorem modFront_core_chans (f : Front → Front) : (s.modFront f).core.chans = s.core.chans := rfl
@[simp] theorem modFront_core_chdrop (f : Front → Front) : (s.modFront f).core.chdrop = s.core.chdrop := rfl
@[simp] theorem modFront_core_seq (f : Front → Front) : (s.modFront f).core.seq = s.core.seq := rfl
@[simp] theorem modFront_core_preempt (f : Front → Front) : (s.modFront f).core.preempt = s.core.preempt := rfl
@[simp] theorem modFront_core_asked (f : Front → Front) : (s.modFront f).core.asked = s.core.asked := rfl
@[simp] theorem modFront_core_askedAt (f : Front → Front) : (s.modFront f).core.askedAt = s.core.askedAt := rfl
@[simp] theorem modFront_core_answer (f : Front → Front) : (s.modFront f).core.answer = s.core.answer := rfl
@[simp] theorem modFront_core_slotHeld (f : Front → Front) : (s.modFront f).core.slotHeld = s.core.slotHeld := rfl
@[simp] theorem modFront_core_published (f : Front → Front) : (s.modFront f).core.published = s.core.published := rfl
@[simp] theorem modFront_core_released (f : Front → Front) : (s.modFront f).core.released = s.core.released := rfl
@[simp] theorem modFront_core_compacted (f : Front → Front) : (s.modFront f).core.compacted = s.core.compacted := rfl
@[simp] theorem modFront_core_sstep (f : Front → Front) : (s.modFront f).core.sstep = s.core.sstep := rfl
@[simp] theorem modFront_core_spireOut (f : Front → Front) : (s.modFront f).core.spireOut = s.core.spireOut := rfl
@[simp] theorem modFront_core_bindTick (f : Front → Front) : (s.modFront f).core.bindTick = s.core.bindTick := rfl
@[simp] theorem modFront_core_preAt (f : Front → Front) : (s.modFront f).core.preAt = s.core.preAt := rfl
@[simp] theorem modFront_core_cycle (f : Front → Front) : (s.modFront f).core.cycle = s.core.cycle := rfl
@[simp] theorem modFront_core_skew (f : Front → Front) : (s.modFront f).core.skew = s.core.skew := rfl

@[simp] theorem modTask_coreId (f : Bound → Bound) : (s.modTask f).coreId = s.coreId := rfl
@[simp] theorem modTask_others (f : Bound → Bound) : (s.modTask f).others = s.others := rfl
@[simp] theorem modTask_clusters (f : Bound → Bound) : (s.modTask f).clusters = s.clusters := rfl
@[simp] theorem modTask_dies (f : Bound → Bound) : (s.modTask f).dies = s.dies := rfl
@[simp] theorem modTask_mem (f : Bound → Bound) : (s.modTask f).mem = s.mem := rfl
@[simp] theorem modTask_sched (f : Bound → Bound) : (s.modTask f).sched = s.sched := rfl
@[simp] theorem modTask_root (f : Bound → Bound) : (s.modTask f).root = s.root := rfl
@[simp] theorem modTask_time (f : Bound → Bound) : (s.modTask f).time = s.time := rfl
@[simp] theorem modTask_spire (f : Bound → Bound) : (s.modTask f).spire = s.spire := rfl
@[simp] theorem modTask_fence (f : Bound → Bound) : (s.modTask f).fence = s.fence := rfl
@[simp] theorem modTask_rsync (f : Bound → Bound) : (s.modTask f).rsync = s.rsync := rfl
@[simp] theorem modTask_ctrls (f : Bound → Bound) : (s.modTask f).ctrls = s.ctrls := rfl
@[simp] theorem modTask_trav (f : Bound → Bound) : (s.modTask f).trav = s.trav := rfl
@[simp] theorem modTask_fabric (f : Bound → Bound) : (s.modTask f).fabric = s.fabric := rfl
@[simp] theorem modTask_net (f : Bound → Bound) : (s.modTask f).net = s.net := rfl
@[simp] theorem modTask_groups (f : Bound → Bound) : (s.modTask f).groups = s.groups := rfl
@[simp] theorem modTask_agenda (f : Bound → Bound) : (s.modTask f).agenda = s.agenda := rfl
@[simp] theorem modTask_out (f : Bound → Bound) : (s.modTask f).out = s.out := rfl
@[simp] theorem modTask_free (f : Bound → Bound) : (s.modTask f).free = s.free := rfl
@[simp] theorem modTask_ticket (f : Bound → Bound) : (s.modTask f).ticket = s.ticket := rfl
@[simp] theorem modTask_archive (f : Bound → Bound) : (s.modTask f).archive = s.archive := rfl
@[simp] theorem modTask_core_regs (f : Bound → Bound) : (s.modTask f).core.regs = s.core.regs := rfl
@[simp] theorem modTask_core_front (f : Bound → Bound) : (s.modTask f).core.front = s.core.front := rfl
@[simp] theorem modTask_core_task (f : Bound → Bound) : (s.modTask f).core.task = s.core.task.map f := rfl
@[simp] theorem modTask_core_flight (f : Bound → Bound) : (s.modTask f).core.flight = s.core.flight := rfl
@[simp] theorem modTask_core_misses (f : Bound → Bound) : (s.modTask f).core.misses = s.core.misses := rfl
@[simp] theorem modTask_core_snap (f : Bound → Bound) : (s.modTask f).core.snap = s.core.snap := rfl
@[simp] theorem modTask_core_snapOps (f : Bound → Bound) : (s.modTask f).core.snapOps = s.core.snapOps := rfl
@[simp] theorem modTask_core_rcache (f : Bound → Bound) : (s.modTask f).core.rcache = s.core.rcache := rfl
@[simp] theorem modTask_core_vcache (f : Bound → Bound) : (s.modTask f).core.vcache = s.core.vcache := rfl
@[simp] theorem modTask_core_spad (f : Bound → Bound) : (s.modTask f).core.spad = s.core.spad := rfl
@[simp] theorem modTask_core_copy (f : Bound → Bound) : (s.modTask f).core.copy = s.core.copy := rfl
@[simp] theorem modTask_core_mx (f : Bound → Bound) : (s.modTask f).core.mx = s.core.mx := rfl
@[simp] theorem modTask_core_vec (f : Bound → Bound) : (s.modTask f).core.vec = s.core.vec := rfl
@[simp] theorem modTask_core_chans (f : Bound → Bound) : (s.modTask f).core.chans = s.core.chans := rfl
@[simp] theorem modTask_core_chdrop (f : Bound → Bound) : (s.modTask f).core.chdrop = s.core.chdrop := rfl
@[simp] theorem modTask_core_seq (f : Bound → Bound) : (s.modTask f).core.seq = s.core.seq := rfl
@[simp] theorem modTask_core_preempt (f : Bound → Bound) : (s.modTask f).core.preempt = s.core.preempt := rfl
@[simp] theorem modTask_core_asked (f : Bound → Bound) : (s.modTask f).core.asked = s.core.asked := rfl
@[simp] theorem modTask_core_askedAt (f : Bound → Bound) : (s.modTask f).core.askedAt = s.core.askedAt := rfl
@[simp] theorem modTask_core_answer (f : Bound → Bound) : (s.modTask f).core.answer = s.core.answer := rfl
@[simp] theorem modTask_core_slotHeld (f : Bound → Bound) : (s.modTask f).core.slotHeld = s.core.slotHeld := rfl
@[simp] theorem modTask_core_published (f : Bound → Bound) : (s.modTask f).core.published = s.core.published := rfl
@[simp] theorem modTask_core_released (f : Bound → Bound) : (s.modTask f).core.released = s.core.released := rfl
@[simp] theorem modTask_core_compacted (f : Bound → Bound) : (s.modTask f).core.compacted = s.core.compacted := rfl
@[simp] theorem modTask_core_sstep (f : Bound → Bound) : (s.modTask f).core.sstep = s.core.sstep := rfl
@[simp] theorem modTask_core_spireOut (f : Bound → Bound) : (s.modTask f).core.spireOut = s.core.spireOut := rfl
@[simp] theorem modTask_core_bindTick (f : Bound → Bound) : (s.modTask f).core.bindTick = s.core.bindTick := rfl
@[simp] theorem modTask_core_preAt (f : Bound → Bound) : (s.modTask f).core.preAt = s.core.preAt := rfl
@[simp] theorem modTask_core_cycle (f : Bound → Bound) : (s.modTask f).core.cycle = s.core.cycle := rfl
@[simp] theorem modTask_core_skew (f : Bound → Bound) : (s.modTask f).core.skew = s.core.skew := rfl

@[simp] theorem modCopy_coreId (f : CopyEng → CopyEng) : (s.modCopy f).coreId = s.coreId := rfl
@[simp] theorem modCopy_others (f : CopyEng → CopyEng) : (s.modCopy f).others = s.others := rfl
@[simp] theorem modCopy_clusters (f : CopyEng → CopyEng) : (s.modCopy f).clusters = s.clusters := rfl
@[simp] theorem modCopy_dies (f : CopyEng → CopyEng) : (s.modCopy f).dies = s.dies := rfl
@[simp] theorem modCopy_mem (f : CopyEng → CopyEng) : (s.modCopy f).mem = s.mem := rfl
@[simp] theorem modCopy_sched (f : CopyEng → CopyEng) : (s.modCopy f).sched = s.sched := rfl
@[simp] theorem modCopy_root (f : CopyEng → CopyEng) : (s.modCopy f).root = s.root := rfl
@[simp] theorem modCopy_time (f : CopyEng → CopyEng) : (s.modCopy f).time = s.time := rfl
@[simp] theorem modCopy_spire (f : CopyEng → CopyEng) : (s.modCopy f).spire = s.spire := rfl
@[simp] theorem modCopy_fence (f : CopyEng → CopyEng) : (s.modCopy f).fence = s.fence := rfl
@[simp] theorem modCopy_rsync (f : CopyEng → CopyEng) : (s.modCopy f).rsync = s.rsync := rfl
@[simp] theorem modCopy_ctrls (f : CopyEng → CopyEng) : (s.modCopy f).ctrls = s.ctrls := rfl
@[simp] theorem modCopy_trav (f : CopyEng → CopyEng) : (s.modCopy f).trav = s.trav := rfl
@[simp] theorem modCopy_fabric (f : CopyEng → CopyEng) : (s.modCopy f).fabric = s.fabric := rfl
@[simp] theorem modCopy_net (f : CopyEng → CopyEng) : (s.modCopy f).net = s.net := rfl
@[simp] theorem modCopy_groups (f : CopyEng → CopyEng) : (s.modCopy f).groups = s.groups := rfl
@[simp] theorem modCopy_agenda (f : CopyEng → CopyEng) : (s.modCopy f).agenda = s.agenda := rfl
@[simp] theorem modCopy_out (f : CopyEng → CopyEng) : (s.modCopy f).out = s.out := rfl
@[simp] theorem modCopy_free (f : CopyEng → CopyEng) : (s.modCopy f).free = s.free := rfl
@[simp] theorem modCopy_ticket (f : CopyEng → CopyEng) : (s.modCopy f).ticket = s.ticket := rfl
@[simp] theorem modCopy_archive (f : CopyEng → CopyEng) : (s.modCopy f).archive = s.archive := rfl
@[simp] theorem modCopy_core_regs (f : CopyEng → CopyEng) : (s.modCopy f).core.regs = s.core.regs := rfl
@[simp] theorem modCopy_core_front (f : CopyEng → CopyEng) : (s.modCopy f).core.front = s.core.front := rfl
@[simp] theorem modCopy_core_task (f : CopyEng → CopyEng) : (s.modCopy f).core.task = s.core.task := rfl
@[simp] theorem modCopy_core_flight (f : CopyEng → CopyEng) : (s.modCopy f).core.flight = s.core.flight := rfl
@[simp] theorem modCopy_core_misses (f : CopyEng → CopyEng) : (s.modCopy f).core.misses = s.core.misses := rfl
@[simp] theorem modCopy_core_snap (f : CopyEng → CopyEng) : (s.modCopy f).core.snap = s.core.snap := rfl
@[simp] theorem modCopy_core_snapOps (f : CopyEng → CopyEng) : (s.modCopy f).core.snapOps = s.core.snapOps := rfl
@[simp] theorem modCopy_core_rcache (f : CopyEng → CopyEng) : (s.modCopy f).core.rcache = s.core.rcache := rfl
@[simp] theorem modCopy_core_vcache (f : CopyEng → CopyEng) : (s.modCopy f).core.vcache = s.core.vcache := rfl
@[simp] theorem modCopy_core_spad (f : CopyEng → CopyEng) : (s.modCopy f).core.spad = s.core.spad := rfl
@[simp] theorem modCopy_core_copy (f : CopyEng → CopyEng) : (s.modCopy f).core.copy = f s.core.copy := rfl
@[simp] theorem modCopy_core_mx (f : CopyEng → CopyEng) : (s.modCopy f).core.mx = s.core.mx := rfl
@[simp] theorem modCopy_core_vec (f : CopyEng → CopyEng) : (s.modCopy f).core.vec = s.core.vec := rfl
@[simp] theorem modCopy_core_chans (f : CopyEng → CopyEng) : (s.modCopy f).core.chans = s.core.chans := rfl
@[simp] theorem modCopy_core_chdrop (f : CopyEng → CopyEng) : (s.modCopy f).core.chdrop = s.core.chdrop := rfl
@[simp] theorem modCopy_core_seq (f : CopyEng → CopyEng) : (s.modCopy f).core.seq = s.core.seq := rfl
@[simp] theorem modCopy_core_preempt (f : CopyEng → CopyEng) : (s.modCopy f).core.preempt = s.core.preempt := rfl
@[simp] theorem modCopy_core_asked (f : CopyEng → CopyEng) : (s.modCopy f).core.asked = s.core.asked := rfl
@[simp] theorem modCopy_core_askedAt (f : CopyEng → CopyEng) : (s.modCopy f).core.askedAt = s.core.askedAt := rfl
@[simp] theorem modCopy_core_answer (f : CopyEng → CopyEng) : (s.modCopy f).core.answer = s.core.answer := rfl
@[simp] theorem modCopy_core_slotHeld (f : CopyEng → CopyEng) : (s.modCopy f).core.slotHeld = s.core.slotHeld := rfl
@[simp] theorem modCopy_core_published (f : CopyEng → CopyEng) : (s.modCopy f).core.published = s.core.published := rfl
@[simp] theorem modCopy_core_released (f : CopyEng → CopyEng) : (s.modCopy f).core.released = s.core.released := rfl
@[simp] theorem modCopy_core_compacted (f : CopyEng → CopyEng) : (s.modCopy f).core.compacted = s.core.compacted := rfl
@[simp] theorem modCopy_core_sstep (f : CopyEng → CopyEng) : (s.modCopy f).core.sstep = s.core.sstep := rfl
@[simp] theorem modCopy_core_spireOut (f : CopyEng → CopyEng) : (s.modCopy f).core.spireOut = s.core.spireOut := rfl
@[simp] theorem modCopy_core_bindTick (f : CopyEng → CopyEng) : (s.modCopy f).core.bindTick = s.core.bindTick := rfl
@[simp] theorem modCopy_core_preAt (f : CopyEng → CopyEng) : (s.modCopy f).core.preAt = s.core.preAt := rfl
@[simp] theorem modCopy_core_cycle (f : CopyEng → CopyEng) : (s.modCopy f).core.cycle = s.core.cycle := rfl
@[simp] theorem modCopy_core_skew (f : CopyEng → CopyEng) : (s.modCopy f).core.skew = s.core.skew := rfl

@[simp] theorem modMx_coreId (f : Mx → Mx) : (s.modMx f).coreId = s.coreId := rfl
@[simp] theorem modMx_others (f : Mx → Mx) : (s.modMx f).others = s.others := rfl
@[simp] theorem modMx_clusters (f : Mx → Mx) : (s.modMx f).clusters = s.clusters := rfl
@[simp] theorem modMx_dies (f : Mx → Mx) : (s.modMx f).dies = s.dies := rfl
@[simp] theorem modMx_mem (f : Mx → Mx) : (s.modMx f).mem = s.mem := rfl
@[simp] theorem modMx_sched (f : Mx → Mx) : (s.modMx f).sched = s.sched := rfl
@[simp] theorem modMx_root (f : Mx → Mx) : (s.modMx f).root = s.root := rfl
@[simp] theorem modMx_time (f : Mx → Mx) : (s.modMx f).time = s.time := rfl
@[simp] theorem modMx_spire (f : Mx → Mx) : (s.modMx f).spire = s.spire := rfl
@[simp] theorem modMx_fence (f : Mx → Mx) : (s.modMx f).fence = s.fence := rfl
@[simp] theorem modMx_rsync (f : Mx → Mx) : (s.modMx f).rsync = s.rsync := rfl
@[simp] theorem modMx_ctrls (f : Mx → Mx) : (s.modMx f).ctrls = s.ctrls := rfl
@[simp] theorem modMx_trav (f : Mx → Mx) : (s.modMx f).trav = s.trav := rfl
@[simp] theorem modMx_fabric (f : Mx → Mx) : (s.modMx f).fabric = s.fabric := rfl
@[simp] theorem modMx_net (f : Mx → Mx) : (s.modMx f).net = s.net := rfl
@[simp] theorem modMx_groups (f : Mx → Mx) : (s.modMx f).groups = s.groups := rfl
@[simp] theorem modMx_agenda (f : Mx → Mx) : (s.modMx f).agenda = s.agenda := rfl
@[simp] theorem modMx_out (f : Mx → Mx) : (s.modMx f).out = s.out := rfl
@[simp] theorem modMx_free (f : Mx → Mx) : (s.modMx f).free = s.free := rfl
@[simp] theorem modMx_ticket (f : Mx → Mx) : (s.modMx f).ticket = s.ticket := rfl
@[simp] theorem modMx_archive (f : Mx → Mx) : (s.modMx f).archive = s.archive := rfl
@[simp] theorem modMx_core_regs (f : Mx → Mx) : (s.modMx f).core.regs = s.core.regs := rfl
@[simp] theorem modMx_core_front (f : Mx → Mx) : (s.modMx f).core.front = s.core.front := rfl
@[simp] theorem modMx_core_task (f : Mx → Mx) : (s.modMx f).core.task = s.core.task := rfl
@[simp] theorem modMx_core_flight (f : Mx → Mx) : (s.modMx f).core.flight = s.core.flight := rfl
@[simp] theorem modMx_core_misses (f : Mx → Mx) : (s.modMx f).core.misses = s.core.misses := rfl
@[simp] theorem modMx_core_snap (f : Mx → Mx) : (s.modMx f).core.snap = s.core.snap := rfl
@[simp] theorem modMx_core_snapOps (f : Mx → Mx) : (s.modMx f).core.snapOps = s.core.snapOps := rfl
@[simp] theorem modMx_core_rcache (f : Mx → Mx) : (s.modMx f).core.rcache = s.core.rcache := rfl
@[simp] theorem modMx_core_vcache (f : Mx → Mx) : (s.modMx f).core.vcache = s.core.vcache := rfl
@[simp] theorem modMx_core_spad (f : Mx → Mx) : (s.modMx f).core.spad = s.core.spad := rfl
@[simp] theorem modMx_core_copy (f : Mx → Mx) : (s.modMx f).core.copy = s.core.copy := rfl
@[simp] theorem modMx_core_mx (f : Mx → Mx) : (s.modMx f).core.mx = f s.core.mx := rfl
@[simp] theorem modMx_core_vec (f : Mx → Mx) : (s.modMx f).core.vec = s.core.vec := rfl
@[simp] theorem modMx_core_chans (f : Mx → Mx) : (s.modMx f).core.chans = s.core.chans := rfl
@[simp] theorem modMx_core_chdrop (f : Mx → Mx) : (s.modMx f).core.chdrop = s.core.chdrop := rfl
@[simp] theorem modMx_core_seq (f : Mx → Mx) : (s.modMx f).core.seq = s.core.seq := rfl
@[simp] theorem modMx_core_preempt (f : Mx → Mx) : (s.modMx f).core.preempt = s.core.preempt := rfl
@[simp] theorem modMx_core_asked (f : Mx → Mx) : (s.modMx f).core.asked = s.core.asked := rfl
@[simp] theorem modMx_core_askedAt (f : Mx → Mx) : (s.modMx f).core.askedAt = s.core.askedAt := rfl
@[simp] theorem modMx_core_answer (f : Mx → Mx) : (s.modMx f).core.answer = s.core.answer := rfl
@[simp] theorem modMx_core_slotHeld (f : Mx → Mx) : (s.modMx f).core.slotHeld = s.core.slotHeld := rfl
@[simp] theorem modMx_core_published (f : Mx → Mx) : (s.modMx f).core.published = s.core.published := rfl
@[simp] theorem modMx_core_released (f : Mx → Mx) : (s.modMx f).core.released = s.core.released := rfl
@[simp] theorem modMx_core_compacted (f : Mx → Mx) : (s.modMx f).core.compacted = s.core.compacted := rfl
@[simp] theorem modMx_core_sstep (f : Mx → Mx) : (s.modMx f).core.sstep = s.core.sstep := rfl
@[simp] theorem modMx_core_spireOut (f : Mx → Mx) : (s.modMx f).core.spireOut = s.core.spireOut := rfl
@[simp] theorem modMx_core_bindTick (f : Mx → Mx) : (s.modMx f).core.bindTick = s.core.bindTick := rfl
@[simp] theorem modMx_core_preAt (f : Mx → Mx) : (s.modMx f).core.preAt = s.core.preAt := rfl
@[simp] theorem modMx_core_cycle (f : Mx → Mx) : (s.modMx f).core.cycle = s.core.cycle := rfl
@[simp] theorem modMx_core_skew (f : Mx → Mx) : (s.modMx f).core.skew = s.core.skew := rfl

@[simp] theorem modVec_coreId (f : VecEng → VecEng) : (s.modVec f).coreId = s.coreId := rfl
@[simp] theorem modVec_others (f : VecEng → VecEng) : (s.modVec f).others = s.others := rfl
@[simp] theorem modVec_clusters (f : VecEng → VecEng) : (s.modVec f).clusters = s.clusters := rfl
@[simp] theorem modVec_dies (f : VecEng → VecEng) : (s.modVec f).dies = s.dies := rfl
@[simp] theorem modVec_mem (f : VecEng → VecEng) : (s.modVec f).mem = s.mem := rfl
@[simp] theorem modVec_sched (f : VecEng → VecEng) : (s.modVec f).sched = s.sched := rfl
@[simp] theorem modVec_root (f : VecEng → VecEng) : (s.modVec f).root = s.root := rfl
@[simp] theorem modVec_time (f : VecEng → VecEng) : (s.modVec f).time = s.time := rfl
@[simp] theorem modVec_spire (f : VecEng → VecEng) : (s.modVec f).spire = s.spire := rfl
@[simp] theorem modVec_fence (f : VecEng → VecEng) : (s.modVec f).fence = s.fence := rfl
@[simp] theorem modVec_rsync (f : VecEng → VecEng) : (s.modVec f).rsync = s.rsync := rfl
@[simp] theorem modVec_ctrls (f : VecEng → VecEng) : (s.modVec f).ctrls = s.ctrls := rfl
@[simp] theorem modVec_trav (f : VecEng → VecEng) : (s.modVec f).trav = s.trav := rfl
@[simp] theorem modVec_fabric (f : VecEng → VecEng) : (s.modVec f).fabric = s.fabric := rfl
@[simp] theorem modVec_net (f : VecEng → VecEng) : (s.modVec f).net = s.net := rfl
@[simp] theorem modVec_groups (f : VecEng → VecEng) : (s.modVec f).groups = s.groups := rfl
@[simp] theorem modVec_agenda (f : VecEng → VecEng) : (s.modVec f).agenda = s.agenda := rfl
@[simp] theorem modVec_out (f : VecEng → VecEng) : (s.modVec f).out = s.out := rfl
@[simp] theorem modVec_free (f : VecEng → VecEng) : (s.modVec f).free = s.free := rfl
@[simp] theorem modVec_ticket (f : VecEng → VecEng) : (s.modVec f).ticket = s.ticket := rfl
@[simp] theorem modVec_archive (f : VecEng → VecEng) : (s.modVec f).archive = s.archive := rfl
@[simp] theorem modVec_core_regs (f : VecEng → VecEng) : (s.modVec f).core.regs = s.core.regs := rfl
@[simp] theorem modVec_core_front (f : VecEng → VecEng) : (s.modVec f).core.front = s.core.front := rfl
@[simp] theorem modVec_core_task (f : VecEng → VecEng) : (s.modVec f).core.task = s.core.task := rfl
@[simp] theorem modVec_core_flight (f : VecEng → VecEng) : (s.modVec f).core.flight = s.core.flight := rfl
@[simp] theorem modVec_core_misses (f : VecEng → VecEng) : (s.modVec f).core.misses = s.core.misses := rfl
@[simp] theorem modVec_core_snap (f : VecEng → VecEng) : (s.modVec f).core.snap = s.core.snap := rfl
@[simp] theorem modVec_core_snapOps (f : VecEng → VecEng) : (s.modVec f).core.snapOps = s.core.snapOps := rfl
@[simp] theorem modVec_core_rcache (f : VecEng → VecEng) : (s.modVec f).core.rcache = s.core.rcache := rfl
@[simp] theorem modVec_core_vcache (f : VecEng → VecEng) : (s.modVec f).core.vcache = s.core.vcache := rfl
@[simp] theorem modVec_core_spad (f : VecEng → VecEng) : (s.modVec f).core.spad = s.core.spad := rfl
@[simp] theorem modVec_core_copy (f : VecEng → VecEng) : (s.modVec f).core.copy = s.core.copy := rfl
@[simp] theorem modVec_core_mx (f : VecEng → VecEng) : (s.modVec f).core.mx = s.core.mx := rfl
@[simp] theorem modVec_core_vec (f : VecEng → VecEng) : (s.modVec f).core.vec = f s.core.vec := rfl
@[simp] theorem modVec_core_chans (f : VecEng → VecEng) : (s.modVec f).core.chans = s.core.chans := rfl
@[simp] theorem modVec_core_chdrop (f : VecEng → VecEng) : (s.modVec f).core.chdrop = s.core.chdrop := rfl
@[simp] theorem modVec_core_seq (f : VecEng → VecEng) : (s.modVec f).core.seq = s.core.seq := rfl
@[simp] theorem modVec_core_preempt (f : VecEng → VecEng) : (s.modVec f).core.preempt = s.core.preempt := rfl
@[simp] theorem modVec_core_asked (f : VecEng → VecEng) : (s.modVec f).core.asked = s.core.asked := rfl
@[simp] theorem modVec_core_askedAt (f : VecEng → VecEng) : (s.modVec f).core.askedAt = s.core.askedAt := rfl
@[simp] theorem modVec_core_answer (f : VecEng → VecEng) : (s.modVec f).core.answer = s.core.answer := rfl
@[simp] theorem modVec_core_slotHeld (f : VecEng → VecEng) : (s.modVec f).core.slotHeld = s.core.slotHeld := rfl
@[simp] theorem modVec_core_published (f : VecEng → VecEng) : (s.modVec f).core.published = s.core.published := rfl
@[simp] theorem modVec_core_released (f : VecEng → VecEng) : (s.modVec f).core.released = s.core.released := rfl
@[simp] theorem modVec_core_compacted (f : VecEng → VecEng) : (s.modVec f).core.compacted = s.core.compacted := rfl
@[simp] theorem modVec_core_sstep (f : VecEng → VecEng) : (s.modVec f).core.sstep = s.core.sstep := rfl
@[simp] theorem modVec_core_spireOut (f : VecEng → VecEng) : (s.modVec f).core.spireOut = s.core.spireOut := rfl
@[simp] theorem modVec_core_bindTick (f : VecEng → VecEng) : (s.modVec f).core.bindTick = s.core.bindTick := rfl
@[simp] theorem modVec_core_preAt (f : VecEng → VecEng) : (s.modVec f).core.preAt = s.core.preAt := rfl
@[simp] theorem modVec_core_cycle (f : VecEng → VecEng) : (s.modVec f).core.cycle = s.core.cycle := rfl
@[simp] theorem modVec_core_skew (f : VecEng → VecEng) : (s.modVec f).core.skew = s.core.skew := rfl

@[simp] theorem modRun_coreId (f : Run → Run) : (s.modRun f).coreId = s.coreId := rfl
@[simp] theorem modRun_others (f : Run → Run) : (s.modRun f).others = s.others := rfl
@[simp] theorem modRun_clusters (f : Run → Run) : (s.modRun f).clusters = s.clusters := rfl
@[simp] theorem modRun_dies (f : Run → Run) : (s.modRun f).dies = s.dies := rfl
@[simp] theorem modRun_mem (f : Run → Run) : (s.modRun f).mem = s.mem := rfl
@[simp] theorem modRun_sched (f : Run → Run) : (s.modRun f).sched = s.sched := rfl
@[simp] theorem modRun_root (f : Run → Run) : (s.modRun f).root = s.root := rfl
@[simp] theorem modRun_time (f : Run → Run) : (s.modRun f).time = s.time := rfl
@[simp] theorem modRun_spire (f : Run → Run) : (s.modRun f).spire = s.spire := rfl
@[simp] theorem modRun_fence (f : Run → Run) : (s.modRun f).fence = s.fence := rfl
@[simp] theorem modRun_rsync (f : Run → Run) : (s.modRun f).rsync = s.rsync := rfl
@[simp] theorem modRun_ctrls (f : Run → Run) : (s.modRun f).ctrls = s.ctrls := rfl
@[simp] theorem modRun_trav (f : Run → Run) : (s.modRun f).trav = s.trav := rfl
@[simp] theorem modRun_fabric (f : Run → Run) : (s.modRun f).fabric = s.fabric := rfl
@[simp] theorem modRun_net (f : Run → Run) : (s.modRun f).net = s.net := rfl
@[simp] theorem modRun_groups (f : Run → Run) : (s.modRun f).groups = s.groups := rfl
@[simp] theorem modRun_agenda (f : Run → Run) : (s.modRun f).agenda = s.agenda := rfl
@[simp] theorem modRun_out (f : Run → Run) : (s.modRun f).out = s.out := rfl
@[simp] theorem modRun_free (f : Run → Run) : (s.modRun f).free = s.free := rfl
@[simp] theorem modRun_ticket (f : Run → Run) : (s.modRun f).ticket = s.ticket := rfl
@[simp] theorem modRun_archive (f : Run → Run) : (s.modRun f).archive = s.archive := rfl
@[simp] theorem modRun_core_regs (f : Run → Run) : (s.modRun f).core.regs = s.core.regs := rfl
@[simp] theorem modRun_core_front (f : Run → Run) : (s.modRun f).core.front = { s.core.front with run := s.core.front.run.map f } := rfl
@[simp] theorem modRun_core_task (f : Run → Run) : (s.modRun f).core.task = s.core.task := rfl
@[simp] theorem modRun_core_flight (f : Run → Run) : (s.modRun f).core.flight = s.core.flight := rfl
@[simp] theorem modRun_core_misses (f : Run → Run) : (s.modRun f).core.misses = s.core.misses := rfl
@[simp] theorem modRun_core_snap (f : Run → Run) : (s.modRun f).core.snap = s.core.snap := rfl
@[simp] theorem modRun_core_snapOps (f : Run → Run) : (s.modRun f).core.snapOps = s.core.snapOps := rfl
@[simp] theorem modRun_core_rcache (f : Run → Run) : (s.modRun f).core.rcache = s.core.rcache := rfl
@[simp] theorem modRun_core_vcache (f : Run → Run) : (s.modRun f).core.vcache = s.core.vcache := rfl
@[simp] theorem modRun_core_spad (f : Run → Run) : (s.modRun f).core.spad = s.core.spad := rfl
@[simp] theorem modRun_core_copy (f : Run → Run) : (s.modRun f).core.copy = s.core.copy := rfl
@[simp] theorem modRun_core_mx (f : Run → Run) : (s.modRun f).core.mx = s.core.mx := rfl
@[simp] theorem modRun_core_vec (f : Run → Run) : (s.modRun f).core.vec = s.core.vec := rfl
@[simp] theorem modRun_core_chans (f : Run → Run) : (s.modRun f).core.chans = s.core.chans := rfl
@[simp] theorem modRun_core_chdrop (f : Run → Run) : (s.modRun f).core.chdrop = s.core.chdrop := rfl
@[simp] theorem modRun_core_seq (f : Run → Run) : (s.modRun f).core.seq = s.core.seq := rfl
@[simp] theorem modRun_core_preempt (f : Run → Run) : (s.modRun f).core.preempt = s.core.preempt := rfl
@[simp] theorem modRun_core_asked (f : Run → Run) : (s.modRun f).core.asked = s.core.asked := rfl
@[simp] theorem modRun_core_askedAt (f : Run → Run) : (s.modRun f).core.askedAt = s.core.askedAt := rfl
@[simp] theorem modRun_core_answer (f : Run → Run) : (s.modRun f).core.answer = s.core.answer := rfl
@[simp] theorem modRun_core_slotHeld (f : Run → Run) : (s.modRun f).core.slotHeld = s.core.slotHeld := rfl
@[simp] theorem modRun_core_published (f : Run → Run) : (s.modRun f).core.published = s.core.published := rfl
@[simp] theorem modRun_core_released (f : Run → Run) : (s.modRun f).core.released = s.core.released := rfl
@[simp] theorem modRun_core_compacted (f : Run → Run) : (s.modRun f).core.compacted = s.core.compacted := rfl
@[simp] theorem modRun_core_sstep (f : Run → Run) : (s.modRun f).core.sstep = s.core.sstep := rfl
@[simp] theorem modRun_core_spireOut (f : Run → Run) : (s.modRun f).core.spireOut = s.core.spireOut := rfl
@[simp] theorem modRun_core_bindTick (f : Run → Run) : (s.modRun f).core.bindTick = s.core.bindTick := rfl
@[simp] theorem modRun_core_preAt (f : Run → Run) : (s.modRun f).core.preAt = s.core.preAt := rfl
@[simp] theorem modRun_core_cycle (f : Run → Run) : (s.modRun f).core.cycle = s.core.cycle := rfl
@[simp] theorem modRun_core_skew (f : Run → Run) : (s.modRun f).core.skew = s.core.skew := rfl

@[simp] theorem modZ_coreId (f : ZRegs → ZRegs) : (s.modZ f).coreId = s.coreId := rfl
@[simp] theorem modZ_others (f : ZRegs → ZRegs) : (s.modZ f).others = s.others := rfl
@[simp] theorem modZ_clusters (f : ZRegs → ZRegs) : (s.modZ f).clusters = s.clusters := rfl
@[simp] theorem modZ_dies (f : ZRegs → ZRegs) : (s.modZ f).dies = s.dies := rfl
@[simp] theorem modZ_mem (f : ZRegs → ZRegs) : (s.modZ f).mem = s.mem := rfl
@[simp] theorem modZ_sched (f : ZRegs → ZRegs) : (s.modZ f).sched = s.sched := rfl
@[simp] theorem modZ_root (f : ZRegs → ZRegs) : (s.modZ f).root = s.root := rfl
@[simp] theorem modZ_time (f : ZRegs → ZRegs) : (s.modZ f).time = s.time := rfl
@[simp] theorem modZ_spire (f : ZRegs → ZRegs) : (s.modZ f).spire = s.spire := rfl
@[simp] theorem modZ_fence (f : ZRegs → ZRegs) : (s.modZ f).fence = s.fence := rfl
@[simp] theorem modZ_rsync (f : ZRegs → ZRegs) : (s.modZ f).rsync = s.rsync := rfl
@[simp] theorem modZ_ctrls (f : ZRegs → ZRegs) : (s.modZ f).ctrls = s.ctrls := rfl
@[simp] theorem modZ_trav (f : ZRegs → ZRegs) : (s.modZ f).trav = s.trav := rfl
@[simp] theorem modZ_fabric (f : ZRegs → ZRegs) : (s.modZ f).fabric = s.fabric := rfl
@[simp] theorem modZ_net (f : ZRegs → ZRegs) : (s.modZ f).net = s.net := rfl
@[simp] theorem modZ_groups (f : ZRegs → ZRegs) : (s.modZ f).groups = s.groups := rfl
@[simp] theorem modZ_agenda (f : ZRegs → ZRegs) : (s.modZ f).agenda = s.agenda := rfl
@[simp] theorem modZ_out (f : ZRegs → ZRegs) : (s.modZ f).out = s.out := rfl
@[simp] theorem modZ_free (f : ZRegs → ZRegs) : (s.modZ f).free = s.free := rfl
@[simp] theorem modZ_ticket (f : ZRegs → ZRegs) : (s.modZ f).ticket = s.ticket := rfl
@[simp] theorem modZ_archive (f : ZRegs → ZRegs) : (s.modZ f).archive = s.archive := rfl
@[simp] theorem modZ_core_regs (f : ZRegs → ZRegs) : (s.modZ f).core.regs = { s.core.regs with z := f s.core.regs.z } := rfl
@[simp] theorem modZ_core_front (f : ZRegs → ZRegs) : (s.modZ f).core.front = s.core.front := rfl
@[simp] theorem modZ_core_task (f : ZRegs → ZRegs) : (s.modZ f).core.task = s.core.task := rfl
@[simp] theorem modZ_core_flight (f : ZRegs → ZRegs) : (s.modZ f).core.flight = s.core.flight := rfl
@[simp] theorem modZ_core_misses (f : ZRegs → ZRegs) : (s.modZ f).core.misses = s.core.misses := rfl
@[simp] theorem modZ_core_snap (f : ZRegs → ZRegs) : (s.modZ f).core.snap = s.core.snap := rfl
@[simp] theorem modZ_core_snapOps (f : ZRegs → ZRegs) : (s.modZ f).core.snapOps = s.core.snapOps := rfl
@[simp] theorem modZ_core_rcache (f : ZRegs → ZRegs) : (s.modZ f).core.rcache = s.core.rcache := rfl
@[simp] theorem modZ_core_vcache (f : ZRegs → ZRegs) : (s.modZ f).core.vcache = s.core.vcache := rfl
@[simp] theorem modZ_core_spad (f : ZRegs → ZRegs) : (s.modZ f).core.spad = s.core.spad := rfl
@[simp] theorem modZ_core_copy (f : ZRegs → ZRegs) : (s.modZ f).core.copy = s.core.copy := rfl
@[simp] theorem modZ_core_mx (f : ZRegs → ZRegs) : (s.modZ f).core.mx = s.core.mx := rfl
@[simp] theorem modZ_core_vec (f : ZRegs → ZRegs) : (s.modZ f).core.vec = s.core.vec := rfl
@[simp] theorem modZ_core_chans (f : ZRegs → ZRegs) : (s.modZ f).core.chans = s.core.chans := rfl
@[simp] theorem modZ_core_chdrop (f : ZRegs → ZRegs) : (s.modZ f).core.chdrop = s.core.chdrop := rfl
@[simp] theorem modZ_core_seq (f : ZRegs → ZRegs) : (s.modZ f).core.seq = s.core.seq := rfl
@[simp] theorem modZ_core_preempt (f : ZRegs → ZRegs) : (s.modZ f).core.preempt = s.core.preempt := rfl
@[simp] theorem modZ_core_asked (f : ZRegs → ZRegs) : (s.modZ f).core.asked = s.core.asked := rfl
@[simp] theorem modZ_core_askedAt (f : ZRegs → ZRegs) : (s.modZ f).core.askedAt = s.core.askedAt := rfl
@[simp] theorem modZ_core_answer (f : ZRegs → ZRegs) : (s.modZ f).core.answer = s.core.answer := rfl
@[simp] theorem modZ_core_slotHeld (f : ZRegs → ZRegs) : (s.modZ f).core.slotHeld = s.core.slotHeld := rfl
@[simp] theorem modZ_core_published (f : ZRegs → ZRegs) : (s.modZ f).core.published = s.core.published := rfl
@[simp] theorem modZ_core_released (f : ZRegs → ZRegs) : (s.modZ f).core.released = s.core.released := rfl
@[simp] theorem modZ_core_compacted (f : ZRegs → ZRegs) : (s.modZ f).core.compacted = s.core.compacted := rfl
@[simp] theorem modZ_core_sstep (f : ZRegs → ZRegs) : (s.modZ f).core.sstep = s.core.sstep := rfl
@[simp] theorem modZ_core_spireOut (f : ZRegs → ZRegs) : (s.modZ f).core.spireOut = s.core.spireOut := rfl
@[simp] theorem modZ_core_bindTick (f : ZRegs → ZRegs) : (s.modZ f).core.bindTick = s.core.bindTick := rfl
@[simp] theorem modZ_core_preAt (f : ZRegs → ZRegs) : (s.modZ f).core.preAt = s.core.preAt := rfl
@[simp] theorem modZ_core_cycle (f : ZRegs → ZRegs) : (s.modZ f).core.cycle = s.core.cycle := rfl
@[simp] theorem modZ_core_skew (f : ZRegs → ZRegs) : (s.modZ f).core.skew = s.core.skew := rfl

@[simp] theorem modStat_coreId (f : ZStat → ZStat) : (s.modStat f).coreId = s.coreId := rfl
@[simp] theorem modStat_others (f : ZStat → ZStat) : (s.modStat f).others = s.others := rfl
@[simp] theorem modStat_clusters (f : ZStat → ZStat) : (s.modStat f).clusters = s.clusters := rfl
@[simp] theorem modStat_dies (f : ZStat → ZStat) : (s.modStat f).dies = s.dies := rfl
@[simp] theorem modStat_mem (f : ZStat → ZStat) : (s.modStat f).mem = s.mem := rfl
@[simp] theorem modStat_sched (f : ZStat → ZStat) : (s.modStat f).sched = s.sched := rfl
@[simp] theorem modStat_root (f : ZStat → ZStat) : (s.modStat f).root = s.root := rfl
@[simp] theorem modStat_time (f : ZStat → ZStat) : (s.modStat f).time = s.time := rfl
@[simp] theorem modStat_spire (f : ZStat → ZStat) : (s.modStat f).spire = s.spire := rfl
@[simp] theorem modStat_fence (f : ZStat → ZStat) : (s.modStat f).fence = s.fence := rfl
@[simp] theorem modStat_rsync (f : ZStat → ZStat) : (s.modStat f).rsync = s.rsync := rfl
@[simp] theorem modStat_ctrls (f : ZStat → ZStat) : (s.modStat f).ctrls = s.ctrls := rfl
@[simp] theorem modStat_trav (f : ZStat → ZStat) : (s.modStat f).trav = s.trav := rfl
@[simp] theorem modStat_fabric (f : ZStat → ZStat) : (s.modStat f).fabric = s.fabric := rfl
@[simp] theorem modStat_net (f : ZStat → ZStat) : (s.modStat f).net = s.net := rfl
@[simp] theorem modStat_groups (f : ZStat → ZStat) : (s.modStat f).groups = s.groups := rfl
@[simp] theorem modStat_agenda (f : ZStat → ZStat) : (s.modStat f).agenda = s.agenda := rfl
@[simp] theorem modStat_out (f : ZStat → ZStat) : (s.modStat f).out = s.out := rfl
@[simp] theorem modStat_free (f : ZStat → ZStat) : (s.modStat f).free = s.free := rfl
@[simp] theorem modStat_ticket (f : ZStat → ZStat) : (s.modStat f).ticket = s.ticket := rfl
@[simp] theorem modStat_archive (f : ZStat → ZStat) : (s.modStat f).archive = s.archive := rfl
@[simp] theorem modStat_core_regs (f : ZStat → ZStat) : (s.modStat f).core.regs = { s.core.regs with z := { s.core.regs.z with stat := f s.core.regs.z.stat } } := rfl
@[simp] theorem modStat_core_front (f : ZStat → ZStat) : (s.modStat f).core.front = s.core.front := rfl
@[simp] theorem modStat_core_task (f : ZStat → ZStat) : (s.modStat f).core.task = s.core.task := rfl
@[simp] theorem modStat_core_flight (f : ZStat → ZStat) : (s.modStat f).core.flight = s.core.flight := rfl
@[simp] theorem modStat_core_misses (f : ZStat → ZStat) : (s.modStat f).core.misses = s.core.misses := rfl
@[simp] theorem modStat_core_snap (f : ZStat → ZStat) : (s.modStat f).core.snap = s.core.snap := rfl
@[simp] theorem modStat_core_snapOps (f : ZStat → ZStat) : (s.modStat f).core.snapOps = s.core.snapOps := rfl
@[simp] theorem modStat_core_rcache (f : ZStat → ZStat) : (s.modStat f).core.rcache = s.core.rcache := rfl
@[simp] theorem modStat_core_vcache (f : ZStat → ZStat) : (s.modStat f).core.vcache = s.core.vcache := rfl
@[simp] theorem modStat_core_spad (f : ZStat → ZStat) : (s.modStat f).core.spad = s.core.spad := rfl
@[simp] theorem modStat_core_copy (f : ZStat → ZStat) : (s.modStat f).core.copy = s.core.copy := rfl
@[simp] theorem modStat_core_mx (f : ZStat → ZStat) : (s.modStat f).core.mx = s.core.mx := rfl
@[simp] theorem modStat_core_vec (f : ZStat → ZStat) : (s.modStat f).core.vec = s.core.vec := rfl
@[simp] theorem modStat_core_chans (f : ZStat → ZStat) : (s.modStat f).core.chans = s.core.chans := rfl
@[simp] theorem modStat_core_chdrop (f : ZStat → ZStat) : (s.modStat f).core.chdrop = s.core.chdrop := rfl
@[simp] theorem modStat_core_seq (f : ZStat → ZStat) : (s.modStat f).core.seq = s.core.seq := rfl
@[simp] theorem modStat_core_preempt (f : ZStat → ZStat) : (s.modStat f).core.preempt = s.core.preempt := rfl
@[simp] theorem modStat_core_asked (f : ZStat → ZStat) : (s.modStat f).core.asked = s.core.asked := rfl
@[simp] theorem modStat_core_askedAt (f : ZStat → ZStat) : (s.modStat f).core.askedAt = s.core.askedAt := rfl
@[simp] theorem modStat_core_answer (f : ZStat → ZStat) : (s.modStat f).core.answer = s.core.answer := rfl
@[simp] theorem modStat_core_slotHeld (f : ZStat → ZStat) : (s.modStat f).core.slotHeld = s.core.slotHeld := rfl
@[simp] theorem modStat_core_published (f : ZStat → ZStat) : (s.modStat f).core.published = s.core.published := rfl
@[simp] theorem modStat_core_released (f : ZStat → ZStat) : (s.modStat f).core.released = s.core.released := rfl
@[simp] theorem modStat_core_compacted (f : ZStat → ZStat) : (s.modStat f).core.compacted = s.core.compacted := rfl
@[simp] theorem modStat_core_sstep (f : ZStat → ZStat) : (s.modStat f).core.sstep = s.core.sstep := rfl
@[simp] theorem modStat_core_spireOut (f : ZStat → ZStat) : (s.modStat f).core.spireOut = s.core.spireOut := rfl
@[simp] theorem modStat_core_bindTick (f : ZStat → ZStat) : (s.modStat f).core.bindTick = s.core.bindTick := rfl
@[simp] theorem modStat_core_preAt (f : ZStat → ZStat) : (s.modStat f).core.preAt = s.core.preAt := rfl
@[simp] theorem modStat_core_cycle (f : ZStat → ZStat) : (s.modStat f).core.cycle = s.core.cycle := rfl
@[simp] theorem modStat_core_skew (f : ZStat → ZStat) : (s.modStat f).core.skew = s.core.skew := rfl

@[simp] theorem send_core (m : OutMsg): (s.send m).core = s.core := rfl
@[simp] theorem send_coreId (m : OutMsg): (s.send m).coreId = s.coreId := rfl
@[simp] theorem send_others (m : OutMsg): (s.send m).others = s.others := rfl
@[simp] theorem send_clusters (m : OutMsg): (s.send m).clusters = s.clusters := rfl
@[simp] theorem send_dies (m : OutMsg): (s.send m).dies = s.dies := rfl
@[simp] theorem send_mem (m : OutMsg): (s.send m).mem = s.mem := rfl
@[simp] theorem send_sched (m : OutMsg): (s.send m).sched = s.sched := rfl
@[simp] theorem send_root (m : OutMsg): (s.send m).root = s.root := rfl
@[simp] theorem send_time (m : OutMsg): (s.send m).time = s.time := rfl
@[simp] theorem send_spire (m : OutMsg): (s.send m).spire = s.spire := rfl
@[simp] theorem send_fence (m : OutMsg): (s.send m).fence = s.fence := rfl
@[simp] theorem send_rsync (m : OutMsg): (s.send m).rsync = s.rsync := rfl
@[simp] theorem send_ctrls (m : OutMsg): (s.send m).ctrls = s.ctrls := rfl
@[simp] theorem send_trav (m : OutMsg): (s.send m).trav = s.trav := rfl
@[simp] theorem send_fabric (m : OutMsg): (s.send m).fabric = s.fabric := rfl
@[simp] theorem send_net (m : OutMsg): (s.send m).net = s.net := rfl
@[simp] theorem send_groups (m : OutMsg): (s.send m).groups = s.groups := rfl
@[simp] theorem send_agenda (m : OutMsg): (s.send m).agenda = s.agenda := rfl
@[simp] theorem send_out (m : OutMsg): (s.send m).out = s.out ++ [m] := rfl
@[simp] theorem send_free (m : OutMsg): (s.send m).free = s.free := rfl
@[simp] theorem send_ticket (m : OutMsg): (s.send m).ticket = s.ticket := rfl
@[simp] theorem send_archive (m : OutMsg): (s.send m).archive = s.archive := rfl

@[simp] theorem nextFree_core : (s.nextFree).core = s.core := rfl
@[simp] theorem nextFree_coreId : (s.nextFree).coreId = s.coreId := rfl
@[simp] theorem nextFree_others : (s.nextFree).others = s.others := rfl
@[simp] theorem nextFree_clusters : (s.nextFree).clusters = s.clusters := rfl
@[simp] theorem nextFree_dies : (s.nextFree).dies = s.dies := rfl
@[simp] theorem nextFree_mem : (s.nextFree).mem = s.mem := rfl
@[simp] theorem nextFree_sched : (s.nextFree).sched = s.sched := rfl
@[simp] theorem nextFree_root : (s.nextFree).root = s.root := rfl
@[simp] theorem nextFree_time : (s.nextFree).time = s.time := rfl
@[simp] theorem nextFree_spire : (s.nextFree).spire = s.spire := rfl
@[simp] theorem nextFree_fence : (s.nextFree).fence = s.fence := rfl
@[simp] theorem nextFree_rsync : (s.nextFree).rsync = s.rsync := rfl
@[simp] theorem nextFree_ctrls : (s.nextFree).ctrls = s.ctrls := rfl
@[simp] theorem nextFree_trav : (s.nextFree).trav = s.trav := rfl
@[simp] theorem nextFree_fabric : (s.nextFree).fabric = s.fabric := rfl
@[simp] theorem nextFree_net : (s.nextFree).net = s.net := rfl
@[simp] theorem nextFree_groups : (s.nextFree).groups = s.groups := rfl
@[simp] theorem nextFree_agenda : (s.nextFree).agenda = s.agenda := rfl
@[simp] theorem nextFree_out : (s.nextFree).out = s.out := rfl
@[simp] theorem nextFree_free : (s.nextFree).free = s.free + 1 := rfl
@[simp] theorem nextFree_ticket : (s.nextFree).ticket = s.ticket := rfl
@[simp] theorem nextFree_archive : (s.nextFree).archive = s.archive := rfl

end State

end Sys2Proof.Machine
end

