-- ==== Sys2Proof/Laws/Tables.lean ====
section
/-! SUPPORT. What reading, writing and erasing an entry of a table do, and the canonical form of home memory. -/

namespace Sys2Proof.Machine

theorem tget?_terase_same {α : Type} (t : Tab α) (n : Nat) : tget? (terase t n) n = none := by
  induction t with
  | nil => rfl
  | cons e t ih =>
    obtain ⟨k, w⟩ := e
    by_cases h : k = n
    · subst h; simpa [terase] using ih
    · simpa [terase, h, tget?] using ih

theorem tget?_terase_ne {α : Type} (t : Tab α) {n m : Nat} (h : m ≠ n) : tget? (terase t n) m = tget? t m := by
  induction t with
  | nil => rfl
  | cons e t ih =>
    obtain ⟨k, w⟩ := e
    by_cases hk : k = n
    · subst hk; simpa [terase, tget?, Ne.symm h] using ih
    · have : terase ((k, w) :: t) n = (k, w) :: terase t n := by simp [terase, hk]
      rw [this]; simp only [tget?, ih]

theorem tget?_tins_same {α : Type} (t : Tab α) (n : Nat) (v : α) (h : tget? t n = none) : tget? (tins t n v) n = some v := by
  induction t with
  | nil => simp [tins, tget?]
  | cons e t ih =>
    obtain ⟨k, w⟩ := e
    by_cases hk : k = n
    · simp [tget?, hk] at h
    · simp only [tget?, hk, if_false] at h
      simp only [tins]; split
      · simp [tget?]
      · simp [tget?, hk, ih h]

theorem tget?_tins_ne {α : Type} (t : Tab α) {n m : Nat} (v : α) (h : m ≠ n) : tget? (tins t n v) m = tget? t m := by
  induction t with
  | nil => simp [tins, tget?, Ne.symm h]
  | cons e t ih =>
    obtain ⟨k, w⟩ := e
    simp only [tins]; split
    · simp [tget?, Ne.symm h]
    · simp only [tget?, ih]

@[simp] theorem tget?_tset_same {α : Type} (t : Tab α) (n : Nat) (v : α) : tget? (tset t n v) n = some v :=
  tget?_tins_same _ n v (tget?_terase_same t n)

theorem tget?_tset_ne {α : Type} (t : Tab α) {n m : Nat} (v : α) (h : m ≠ n) : tget? (tset t n v) m = tget? t m := by
  rw [tset, tget?_tins_ne _ v h, tget?_terase_ne t h]

@[simp] theorem tget_tset_same {α : Type} (d : α) (t : Tab α) (n : Nat) (v : α) : tget d (tset t n v) n = v := by simp [tget]

theorem tget_tset_ne {α : Type} (d : α) (t : Tab α) {n m : Nat} (v : α) (h : m ≠ n) : tget d (tset t n v) m = tget d t m := by
  simp [tget, tget?_tset_ne t v h]

@[simp] theorem tget_tmod_same {α : Type} (d : α) (t : Tab α) (n : Nat) (f : α → α) : tget d (tmod d t n f) n = f (tget d t n) := by simp [tmod]

theorem tget_tmod_ne {α : Type} (d : α) (t : Tab α) {n m : Nat} (f : α → α) (h : m ≠ n) : tget d (tmod d t n f) m = tget d t m := by
  simp [tmod, tget_tset_ne d t _ h]

/-- A byte reads as what was last written to it, and no other byte changes. -/
@[simp] theorem cget_cset_same (cs : List Host.Cell) (a : Nat) (b : Byte) : cget (cset cs a b) a = b := by
  unfold cget cset
  split
  · rename_i h; simp [h, tget?_terase_same]
  · simp

theorem cget_cset_ne (cs : List Host.Cell) {a x : Nat} (b : Byte) (h : x ≠ a) : cget (cset cs a b) x = cget cs x := by
  unfold cget cset
  split
  · rw [tget?_terase_ne cs h]
  · rw [tget?_tset_ne cs b h]

/-! ### Strictly rising keys -/

/-- Are all keys above `k`? -/
def tabove {α : Type} (k : Nat) (t : Tab α) : Prop := ∀ e ∈ t, k < e.1

theorem tsorted_cons {α : Type} (k : Nat) (v : α) (t : Tab α) : tsorted ((k, v) :: t) = true ↔ tabove k t ∧ tsorted t = true := by
  induction t generalizing k v with
  | nil => simp [tsorted, tabove]
  | cons e t ih =>
    obtain ⟨l, w⟩ := e
    simp only [tsorted, Bool.and_eq_true, decide_eq_true_eq, ih l w]
    constructor
    · rintro ⟨h1, h2, h3⟩
      refine ⟨?_, h2, h3⟩
      intro e he
      rcases List.mem_cons.mp he with rfl | he
      · exact h1
      · exact Nat.lt_trans h1 (h2 e he)
    · rintro ⟨h1, h2, h3⟩
      exact ⟨h1 (l, w) (List.mem_cons_self ..), h2, h3⟩

theorem tsorted_filter {α : Type} (p : Nat × α → Bool) (t : Tab α) (h : tsorted t = true) : tsorted (t.filter p) = true := by
  induction t with
  | nil => rfl
  | cons e t ih =>
    obtain ⟨k, w⟩ := e
    rw [tsorted_cons] at h
    by_cases hp : p (k, w) = true
    · simp only [List.filter_cons, hp, if_true, tsorted_cons]
      exact ⟨fun e he => h.1 e (List.mem_of_mem_filter he), ih h.2⟩
    · simp only [List.filter_cons, hp]; exact ih h.2

theorem mem_tins {α : Type} (t : Tab α) (n : Nat) (v : α) (e : Nat × α) : e ∈ tins t n v ↔ e = (n, v) ∨ e ∈ t := by
  induction t with
  | nil => simp [tins]
  | cons x t ih =>
    obtain ⟨k, w⟩ := x
    simp only [tins]; split
    · simp
    · simp only [List.mem_cons, ih]; tauto

theorem tsorted_tins {α : Type} (t : Tab α) (n : Nat) (v : α) (h : tsorted t = true) (hn : tget? t n = none) : tsorted (tins t n v) = true := by
  induction t with
  | nil => rfl
  | cons x t ih =>
    obtain ⟨k, w⟩ := x
    by_cases hk : k = n
    · simp [tget?, hk] at hn
    · simp only [tget?, hk, if_false] at hn
      have h' := (tsorted_cons k w t).mp h
      simp only [tins]; split
      · rename_i hlt
        rw [tsorted_cons]
        refine ⟨?_, h⟩
        intro e he
        rcases List.mem_cons.mp he with rfl | he
        · exact hlt
        · exact Nat.lt_trans hlt (h'.1 e he)
      · rename_i hlt
        rw [tsorted_cons]
        refine ⟨?_, ih h'.2 hn⟩
        intro e he
        rcases (mem_tins t n v e).mp he with rfl | he
        · show k < n
          omega
        · exact h'.1 e he

theorem tsorted_tset {α : Type} (t : Tab α) (n : Nat) (v : α) (h : tsorted t = true) : tsorted (tset t n v) = true :=
  tsorted_tins _ n v (tsorted_filter _ t h) (tget?_terase_same t n)

/-- A write keeps the canonical form of home memory. -/
theorem wf_cset (cs : List Host.Cell) (a : Nat) (b : Byte) (h : Memory.wf cs = true) : Memory.wf (cset cs a b) = true := by
  unfold Memory.wf at h ⊢
  rw [Bool.and_eq_true] at h ⊢
  obtain ⟨h1, h2⟩ := h
  rw [List.all_eq_true] at h2 ⊢
  unfold cset
  split
  · exact ⟨tsorted_filter _ cs h1, fun e he => h2 e (List.mem_of_mem_filter he)⟩
  · rename_i hb
    refine ⟨tsorted_tset cs a b h1, ?_⟩
    intro e he
    rcases (mem_tins _ a b e).mp he with rfl | he
    · simpa using hb
    · exact h2 e (List.mem_of_mem_filter he)

/-- Dropping bytes keeps the canonical form of home memory. -/
theorem wf_filter (cs : List Host.Cell) (p : Host.Cell → Bool) (h : Memory.wf cs = true) : Memory.wf (cs.filter p) = true := by
  unfold Memory.wf at h ⊢
  rw [Bool.and_eq_true] at h ⊢
  obtain ⟨h1, h2⟩ := h
  rw [List.all_eq_true] at h2 ⊢
  exact ⟨tsorted_filter p cs h1, fun e he => h2 e (List.mem_of_mem_filter he)⟩

end Sys2Proof.Machine
end

