-- ==== Sys2Proof/Laws/Memory.lean ====
section
/-! SUPPORT. Home memory: what a write leaves at each byte, and that every operation on memory keeps its canonical form. -/

namespace Sys2Proof.Machine

/-! ### Bytes of home -/

theorem putByte_wf (m : Mem) (pa : Nat) (b : Byte) (st : Nat) (h : Memory.wf m.cells = true) : Memory.wf (m.putByte pa b st).cells = true := by
  unfold Mem.putByte
  split
  · exact wf_cset m.cells pa b h
  · exact h

theorem putBytes_wf (m : Mem) (st pa : Nat) (bs : List Byte) (h : Memory.wf m.cells = true) : Memory.wf (m.putBytes st pa bs).cells = true := by
  induction bs generalizing m pa with
  | nil => exact h
  | cons b bs ih => exact ih _ _ (putByte_wf m pa b st h)

theorem putCells_wf (m : Mem) (st d ia : Nat) (cs : List Host.Cell) (h : Memory.wf m.cells = true) :
    Memory.wf (cs.foldl (fun m c => m.putByte (d + (c.1 - ia)) c.2 st) m).cells = true := by
  induction cs generalizing m with
  | nil => exact h
  | cons c cs ih => exact ih _ (putByte_wf m _ _ st h)

theorem foldl_wf {β : Type} (f : Mem → β → Mem) (hf : ∀ m b, Memory.wf m.cells = true → Memory.wf (f m b).cells = true) (l : List β) (m : Mem)
    (h : Memory.wf m.cells = true) : Memory.wf (l.foldl f m).cells = true := by
  induction l generalizing m with
  | nil => exact h
  | cons b l ih => exact ih _ (hf m b h)

theorem moveGranule_wf (m : Mem) (src dst : Nat) (h : Memory.wf m.cells = true) : Memory.wf (m.moveGranule src dst).cells = true :=
  foldl_wf _ (fun m i hm => wf_cset m.cells (dst + i) (cget m.cells (src + i)) hm) _ m h

/-- A byte that no write names reads as before. -/
theorem putByte_other (m : Mem) {pa x : Nat} (b : Byte) (st : Nat) (h : x ≠ pa) : cget (m.putByte pa b st).cells x = cget m.cells x := by
  unfold Mem.putByte
  split
  · exact cget_cset_ne m.cells b h
  · rfl

/-- A byte takes the value of a write whose stamp is not below its own (R276). -/
theorem putByte_same (m : Mem) (pa : Nat) (b : Byte) {st : Nat} (h : tget 0 m.stamps pa ≤ st) : cget (m.putByte pa b st).cells pa = b := by
  rw [Mem.putByte, if_pos h]; exact cget_cset_same m.cells pa b

theorem putByte_stamp_other (m : Mem) {pa x : Nat} (b : Byte) (st : Nat) (h : x ≠ pa) : tget 0 (m.putByte pa b st).stamps x = tget 0 m.stamps x := by
  unfold Mem.putByte
  split
  · exact tget_tset_ne 0 m.stamps st h
  · rfl

theorem putBytes_other (m : Mem) (st pa : Nat) (bs : List Byte) {x : Nat} (h : x < pa ∨ pa + bs.length ≤ x) :
    cget (m.putBytes st pa bs).cells x = cget m.cells x := by
  induction bs generalizing m pa with
  | nil => rfl
  | cons b bs ih =>
    simp only [List.length_cons] at h
    rw [Mem.putBytes, ih _ _ (by omega)]
    exact putByte_other m b st (by omega)

theorem putBytes_same (m : Mem) (st pa : Nat) (bs : List Byte) {x : Nat} (h : ∀ i, i < bs.length → tget 0 m.stamps (pa + i) ≤ st) (hx : pa ≤ x)
    (hy : x < pa + bs.length) : cget (m.putBytes st pa bs).cells x = bs.getD (x - pa) 0 := by
  induction bs generalizing m pa with
  | nil => simp at hy; omega
  | cons b bs ih =>
    simp only [List.length_cons] at h hy
    rw [Mem.putBytes]
    by_cases hp : x = pa
    · subst hp
      rw [putBytes_other _ _ _ _ (by omega), putByte_same m x b (by simpa using h 0 (by omega))]
      simp
    · rw [ih (m.putByte pa b st) (pa + 1) (fun i hi => ?_) (by omega) (by omega)]
      · obtain ⟨k, rfl⟩ : ∃ k, x = pa + 1 + k := ⟨x - (pa + 1), by omega⟩
        rw [show pa + 1 + k - pa = k + 1 by omega, show pa + 1 + k - (pa + 1) = k by omega]
        simp
      · rw [putByte_stamp_other m b st (by omega)]
        have := h (i + 1) (by omega)
        rwa [show pa + (i + 1) = pa + 1 + i by omega] at this

/-! ### What leaves home memory as it is -/

namespace State

theorem trigger_mem (s : State) (n : Nat) : (s.trigger n).mem = s.mem := by
  unfold State.trigger
  dsimp only
  split_ifs <;> rfl

theorem corrected_mem (s : State) (n : Nat) : (s.corrected n).mem = s.mem := by
  unfold State.corrected
  dsimp only
  split_ifs
  · rw [trigger_mem]; rfl
  · rfl

@[simp] theorem request_mem (s : State) (pa : Nat) : (s.request pa).mem = s.mem := rfl

theorem readBlock_mem (s : State) (pa : Nat) (w : Bool) : (s.readBlock pa w).1.mem = s.mem := by
  unfold State.readBlock
  dsimp only
  split
  · split <;> first | rfl | (rw [corrected_mem]; rfl)
  · rfl

theorem openImage_mem (s : State) (ia pa : Nat) : (s.openImage ia pa).mem = s.mem := by
  unfold State.openImage
  split <;> rfl

@[simp] theorem countParity_mem (s : State) (d : Nat) : (s.countParity d).mem = s.mem := rfl

@[simp] theorem readPteOnce_mem (s : State) (pa l : Nat) : (s.readPteOnce pa l).1.mem = s.mem := readBlock_mem _ _ _

theorem readCritical_mem (s : State) (d pa l : Nat) (a : Option Pte) : (s.readCritical d pa l a).1.mem = s.mem := by
  unfold State.readCritical
  dsimp only
  repeat' split
  all_goals simp only [readPteOnce_mem, countParity_mem]

theorem readPte_mem (s : State) (d pa l : Nat) : (s.readPte d pa l).1.mem = s.mem := by
  unfold State.readPte
  dsimp only
  repeat' split
  all_goals simp only [readPteOnce_mem, countParity_mem, readCritical_mem]

theorem walkEntry_mem (s : State) (d c pa l off : Nat) : (s.walkEntry d c pa l off).1.mem = s.mem := by
  have hl : ∀ t : State, t.mem = s.mem → (match t.readPte d pa l with
      | (u, PteRead.entry e) => (u.modDie d fun x => x.keep { ctrl := c, level := l, tag := walkTag l off, pte := e }, PteRead.entry e)
      | r => r).1.mem = s.mem := fun t ht => by
    have h := readPte_mem t d pa l
    split
    · rename_i u e hq; rw [hq] at h; exact h.trans ht
    · exact h.trans ht
  unfold State.walkEntry
  dsimp only
  split
  · split_ifs
    · rfl
    · exact hl _ rfl
  · exact hl _ rfl

theorem walkTable_mem (s : State) (d c off : Nat) : (s.walkTable d c off).1.mem = s.mem := by
  unfold State.walkTable
  split
  · rfl
  have h2 := walkEntry_mem s d c (fld s.root.ptroot.toNat 20 28 * 2 ^ 20 + 16 * fld off 34 16) 2 off
  dsimp only
  split
  · rename_i q; rw [q] at h2; exact h2
  · rename_i q; rw [q] at h2; exact h2
  · rename_i s2 p2 q
    rw [q] at h2
    split
    · exact h2
    have h1 := walkEntry_mem s2 d c (p2.pa + 16 * fld off 25 9) 1 off
    split
    · rename_i q; rw [q] at h1; exact h1.trans h2
    · rename_i q; rw [q] at h1; exact h1.trans h2
    · rename_i s1 p1 q
      rw [q] at h1
      have h0 := readPte_mem s1 d (p1.pa + 16 * fld off 16 9) 0
      split
      · exact h1.trans h2
      split
      · split <;> exact h1.trans h2
      split
      · rename_i q; rw [q] at h0; exact h0.trans (h1.trans h2)
      · rename_i q; rw [q] at h0; exact h0.trans (h1.trans h2)
      · rename_i q; rw [q] at h0
        repeat' split
        all_goals exact h0.trans (h1.trans h2)

theorem walkMiss_mem (s : State) (d c off : Nat) : (s.walkMiss d c off).1.mem = s.mem := by
  unfold State.walkMiss
  dsimp only
  split <;> exact walkTable_mem s d c off

/-- A walk changes no byte, stamp or record of memory (R293). -/
theorem walk_mem (s : State) (d ia : Nat) : (s.walk d ia).1.mem = s.mem := by
  unfold State.walk
  dsimp only
  repeat' split
  all_goals first | rfl | exact walkMiss_mem _ _ _ _

/-! ### Every operation on home memory keeps its canonical form -/

theorem memWf_of_mem {s t : State} (h : s.memWf = true) (e : t.mem = s.mem) : t.memWf = true := by
  unfold State.memWf at *
  rw [e]; exact h

theorem modMem_wf {s : State} {f : Mem → Mem} (h : s.memWf = true) (hf : ∀ m, Memory.wf m.cells = true → Memory.wf (f m).cells = true) :
    (s.modMem f).memWf = true := hf s.mem h

/-- Memory has the canonical form right after reset. -/
theorem reset_memWf : State.reset.memWf = true := by decide

theorem takeStamp_wf (s : State) (h : s.memWf = true) : (s.takeStamp).1.memWf = true := modMem_wf h fun _ h => h

theorem touch_wf (s : State) (ia pa : Nat) (h : s.memWf = true) : (s.touch ia pa).1.memWf = true := by
  have h1 : ((s.readBlock pa false).1).memWf = true := memWf_of_mem h (readBlock_mem s pa false)
  unfold State.touch
  dsimp only
  repeat' split
  all_goals exact h1

theorem touchRange_wf (s : State) (ia pa n : Nat) (h : s.memWf = true) : (s.touchRange ia pa n).1.memWf = true := by
  induction n with
  | zero => exact touch_wf s ia pa h
  | succ n ih => exact touch_wf _ _ _ ih

theorem homeRead_wf (s : State) (ia pa n : Nat) (h : s.memWf = true) : (s.homeRead ia pa n).1.memWf = true := touchRange_wf s ia pa _ h

theorem homePut_wf (s : State) (ia pa : Nat) (bs : List Byte) (st : Nat) (h : s.memWf = true) : (s.homePut ia pa bs st).1.memWf = true := by
  unfold State.homePut
  dsimp only
  split_ifs
  · exact h
  · exact modMem_wf (memWf_of_mem h (openImage_mem s ia pa)) fun m h => putBytes_wf m st pa bs h

theorem homeWrite_wf (s : State) (ia pa : Nat) (bs : List Byte) (st : Nat) (h : s.memWf = true) : (s.homeWrite ia pa bs st).1.memWf = true :=
  homePut_wf _ ia pa bs st (memWf_of_mem h rfl)

theorem homeStore_go_wf (st f : Nat) (s : State) (ia pa : Nat) (bs : List Byte) (h : s.memWf = true) :
    (State.homeStore.go st f s ia pa bs).1.memWf = true := by
  induction f generalizing s ia pa bs with
  | zero => exact h
  | succ f ih =>
    unfold State.homeStore.go
    dsimp only
    split_ifs
    · exact h
    · exact ih _ _ _ _ (homeWrite_wf s ia pa _ st h)

theorem homeStore_wf (s : State) (ia pa : Nat) (bs : List Byte) (h : s.memWf = true) : (s.homeStore ia pa bs).1.memWf = true :=
  homeStore_go_wf _ _ _ _ _ _ (takeStamp_wf s h)

theorem homeCells_wf (s : State) (ia pa : Nat) (cs : List Host.Cell) (st : Nat) (h : s.memWf = true) : (s.homeCells ia pa cs st).memWf = true :=
  modMem_wf (memWf_of_mem h (openImage_mem (s.request pa) ia pa)) fun _ h => putCells_wf _ st pa ia _ h

theorem putGranule_wf (s : State) (k : Nat) (bs : List Byte) (h : s.memWf = true) : (s.putGranule k bs).memWf = true := by
  unfold State.putGranule
  split
  · exact h
  · exact modMem_wf (takeStamp_wf s h) fun m h => putBytes_wf m _ _ bs h

theorem foldStaged_wf (s : State) (n : Nat) (d : Staged) (h : s.memWf = true) : (s.foldStaged n d).1.memWf = true := by
  unfold State.foldStaged
  dsimp only
  split
  · exact h
  · generalize 128 = k
    exact modMem_wf (takeStamp_wf s h) fun m h => putBytes_wf m _ _ _ h

theorem takePage_wf (s : State) (page frame : Nat) (data : List Byte) (h : s.memWf = true) : (s.takePage page frame data).memWf = true := by
  unfold State.takePage
  dsimp only
  generalize data.take 65536 = d
  generalize (s.fabric.roamCfg.toNat / 65536 + frame) * 65536 = pa
  exact putBytes_wf _ _ pa d h

theorem readGranule_wf (s : State) (pa : Nat) (h : s.memWf = true) : (s.readGranule pa).1.memWf = true := by
  unfold State.readGranule
  suffices hl : ∀ (l : List Nat) (acc : State × List Nat), acc.1.memWf = true → (l.foldl (fun (acc : State × List Nat) i =>
      ((acc.1.readBlock (pa + 64 * i) false).1, if (acc.1.readBlock (pa + 64 * i) false).2 == .bad then acc.2 ++ [pa / 64 + i] else acc.2)) acc).1.memWf = true from
    hl _ _ h
  intro l
  induction l with
  | nil => exact fun _ h => h
  | cons i l ih => exact fun acc h => ih _ (memWf_of_mem h (readBlock_mem acc.1 _ false))

theorem healGranule_wf (s : State) (pa : Nat) (h : s.memWf = true) : (s.healGranule pa).memWf = true := modMem_wf h fun _ h => h

theorem iaStore_wf (s : State) (ia : Nat) (bs : List Byte) (h : s.memWf = true) : (s.iaStore ia bs).memWf = true := by
  have hw := memWf_of_mem h (walk_mem s 0 ia)
  unfold State.iaStore
  dsimp only
  split
  · exact homeStore_wf _ _ _ _ hw
  · exact hw

theorem faultRecord_wf (s : State) (f : FaultInfo) (h : s.memWf = true) : (s.faultRecord f).memWf = true := by
  unfold State.faultRecord
  dsimp only
  split_ifs
  · exact h
  · exact iaStore_wf _ _ _ (memWf_of_mem h rfl)

theorem granuleDone_mem (s : State) : s.granuleDone.mem = s.mem := by
  unfold State.granuleDone
  dsimp only
  repeat' split
  all_goals first | rfl | rw [trigger_mem]; rfl

theorem zeroLost_wf (s : State) (h : s.memWf = true) : s.zeroLost.memWf = true := by
  unfold State.zeroLost
  dsimp only
  generalize 2048 * s.trav.gran = pa
  refine memWf_of_mem ?_ (granuleDone_mem _)
  refine memWf_of_mem (modMem_wf (healGranule_wf _ pa ?_) fun m h => wf_filter m.cells (fun c => c.1 / 2048 != pa / 2048) h) (modTrav_mem _ _)
  exact h

theorem mirrorEntry_wf (s : State) (q : Nat) (h : s.memWf = true) : (s.mirrorEntry q).memWf = true := by
  unfold State.mirrorEntry
  dsimp only
  generalize fld s.root.journal.mirror.toNat 22 25 * 2 ^ 22 + 64 * (q % 65536) = pa
  split
  · exact h
  · split_ifs
    · exact h
    · generalize (JEntry.bytes _) = bs
      exact putBytes_wf _ _ pa bs h

theorem zeroParity_wf (s : State) (n : Nat) (h : s.memWf = true) : (s.zeroParity n).memWf = true := by
  unfold State.zeroParity
  dsimp only
  generalize (List.range _) = l
  generalize (s.group n) = g
  induction l generalizing s with
  | nil => exact h
  | cons i l ih =>
    refine ih _ ?_
    dsimp only
    split
    · exact h
    · exact modMem_wf h fun m h => wf_filter m.cells _ h

theorem append_wf (s : State) (ia n : Nat) (cs : List Host.Cell) (c : Bool) (inc : BitVec 16) (h : s.memWf = true) :
    (s.append ia n cs c inc).memWf = true := h

theorem discard_wf (s : State) (p : Rec → Bool) (h : s.memWf = true) : (s.discard p).memWf = true := h

/-- Sending changes only the fabric and what has left the device (R356 to R358). -/
def SentOnly (s t : State) : Prop := ∃ f o, t = { s with fabric := f, out := o }

theorem SentOnly.refl (s : State) : SentOnly s s := ⟨s.fabric, s.out, rfl⟩

theorem SentOnly.trans {s t u : State} : SentOnly s t → SentOnly t u → SentOnly s u := by
  rintro ⟨f, o, rfl⟩ ⟨g, p, rfl⟩; exact ⟨g, p, rfl⟩

theorem modFabric_sent (s : State) (f : Fabric → Fabric) : SentOnly s (s.modFabric f) := ⟨_, s.out, rfl⟩

theorem send_sent (s : State) (m : OutMsg) : SentOnly s (s.send m) := ⟨s.fabric, _, rfl⟩

theorem newKey_sent (s : State) (d : Nat) : SentOnly s (s.newKey d) := (modFabric_sent s _).trans (modFabric_sent _ _)

theorem putFrame_sent (s : State) (k d : Nat) (w : Wire) : SentOnly s (s.putFrame k d w) := by
  unfold State.putFrame
  split
  · exact modFabric_sent s _
  · have hk : SentOnly s (if s.keyed d = true ∧ 2 ^ 32 ≤ (s.peer d).txFrames + 1 then s.newKey d else s) := by
      split
      · exact newKey_sent s d
      · exact SentOnly.refl s
    exact hk.trans ((modFabric_sent _ _).trans ((modFabric_sent _ _).trans (send_sent _ _)))

theorem putOn_sent (s : State) (b : Bool) (w : Wire) : SentOnly s (s.putOn b w) := by
  unfold State.putOn
  dsimp only
  split
  · refine SentOnly.trans ?_ (putFrame_sent _ _ _ _)
    split
    · exact modFabric_sent s _
    · exact SentOnly.refl s
  · exact modFabric_sent s _

theorem putFrames_sent (s : State) (d : Nat) (x : OutMsg) (b : Bool) (n : Nat) : SentOnly s (s.putFrames d x b n) := by
  induction n generalizing s with
  | zero => exact SentOnly.refl s
  | succ n ih => exact (modFabric_sent s _).trans ((putOn_sent _ _ _).trans (ih _))

theorem postAs_sent (s : State) (d : Nat) (b : Bool) (x : OutMsg) : SentOnly s (s.postAs d b x) := (send_sent s x).trans (putFrames_sent _ _ _ _ _)

theorem SentOnly.mem {s t : State} : SentOnly s t → t.mem = s.mem := by
  rintro ⟨f, o, rfl⟩; rfl

theorem postAs_mem (s : State) (d : Nat) (b : Bool) (x : OutMsg) : (s.postAs d b x).mem = s.mem := (postAs_sent s d b x).mem

theorem post_mem (s : State) (d : Nat) (x : OutMsg) : (s.post d x).mem = s.mem := postAs_mem _ _ _ _

theorem sendReq_mem (s : State) (d a : Nat) (inc : BitVec 16) (op : ReqOp) : (s.sendReq d a inc op).mem = s.mem := by
  unfold State.sendReq State.noteAccess
  rw [post_mem]
  split_ifs <;> rfl

/-! ### Compaction (R276) -/

theorem refreshLines_mem (s : State) (cs : List Host.Cell) (st : Nat) : (s.refreshLines cs st).mem = s.mem := rfl

theorem applyGranule_wf (s : State) (d : Nat) (r : Rec) (cs : List Host.Cell) (h : s.memWf = true) : (s.applyGranule d r cs).1.memWf = true := by
  cases cs with
  | nil => exact h
  | cons c cs =>
    have hw := memWf_of_mem h (walk_mem s d c.1)
    unfold State.applyGranule
    dsimp only
    generalize s.walk d c.1 = q at hw ⊢
    obtain ⟨t, w⟩ := q
    dsimp only at hw ⊢
    cases w with
    | page pa m =>
      dsimp only
      split
      · exact hw
      · exact memWf_of_mem (homeCells_wf _ _ _ _ _ hw) (refreshLines_mem _ _ _)
    | lost => exact faultRecord_wf _ _ hw
    | _ => exact hw

theorem applyGranules_wf (s : State) (d : Nat) (r : Rec) (b gs : List Nat) (h : s.memWf = true) : (s.applyGranules d r b gs).1.memWf = true := by
  induction gs generalizing s with
  | nil => exact h
  | cons g gs ih =>
    rw [State.applyGranules]
    refine ih _ ?_
    by_cases hb : b.contains g = true
    · rw [if_pos hb]; exact h
    · rw [if_neg hb]; exact applyGranule_wf _ _ _ _ h

/-- Compaction of one record keeps the canonical form (R276). -/
theorem compactRec_wf (s : State) (r : Rec) (b : List Nat) (h : s.memWf = true) : (s.compactRec r b).1.memWf = true := by
  unfold State.compactRec
  dsimp only
  have ha := applyGranules_wf s (dieOf r.core) r b (cellGranules r.cells) h
  split_ifs
  · exact ha
  · exact ha
  · exact faultRecord_wf _ _ (memWf_of_mem h rfl)
  · exact memWf_of_mem (s := s.modMem fun m => m.modRec r fun x => { x with sent := true }) h (sendReq_mem _ _ _ _ _)
  · exact h

theorem compactList_wf (s : State) (b : List Nat) (rs : List Rec) (h : s.memWf = true) : (s.compactList b rs).1.memWf = true := by
  induction rs generalizing s b with
  | nil => exact h
  | cons r rs ih => exact ih _ _ (compactRec_wf s r b h)

theorem compact_wf (s : State) (p : Rec → Nat → Bool) (h : s.memWf = true) : (s.compact p).1.memWf = true := compactList_wf _ _ _ h

end State

end Sys2Proof.Machine
end

