-- ==== Sys2Proof/Laws/Frames.lean ====
section
/-! SUPPORT. What operations on home memory, on records and on variables leave unchanged of the focused core. -/

namespace Sys2Proof.Machine

/-- The focused core is the same but for its view cache. -/
def SameCore (s t : State) : Prop := t.core = { s.core with vcache := t.core.vcache }

theorem SameCore.refl (s : State) : SameCore s s := rfl

theorem SameCore.of_eq {s t : State} (h : t.core = s.core) : SameCore s t := by unfold SameCore; rw [h]

theorem SameCore.trans {s t u : State} (h : SameCore s t) (g : SameCore t u) : SameCore s u := by
  unfold SameCore at *
  rw [g, h]

theorem SameCore.regs {s t : State} (h : SameCore s t) : t.core.regs = s.core.regs := by rw [h]
theorem SameCore.task {s t : State} (h : SameCore s t) : t.core.task = s.core.task := by rw [h]
theorem SameCore.flight {s t : State} (h : SameCore s t) : t.core.flight = s.core.flight := by rw [h]
theorem SameCore.front {s t : State} (h : SameCore s t) : t.core.front = s.core.front := by rw [h]
theorem SameCore.spad {s t : State} (h : SameCore s t) : t.core.spad = s.core.spad := by rw [h]
theorem SameCore.released {s t : State} (h : SameCore s t) : t.core.released = s.core.released := by rw [h]

namespace State

theorem trigger_core (s : State) (n : Nat) : (s.trigger n).core = s.core := by
  unfold State.trigger
  dsimp only
  split_ifs <;> rfl

theorem corrected_core (s : State) (n : Nat) : (s.corrected n).core = s.core := by
  unfold State.corrected
  dsimp only
  split_ifs
  · rw [trigger_core]; rfl
  · rfl

theorem readBlock_core (s : State) (pa : Nat) (w : Bool) : (s.readBlock pa w).1.core = s.core := by
  unfold State.readBlock
  dsimp only
  split
  · split <;> first | rfl | (rw [corrected_core]; rfl)
  · rfl

@[simp] theorem countParity_core (s : State) (d : Nat) : (s.countParity d).core = s.core := rfl

@[simp] theorem readPteOnce_core (s : State) (pa l : Nat) : (s.readPteOnce pa l).1.core = s.core := readBlock_core _ _ _

theorem readCritical_core (s : State) (d pa l : Nat) (a : Option Pte) : (s.readCritical d pa l a).1.core = s.core := by
  unfold State.readCritical
  dsimp only
  repeat' split
  all_goals simp only [readPteOnce_core, countParity_core]

theorem readPte_core (s : State) (d pa l : Nat) : (s.readPte d pa l).1.core = s.core := by
  unfold State.readPte
  dsimp only
  repeat' split
  all_goals simp only [readPteOnce_core, countParity_core, readCritical_core]

theorem walkEntry_core (s : State) (d c pa l off : Nat) : (s.walkEntry d c pa l off).1.core = s.core := by
  have hl : ∀ t : State, t.core = s.core → (match t.readPte d pa l with
      | (u, PteRead.entry e) => (u.modDie d fun x => x.keep { ctrl := c, level := l, tag := walkTag l off, pte := e }, PteRead.entry e)
      | r => r).1.core = s.core := fun t ht => by
    have h := readPte_core t d pa l
    split
    · rename_i u e hq; rw [hq] at h; exact h.trans ht
    · exact h.trans ht
  unfold State.walkEntry
  dsimp only
  split
  · split_ifs
    · rfl
    · exact hl _ rfl
  · exact hl _ rfl

theorem walkTable_core (s : State) (d c off : Nat) : (s.walkTable d c off).1.core = s.core := by
  unfold State.walkTable
  split
  · rfl
  have h2 := walkEntry_core s d c (fld s.root.ptroot.toNat 20 28 * 2 ^ 20 + 16 * fld off 34 16) 2 off
  dsimp only
  split
  · rename_i q; rw [q] at h2; exact h2
  · rename_i q; rw [q] at h2; exact h2
  · rename_i s2 p2 q
    rw [q] at h2
    split
    · exact h2
    have h1 := walkEntry_core s2 d c (p2.pa + 16 * fld off 25 9) 1 off
    split
    · rename_i q; rw [q] at h1; exact h1.trans h2
    · rename_i q; rw [q] at h1; exact h1.trans h2
    · rename_i s1 p1 q
      rw [q] at h1
      have h0 := readPte_core s1 d (p1.pa + 16 * fld off 16 9) 0
      split
      · exact h1.trans h2
      split
      · split <;> exact h1.trans h2
      split
      · rename_i q; rw [q] at h0; exact h0.trans (h1.trans h2)
      · rename_i q; rw [q] at h0; exact h0.trans (h1.trans h2)
      · rename_i q; rw [q] at h0
        repeat' split
        all_goals exact h0.trans (h1.trans h2)

theorem walkMiss_core (s : State) (d c off : Nat) : (s.walkMiss d c off).1.core = s.core := by
  unfold State.walkMiss
  dsimp only
  split <;> exact walkTable_core s d c off

/-- A walk changes nothing of the core (R293). -/
theorem walk_core (s : State) (d ia : Nat) : (s.walk d ia).1.core = s.core := by
  unfold State.walk
  dsimp only
  repeat' split
  all_goals first | rfl | exact walkMiss_core _ _ _ _

theorem touch_core (s : State) (ia pa : Nat) : (s.touch ia pa).1.core = s.core := by
  unfold State.touch
  dsimp only
  repeat' split
  all_goals exact readBlock_core s pa false

theorem touchRange_core (s : State) (ia pa n : Nat) : (s.touchRange ia pa n).1.core = s.core := by
  induction n with
  | zero => exact touch_core s ia pa
  | succ n ih => exact (touch_core _ _ _).trans ih

theorem homeRead_core (s : State) (ia pa n : Nat) : (s.homeRead ia pa n).1.core = s.core := touchRange_core s ia pa _

theorem openImage_core (s : State) (ia pa : Nat) : (s.openImage ia pa).core = s.core := by
  unfold State.openImage
  split <;> rfl

theorem homePut_core (s : State) (ia pa : Nat) (bs : List Byte) (st : Nat) : (s.homePut ia pa bs st).1.core = s.core := by
  unfold State.homePut
  dsimp only
  split_ifs
  · rfl
  · exact openImage_core s ia pa

theorem homeWrite_core (s : State) (ia pa : Nat) (bs : List Byte) (st : Nat) : (s.homeWrite ia pa bs st).1.core = s.core :=
  homePut_core (s.request pa) ia pa bs st

theorem homeStore_go_core (st f : Nat) (s : State) (ia pa : Nat) (bs : List Byte) : (State.homeStore.go st f s ia pa bs).1.core = s.core := by
  induction f generalizing s ia pa bs with
  | zero => rfl
  | succ f ih =>
    unfold State.homeStore.go
    dsimp only
    split_ifs
    · rfl
    · exact (ih _ _ _ _).trans (homeWrite_core s ia pa _ st)

theorem homeStore_core (s : State) (ia pa : Nat) (bs : List Byte) : (s.homeStore ia pa bs).1.core = s.core := homeStore_go_core _ _ _ _ _ _

theorem iaStore_core (s : State) (ia : Nat) (bs : List Byte) : (s.iaStore ia bs).core = s.core := by
  unfold State.iaStore
  dsimp only
  split
  · exact (homeStore_core _ _ _ _).trans (walk_core s 0 ia)
  · exact walk_core s 0 ia

theorem faultRecord_core (s : State) (f : FaultInfo) : (s.faultRecord f).core = s.core := by
  unfold State.faultRecord
  dsimp only
  split_ifs
  · rfl
  · exact iaStore_core _ _ _

theorem SentOnly.core {s t : State} : SentOnly s t → t.core = s.core := by
  rintro ⟨f, o, rfl⟩; rfl

theorem post_core (s : State) (d : Nat) (x : OutMsg) : (s.post d x).core = s.core := (postAs_sent s d _ x).core

theorem sendReq_core (s : State) (d a : Nat) (inc : BitVec 16) (op : ReqOp) : (s.sendReq d a inc op).core = s.core := by
  unfold State.sendReq State.noteAccess
  rw [post_core]
  split_ifs <;> rfl

theorem homeCells_core (s : State) (ia pa : Nat) (cs : List Host.Cell) (st : Nat) : (s.homeCells ia pa cs st).core = s.core :=
  openImage_core (s.request pa) ia pa

theorem refreshLines_core (s : State) (cs : List Host.Cell) (st : Nat) : SameCore s (s.refreshLines cs st) := rfl

theorem applyGranule_core (s : State) (d : Nat) (r : Rec) (cs : List Host.Cell) : SameCore s (s.applyGranule d r cs).1 := by
  cases cs with
  | nil => exact rfl
  | cons c cs =>
    have hw := walk_core s d c.1
    unfold State.applyGranule
    dsimp only
    generalize s.walk d c.1 = q at hw ⊢
    obtain ⟨t, w⟩ := q
    dsimp only at hw ⊢
    cases w with
    | page pa m =>
      dsimp only
      split
      · exact SameCore.of_eq hw
      · exact ((SameCore.of_eq hw).trans (SameCore.of_eq (homeCells_core _ _ _ _ _))).trans (refreshLines_core _ _ _)
    | lost => exact (SameCore.of_eq hw).trans (SameCore.of_eq (faultRecord_core _ _))
    | _ => exact SameCore.of_eq hw

theorem applyGranules_core (s : State) (d : Nat) (r : Rec) (b gs : List Nat) : SameCore s (s.applyGranules d r b gs).1 := by
  induction gs generalizing s with
  | nil => exact rfl
  | cons g gs ih =>
    rw [State.applyGranules]
    refine SameCore.trans ?_ (ih _)
    by_cases hb : b.contains g = true
    · rw [if_pos hb]; exact rfl
    · rw [if_neg hb]; exact applyGranule_core _ _ _ _

theorem modMem_core' (s : State) (f : Mem → Mem) : SameCore s (s.modMem f) := rfl

/-- Compaction changes nothing of the core but its view cache (R276). -/
theorem compactRec_core (s : State) (r : Rec) (b : List Nat) : SameCore s (s.compactRec r b).1 := by
  unfold State.compactRec
  dsimp only
  have ha := applyGranules_core s (dieOf r.core) r b (cellGranules r.cells)
  split_ifs
  · exact ha.trans (modMem_core' _ _)
  · exact ha.trans (modMem_core' _ _)
  · exact SameCore.of_eq (faultRecord_core _ _)
  · exact SameCore.of_eq (sendReq_core (s.modMem fun m => m.modRec r fun x => { x with sent := true }) _ _ _ _)
  · exact rfl

theorem compactList_core (s : State) (b : List Nat) (rs : List Rec) : SameCore s (s.compactList b rs).1 := by
  induction rs generalizing s b with
  | nil => exact rfl
  | cons r rs ih => exact (compactRec_core s r b).trans (ih _ _)

theorem compact_core (s : State) (p : Rec → Nat → Bool) : SameCore s (s.compact p).1 := compactList_core _ _ _
theorem compactDie_core (s : State) (d b : Nat) : SameCore s (s.compactDie d b).1 := compact_core _ _
theorem compactAt_core (s : State) (ia n : Nat) : SameCore s (s.compactAt ia n).1 := compact_core _ _
theorem forceDie_core (s : State) (d st : Nat) : SameCore s (s.forceDie d st).1 := compact_core _ _

theorem forceDevice_core (s : State) (d ia : Nat) : SameCore s (s.forceDevice d ia).1 := by
  unfold State.forceDevice
  repeat' split
  all_goals first | exact rfl | exact SameCore.of_eq (sendReq_core (s.modFabric _) _ _ _ _)

theorem forceSource_core (s : State) (ia src st : Nat) : SameCore s (s.forceSource ia src st).1 := by
  unfold State.forceSource
  split
  · exact forceDie_core _ _ _
  · exact forceDevice_core _ _ _

theorem forceAll_core (s : State) (ia : Nat) (l : List (Nat × Nat)) : SameCore s (s.forceAll ia l).1 := by
  induction l generalizing s with
  | nil => exact rfl
  | cons a l ih => exact (forceSource_core s ia a.1 a.2).trans (ih _)

theorem atomicWrite_core (s : State) (ia pa : Nat) (bs : List Byte) (st : Nat) : SameCore s (s.atomicWrite ia pa bs st).1 := by
  unfold State.atomicWrite
  dsimp only
  split_ifs
  · exact (SameCore.of_eq (homePut_core s ia pa bs st)).trans rfl
  · exact SameCore.of_eq (homePut_core s ia pa bs st)

theorem sourceRoom_core (s : State) (d ia src : Nat) : SameCore s (s.sourceRoom d ia src).1 := by
  unfold State.sourceRoom
  split
  · exact rfl
  · rename_i v _
    generalize v.sources = l
    cases l with
    | nil => exact rfl
    | cons q l =>
      have hf := forceSource_core s ia q.1 q.2
      dsimp only
      split_ifs
      · exact rfl
      · split <;> rename_i hq <;> rw [hq] at hf
        · exact hf.trans rfl
        · exact hf

theorem latest_core (s : State) (d ia src st : Nat) : SameCore s (s.latest d ia src st) := rfl

theorem dropVar_core (s : State) (d : Nat) (l : List SyncVar) : SameCore s (s.dropVar d l).1 := by
  induction l generalizing s with
  | nil => exact rfl
  | cons v l ih =>
    have hf := forceAll_core s v.ia v.sources
    unfold State.dropVar
    split <;> rename_i hq <;> rw [hq] at hf
    · exact hf.trans rfl
    · exact hf.trans (ih _)

/-- Making room at a sync home changes nothing of the core but its view cache (R270). -/
theorem syncRoom_core (s : State) (d ia src : Nat) : SameCore s (s.syncRoom d ia src).1 := by
  unfold State.syncRoom
  split_ifs
  · exact sourceRoom_core _ _ _ _
  · exact rfl
  · exact dropVar_core _ _ _

theorem putOwner_core (s : State) (w : Nat) (o : Owner) : (s.putOwner w o).core = s.core := by
  unfold State.putOwner
  split <;> rfl

theorem putOwner_mem (s : State) (w : Nat) (o : Owner) : (s.putOwner w o).mem = s.mem := by
  unfold State.putOwner
  split <;> rfl

theorem wakeCounter_core (s : State) (ia v : Nat) : (s.wakeCounter ia v).core = s.core := by
  unfold State.wakeCounter
  generalize s.sched.tasks = l
  induction l generalizing s with
  | nil => rfl
  | cons t l ih =>
    refine (ih _).trans ?_
    dsimp only
    repeat' split
    all_goals rfl

theorem wakeCounter_mem (s : State) (ia v : Nat) : (s.wakeCounter ia v).mem = s.mem := by
  unfold State.wakeCounter
  generalize s.sched.tasks = l
  induction l generalizing s with
  | nil => rfl
  | cons t l ih =>
    refine (ih _).trans ?_
    dsimp only
    repeat' split
    all_goals rfl

/-- The home atomic unit changes nothing of the core but its view cache (R281). -/
theorem atomicAt_core (s : State) (ia pa n : Nat) (f : Word → Option Word) : SameCore s (s.atomicAt ia pa n f).1 := by
  unfold State.atomicAt
  dsimp only
  refine SameCore.trans (t := (s.compactAt ia n).1.takeStamp.1) ((compactAt_core s ia n).trans rfl) ?_
  split
  · exact rfl
  · exact (atomicWrite_core _ _ _ _ _).trans (SameCore.of_eq (wakeCounter_core _ _ _))

end State

end Sys2Proof.Machine
end

