-- ==== Sys2Proof/Laws/Results.lean ====
section
/-! SUPPORT. What scheduling a result does, and what the vector forms write: one lemma per shared operation. -/

namespace Sys2Proof.Machine

/-- A record whose named fields are put back is the record. -/
theorem OnlyResults.refl (s : State) : OnlyResults s s := rfl

theorem result_only (s : State) (lat : Nat) (w : RegWrite) : OnlyResults s (s.result lat w) := rfl

theorem setX_only (s : State) (n : BitVec 6) (val : Word) (lat : Nat) : OnlyResults s (s.setX n val lat) := by
  unfold State.setX; split <;> rfl

theorem setP_only (s : State) (n : BitVec 4) (val : Pred) (lat : Nat) : OnlyResults s (s.setP n val lat) := by
  unfold State.setP; split <;> rfl

theorem setV_only (s : State) (n : BitVec 5) (m : Pred) (val : VReg) (lat : Nat) : OnlyResults s (s.setV n m val lat) := rfl

theorem setX_flight (s : State) (n : BitVec 6) (val : Word) (lat : Nat) (h : n ≠ 0) :
    (s.setX n val lat).core.flight = s.core.flight ++ [⟨lat, .x n.toNat val⟩] := by rw [State.setX, if_neg h]; rfl

theorem setV_flight (s : State) (n : BitVec 5) (m : Pred) (val : VReg) (lat : Nat) :
    (s.setV n m val lat).core.flight = s.core.flight ++ [⟨lat, .v n.toNat m val⟩] := rfl

theorem countStat_only (s : State) (id : Nat) (a : Stat) : OnlyVector s (s.countStat id a) := by
  unfold State.countStat
  split
  · rfl
  · split <;> rfl

@[simp] theorem countStat_flight (s : State) (id : Nat) (a : Stat) : (s.countStat id a).core.flight = s.core.flight := by
  unfold State.countStat
  split
  · rfl
  · split <;> rfl

theorem setV_onlyVector {s t : State} (h : OnlyVector s t) (n : BitVec 5) (m : Pred) (val : VReg) (lat : Nat) : OnlyVector s (t.setV n m val lat) := by
  unfold OnlyVector at h ⊢; rw [h]; rfl

theorem OnlyVector.refl (s : State) : OnlyVector s s := rfl

theorem width_cases (t : VTy) : VTy.width t = 32 ∨ VTy.width t = 16 ∨ VTy.width t = 8 := by cases t <;> simp [VTy.width]

/-- What a form that writes vector elements does, from the state in which it writes. -/
theorem vecWrites_setV {i : Instr} {s u : State} (d : BitVec 5) (w : Nat) (m : Pred) (val : VReg) (lat : Nat) (g : Nat → Nat)
    (hi : exec i s = .next (u.setV d m val lat)) (hu : OnlyVector s u) (hf : u.core.flight = s.core.flight)
    (hg : ∀ e, e < 4096 / w → m.getLsbD (e / (32 / w)) = true → vElem w val e = g e % 2 ^ w) : VecWrites i s d w m lat g :=
  ⟨_, hi, setV_onlyVector hu d m val lat, val, by rw [setV_flight, hf], hg⟩

/-- What a form of `setElems` does. -/
theorem vecWrites_setElems {i : Instr} {s : State} (d : BitVec 5) (w : Nat) (hw : w = 32 ∨ w = 16 ∨ w = 8) (m : Pred) (lat : Nat) (f : Nat → Nat × Ev) (g : Nat → Nat)
    (hi : exec i s = .next (s.setElems d w m lat f)) (hg : ∀ e, (f e).1 % 2 ^ w = g e % 2 ^ w) : VecWrites i s d w m lat g := by
  refine vecWrites_setV d w m _ lat g hi (countStat_only _ _ _) (countStat_flight _ _ _) fun e he _ => ?_
  rw [vElem, elemOf_ofElems w _ (by rcases hw with h | h | h <;> simp [h]) he, hg]

theorem lane_toNat (v : VReg) (i : Nat) : (lane v i).toNat = vElem 32 v i := by simp [lane, vElem, elemOf]

/-- What a form that moves whole lanes does. -/
theorem vecWrites_lanes {i : Instr} {s : State} (d : BitVec 5) (m : Pred) (lat : Nat) (f : Nat → BitVec 32) (g : Nat → Nat)
    (hi : exec i s = .next (s.setV d m (ofLanes f) lat)) (hg : ∀ e, e < 128 → m.getLsbD e = true → (f e).toNat = g e % 2 ^ 32) : VecWrites i s d 32 m lat g := by
  refine vecWrites_setV d 32 m _ lat g hi rfl rfl fun e he hm => ?_
  have he' : e < 128 := by simpa using he
  rw [← lane_toNat, lane_ofLanes _ he']
  exact hg e he' (by simpa using hm)

/-- Bit `i` of a predicate built from bits. -/
@[simp] theorem getLsbD_ofBits (f : Nat → Bool) {i : Nat} (h : i < 128) : (ofBits f).getLsbD i = f i := by
  have hlt := packElems_lt 1 128 (fun i => (f i).toNat)
  have he := elemOf_packElems 1 128 (fun i => (f i).toNat) h
  rw [ofBits, BitVec.getLsbD_ofNat]
  simp only [elemOf, Nat.one_mul] at he
  simp only [h, decide_true, Bool.true_and, Nat.testBit_eq_decide_div_mod_eq]
  rw [show (2:Nat) = 2 ^ 1 by rfl] at *
  simp only [pow_one] at *
  rw [he]; cases f i <;> simp

theorem allTo_iff (n : Nat) (f : Nat → Bool) : allTo n f = true ↔ ∀ j, j < n → f j = true := by
  induction n with
  | zero => simp [allTo]
  | succ n ih =>
    simp only [allTo, Bool.and_eq_true, ih]
    constructor
    · rintro ⟨h, hn⟩ j hj
      rcases Nat.lt_succ_iff_lt_or_eq.mp hj with hj | rfl
      · exact h j hj
      · exact hn
    · exact fun h => ⟨fun j hj => h j (by omega), h n (by omega)⟩

/-- Issue runs a decoded syllable as the instruction that it is. -/
theorem sylExec_eq (y : Syl) (s : State) : sylExec y s = exec y.toInstr s := by
  cases y with
  | instr i => rfl
  | late l => cases l <;> rfl

end Sys2Proof.Machine
end

