-- ==== Sys2Proof/Tests/Slice0.lean ====
section
/-! SUPPORT. Tests: ill-formed terms that the checks refuse, words of the spec that decode to what the spec says, single steps, and for each statement with
hypotheses a state and operands that meet them. -/

set_option Elab.async false

namespace Sys2Proof.Tests

open Sys2Proof Sys2Proof.Machine

/-! ### Terms that WellFormed refuses, one for each check -/

theorem test_wf_shift : (Instr.shli 1 2 64).wf = false ∧ (Instr.shri 1 2 127).wf = false ∧ (Instr.srai 1 2 64).wf = false ∧ (Instr.srai 1 2 63).wf = true := by decide
theorem test_wf_store_size : (Instr.st 1 2 .bu 0).wf = false ∧ (Instr.stg 1 2 .wu 0).wf = false ∧ (Instr.stg 1 2 .d 0).wf = true := by decide
theorem test_wf_full_lane : (Instr.gath 1 2 3 .i16 0).wf = false ∧ (Instr.scat 1 2 3 .f8 0).wf = false ∧ (Instr.vredAdd 1 2 .bf16 0).wf = false ∧
    (Instr.vscan 1 2 .u8 0).wf = false ∧ (Instr.vdiv 1 2 3 .f16 0).wf = false ∧ (Instr.vdiv 1 2 3 .i32 0).wf = true := by decide
theorem test_wf_not_f8 : (Instr.vadd 1 2 3 .f8 0).wf = false ∧ (Instr.vcmpLt 1 2 3 .f8 0).wf = false ∧ (Instr.vminmaxMax 1 2 3 .f8 0).wf = false := by decide
theorem test_wf_integer : (Instr.vlogicAnd 1 2 3 .f32 0).wf = false ∧ (Instr.vshiftSra 1 2 3 .bf16 0).wf = false ∧ (Instr.vshiftSra 1 2 3 .u8 0).wf = true := by decide
theorem test_wf_signed : (Instr.vabs 1 2 .u8 0).wf = false ∧ (Instr.vneg 1 2 .f8 0).wf = false ∧ (Instr.vneg 1 2 .i8 0).wf = true := by decide
theorem test_wf_iota : (Instr.viota 1 .i8 0).wf = false ∧ (Instr.viota 1 .u8 0).wf = true := by decide
theorem test_wf_vcvt : (Instr.vcvt 1 2 .rne .f32 .f32 0).wf = false ∧ (Instr.vcvt 1 2 .rne .f32 .f16 0).wf = true := by decide
theorem test_wf_mcfg : (Instr.mcfg true false .bf16).wf = false ∧ (Instr.mcfg true false .fp8).wf = true := by decide
theorem test_wf_barrier_group : (Instr.barr 1 80).wf = false ∧ (Instr.barw 1 127).wf = false ∧ (Instr.barm 1 80).wf = false ∧ (Instr.barm 1 79).wf = true := by decide
theorem test_wf_event_core : (Instr.bindTask 352 0 0).wf = false ∧ (Instr.copyJobEnd 352).wf = false ∧ (Instr.copyJobEnd 351).wf = true := by decide
theorem test_wf_event_units : (Instr.channelOpen 0 64).wf = false ∧ (Instr.channelOpen 352 0).wf = false ∧ (Instr.spireMirrorUpdate 4 0 0).wf = false ∧
    (Instr.spireMirrorUpdate 0 22 0).wf = false ∧ (Instr.spireMirrorUpdate 0 0 80).wf = false ∧ (Instr.tlbinvComplete 4).wf = false ∧
    (Instr.dieLinkFail 0 6).wf = false := by decide
theorem test_wf_event_masters : (Instr.fltqPop 0 4).wf = false ∧ (Instr.jobSubmit 16 1 0).wf = false ∧ (Instr.awaWrite 0 8 1 0).wf = false ∧
    (Instr.acceptWrite 1 0 6 0).wf = false ∧ (Instr.jidxWrite 3 0).wf = true := by decide
theorem test_wf_event_memory : (Instr.autoRetireTrigger 16).wf = false ∧ (Instr.rfmHoldEnd 0 1024).wf = false ∧ (Instr.refreshWindowClear 16).wf = false := by decide
theorem test_wf_event_fabric : (Instr.streamAckTimeout 8 0).wf = false ∧ (Instr.sessionSetup 128).wf = false ∧ (Instr.portOpticalFault 8).wf = false ∧
    (Instr.reduceFlush 16 0 0).wf = false ∧ (Instr.lapStepStart 16).wf = false ∧ (Instr.groupFormTimeout 8).wf = false ∧
    (Instr.memberDeadTimeout 0 16 true).wf = false ∧ (Instr.ueportLinkChange 8 true).wf = false := by decide

/-! ### Decoding: words that the spec writes out (R66, R88, R179, R228, R239, R258, R288, R302, R304, R307, R380, R397, R419) -/

theorem test_decode_scalar : decodeTableWord 32 0x02188280 = some (.add 3 4 5 0) ∧ decodeTableWord 32 0x12186001 = some (.addi 3 3 1) := ⟨rfl, rfl⟩
theorem test_decode_control : decodeTableWord 32 0x4428C380 = some (.jtab 5 6 7 0) ∧ decodeTableWord 32 0x46034002 = some (.loop 0 26 2) ∧
    decodeTableWord 32 0x47084001 = some (.loopi 1 2 1) := ⟨rfl, rfl, rfl⟩
theorem test_decode_suspend : decodeTableWord 32 0x4E000010 = some (.suspExit 0) ∧ decodeTableWord 32 0x4A014008 = some (.rfenceA 10 0) := ⟨rfl, rfl⟩
theorem test_decode_scratchpad : decodeTableWord 32 0x64118100 = some (.ldv 1 6 16 0) ∧ decodeTableWord 32 0x6665C002 = some (.stv 6 23 0 2) := ⟨rfl, rfl⟩
theorem test_decode_global : decodeTableWord 32 0x6A28DA00 = some (.stg 5 6 .d 0) ∧ decodeTableWord 32 0x7A1A8A80 = some (.hset 3 20 21 0) := ⟨rfl, rfl⟩
theorem test_decode_sync : decodeTableWord 32 0x8218E020 = some (.rel 3 7 .die 0) ∧ decodeTableWord 32 0x80216058 = some (.acq 4 11 .system 0) := ⟨rfl, rfl⟩
theorem test_decode_engine : decodeTableWord 32 0x94014013 = some (.cpyHs 0 10 0 false .e2 3) ∧ decodeTableWord 32 0x98000000 = some (.cpyw 0) ∧
    decodeTableWord 32 0x9C018000 = some (.tseq 12) ∧ decodeTableWord 32 0x9E00A300 = some (.ccadd 5 6) := ⟨rfl, rfl, rfl, rfl⟩
theorem test_decode_vector : decodeTableWord 32 0xA82190A2 = some (.vfma 2 3 4 5 false 2) ∧ decodeTableWord 32 0xB6620020 = some (.vcvt 6 4 .rne .f32 .f16 0) ∧
    decodeTableWord 32 0xC4100000 = some (.vrow 1 0) := ⟨rfl, rfl, rfl⟩
theorem test_decode_matrix : decodeTableWord 32 0xD0000000 = some .mclaim ∧ decodeTableWord 32 0xD408A080 = some (.mloadB 1 5 false .b16 0) ∧
    decodeTableWord 32 0xD6002000 = some (.mma 0 1 false false .b16) ∧ decodeTableWord 32 0xDA000000 = some (.mdrain false false) := ⟨rfl, rfl, rfl, rfl⟩
theorem test_decode_scale : decodeTableWord 32 0xE2520810 = some (.qcvtDb4 5 4 2 .rne 0) := rfl
theorem test_decode_channel : decodeTableWord 32 0xE8110000 = some (.send 2 4 0 0) ∧ decodeTableWord 32 0xEC090400 = some (.raddF32 1 4 0 0) := ⟨rfl, rfl⟩
theorem test_decode_cluster : decodeTableWord 32 0xF028000C = some (.barr 5 12) ∧ decodeTableWord 32 0xF028100C = some (.barw 5 12) ∧
    decodeTableWord 32 0xF200C00C = some (.barm 6 12) ∧ decodeTableWord 32 0xF420E000 = some (.fuse 4 7) ∧ decodeTableWord 32 0xF4200010 = some (.rejn 4) ∧
    decodeTableWord 32 0xF620E000 = some (.wdog 4 7) := ⟨rfl, rfl, rfl, rfl, rfl, rfl⟩
theorem test_decode_group : decodeTableWord 32 0xF8014000 = some (.prot 10) ∧ decodeTableWord 32 0xFA110200 = some (.rstat 8 4) ∧
    decodeTableWord 32 0xFC010580 = some (.netpost 8 11) ∧ decodeTableWord 32 0xFC098500 = some (.netwait 12 10) := ⟨rfl, rfl, rfl, rfl⟩
/-- R57, R58: the guard opcodes, a reserved field that is not 0, and a type that the form does not accept. -/
theorem test_decode_refuses : decodeTableWord 32 0 = none ∧ decodeTableWord 32 0xFE000000 = none ∧ decodeTableWord 32 0x4E000018 = none ∧
    decodeTableWord 32 0xF0000050 = none := ⟨rfl, rfl, rfl, rfl⟩

/-! ### Small states -/

/-- Two bundles at 0x100010 and 0x100018. -/
def twoBundles : Segment :=
  { frame := 0x100000, next := 0, len := 64, word0 := 0, word8 := 0, bundles := [⟨16, 0x10000000, [(0, 0x02188280)]⟩, ⟨24, 0x10000000, [(0, 0x02188280)]⟩], bad := none }

/-- A core in its first bundle, slot S0. -/
def base : State :=
  { State.reset with core := { State.reset.core with task := some { launch := 1, index := 0 }
                                                     front := { cur := some twoBundles, run := some { addr := 0x100010, pos := 0, hdr := 0x10000000, todo := [] } } } }

/-- The x registers of `l` take the values given there. -/
def withX (l : List (Nat × Word)) (s : State) : State :=
  s.modRegs fun r => { r with x := l.foldl (fun x e => x.setIfInBounds e.1 e.2) r.x }

/-- A handler is set. -/
def armed : State := base.modZ fun z => { z with stat := { z.stat with ten := true }, tvec := 0x2000 }

/-- One window of 16 pages at 0x100000, its first page present. -/
def mapped : State :=
  { base with
    dies := [(0, { tlb := [{ page := 0x10, big := false, pa := 0x100000 }] })]
    root := { base.root with ctxs := [(0, { en := true, aws := [(0, ⟨0x100000, 16, 0x100000, 0x1000F⟩)] })] } }
/-! ### Single steps: the word placed where the machine fetches runs as the instruction that it encodes -/

/-- R70: ADDI x3, x0, 1 places 1 in flight for x3, and the bundle that followed is due. -/
theorem test_step_addi : (match step (State.reset.withFetchWord 32 0x12180001) with
    | .next t => t.core.flight == [⟨1, .x 3 1⟩] || t.x 3 == 1
    | _ => false) = true := by decide +kernel
/-- R21: a guard opcode is ILLEGAL: with no handler the task is killed. -/
theorem test_step_guard : (match step (State.reset.withFetchWord 32 0) with
    | .next t => t.core.task.isNone
    | _ => false) = true := by decide +kernel
/-- R103: a CANCEL of a unit that is not live has no effect. -/
theorem test_step_cancel_none : (match step (State.reset.withFetchWord 32 0x5E000000) with
    | .next _ => true
    | _ => false) = true := by decide +kernel

/-! ### Statements have inputs -/

theorem witness_scalar : base.sqOn 0 = true ∧ base.sqOn 7 = false := by decide +kernel
theorem witness_other_fn : (0x10 = 0x10 ∧ 3 ≤ 3) ∧ (0x11 = 0x11 ∧ 4 ≤ 4) ∧ (0x19 = 0x19 ∧ 1 ≤ 15) ∧ 15 < 16 := by decide
theorem witness_bits : (withX [(2, 1 <<< 63)] base).x 2 ≠ 0 ∧ base.x 2 = 0 := by decide +kernel
theorem witness_transfers :
    let s := base
    let s2 := base.modFront fun f => { f with cur := some { twoBundles with next := 0x100040 }, succ := some { twoBundles with frame := 0x100040 } }
    s.core.front.cur = some twoBundles ∧ (0 ≤ (s.pos : Int) + 1 ∧ (s.pos : Int) + 1 < twoBundles.bundles.length) ∧
    s2.core.front.succ = some { twoBundles with frame := 0x100040 } ∧ (0x100040 ≠ 0) ∧
    ((twoBundles.bundles.length : Int) ≤ s2.pos + (2 : BitVec 21).toInt ∧ (s2.pos : Int) + (3 : BitVec 21).toInt < twoBundles.bundles.length + 2) ∧
    (s.pos : Int) + (-1 : BitVec 21).toInt < 0 ∧ (twoBundles.bundles.length : Int) ≤ s.pos + (2 : BitVec 21).toInt ∧ twoBundles.next = 0 ∧
    (2 + 2 : Int) ≤ s2.pos + (4 : BitVec 21).toInt ∧ twoBundles.bundles[s.pos + 1]? ≠ none ∧
    twoBundles.bundles[(base.modRun fun r => { r with pos := 1 }).pos + 1]? = none := by decide +kernel
theorem witness_jtab : ((withX [(4, 5)] base).x 4).toNat ≤ ((withX [(4, 5)] base).x 4).toNat ∧ (base.x 5).toNat < ((withX [(4, 1)] base).x 4).toNat := by decide +kernel
theorem witness_loops :
    let s := withX [(5, 0x100000), (6, 0)] (mapped.modCore fun c => { c with rcache := [(0x100000, List.replicate 64 1)] })
    base.segBundles.length ≤ base.pos + 1 + (1 : BitVec 13).toNat ∧ base.pos + 1 + (0 : BitVec 13).toNat < base.segBundles.length ∧ base.x 4 = 0 ∧ s.x 5 ≠ 0 ∧
    (s.x 5).toNat % 64 = 0 ∧ ((s.ctx s.bound.ctx).translate? (s.x 5).toNat .rd).map Access.ia = some 0x100000 ∧
    (tget? s.core.rcache 0x100000).isSome = true ∧ s.pos + 1 + fld (s.x 6).toNat 0 13 < s.segBundles.length ∧ 0 < at' (List.replicate 64 1) 8 4 := by decide +kernel
theorem witness_suspensions :
    let t := base.modStat fun z => { z with tm := true }
    let a := mapped.modStat fun z => { z with af := true }
    let s := withX [(5, 0x100000), (6, 0x100004), (7, 0x200000)] a
    let r := withX [(5, 0x100000)] ({ s with root := { s.root with devnum := 3 } } : State)
    base.core.regs.z.stat.tm = false ∧ base.core.front.loops = [] ∧ base.core.misses = [] ∧ base.core.copy.jobs = [] ∧ base.core.copy.err = [] ∧
    (base.ctx 0).cover? 0x100000 = none ∧ (mapped.ctx 0).cover? 0x100000 = some 0 ∧
    t.core.regs.z.stat.tm = true ∧ base.core.regs.z.stat.af = false ∧ s.core.regs.z.stat.af = true ∧
    ((s.ctx s.bound.ctx).translate? (s.x 5).toNat .rd).isSome = true ∧ (s.x 5).toNat % 8 = 0 ∧ s.isRemote 0x100000 = false ∧
    ((s.ctx s.bound.ctx).translate? (s.x 6).toNat .rd).isSome = true ∧ (s.x 6).toNat % 8 ≠ 0 ∧
    (s.ctx s.bound.ctx).translate? (s.x 7).toNat .rd = none ∧
    ((r.ctx r.bound.ctx).translate? (r.x 5).toNat .rd).map Access.ia = some 0x100000 ∧ r.isRemote 0x100000 = true := by decide +kernel
theorem witness_trap_entry :
    (Cause.mk 1 0 0).cls = .handler ∧ (Cause.mk 0x10 0 0).cls = .debug ∧ (Cause.mk 0x15 0 0).cls = .containment ∧ armed.root.debugger = false ∧
    armed.core.regs.z.stat.tm = false ∧ armed.core.regs.z.stat.ten = true ∧ armed.core.regs.z.handler ≠ 0 ∧ armed.core.spireOut = [] ∧
    base.core.regs.z.stat.ten = false ∧ (armed.modZ fun z => { z with tvec := 3 }).core.regs.z.tvec.toNat < 4 ∧
    (base.modStat fun z => { z with tm := true }).core.regs.z.stat.tm = true ∧ ({ base with root := { base.root with debugger := true } } : State).root.debugger = true := by decide +kernel
theorem witness_soft_traps : armed.core.regs.z.stat.tm = false ∧ armed.core.regs.z.stat.ten = true ∧ armed.core.regs.z.handler ≠ 0 ∧
    (withX [(3, 1)] armed).x 3 ≠ 0 ∧ armed.x 3 = 0 := by decide +kernel
/-- A snapshot of 64 bytes. -/
def someSnap : Snap :=
  { addr := 0x100010, slot := 0, image := {}, flight := [], queue := [], drain := none, loops := [], latched := none, after := none, idem := false, wrote := [], skipTo := none }
theorem witness_snapshots :
    let s := (base.modZ fun z => { z with stat := { z.stat with sv := true }, snapLen := 64 }).modCore fun c => { c with snap := some someSnap }
    let u := base.modCore fun c => { c with spad := [(0, 64), (1, 0), (4, 7)] }
    let w := { u with core := { u.core with task := some { launch := 1, index := 0, plen := 4 } } }
    let r := s.modTask fun b => { b with plen := 1 }
    base.core.regs.z.stat.sv = false ∧ s.core.regs.z.stat.sv = true ∧ s.core.snap = some someSnap ∧ s.core.snapOps = [] ∧ (r.x 2).toNat % 64 = 0 ∧
    r.spadOk (r.x 2).toNat r.core.regs.z.snapLen.toNat = true ∧ (withX [(2, 32)] s).x 2 ≠ 0 ∧ ((withX [(2, 32)] s).x 2).toNat % 64 ≠ 0 ∧
    w.core.regs.z.stat.tm = false ∧ w.spadOk (w.x 2).toNat 64 = true ∧ at' (w.spadBytes 0 64) 0 2 = 64 ∧ at' (w.spadBytes 0 64) 4 1 ≤ 7 ∧
    (base.modStat fun z => { z with ss := true }).core.regs.z.stat.ss = true ∧ base.core.regs.z.stat.ss = false := by decide +kernel
theorem witness_system_registers : (base.sys 0).isSome = true ∧ (base.sys 6).isSome = true ∧ base.sys 8191 = none ∧ base.sys 1 ≠ none ∧
    ((5 : BitVec 13).toNat ∈ [0, 5, 6, 0x20, 0x21, 0x22]) ∧ ((1 : BitVec 13).toNat ∉ [0, 5, 6, 0x20, 0x21, 0x22]) ∧ base.image = {} := by decide +kernel
/-- A launch whose window 0 is constant. -/
def constLaunch : Launch := { id := 1, ctx := 0, ring := 0, entry := List.replicate 22 0 ++ [1] ++ List.replicate 41 0, block := [] }
/-- `mapped` with that launch. -/
def constant : State := { mapped with sched := { mapped.sched with launches := [constLaunch] } }
/-- `mapped` with a page table whose first large page is not resident, and an empty TLB. -/
def absentPage : State :=
  { mapped with dies := [], mem := { mapped.mem with cells := [(1, 1), (2, 1), (0x10001, 5)] }, root := { mapped.root with ptroot := 1 } }
/-- The device number changes, so the window's device is another one. -/
def remotePage : State := { mapped with root := { mapped.root with devnum := 3 } }
/-- One lane, lane 0, in p1; lanes 0 and 127 in p2. -/
def withP (s : State) : State := s.modRegs fun r => { r with p := (r.p.setIfInBounds 1 1).setIfInBounds 2 (1 + 1 <<< 127) }

theorem witness_scratchpad_scalar :
    let s := withX [(2, 0x1FFFF8), (3, 0x1FFFFC), (4, 0x200000)] base
    (s.x 2).toNat % 8 = 0 ∧ s.spadOk (s.x 2).toNat 8 = true ∧ (s.x 3).toNat % 8 ≠ 0 ∧ (s.x 4).toNat % 8 = 0 ∧ s.spadOk (s.x 4).toNat 8 = false := by decide +kernel
theorem witness_scratchpad_lanes :
    let s := withP (withX [(2, 0x1FFE00), (3, 4), (4, 0x1FFFE0), (5, 2), (6, 0x1FFE20)] base)
    (s.x 2).toNat % 32 = 0 ∧ (∀ i, i < 128 → (s.p 0).getLsbD i = true → s.spadOk ((s.x 2).toNat + 4 * i) 4 = true) ∧
    (∀ i, i < 128 → (s.p 0).getLsbD i = true → s.spadOk ((s.x 4).toNat + 4 * (i % 8)) 4 = true) ∧
    (∀ i, i < 128 → (s.p 0).getLsbD i = true → (s.x 2 + BitVec.ofNat 64 i * s.x 3).toNat % 4 = 0 ∧ s.spadOk (s.x 2 + BitVec.ofNat 64 i * s.x 3).toNat 4 = true) ∧
    (∀ i, i < 128 → (s.p 1).getLsbD i = true → (s.x 2 + (lane (s.v 3) i).zeroExtend 64).toNat % 4 = 0 ∧ s.spadOk (s.x 2 + (lane (s.v 3) i).zeroExtend 64).toNat 4 = true) ∧
    ((s.x 3).toNat % 32 ≠ 0) ∧ ((s.x 6).toNat % 32 = 0 ∧ (s.p 0).getLsbD 127 = true ∧ s.spadOk ((s.x 6).toNat + 4 * 127) 4 = false) := by decide +kernel
theorem witness_lane_misaligned :
    let s := withP (withX [(5, 2)] base)
    (s.p 1).getLsbD 0 = true ∧ (s.x 5 + BitVec.ofNat 64 0 * s.x 3).toNat % 4 ≠ 0 ∧
    (∀ k, k < 128 → (s.p 1).getLsbD k = true → (s.x 5 + BitVec.ofNat 64 k * s.x 3).toNat % 4 ≠ 0 → 2 ≤ (s.x 5 + BitVec.ofNat 64 k * s.x 3).toNat) ∧
    (s.x 5 + (lane (s.v 3) 0).zeroExtend 64).toNat % 4 ≠ 0 := by decide +kernel
theorem witness_lane_stores :
    let s := withP (withX [(2, 64), (3, 0)] base)
    s.core.vec.bounds = [] ∧ (s.x 2).toNat % 32 = 0 ∧
    (∀ k, k < 128 → (s.p 2).getLsbD k = true → ((s.x 2).toNat + 4 * k) % 4 = 0 ∧ s.spadOk ((s.x 2).toNat + 4 * k) 4 = true) ∧
    (∀ k, k < 128 → (s.p 2).getLsbD k = true → (s.x 2 + BitVec.ofNat 64 k * s.x 3).toNat % 4 = 0 ∧ s.spadOk (s.x 2 + BitVec.ofNat 64 k * s.x 3).toNat 4 = true) ∧
    (s.x 2 + BitVec.ofNat 64 0 * s.x 3) = (s.x 2 + BitVec.ofNat 64 127 * s.x 3) := by decide +kernel
/-- `remotePage` with the session of the window's device UP. -/
def remoteUp : State := { remotePage with fabric := { remotePage.fabric with peers := [(0, { state := .up, inc := 1 })] } }
theorem witness_global_loads :
    let s := withX [(2, 0x100000), (3, 0x100004), (4, 0x200000)] mapped
    let h := (s.viewRead 0x100000 0x100000 8).1
    (s.ctx s.bound.ctx).translate? (s.x 4).toNat .rd = none ∧ ((s.ctx s.bound.ctx).translate? (s.x 2).toNat .rd).map Access.ia = some 0x100000 ∧
    (s.x 3).toNat % 8 ≠ 0 ∧ (s.x 2).toNat % 8 = 0 ∧ s.isRemote 0x100000 = false ∧ (absentPage.walk absentPage.myDie 0x100000).2 = .absent ∧
    h.walk h.myDie 0x100000 = (h, .page 0x100000 false) ∧ (h.viewRead 0x100000 0x100000 8).2 = ⟨List.replicate 8 0, false, false⟩ ∧
    (s.viewRead 0x100000 0x100000 8).2.missed = true ∧ (s.viewRead 0x100000 0x100000 8).2.lost = false := by decide +kernel
theorem witness_remote_load :
    let r := withX [(2, 0x100000)] remoteUp
    let l := r.modFront fun f => { f with loops := [(0, ⟨0, 1, 1⟩)] }
    remotePage.isRemote 0x100000 = true ∧ r.isRemote 0x100000 = true ∧ r.holderOf 0x100000 = 0 ∧ (r.peer 0).state = .up ∧
    ((r.ctx r.bound.ctx).translate? (r.x 2).toNat .rd).map Access.inc = some (r.peer 0).inc ∧ r.core.front.loops = [] ∧ l.core.front.loops ≠ [] ∧
    r.core.regs.z.stat.tm = false ∧ (r.modStat fun t => { t with tm := true }).core.regs.z.stat.tm = true ∧ r.core.misses = [] ∧ r.core.copy.jobs = [] ∧ r.core.copy.err = [] ∧
    r.core.front.run.isSome = true := by decide +kernel
theorem witness_constant_loads :
    let b := ({ constant with clusters := [(0, { bcast := [{ launch := 1, ia := 0x100000, data := List.replicate 64 7 }] })] } : State)
    mapped.constWin 0 = false ∧ constant.constWin 0 = true ∧ (b.walk b.myDie 0x100000).2 = .page 0x100000 false ∧ b.homeLost 0x100000 0x100000 = false ∧
    ((b.cluster (clusterOf b.coreId)).bcast.find? fun l => l.launch == b.bound.launch && l.ia == 0x100000 / 64 * 64).isSome = true ∧
    ({ b with mem := { b.mem with bad := [0x100000 / 32] } } : State).homeLost 0x100000 0x100000 = true ∧
    ((constant.cluster (clusterOf constant.coreId)).bcast.find? fun l => l.launch == constant.bound.launch && l.ia == 0x100000 / 64 * 64) = none ∧
    (constant.homeRead 0x100000 0x100000 64).2.isSome = true := by decide +kernel
theorem witness_global_stores :
    let s := withX [(2, 0x100000), (3, 0x100004), (4, 0x200000)] mapped
    s.core.vec.bounds = [] ∧ ((s.ctx s.bound.ctx).translate? (s.x 2).toNat .w).map Access.ia = some 0x100000 ∧ (s.x 2).toNat % 8 = 0 ∧ s.constWin 0 = false ∧
    s.isRemote 0x100000 = false ∧ (s.walk s.myDie 0x100000).2 = .page 0x100000 false ∧ s.mem.logUsed s.coreId ≤ 384 * 1024 ∧
    (s.ctx s.bound.ctx).translate? (s.x 4).toNat .w = none ∧ (s.x 3).toNat % 8 ≠ 0 ∧ constant.constWin 0 = true ∧
    (absentPage.walk absentPage.myDie 0x100000).2 = .absent := by decide +kernel
theorem witness_global_vectors :
    let s := withP (withX [(2, 0x100000), (3, 0x100004)] mapped)
    let h := (s.viewRead 0x100000 0x100000 32).1
    (s.x 3).toNat % 32 ≠ 0 ∧ (s.x 2).toNat % 32 = 0 ∧ s.p 3 = 0 ∧ s.p 1 ≠ 0 ∧ (∀ i, 8 ≤ i → (1 : Pred).getLsbD i = false) ∧
    ((s.ctx s.bound.ctx).translate? (s.x 2).toNat .rd).map Access.ia = some 0x100000 ∧ ((s.ctx s.bound.ctx).translate? (s.x 2).toNat .w).map Access.ia = some 0x100000 ∧
    h.isRemote 0x100000 = false ∧ (h.walk h.myDie 0x100000).2 = .page 0x100000 false ∧ (h.viewRead 0x100000 0x100000 32).2.missed = false ∧
    (h.viewRead 0x100000 0x100000 32).2.lost = false ∧ s.core.vec.bounds = [] ∧ s.constWin 0 = false ∧ s.mem.logUsed s.coreId ≤ 384 * 1024 := by
  refine ⟨by decide +kernel, by decide +kernel, by decide +kernel, by decide +kernel, fun i h => ?_, by decide +kernel⟩
  exact Nat.testBit_lt_two_pow (Nat.lt_of_lt_of_le (by decide : 1 < 2 ^ 8) (Nat.pow_le_pow_right (by decide) h))
theorem witness_own_store :
    (2 ^ 55 - 2 + 1 < 2 ^ 55) ∧ base.core.seq.toNat + 1 < 2 ^ 55 ∧ (∀ r ∈ base.mem.recs, base.inU r = true → r.seq ≤ base.core.seq.toNat) ∧
    tget? [(5, (9 : Byte))] 5 = some 9 := by decide +kernel
theorem witness_acquire :
    let s := withX [(2, 0x100000), (3, 0x100004), (4, 0x200000)] mapped
    let r := withX [(2, 0x100000)] remotePage
    (s.ctx s.bound.ctx).translate? (s.x 4).toNat .rd = none ∧ ((s.ctx s.bound.ctx).translate? (s.x 2).toNat .rd).map Access.ia = some 0x100000 ∧
    (s.x 3).toNat % 8 ≠ 0 ∧ (s.x 2).toNat % 8 = 0 ∧ s.isRemote 0x100000 = false ∧ r.isRemote 0x100000 = true ∧ Scope.die ∉ [Scope.peer, .domain, .group, .network, .system] ∧
    (s.walk s.myDie 0x100000).2 = .page 0x100000 false ∧ (s.homeRead 0x100000 0x100000 8).2 = some (List.replicate 8 0) ∧
    (s.acquirePart (varOf 0x100000) false (s.varSources 0x100000) false).2 = .done ∧ s.mem.recs = [] ∧ s.coreId < 352 ∧ (∀ kv ∈ s.varSources 0x100000, kv.1 < 4) ∧
    s.core.task = some { launch := 1, index := 0 } ∧ (s.acquirePart 0x100000 false [(s.myDie, 5)] false).2 = .done ∧ r.core.released = none ∧
    (r.acquirePart (varOf 0x100000) true (r.farSources 0x100000) true).2 = .done := by decide +kernel
theorem witness_release :
    let s := withX [(2, 0x100000)] mapped
    let d := s.modCore fun c => { c with misses := [{ ia := 0x100000, vec := false, reg := 4, w := .x 4 0, bad := false }] }
    s.conflicts (wordsOf (s.mem.recs.filter s.covers)) = [] ∧ ((s.ctx s.bound.ctx).translate? (s.x 2).toNat .rdw).map Access.ia = some 0x100000 ∧
    (s.x 2).toNat % 8 = 0 ∧ constant.constWin 0 = true ∧ s.constWin 0 = false ∧ s.isRemote 0x100000 = false ∧ d.loadsOut = true ∧ s.loadsOut = false ∧
    s.core.released = none ∧ (s.walk s.myDie 0x100000).2 = .page 0x100000 false ∧ (s.homeRead 0x100000 0x100000 8).2 = some (List.replicate 8 0) ∧
    s.imageWait 0x100000 = false ∧ (s.publishRoom 0x100000 s.myDie).2 = true ∧ (s.publishRoom 0x100000 s.myDie).1.releasePart.2 = (1, none) ∧
    Scope.die ∉ [Scope.host, .network, .system] ∧ Scope.host ∈ [Scope.host, .network, .system] := by decide +kernel
theorem witness_rmw_ready : RmwReady mapped 0x100000 ∧ SyncQuiet mapped 0x100000 := by
  refine ⟨⟨⟨?_, ?_, ?_⟩, ?_, ?_, ?_⟩, ?_, ?_, ?_⟩ <;> decide +kernel
/-- Nothing makes a read-modify-write at the word wait, so it passes. -/
theorem witness_rmw_passes : ∃ z old, RmwPasses mapped 0x100000 0x100000 8 (fun o => some (o + 1)) true true z old :=
  ⟨_, _, _, _, _, _, _, _, by decide +kernel, by decide +kernel, Prod.ext rfl (by decide +kernel), Prod.ext rfl (Prod.ext rfl (by decide +kernel)),
    Prod.ext rfl (by decide +kernel), Prod.ext rfl (by decide +kernel), Prod.ext rfl (by decide +kernel), rfl⟩
/-- This task has stored a word that another task of the launch owns with a later stamp. -/
def racing : State :=
  { mapped with
    mem := { mapped.mem with clock := 9, recs := [{ core := 0, ctx := 0, launch := 1, index := 0, seq := 1, addr := 0x100000, len := 8, cells := [(0x100000, 1)] }] }
    ctrls := [(0, { owners := [⟨0x100000 / 64, 1, 1, 5, 8, false⟩] })] }
theorem witness_race : racing.releasePart.2.2.isSome = true := by decide +kernel
theorem witness_fence_log :
    let s := mapped
    let p := ({ mapped with root := { mapped.root with ctxs := [(0, { mapped.ctx 0 with logPriv := true })] } } : State)
    let d := s.modCore fun c => { c with misses := [{ ia := 0x100000, vec := false, reg := 4, w := .x 4 0, bad := false }] }
    let y := s.releasePart.1.fencePublish .die 1
    let v := y.modCore fun c => { c with released := none }
    s.core.released = none ∧ d.loadsOut = true ∧ s.loadsOut = false ∧ s.releasePart.2 = (1, none) ∧ (y.forceDie y.myDie 1).2 = true ∧ Scope.die ∉ [Scope.host, .network, .system] ∧
    racing.releasePart.2.2.isSome = true ∧ (v.acquirePart 0 false (v.fenceSources .die) false).2 = .done ∧ s.mem.recs = [] ∧ s.coreId < 352 ∧
    (∀ kv ∈ s.fenceSources .die, kv.1 < 4) ∧
    (s.ctx s.bound.ctx).logPriv = false ∧ (p.ctx p.bound.ctx).logPriv = true ∧ p.core.copy.jobs = [] ∧ s.core.compacted = none ∧ (s.forceDie s.myDie s.bound.lastRel).2 = true ∧
    (s.ctx s.bound.ctx).translate? ((withX [(4, 0x200000)] s).x 4).toNat .rd = none ∧ (withX [(4, 0x100004)] s).x 4 ≠ 0 ∧
    ((s.ctx s.bound.ctx).translate? ((withX [(4, 0x100004)] s).x 4).toNat .rd).isSome = true ∧ ((withX [(4, 0x100004)] s).x 4).toNat % 8 ≠ 0 := by decide +kernel
theorem witness_atomics :
    let s := withX [(2, 0x100000), (3, 0x100004), (5, 0x100001)] mapped
    ((s.ctx s.bound.ctx).translate? (s.x 2).toNat .rdw).map Access.ia = some 0x100000 ∧ (s.x 3).toNat % 8 ≠ 0 ∧ (s.x 5).toNat % 4 ≠ 0 ∧ constant.constWin 0 = true ∧
    (s.x 2).toNat % 8 = 0 ∧ s.constWin 0 = false ∧ s.isRemote 0x100000 = false ∧ s.loadsOut = false ∧ (s.walk s.myDie 0x100000).2 = .page 0x100000 false ∧
    (absentPage.walk absentPage.myDie 0x100000).2 = .absent ∧ (s.homeRead 0x100000 0x100000 8).2 = some (List.replicate 8 0) ∧ (1 : BitVec 3).toNat < 3 ∧
    0x100000 % 8 = 0 ∧ s.mem.recs = [] ∧ s.protector? 0x100000 = none ∧ s.mem.stamps = [] ∧ s.mem.bad = [] ∧ s.sched.tasks = [] := by decide +kernel
/-- A tile descriptor of 2 x 1 x 1 x 1 iterations in slices of 1, at home. -/
def tiled : State :=
  withX [(2, 0x100000)] { mapped with mem := { mapped.mem with cells :=
    [(0x100000, 2), (0x100004, 1), (0x100008, 1), (0x10000C, 1), (0x100010, 0xE4), (0x100014, 1)] } }
theorem witness_tile :
    let s := tiled
    let r := s.viewRead 0x100000 0x100000 64
    let d := s.modStat fun t => { t with det := true }
    ((s.ctx s.bound.ctx).translate? (s.x 2).toNat .rdw).map Access.ia = some 0x100000 ∧ (s.x 2).toNat % 64 = 0 ∧ s.constWin 0 = false ∧ s.isRemote 0x100000 = false ∧
    (s.walk s.myDie 0x100000).2 = .page 0x100000 false ∧ r.2.lost = false ∧ (TileDesc.ofBytes r.2.data).map TileDesc.total = some 2 ∧
    TileDesc.ofBytes (mapped.viewRead 0x100000 0x100000 64).2.data = none ∧ d.core.regs.z.stat.det = true ∧ s.core.regs.z.stat.det = false ∧ s.loadsOut = false ∧
    s.imageWait 0x100018 = false ∧ s.core.released = none ∧ (r.1.publishRoom 0x100018 r.1.myDie).2 = true ∧ r.1.mem.recs = [] ∧ (2 ≤ 2 * 1) ∧ (1 * 1 < 2) := by decide +kernel
theorem witness_counters :
    let s := withX [(2, 0x100000), (3, 1)] mapped
    let d := s.modCore fun c => { c with misses := [{ ia := 0x100000, vec := false, reg := 4, w := .x 4 0, bad := false }] }
    s.core.released = none ∧ d.loadsOut = true ∧ s.loadsOut = false ∧ s.releasePart.2 = (1, none) ∧ s.releasePart.1.core.chans = [] ∧
    ((s.ctx s.bound.ctx).translate? (s.x 2).toNat .rdw).map Access.ia = some 0x100000 ∧ (s.x 2).toNat % 8 = 0 ∧ s.constWin 0 = false ∧ remotePage.isRemote 0x100000 = true ∧
    s.isRemote 0x100000 = false ∧ (s.walk s.myDie 0x100000).2 = .page 0x100000 false ∧ (s.homeRead 0x100000 0x100000 8).2 = some (List.replicate 8 0) ∧
    leNat (List.replicate 8 0) < (s.x 3).toNat ∧ (s.x 4).toNat ≤ leNat (List.replicate 8 0) ∧
    (s.acquirePart (varOf 0x100000) false (s.varSources 0x100000) (s.netCounter 0x100000)).2 = .done ∧
    (s.acquirePart (varOf 0x100000) false (s.varSources 0x100000) true).2 = .done := by decide +kernel
/-- `mapped` with launch ring 0 and network ring 0 of two entries at 0x100000, all words 0. -/
def ringed : State :=
  { mapped with root := { mapped.root with ctxs := [(0, { mapped.ctx 0 with rings := [(0, 0x100001)], netRings := [(0, 0x100001)] })] } }

theorem witness_launch :
    let s := withX [(2, 0x100000), (3, 0x100004), (4, 0x200000)] ringed
    let h := fun k => s.modCore fun c => { c with slotHeld := some (0, k) }
    let full := ({ s with mem := { s.mem with cells := [(0x100000, 2), (0x100008, 2)] } } : State)
    (h 0).core.published = none ∧ ((h 0).ringTry ((h 0).ringReg 0) 0).2 = true ∧ ((h 1).ringTry ((h 1).ringReg 0) 1).2 = false ∧
    s.core.slotHeld = none ∧ s.core.front.holdPage = none ∧ (s.x 3).toNat % 64 ≠ 0 ∧ (s.x 2).toNat % 64 = 0 ∧
    (s.ctx s.bound.ctx).translate? (s.x 4).toNat .rd = none ∧ ((s.ctx s.bound.ctx).translate? (s.x 2).toNat .rd).map Access.ia = some 0x100000 ∧
    s.isRemote 0x100000 = false ∧ (s.walk s.myDie 0x100000).2 = .page 0x100000 false ∧ (s.viewRead 0x100000 0x100000 64).2.lost = false ∧
    ringLog (s.ringReg 5) = 0 ∧ ringLog (s.ringReg 0) = 1 ∧ (full.ringWords full.myDie (full.ringReg 0)).2 = some (2, 2, 0) ∧ 2 ^ 1 ≤ 2 - 0 := by decide +kernel
/-- A READY task of launch 1. -/
def someTask : Machine.Task := { launch := 1, index := 0, ctx := 0, die := 0, prio := 0, recVa := 0, save := 0 }
theorem witness_cancel :
    let s := ({ base with sched := { base.sched with launches := [constLaunch] } } : State)
    base.launch? 1 = none ∧ base.graph? 1 = none ∧ base.phase? 1 = none ∧ base.job? 1 = none ∧ s.launch? 1 = some constLaunch ∧ constLaunch.final = 1 ∧
    constLaunch.complete = false ∧ ({ someTask with state := .bound 3 } : Machine.Task).state = .bound 3 ∧ ({ someTask with state := .done } : Machine.Task).state = .done := by decide +kernel
theorem witness_netpost :
    let s := ringed
    let h := s.modCore fun c => { c with slotHeld := some (64, 1) }
    let p := s.modCore fun c => { c with published := some 0 }
    s.core.released = none ∧ h.core.published = none ∧ (h.ringTry (h.ringReg 64) 1).2 = false ∧ p.core.slotHeld = none ∧ p.core.published = some 0 ∧
    (∀ e ∈ p.mem.recs, e.stamp = none) ∧ ringLog (s.ringReg 64) = 1 := by decide +kernel
/-- A copy of 4 elements of 2 bytes between 0x100000 and scratchpad byte 64, with no handle. -/
theorem witness_copy :
    let s := mapped
    let ext := [4, 1, 1, 1]
    let str : List Int := [2, 0, 0, 0]
    let a : Side := { glob := true, base := 0x100000, lo := 0x100000, hi := 0x100008, inc := 1 }
    let b : Side := { glob := false, base := 64, lo := 64, hi := 72 }
    interval 0x100000 ext str 2 = some (0x100000, 0x100008) ∧ interval 64 ext str 2 = some (64, 72) ∧ 0x100000 % 2 = 0 ∧ 64 % 2 = 0 ∧
    (∀ z ∈ str ++ str, z % (2 : Int) = 0) ∧ s.firstUncovered 0x100000 0x100008 .rd = 0x100008 ∧
    ((s.ctx s.bound.ctx).translate? 0x100000 .rd).map Access.ia = some a.base ∧ s.spadOk 64 8 = true ∧ State.sidePages a = [0x100000] ∧ State.sidePages b = [] ∧
    (s.walk s.myDie 0x100000).2 = .page 0x100000 false ∧ s.det = false ∧ s.core.copy.jobs.length < 16 := by decide +kernel
theorem witness_copy_record :
    let s := withX [(2, 0x100000)] (mapped.modCore fun c => { c with rcache := [(0x100000, List.replicate 64 0)] })
    (s.x 2).toNat % 64 = 0 ∧ (s.ctx s.bound.ctx).translate? (s.x 2).toNat .rd = some ⟨0x100000, 0, 1⟩ ∧ s.core.rcache = [(0x100000, List.replicate 64 0)] := by decide +kernel
/-- Handle 1 with four slots, two of them filled; a producer and a consumer command may be outstanding. -/
def handled (pp cp : Nat) : State :=
  base.modRegs fun r => { r with h := r.h.setIfInBounds 1 { base := 0, ssize := 64, count := 4, fill := 2, pp := pp, cp := cp } }
theorem witness_handles :
    ((handled 0 0).h 1).count ≠ 0 ∧ 2 ≤ ((handled 0 0).h 1).fill - ((handled 0 0).h 1).cp ∧ 2 ≤ ((handled 0 0).h 1).count - ((handled 0 0).h 1).fill - ((handled 0 0).h 1).pp ∧
    ((handled 1 0).core.regs.h[1]?.getD ({} : Handle)).pp ≠ 0 ∧ ((handled 1 0).h 1).fill - ((handled 1 0).h 1).cp < 3 ∧ ((handled 0 0).core.regs.h[1]?.getD ({} : Handle)).pp = 0 ∧
    ((handled 0 1).core.regs.h[1]?.getD ({} : Handle)).cp ≠ 0 ∧ ((handled 0 1).h 1).count - ((handled 0 1).h 1).fill - ((handled 0 1).h 1).pp < 3 ∧
    ((handled 0 0).h 1).count < 5 ∧ ((handled 0 0).h 2).count = 0 := by decide +kernel
theorem witness_hset :
    let s := withX [(2, 0x100000000000), (3, 0x2000000000), (4, 32 * 2 ^ 32), (5, 1)] base
    s.sqOn 0 = true ∧ (s.x 4).toNat = 0 + 32 * 2 ^ 32 ∧ (s.x 4).toNat / 2 ^ 32 % 2 ^ 21 = 32 ∧ (s.x 5).toNat % 2 ^ 9 = 1 ∧ s.spadOk 0 (1 * 32) = true ∧
    (s.h 3).pp = 0 ∧ (s.h 3).cp = 0 ∧ (s.x 3).toNat % 2 ^ 9 = 0 := by decide +kernel
/-- `mapped` with tag 512 of granule 0x100000 in slot 5. -/
def tagged (valid lock : Bool) (lockq : BitVec 11) : State :=
  withX [(2, 0x100000), (3, 5), (4, 0x200000), (6, 1023), (7, 0x100040)]
    ({ mapped with root := { mapped.root with ctxs := [(0, { mapped.ctx 0 with lockq := lockq })] } }.modCopy fun c =>
      { c with tags := [(5, { tag := 512, valid := valid, lock := lock })] })
theorem witness_tags :
    let s := tagged true false 4
    let a := s.modTask fun b => { b with affine := true, plen := 1 }
    (s.ctx s.bound.ctx).translate? (s.x 4).toNat .rd = none ∧ ((s.ctx s.bound.ctx).translate? (s.x 2).toNat .rd).map Access.ia = some 0x100000 ∧
    (∀ e ∈ mapped.core.copy.tags, ¬ (e.2.valid = true ∧ e.2.tag = 512)) ∧ s.core.copy.tags = [(5, { tag := 512, valid := true })] ∧ 0x100000 / 2048 = 512 ∧
    s.spadOk (2048 * 5) 2048 = true ∧ a.spadOk (2048 * 1023) 2048 = false ∧ (s.x 6).toNat % 1024 = 1023 ∧
    (tget {} (tagged true true 4).core.copy.tags 5 : TagEntry).lock = true ∧ (tget {} s.core.copy.tags 5 : TagEntry).lock = false ∧
    ((tagged true false 0).ctx 0).lockq.toNat ≤ (tagged true false 0).locksHeld 0 ∧ s.locksHeld s.bound.ctx < (s.ctx s.bound.ctx).lockq.toNat ∧
    (tget {} (tagged false false 4).core.copy.tags 5 : TagEntry).valid = false ∧
    0x100000 % 2048 = 0 ∧ 0x100040 % 2048 ≠ 0 ∧ ((s.ctx s.bound.ctx).translate? (s.x 7).toNat .rd).map Access.ia = some 0x100040 ∧
    s.isRemote 0x100000 = false ∧ (s.walk s.myDie 0x100000).2 = .page 0x100000 false ∧ s.det = false ∧ s.core.copy.jobs.length < 16 ∧
    s.constGranule (512 * 2048) = none ∧ s.isRemote (512 * 2048) = false := by decide +kernel
/-- A copy job of a direction on handle 3. -/
def someJob (d : JobDir) : Job := { dir := d, src := 0, dst := 64, w := 1, ext := [1, 1, 1, 1], str := [0, 0, 0, 0], dstr := [0, 0, 0, 0], hd := 3, region := 0, foot := {}, ticket := 0 }
theorem witness_engine :
    let s := withX [(2, 1), (3, 0x4000), (4, 0x3FF8), (5, 64)] base
    let eight := s.modCopy fun c => { c with footProg := List.replicate 8 ⟨0, {}⟩ }
    let j := s.modCopy fun c => { c with jobs := [someJob .hs] }
    let m := s.modCopy fun c => { c with jobs := [someJob .rm], err := [⟨{ code := 0x14 }, 4⟩] }
    (s.x 2).toNat % 8 ≠ 0 ∧ (s.x 3).toNat % 8 = 0 ∧ engMap (s.x 3).toNat = true ∧ engMap (s.x 4).toNat = false ∧ s.badOpen (s.x 3).toNat (s.x 4) = false ∧
    s.x 6 = 0 ∧ s.x 5 ≠ 0 ∧ 8 ≤ eight.core.copy.footProg.length ∧ s.core.copy.footProg.length < 8 ∧ s.det = false ∧ s.spadOk (s.x 5).toNat (s.x 5).toNat = true ∧
    (∀ j ∈ m.core.copy.jobs, j.dir = .rm) ∧ m.core.mx.inWork = [] ∧ m.core.snapOps = [] ∧ (∃ x ∈ j.core.copy.jobs, x.dir ≠ .rm) ∧
    (∃ x ∈ j.core.copy.jobs, x.hd = (3 : BitVec 4).toNat) ∧ (∀ x ∈ j.core.copy.jobs, (4 : BitVec 4) ≠ 0 ∧ x.hd ≠ (4 : BitVec 4).toNat) ∧ j.core.copy.err = [] ∧
    (∀ x ∈ m.core.copy.jobs, (4 : BitVec 4) ≠ 0 ∧ x.hd ≠ (4 : BitVec 4).toNat) ∧ m.core.copy.err = [⟨{ code := 0x14 }, 4⟩] := by decide +kernel
theorem witness_fuse :
    let s := withX [(2, 3), (3, 5), (4, 12)] base
    let g := ({ s with clusters := [(0, { groups := [{ mask := 3, coupled := 3 }] })] } : State)
    ((s.x 2).truncate 4 = (3 : BitVec 4) ∧ ((s.x 2).truncate 4 : BitVec 4).getLsbD (lowCore s.coreId) = true) ∧ (∀ q ∈ (s.cluster (clusterOf s.coreId)).groups, q.mask.getLsbD 0 = false) ∧
    ((s.x 3).truncate 4 ≠ (3 : BitVec 4) ∧ (s.x 3).truncate 4 ≠ (12 : BitVec 4) ∧ (s.x 3).truncate 4 ≠ (15 : BitVec 4)) ∧ ((s.x 4).truncate 4 : BitVec 4).getLsbD 0 = false ∧
    (g.cluster (clusterOf g.coreId)).groups = [{ mask := 3, coupled := 3 }] ∧ (3 : BitVec 4).getLsbD (lowCore g.coreId) = true := by decide +kernel
theorem witness_barriers :
    let s := withX [(2, 4), (3, 0xFFFFFFFFFFFFFFFF), (4, 0x100000003), (5, 0x100000000), (6, 1 <<< 48), (7, 1 <<< 22), (8, 0x100000010), (9, 5)] base
    let m : SpireGroup := { gen := 5, n := 2, mask := 3 }
    let t := ({ s with clusters := [(0, { mirror := [(1, m)] })] } : State)
    (tget {} (t.cluster (clusterOf t.coreId)).mirror 1 : SpireGroup) = m ∧ (t.x 2).toNat < m.gen.toNat ∧ m.gen.toNat ≤ (t.x 9).toNat ∧ t.x 9 ≠ BitVec.allOnes 64 ∧ m.n ≠ 0 ∧
    t.x 3 = BitVec.allOnes 64 ∧ (tget {} (s.cluster 0).mirror 1 : SpireGroup).n = 0 ∧
    ((t.x 4).toNat < 2 ^ 48 ∧ (t.x 4).toNat / 2 ^ 22 % 2 ^ 10 = 0 ∧ (t.x 4).toNat / 2 ^ 4 % 2 ^ 18 = 0 ∧ (t.x 4).toNat % 2 ^ 22 ≠ 0) ∧
    (2 ^ 48 ≤ (t.x 6).toNat ∧ (t.x 7).toNat / 2 ^ 22 % 2 ^ 10 ≠ 0 ∧ (t.x 8).toNat / 2 ^ 4 % 2 ^ 18 ≠ 0 ∧ 64 ≤ (79 : BitVec 7).toNat ∧
      (t.x 5).toNat / 2 ^ 32 ≠ 0 ∧ (t.x 5).toNat % 2 ^ 22 = 0) ∧
    m.arrived + 1 ≠ m.n ∧ { m with arrived := 1 }.arrived + 1 = m.n ∧ ({ m with staged := some (3, 7) } : SpireGroup).staged = some (3, 7) ∧
    (t.x 2).extractLsb' 32 16 = 0 ∧ (t.x 4).extractLsb' 32 16 ≠ 0 ∧ m.arrived = 0 ∧ ({ m with arrived := 1 } : SpireGroup).arrived ≠ 0 := by decide +kernel
/-- Channel 2: KIND 0, 8 lanes, DEPTH 4, PROTO 1, RANK 1 and TYPE `ty`, in the two roles. -/
def channel (recv : Bool) (ty cred n : Nat) : State :=
  base.modCore fun c => { c with chans := [(2,
    { ctl := BitVec.ofNat 64 (4 + (if recv then 2 else 0) + ty * 2 ^ 8 + 7 * 2 ^ 11 + 3 * 2 ^ 18 + 2 ^ 24), state := .opened, cred := cred, depthPeer := 4
      buf := List.replicate n { lanes := List.replicate 8 0, stamp := 0 } })] }
def chan2 (s : State) : Chan := tget {} s.core.chans 2
theorem witness_channels :
    let s := channel false 0 1 0
    let r := channel true 0 0 1
    let h := r.modChan 2 fun e => { e with held := List.replicate 4 { lanes := [], stamp := 0 } }
    (chan2 s).state = .opened ∧ (chan2 s).recv = false ∧ 2 * (60 : BitVec 6).toNat + (chan2 s).lanes ≤ 128 ∧ 0 < (chan2 s).cred ∧ (chan2 s).kind < 2 ∧ (chan2 s).proto = true ∧
    (chan2 (channel false 0 0 0)).cred = 0 ∧ (chan2 base).state = .closed ∧ (chan2 r).recv = true ∧ 128 < 2 * (61 : BitVec 6).toNat + (chan2 s).lanes ∧
    (chan2 r).held.length ≠ (chan2 r).depth ∧ (chan2 r).buf = { lanes := List.replicate 8 0, stamp := 0 } :: [] ∧ (chan2 r).ty = 0 ∧ (chan2 (channel true 1 0 1)).ty = 1 ∧
    r.det = false ∧ 0 + 1 = (chan2 r).rank ∧ (chan2 h).held.length = (chan2 h).depth ∧ (chan2 (channel true 0 0 0)).buf = [] ∧
    (1 ≤ (chan2 r).depth - (chan2 r).held.length) ∧ (chan2 r).depth - (chan2 r).held.length < 5 ∧ 4 ≤ (chan2 s).depthPeer ∧ (chan2 s).depthPeer < 5 := by decide +kernel
theorem witness_vtrans : fp32.decode 0x7FC00000 = .nan ∧ (∃ m, fp32.decode 0x80000001 = .fin true m ∧ 0 < m) :=
  ⟨by decide +kernel, 2048, by decide +kernel, by decide⟩
/-- The tree and the prefix structure that the statement of VRED and VSCAN names. -/
def tree (f : Nat → Nat → Nat) (g : Nat → Nat) : Nat → Nat → Nat
  | 0, i => g i
  | k + 1, i => f (tree f g k (2 * i)) (tree f g k (2 * i + 1))
def scan (f : Nat → Nat → Nat) (g : Nat → Nat) : Nat → Nat → Nat
  | 0, i => g i
  | k + 1, i => if 2 ^ k ≤ i then f (scan f g k (i - 2 ^ k)) (scan f g k i) else scan f g k i
theorem witness_tree (f : Nat → Nat → Nat) (g : Nat → Nat) (k i : Nat) :
    tree f g 0 i = g i ∧ scan f g 0 i = g i ∧ tree f g (k + 1) i = f (tree f g k (2 * i)) (tree f g k (2 * i + 1)) ∧
    scan f g (k + 1) i = if 2 ^ k ≤ i then f (scan f g k (i - 2 ^ k)) (scan f g k i) else scan f g k i := ⟨rfl, rfl, rfl, rfl⟩
theorem witness_row_latch :
    let s := fun n => base.modMx fun m => { m with drain := some ⟨0, n⟩ }
    (s 8).core.mx.drain = some ⟨0, 8⟩ ∧ 8 ≤ 8 ∧ 135 < 136 ∧ base.core.mx.drain = none ∧ (s 7).core.mx.drain = some ⟨0, 7⟩ ∧ 7 < 8 ∧ 136 ≤ 136 := by decide +kernel

/-- The matrix engine with its claim, and slots 0 and 1 loaded for a pair and a class. -/
def matrix (pair : MPair) (cls : Nat) (k : PlaneKind) : State :=
  { base with core := { base.core with
    cycle := 9
    mx := { claim := true, pair := pair, slots := [(0, { tag := some ⟨false, cls, 0⟩ }), (1, { tag := some ⟨true, cls, 0⟩ }), (2, { tag := some ⟨true, 2, 0⟩ })]
            planes := [(0, { kind := k })] } } }
theorem witness_matrix_open : MxOpen (matrix .bf16 0 .none) ∧ base.core.mx.claim = false ∧ base.core.regs.z.stat.tm = false ∧ base.core.front.released = false ∧
    base.core.mx.mcfgAt.map (fun c => c + 1) ≠ some base.core.cycle ∧
    ((matrix .bf16 0 .none).modMx fun m => { m with mcfgAt := some 8 }).core.mx.mcfgAt = some ((matrix .bf16 0 .none).core.cycle - 1) ∧ 0 < (matrix .bf16 0 .none).core.cycle :=
  ⟨⟨rfl, rfl, rfl, by decide +kernel⟩, by decide +kernel⟩
theorem witness_matrix_commands :
    let s := matrix .bf16 0 .none
    let q := s.modMx fun m => { m with queue := [{ op := .mma }] }
    s.core.mx.queue.length < 2 ∧ (tget {} s.core.mx.slots 0 : OpSlot).tag = some ⟨false, 0, 0⟩ ∧ (tget {} s.core.mx.slots 1 : OpSlot).tag = some ⟨true, 0, 0⟩ ∧
    MPair.cls s.core.mx.pair = FClass.code .b16 ∧ MPair.takes s.core.mx.pair 0 = true ∧ s.core.mx.kind 0 ≠ .zero ∧ s.core.mx.kind 0 ≠ MPair.kind s.core.mx.pair ∧
    (matrix .bf16 0 .zero).core.mx.kind 0 = .zero ∧ (matrix .bf16 0 .fp32).core.mx.kind 0 = MPair.kind s.core.mx.pair ∧
    MPair.cls (matrix .int8 0 .none).core.mx.pair ≠ FClass.code .b16 ∧ (tget {} s.core.mx.slots 5 : OpSlot).tag = none ∧
    (tget {} s.core.mx.slots 2 : OpSlot).tag = some ⟨true, 2, 0⟩ ∧ s.core.mx.pair = .bf16 ∧ (matrix .int8 0 .none).core.mx.pair ≠ .bf16 ∧
    s.core.mx.array = none ∧ s.core.mx.drain = none ∧ (∃ c ∈ q.core.mx.queue, c.op ≠ .mload ∧ c.plane = (false : Bool).toNat) := by decide +kernel
/-- Shape registers for a load of `rows` rows of `cols` elements at stride 256, scale kind `sk`. -/
def loading (rows cols sk : Nat) (s : State) : State :=
  s.modRegs fun r => { r with shape := (r.shape.setIfInBounds 0 (BitVec.ofNat 512 (rows + cols * 2 ^ 32 + 256 * 2 ^ 64), 0)).setIfInBounds 2 (BitVec.ofNat 512 (sk + 0x8000 * 2 ^ 32), 0) }
theorem witness_matrix_load :
    let s := loading 128 64 0 (withX [(2, 0), (3, 16)] (matrix .bf16 0 .none))
    let g := fun (s : State) k f => elemOf 32 (s.shapes k).1.toNat f
    let c : MxCmd := { op := .mload, rows := 128, cols := 64, stride := 256, cls := 0 }
    s.core.mx.queue.length < 2 ∧ (s.x 2).toNat % 32 = 0 ∧ (s.x 3).toNat % 32 ≠ 0 ∧ g s 0 0 = 128 ∧ g s 0 1 = 64 ∧ g s 0 2 = 256 ∧ g s 2 0 = 0 ∧ clsChunk 0 = 128 ∧ 256 % 32 = 0 ∧
    (∀ r ∈ MxCmd.reads c, s.spadOk r.lo (r.hi - r.lo) = true) ∧ s.det = false ∧ 128 < g (loading 129 64 0 s) 0 0 ∧ clsChunk 0 < g (loading 1 129 0 s) 0 1 ∧
    g (loading 128 8 1 s) 2 0 = 1 ∧ 8 % 8 = 0 ∧ FClass.code .fp4 = 2 ∧ FClass.code .b16 ≠ 2 ∧ 32 % 32 = 0 := by decide +kernel
theorem witness_matrix_arithmetic :
    let a := base.modMx fun m => { m with array := some { op := .mma, done := 0, ticket := 0 } }
    let l := fun n => base.modMx fun m => { m with load := some { op := .mload, done := n, ticket := 0 } }
    a.core.mx.array = some { op := .mma, done := 0, ticket := 0 } ∧ 0 + 1 < ({ op := .mma, done := 0, ticket := 0 } : MxCmd).length ∧
    ({ op := .mma, done := 200, ticket := 0 } : MxCmd).length ≤ 200 + 1 ∧ (l 62).core.mx.load = some { op := .mload, done := 62, ticket := 0 } ∧ 62 + 1 < 64 ∧ 64 ≤ 63 + 1 ∧
    ({ op := .mma, ticket := 0 } : MxCmd).pair ≠ .int8 ∧ ({ op := .mma, pair := .int8, ticket := 0 } : MxCmd).pair = .int8 ∧ 127 < 128 ∧ 3 < 4 ∧ 0 < clsChunk 3 := by decide +kernel
theorem witness_scale :
    let s := withX [(2, 64), (3, 16), (4, 0x1FFF00)] base
    (s.x 3).toNat % 32 ≠ 0 ∧ (s.x 4).toNat % 32 = 0 ∧ s.spadOk (s.x 4).toNat 256 = true ∧ s.spadOk (s.x 2).toNat 4 = true ∧
    (∀ neg m, bf16.decode 0 = .fin neg m → m = 0) ∧ (bf16.decode 0x3F80 = .fin false (2 ^ 160) ∧ 2 ^ 160 ≠ 0) := by
  refine ⟨by decide +kernel, by decide +kernel, by decide +kernel, by decide +kernel, fun neg m h => ?_, ?_⟩
  · rw [show bf16.decode 0 = .fin false 0 by decide +kernel] at h
    injection h with h1 h2
    exact h2.symm
  · decide +kernel
/-- Slot 0 of a coding group of two data members and one parity member; this device is number 0, and member `me`. -/
def cfg (me : BitVec 4) (en : Bool) : GCfg :=
  { gid := 7, myidx := me, k := 2, m := 1, en := en, space := 4096, memb0 := if me = 0 then 0x020100 else 0x000201, roundbuf := 0x400001, roundcfg := 16 }
def grouped (me : BitVec 4) (g : GSlot → GSlot) : State :=
  { mapped with groups := [(0, g { cfg := cfg me true, state := .run })], root := { mapped.root with owner := { id := 1, epoch := 1 } } }
/-- `grouped` with the descriptor of 128 bytes at 0x100080 and group offset 0, at home 0x100000, x2 naming it. -/
def described : State :=
  let s := grouped 0 id
  withX [(2, 0x100000), (3, 0x100004), (4, 0x200000)] { s with mem := { s.mem with cells := [(0x100000, 0x80), (0x100002, 0x10), (0x100008, 0x80)] } }
theorem witness_registrations :
    let s := described
    let r := s.viewRead 0x100000 0x100000 32
    let v := r.1
    (s.ctx s.bound.ctx).translate? (s.x 4).toNat .rd = none ∧ ((s.ctx s.bound.ctx).translate? (s.x 2).toNat .rd).map Access.ia = some 0x100000 ∧ (s.x 3).toNat % 32 ≠ 0 ∧
    (s.x 2).toNat % 32 = 0 ∧ s.isRemote 0x100000 = false ∧ (s.walk s.myDie 0x100000).2 = .page 0x100000 false ∧ r.2.lost = false ∧
    RegDesc.ofBytes r.2.data = some ⟨0x100080, 128, 0, 0⟩ ∧ RegDesc.fits ⟨0x100080, 128, 0, 0⟩ (v.group 0) = true ∧ (v.group 0).cfg.en = true ∧
    (v.group 0).state = .run ∧ (v.group 0).cfg.isData = true ∧ ((v.ctx v.bound.ctx).rangeIn? 0x100080 128 .rdw).map Access.ia = some 0x100080 ∧
    v.isRemote 0x100080 = false ∧ v.constWin 0 = false ∧ (v.groups.flatMap fun kv => kv.2.allRegs) = [] ∧
    (⟨0x100080, 128, 0⟩ : Region) ∈ ((grouped 0 fun g => { g with joining := [⟨0x100080, 128, 0⟩] }).group 0).joining ∧
    (⟨0x100080, 128, 0⟩ : Region) ∈ ((grouped 0 fun g => { g with regs := [⟨0x100080, 128, 0⟩] }).group 0).regs := by decide +kernel
theorem witness_rounds :
    let s := withX [(2, 0), (3, 1), (4, 8), (5, 16), (6, 64), (7, 24)] (grouped 0 fun g => { g with cfg := { g.cfg with roundcfg := 16 } })
    let q := withX [(2, 0)] (grouped 0 fun g => { g with phase := 1 })
    let v := (s.releasePart.1.fencePublish .package 1).modCore fun c => { c with released := none }
    let w := v.takeStamp
    (s.x 4).toNat / 8 ≠ 0 ∧ (base.group 0).cfg.en = false ∧ ((grouped 2 id).group 0).cfg.isData = false ∧ (s.x 2).toNat < 8 ∧ (s.group 0).cfg.en = true ∧
    (s.group 0).cfg.isData = true ∧ ((grouped 0 fun g => { g with rb := true }).group 0).rb = true ∧ (s.group 0).rb = false ∧ (q.group 0).phase ≠ 0 ∧
    s.x 3 = (s.group 0).roundLast + 1 ∧ s.x 2 ≠ (s.group 0).roundLast + 1 ∧ (s.group 0).phase = 0 ∧ (s.group 0).cfg.rrec = 0 ∧ s.loadsOut = false ∧ s.core.released = none ∧
    s.releasePart.2 = (1, none) ∧
    (w.1.compact fun r t => decide (t ≤ w.2) && r.cells.any fun c => ((w.1.group 0).covers? c.1).isSome).1.roundWaits 0 w.2 = false ∧
    (s.acquirePart 0 false (s.fenceSources .package) false).2 = .done ∧ s.mem.recs = [] ∧ s.coreId < 352 ∧ (∀ kv ∈ s.fenceSources .package, kv.1 < 4) ∧
    (s.x 6).toNat / 64 ≠ 0 ∧ (s.x 4).toNat / 8 = 1 ∧ (s.x 5).toNat / 8 = 2 ∧ 3 ≤ (s.x 7).toNat / 8 := by decide +kernel
/-- A safe point is next at core 0, and a READY task waits. -/
def waiting : State :=
  { base with
    core := { base.core with preempt := true, task := none
                             front := { base.core.front with run := none, cur := some { twoBundles with bundles := [⟨16, 0x800000, []⟩] } } }
    sched := { base.sched with launches := [{ constLaunch with block := List.replicate 64 0 ++ List.replicate 16 0xFF }], tasks := [someTask] } }
def running : State := { waiting with core := { waiting.core with task := some { launch := 1, index := 1 } } }
theorem witness_core_events_bind : waiting.choice 0 = some someTask ∧ waiting.idle 0 = true := by decide +kernel
theorem witness_core_events :
    let s := running
    let b := s.modZ fun z => { z with budget := 4, wcount := 4 }
    let h := b.modFront fun f => { f with hold := .fetch, logSince := some 0 }
    let m := s.modCore fun c => { c with misses := [⟨0x100000, false, 4, .x 4 0, false⟩], slotHeld := some (0, 1), asked := some (3, true) }
    let x := s.modMx fun m => { m with load := some { op := .mload, done := 63, ticket := 0 }, drain := some ⟨0, 3⟩ }
    (s.coreAt 0).preempt = true ∧ s.coupledCores 0 = [0] ∧ (s.focus 0).atSafePoint = true ∧ (s.coreAt 0).task.isSome = true ∧
    (h.focus 0).core.regs.z.budget ≠ 0 ∧ (h.focus 0).core.regs.z.budget.toNat ≤ (h.focus 0).core.regs.z.wcount.toNat ∧ (h.focus 0).core.front.hold ≠ .none ∧
    (m.focus 0).core.misses[0]? ≠ none ∧ (m.focus 0).core.front.reenter = none ∧ (s.focus 0).core.front.cur ≠ none ∧ (h.focus 0).core.front.logSince = some 0 ∧
    0 + ((h.focus 0).die 0).logStall.toNat ≤ { h with time := 10000 }.time ∧ (m.focus 0).core.asked = some (3, true) ∧ (m.focus 0).core.answer = none ∧
    (m.focus 0).answerFits (.error 0x0C 0) = true ∧ (m.focus 0).core.slotHeld = some (0, 1) ∧ (s.focus 0).frozen = false ∧
    (x.focus 0).core.mx.load ≠ none ∧ ({ op := .mload, done := 63, ticket := 0 } : MxCmd).length ≤ 63 + 1 ∧ (x.focus 0).core.mx.array = none ∧
    (x.focus 0).core.mx.drain.isSome = true ∧ (x.focus 0).core.front.halted = false ∧ 0 < ((x.modFront fun f => { f with bubbles := 1 }).focus 0).core.front.bubbles ∧
    ((0x14 : BitVec 8) ∈ ([0x0A, 0x0B, 0x0C, 0x12, 0x13, 0x14] : List (BitVec 8))) := by decide +kernel
theorem witness_slice :
    let s := { running with time := 1000 }.modTask fun b => { b with slice := 100 }
    s.sliceOver 0 = true ∧ (s.coreAt 0).task.isSome = true ∧
    ((({ s with clusters := [(0, { groups := [{ mask := 3, coupled := 3 }] })] } : State).cluster 0).groups.find? fun g => g.coupled.getLsbD (lowCore 0)) =
      some { mask := 3, coupled := 3 } := by decide +kernel
/-- A remote load of x0 from device 3. -/
def farLoad : RemoteLoad := { ia := 3 * 2 ^ 50, inc := 1, vec := false, reg := 0, signed := false, size := 8, mask := 0, bundle := 0x100010 }
def parkedTask : Machine.Task := { someTask with state := .parked, park := some (.remote farLoad true) }
theorem witness_super_step :
    let s := ({ base with sched := { base.sched with launches := [{ constLaunch with ssteps := [(0, { arrived := [0] })] }], tasks := [someTask] } } : State)
    let r := ({ base with sched := { base.sched with tasks := [parkedTask] } } : State)
    (s.superStep 1 0).arrived ≠ [] ∧ (∀ i ∈ s.participants 1 0, i ∈ (s.superStep 1 0).arrived) ∧
    r.task? 1 0 = some parkedTask ∧ parkedTask.state = .parked ∧ parkedTask.park = some (.remote farLoad true) ∧ farLoad.reg = 0 ∧ farLoad.vec = false ∧
    ({ base with root := { base.root with debugger := true } } : State).root.debugger = true := by decide +kernel
/-- A channel entry: channel 2 of core 0 and channel 3 of core 1 in this die, or the peer channel 3 of core 1 on device 3. -/
def entry (recv : Bool) (kind pch core : Nat) (st : ChanState) (n : Nat) : Chan :=
  { ctl := BitVec.ofNat 64 (1 + (if recv then 2 else 0) + 7 * 2 ^ 11 + 3 * 2 ^ 18), state := st, depthPeer := 4
    peer := BitVec.ofNat 64 (pch + core * 2 ^ 8 + (if kind = 2 then 3 * 2 ^ 32 else 0) + kind * 2 ^ 40 + 2 ^ 48)
    buf := List.replicate n ⟨[], 0⟩, pending := List.replicate n ⟨[], 0⟩ }
def linked (c d : Chan) : State :=
  { base with core := { base.core with chans := [(2, c)] }, others := [(1, { chans := [(3, d)] })]
              fabric := { base.fabric with peers := [(3, { state := .up, inc := 1 })] } }
theorem witness_channel_events :
    let c := entry false 0 3 1
    let d := entry true 0 2 0
    let s := linked (c .opening 0) (d .opening 0)
    let o := linked (c .opened 1) (d .opened 0)
    let f := linked (entry false 2 3 1 .opening 0) (d .opening 0)
    let g := linked (entry true 2 3 1 .opened 1) (d .opened 0)
    let e := base.modCore fun c => { c with front := { c.front with run := none }, flight := [⟨1, .eng (0xC000 + 64 * 2) 1⟩, ⟨1, .eng (0xC000 + 64 * 3) 0⟩] }
    (e.coreAt 0).task.isSome = true ∧ (e.focus 0).core.front.run = none ∧ (e.focus 0).engDue 2 true = some ⟨1, .eng (0xC000 + 64 * 2) 1⟩ ∧
    (e.focus 0).engDue 3 false = some ⟨1, .eng (0xC000 + 64 * 3) 0⟩ ∧ (o.chanAt 0 2).state ≠ .opening ∧
    (f.chanAt 0 2).state = .opening ∧ (f.chanAt 0 2).kind = 2 ∧ (f.peer (f.chanAt 0 2).dev).state = .up ∧ (f.peer (f.chanAt 0 2).dev).inc = (f.chanAt 0 2).inc ∧
    (s.chanAt 0 2).state = .opening ∧ (s.chanAt 0 2).kind < 2 ∧ (s.chanAt 0 2).peerCore 0 = 1 ∧ (s.chanAt 0 2).pch = 3 ∧ (s.chanAt 1 3).state = .opening ∧
    (s.chanAt 1 3).names 1 0 2 = true ∧ (s.chanAt 1 3).recv ≠ (s.chanAt 0 2).recv ∧ (s.chanAt 1 3).lanes = (s.chanAt 0 2).lanes ∧ (s.chanAt 1 3).ty = (s.chanAt 0 2).ty ∧
    (s.chanAt 1 3).proto = (s.chanAt 0 2).proto ∧ (1, 3) ≠ (0, 2) ∧ ((linked (c .opening 0) (entry false 0 2 0 .opening 0)).chanAt 1 3).recv = (s.chanAt 0 2).recv ∧
    (g.chanAt 0 2).state = .opened ∧ (g.chanAt 0 2).recv = true ∧ (g.chanAt 0 2).buf.length + (g.chanAt 0 2).held.length < (g.chanAt 0 2).depth ∧
    (o.chanAt 0 2).recv = false ∧ (o.chanAt 0 2).pending.head? = some ⟨[], 0⟩ ∧ (o.chanAt 0 2).kind < 2 ∧ (o.chanAt 1 3).state = .opened ∧
    (o.chanAt 0 2).kind ≠ 2 ∧ ((linked (entry false 2 3 1 .opened 0) (d .opened 0)).chanAt 0 2).cred + 0 < 4 := by decide +kernel
theorem witness_channel_timeout :
    let s := linked (entry false 2 3 1 .opened 0) (entry true 0 2 0 .opened 0)
    ({ s with time := 10000000, fabric := { s.fabric with peers := [(3, { state := .up, inc := 1, lost := some 0 })] } } : State).unroutedFor 3 0 = true := by decide +kernel
theorem witness_spire_events :
    let s := { base with core := { base.core with spireOut := [⟨1, none, 5, 64⟩] }, clusters := [(0, { line := [(0, .fuse 3 0x100010 4 0)] })], time := 2000 }
    let b := { base with core := { base.core with spireOut := [⟨79, some 7, 0, 192⟩] } }
    (s.coreAt 0).spireOut = ⟨1, none, 5, 64⟩ :: [] ∧ 1 = (1 : BitVec 7).toNat ∧ 5 ≠ 0 ∧ (b.coreAt 0).spireOut = ⟨79, some 7, 0, 192⟩ :: [] ∧ 79 = (79 : BitVec 7).toNat ∧
    tget? (s.cluster (clusterOf 0)).line (lowCore 0) = some (.fuse 3 0x100010 4 0) ∧ 0 + 2000 ≤ s.time ∧ 3 < 4 ∧ 21 < 22 ∧ 79 < 80 := by decide +kernel
/-- The compute stage with launch ring 0 of context 0; its PUB word is `p`. -/
def polledRing (p : Byte) : State :=
  { ringed with root := { ringed.root with stage := { ringed.root.stage with stage := 2 } }, mem := { ringed.mem with cells := if p = 0 then [] else [(0x100008, p)] } }
theorem witness_rings :
    let s := polledRing 1
    let u := ({ s with sched := { s.sched with poll := 1 } } : State)
    (u.agentAcquire (ringBase 0x100001 + 8)).2 = true ∧
    (s.polled.find? fun n => decide (s.sched.poll ≤ n)).or s.polled.head? = some 0 ∧ tget 0 (u.ctx 0).rings 0 = 0x100001 ∧
    ((u.agentAcquire (ringBase 0x100001 + 8)).1.ringWords 0 0x100001).2 = some (0, 1, 0) ∧
    (((polledRing 0).agentAcquire (ringBase 0x100001 + 8)).1.ringWords 0 0x100001).2 = some (0, 0, 0) ∧ base.polled = [] ∧
    (s.netPolled.find? fun n => decide (s.net.poll ≤ n)).or s.netPolled.head? = some 0 ∧ base.netPolled = [] ∧
    ((u.agentAcquire (ringBase 0x100001 + 8)).1.readIa 0 (ringEntry 0x100001 0) 64 2).2 = some (List.replicate 64 0) ∧
    (s.workAt 0 0 0 (List.replicate 64 0)).1.workWaits (s.workAt 0 0 0 (List.replicate 64 0)).2 = false ∧
    (s.workAt 0 0 0 (List.replicate 64 0)).1.sourceAbsent? (s.workAt 0 0 0 (List.replicate 64 0)).2 = none := by decide +kernel
/-- A graph whose one node is an END node at 0x100040, node 0 active; a job of one phase. -/
def someGraph : Graph := { id := 4, ctx := 0, addr := 0x100000, phase := 0, job := 0, nodes := 1, active := [0] }
def someJobRun : JobRun := { id := 6, ctx := 0, addr := 0, nphase := 1, policy := 0, counter := 0, phases := 0x100000 }
def graphed : State :=
  { mapped with
    sched := { mapped.sched with graphs := [someGraph], jobs := [someJobRun] }
    mem := { mapped.mem with cells := [(State.nodeAddr someGraph 0, 3), (State.nodeAddr someGraph 0 + 16, 0xFF), (State.nodeAddr someGraph 0 + 17, 0xFF),
      (State.nodeAddr someGraph 0 + 18, 0xFF), (State.nodeAddr someGraph 0 + 19, 0xFF)] } }
theorem witness_units :
    let l := { constLaunch with entry := List.replicate 64 0, block := List.replicate 64 0 }
    let s := ({ base with sched := { base.sched with launches := [l, { constLaunch with id := 2, entry := List.replicate 64 1 }] } } : State)
    let b := (graphed.supRead 0 0 (State.nodeAddr someGraph 0) 64).2.getD []
    (s.sched.launches.find? fun x => x.id == l.id && !x.complete) = some l ∧ s.launchEnded l = true ∧ l.det = false ∧ l.stats = 0 ∧ l.graph = 0 ∧
    s.launchEnded { constLaunch with id := 2, entry := List.replicate 64 1 } = false ∧
    graphed.graph? 4 = some someGraph ∧ 0 ∈ someGraph.active ∧ someGraph.complete = false ∧ 1 ∉ someGraph.active ∧ at' b 0 1 = 3 ∧ zeros b 1 1 = true ∧ zeros b 4 4 = true ∧
    zeros b 40 24 = true ∧ at' b 16 4 = 0xFFFFFFFF ∧ at' b 20 4 < someGraph.nodes ∧
    graphed.job? 6 = some someJobRun ∧ someJobRun.stopped = false ∧ someJobRun.complete = false ∧ someJobRun.active = false ∧ someJobRun.cur < someJobRun.nphase ∧
    ({ someJobRun with cur := 1 } : JobRun).nphase ≤ ({ someJobRun with cur := 1 } : JobRun).cur := by decide +kernel
/-- Master 1 owns the device. -/
def owned : State := { base with root := { base.root with owner := { id := 1, epoch := 1 } } }
theorem witness_registers :
    let e := ({ owned with root := { owned.root with ctxs := [(0, { en := true })] } } : State)
    let a : Window := (tget {} (owned.ctx 0).aws 3 : Window).withWord 3 3
    base.root.owner.id = 0 ∧ owned.time < owned.root.owner.beat + owned.root.owner.lease.toNat ∧ owned.root.owner.id ≠ 2 ∧ owned.root.owner.id = 1 ∧
    owned.anyCtx = false ∧ e.anyCtx = true ∧ (owned.ctx 0).en = false ∧ (e.ctx 0).en = true ∧ a.a.getLsbD 0 = true ∧ a.twoDevices = false ∧
    (1 : Word).getLsbD 0 = true ∧ (2 : Word).getLsbD 0 = false ∧ (0x400000005 : Word).toNat / 2 ^ 32 % 8 = 4 ∧ owned.regRead 1 (0x2000 + 0x400 * 3 + 0x20) = some 0 := by decide +kernel
theorem witness_two_devices : ∃ w : Window, w.a.getLsbD 0 = true ∧ w.twoDevices = true := ⟨⟨0, 2 ^ 35, (2 ^ 50 - 65536), 1⟩, by decide +kernel⟩
theorem witness_package :
    let v := ({ base with root := { base.root with stage := { verified := true } } } : State)
    let g := fun (n : Nat) (t : Nat) => ({ base with time := t, root := { base.root with stage := { stage := n - 1, pending := some ⟨n, 0, 1, 0⟩ } } } : State)
    let c := ({ base with root := { base.root with stage := { stage := 2 }, owner := { epoch := 3 } } } : State)
    let h := ({ c with root := { c.root with owner := { id := 1, epoch := 3, succ := 2 } } } : State)
    let j := ({ owned with root := { owned.root with journal := { entries := [(1, ⟨1, 0, 2, 1, 0, 0, 0⟩)], jseq := 1, mirror := 0x400000 } } } : State)
    v.root.stage.stage = 0 ∧ v.root.stage.verified = true ∧ base.root.stage.verified = false ∧ (g 2 0).root.stage.pending = some ⟨2, 0, 1, 0⟩ ∧ (g 2 0).root.stage.stage = 1 ∧
    (g 3 0).root.stage.pending = some ⟨3, 0, 1, 0⟩ ∧ ((g 3 0).modFabric fun f => { f with ports := (List.range 8).map fun k => (k, { state := .run }) }).port 7 = { state := .run } ∧
    (g 4 0).root.stage.pending = some ⟨4, 0, 1, 0⟩ ∧ (g 4 0).groupsRestored = some true ∧ 0 + 1000000000 ≤ (g 3 1000000000).time ∧
    c.root.stage.stage ≠ 0 ∧ c.root.owner.id = 0 ∧ (0x300000001 : Word).toNat / 2 ^ 32 = c.root.owner.epoch.toNat ∧ (0x300000001 : Word).toNat % 4 = 1 ∧
    h.root.owner.succ.toNat = 2 ∧ (0x300000002 : Word).toNat % 4 = 2 ∧ h.root.owner.succ.toNat ≠ 3 ∧ (1 : Word).toNat / 2 ^ 32 ≠ c.root.owner.epoch.toNat ∧
    owned.root.owner.id ≠ 0 ∧ owned.root.owner.beat + owned.root.owner.lease.toNat ≤ { owned with time := 1000000 }.time ∧
    j.journalEntry? 1 = some ⟨1, 0, 2, 1, 0, 0, 0⟩ ∧ j.root.journal.mirror.toNat / 2 ^ 22 % 2 ^ 25 ≠ 0 ∧ j.trav.serves (0x400000 + 64) = true := by decide +kernel
theorem witness_traverse :
    let r := owned.modTrav fun t => { t with state := .relocate }
    let l := owned.modTrav fun t => { t with state := .relocate, listGo := true, listCount := 1 }
    let h := owned.modTrav fun t => { t with state := .hold }
    let w := owned.modTrav fun t => { t with state := .sweep }
    let c := ({ owned with time := 35, ctrls := [(0, { holds := [(3, 0)], opened := [(3, 9)] })] } : State)
    r.trav.state = .relocate ∧ r.trav.listGo = false ∧ (1 : Word).getLsbD 0 = true ∧ (0x1000000000001 : Word).toNat / 2 ^ 48 ≠ 0 ∧ h.trav.state = .hold ∧ owned.trav.state ≠ .hold ∧
    owned.trav.auto = true ∧ owned.trav.ceth ≠ 0 ∧ tget 0 (owned.modTrav fun t => { t with cecnt := [(2, 256)] }).trav.cecnt 2 = owned.trav.ceth.toNat ∧
    2 ∉ owned.trav.retired ∧ owned.trav.pend ≠ some 2 ∧ (owned.modTrav fun t => { t with auto := false }).trav.auto = false ∧
    l.trav.listGo = true ∧ l.trav.listIdx < l.trav.listCount.toNat ∧ (l.modTrav fun t => { t with listIdx := 1 }).trav.listCount.toNat ≤ 1 ∧
    (l.modTrav fun t => { t with relSize := 1 }).trav.relSize ≠ 0 ∧ w.trav.state = .sweep ∧ (w.readGranule (2048 * w.trav.gran)).2 = [] ∧
    owned.trav.serves 0 = true ∧ owned.trav.serves (2 ^ 40) = false ∧ tget? (c.ctrl 0).holds 3 = some 0 ∧ 0 + (c.ctrl 0).trfm.toNat ≤ c.time ∧
    tget? (c.ctrl 0).opened 3 ≠ none ∧ (c.ctrl 0).window < ({ c with time := 10 ^ 7 } : State).refreshWindow := by decide +kernel
/-- A frame from device 3 of class `c` with sequence number `q`. -/
def frame (c q : Nat) (crc : Bool) : Frame :=
  let f : Frame := { cls := BitVec.ofNat 8 c, flits := 1, sseq := BitVec.ofNat 16 q, pseq := 0, src := 3, dst := 0, mbz := 0, ack := 0, payload := [], tag := none, crc := 0, fec := true, nak := none }
  { f with crc := BitVec.ofNat 32 (crc32c (frameBody f) + if crc then 0 else 1) }
/-- Master 1 owns the device at FABRIC; port 0 is in a state, device 3 too, with a stream to it. -/
def fabricAt (p : PortState) (peer : Peer) (t : Stream) : State :=
  { owned with
    time := 10000000
    root := { owned.root with stage := { owned.root.stage with stage := 3 }, owner := { id := 1, epoch := 1, beat := 10000000 } }
    fabric := { owned.fabric with enc := false, ports := [(0, { state := p })], peers := [(3, peer)], streams := [(3, t)] } }
def up : Peer := { state := .up, inc := 1 }
def gapOf (s : State) (f : Frame) : Nat := (f.sseq.toNat + 65536 - (s.stream 0 3).rxNext) % 65536
theorem witness_frames :
    let s := fabricAt .run up {}
    s.frameOpen 0 3 (frame 0 0 true) = true ∧ base.frameOpen 0 3 (frame 0 0 true) = false ∧ s.frameBad 0 3 (frame 0 0 false) = true ∧ s.frameBad 0 3 (frame 0 0 true) = false ∧
    (frame 0 0 true).nak = none ∧ ({ frame 0 0 true with nak := some 5 } : Frame).nak = some 5 ∧ gapOf s (frame 0 0 true) = 0 ∧ gapOf s (frame 0 1 true) = 1 ∧ gapOf s (frame 0 32767 true) < 32768 ∧ 32768 ≤ gapOf s (frame 0 32768 true) := by decide +kernel
theorem witness_streams :
    let t := (fabricAt .run up { retry := [⟨⟨0, 0, 3, 0, []⟩, frame 0 0 true, 0⟩] }).stream 0 3
    let d := fun n => fabricAt .locked up { dead := true, probes := n }
    t.dead = false ∧ t.retry ≠ [] ∧ t.since + 5000 ≤ (fabricAt .run up {}).time ∧ ((d 2).stream 0 3).dead = true ∧ ((fabricAt .run up {}).stream 0 3).retry = [] ∧
    ((d 2).port 0).state = .locked ∧ ((d 2).stream 0 3).since + 10000000 ≤ (d 2).time ∧ ((d 2).stream 0 3).probes = 2 ∧ ((d 1).stream 0 3).probes ≠ 2 := by decide +kernel
theorem witness_sessions :
    let n := fabricAt .run {} {}
    let d := fabricAt .run { state := .down, downAt := 9900000 } {}
    let p := fabricAt .run { state := .setup } {}
    let a := p.modFabric fun f => { f with accept := [(2, 5)] }
    let q := fabricAt .run { up with lastGood := 9900000 } {}
    3 < 128 ∧ 3 ≠ n.devNum ∧ (n.port 0).state = .run ∧ (n.peer 3).state = .none ∧ (d.peer 3).state = .down ∧ (d.peer 3).downAt + 100000 ≤ d.time ∧
    (p.peer 3).state = .setup ∧ (tget 0 a.fabric.accept 2 : Digest) = 5 ∧ (∀ k, k < 4 → (tget 0 a.fabric.accept k : Digest) ≠ 6) ∧
    (∀ k, k < 4 → (tget 0 p.fabric.accept k : Digest) = 0) ∧ (q.peer 3).state = .up ∧ (q.peer 3).lastGood + 100000 ≤ q.time ∧ (d.peer 3).state ≠ .up := by decide +kernel
theorem witness_ports :
    let u := fun st => fabricAt st up {}
    (u .run).root.owner.id = 1 ∧ (u .run).time < (u .run).root.owner.beat + (u .run).root.owner.lease.toNat ∧ 2 ≤ (u .run).root.stage.stage ∧
    ((u .unlocked).port 0).state = .unlocked ∧ ((u .unlocked).port 0).en = true ∧ ((u .locked).port 0).state = .locked ∧ ((u .run).port 0).state = .run ∧
    ((u .error).port 0).state = .error := by decide +kernel
/-- A request of device 3 is due, a task is parked on it, and its route has been lost. -/
def requested : State := { fabricAt .run { up with due := [4], lost := some 0 } {} with sched := { base.sched with tasks := [parkedTask] } }
theorem witness_remote :
    let s := requested
    let u := ({ s with dies := mapped.dies } : State).modPeer 3 fun x => { x with due := [] }
    let r : RemoteReq := { inc := 1, addr := 0x100000, op := .load 8 }
    let w := ({ absentPage with fabric := u.fabric } : State)
    (s.peer 3).due = 4 :: [] ∧ (s.peer 3).state = .up ∧ 3 ≤ s.root.stage.stage ∧ 3 ≠ s.devNum ∧ ({ r with inc := 2 } : RemoteReq).inc ≠ s.root.inc ∧ r.inc = s.root.inc ∧
    u.isRemote (u.reqIa r.addr) = false ∧ (u.perform 3 4 r).2 = some (.value (List.replicate 8 0)) ∧ (w.perform 3 4 r).2 = none ∧
    s.task? 1 0 = some parkedTask ∧ s.holderOf farLoad.ia = 3 ∧ (s.modFabric fun f => { f with ports := [] }).unroutedFor 3 farLoad.tick = true := by decide +kernel
theorem witness_roaming :
    let s := ({ base with root := { base.root with devnum := 3 } } : State)
    let f := ({ base with fabric := { base.fabric with roamCfg := 4 } } : State)
    let page := 3 * 2 ^ 34 + 2 ^ 33
    roaming (page * 65536) = true ∧ 5 ≠ s.devNum ∧ devOf (page * 65536) = s.devNum ∧ roaming (0x10 * 65536) = false ∧ devOf (page * 65536) ≠ f.devNum ∧
    f.poolFrame? (page * 65536) = none ∧ f.freeFrame = some 0 := by decide +kernel
/-- A collective group of two ranks, and the group's device table at 0. -/
def collective (root : BitVec 7) (w : List WorkReq) : State :=
  { mapped with net := { mapped.net with groups := [(1, { en := true, nranks := 2, myrank := 0, root := root, treduce := 10, gmap := 0x100000 })], work := w }, time := 10 }
def lapReq (copying : Bool) : WorkReq :=
  { ctx := 0, ring := 0, bytes := [3, 0, 0, 0] ++ List.replicate 28 0 ++ [1, 0, 1, 0, 1, 0, 0, 0] ++ List.replicate 8 0 ++ [0, 0, 0x10, 0, 0, 0, 0, 0] ++ List.replicate 8 0
    started := true, copying := copying }
theorem witness_reductions :
    let s := collective 0 []
    let c : RChunk := { group := 1, seq := 0, chunk := 0, ty := 2 }
    let f := s.setChunk c
    (s.cgroup 1).en = true ∧ (s.cgroup 1).root = (s.cgroup 1).myrank ∧ ((collective 1 []).cgroup 1).root ≠ ((collective 1 []).cgroup 1).myrank ∧ s.findChunk 1 0 0 = none ∧
    2 ≤ (s.cgroup 1).nranks.toNat ∧ 1 < (s.cgroup 1).nranks.toNat ∧ f.findChunk 1 0 0 = some c ∧ c.flushed = false ∧ c.result = none ∧ (f.cgroup 1).treduce.toNat ≠ 0 ∧
    c.first + (f.cgroup 1).treduce.toNat ≤ f.time := by decide +kernel
theorem witness_laps :
    let s := { collective 0 [lapReq false] with mem := { mapped.mem with cells := [(0x100000, 1)] } }
    let r := collective 0 [lapReq true]
    let t := collective 0 [{ lapReq true with done := 1 }]
    (s.net.work.find? fun w => w.ctx == 0 && w.op == 3 && w.started && !w.copying && decide (w.done < w.word36) && decide (w.done + 1 ≤ s.lapR w)) = some (lapReq false) ∧
    (lapReq false).len = 0 ∧ s.rankDev 1 1 = some 0 ∧ (r.net.work.find? fun w => w.ctx == 0 && w.op == 3 && w.copying) = some (lapReq true) ∧
    (lapReq true).done + 1 = (lapReq true).word36 ∧ (t.net.work.find? fun w => w.ctx == 0 && w.op == 3 && w.copying) = some { lapReq true with done := 1 } ∧
    ({ lapReq true with done := 1 } : WorkReq).done + 1 ≠ (lapReq true).word36 := by decide +kernel
/-- A resource table of two entries at 0x100100, entry 0 being 16 bytes at 0x100400; the sender's one packet. -/
def receiver : State :=
  { mapped with
    root := { mapped.root with ctxs := [(0, { mapped.ctx 0 with netRes := 0x100101 })] }
    mem := { mapped.mem with cells := [(0x100101, 4), (0x100102, 0x10), (0x100108, 16)] } }
def packet : Packet := { src := 5, psn := 0, first := 0, count := 1, job := 0, ctx := 0, res := 0, roff := 0, len := 4, off := 0, data := [1, 2, 3, 4] }
theorem witness_packets :
    let s := receiver
    let k := State.rxKey 5
    let e := (s.netEntry (s.ctx 0).netRes 0).getD []
    let d := s.modPdc k fun x => { x with cack := 1, sackDue := true }
    (packet.psn < (d.pdc k).cack) ∧ (s.pdc k).cack ≤ packet.psn ∧ packet.psn ∉ (s.pdc k).got ∧ (base.ctx packet.ctx.toNat).en = false ∧ (s.ctx packet.ctx.toNat).en = true ∧
    (s.netEntry (s.ctx 0).netRes 0).isSome = true ∧ at' e 24 3 = packet.job.toNat ∧ packet.roff + packet.len ≤ at' e 8 8 ∧ at' e 0 8 = 0x100400 ∧
    s.supIa 0 0x100400 4 .w = some 0x100400 ∧ (s.walk 0 0x100400).2 = .page 0x100400 false ∧ s.imageWait 0x100400 = false ∧ (s.writeIa 0 0x100400 packet.data 3).2 = true ∧
    packet.count = 1 ∧ ((s.writeIa 0 0x100400 packet.data 3).1.net.rxMsgs.find? fun m => m.1 == 5 && m.2.1 == 0) = none ∧ (d.pdc k).sackDue = true ∧ (s.pdc k).sackDue = false := by decide +kernel
theorem witness_retransmit :
    let m : WorkReq := { ctx := 0, ring := 0, bytes := 1 :: List.replicate 63 0, started := true, packets := 1, psize := 4096 }
    let s := { (mapped.modPdc 0 fun d => { d with sent := [⟨0, 1, 0, false⟩] }) with time := 5000 }
    let w := s.modNet fun n => { n with work := [m] }
    (s.pdc 0).sent = [⟨0, 1, 0, false⟩] ∧ 0 + s.net.rto.toNat ≤ s.time ∧ { s with time := 4999 }.time < 0 + s.net.rto.toNat ∧ w.msgOf 0 0 = some m ∧ s.msgOf 0 0 = none := by decide +kernel
theorem witness_groups_owner :
    let s := grouped 0 id
    let o := grouped 0 fun g => { g with cfg := { g.cfg with en := false }, state := .off }
    let h := grouped 0 fun g => { g with rbHeld := true }
    s.root.owner.id = 1 ∧ s.time < s.root.owner.beat + s.root.owner.lease.toNat ∧ (s.group 0).cfg.en = true ∧ (o.group 0).cfg.en = false ∧
    o.joinRefused 0 { (o.group 0).cfg with en := true, repl := false } = false ∧ o.joinRefused 0 { (o.group 0).cfg with en := true, repl := false, k := 15, m := 4 } = true ∧
    (h.group 0).rbHeld = true := by decide +kernel
theorem witness_formation :
    let f := fun (l : Nat) => ({ (grouped 0 fun g => { g with state := .forming, cfg := { g.cfg with power := BitVec.ofNat 64 l, cool := 0x321 }, lost := [(1, 0)] }) with time := 100000 } : State)
    let u := fun (l : Nat) => (f l).modFabric fun b => { b with peers := [(1, { state := .up }), (2, { state := .up })] }
    ((grouped 0 id).group 0).state ≠ .forming ∧ ((f 0).group 0).state = .forming ∧ (∃ i, i < 3 ∧ (f 0).memberUp 0 i = false) ∧ ((f 0).group 0).cfg.members = 3 ∧
    (∀ i, i < 3 → (u 0).memberUp 0 i = true) ∧ ((u 0).group 0).cfg.badPlacement = true ∧ ((u 0).group 0).cfg.ovr = false ∧ ((u 0x321).group 0).cfg.badPlacement = false ∧
    ((u 0).group 0).cfg.isData = true ∧ (f 0).longLost 0 1 = true ∧ (f 0).longLost 0 0 = false := by
  refine ⟨by decide +kernel, by decide +kernel, ⟨1, by decide +kernel⟩, by decide +kernel⟩
theorem witness_rounds_of_groups :
    let p := grouped 2 id
    let q := grouped 0 fun g => { g with phase := 1, unacked := [(2, 0)] }
    let t := grouped 0 fun g => { g with phase := 1, unacked := [(2, 0), (2, 128)] }
    let d : Decision := { round := 1, commit := true, dead := 0, regs := [] }
    (p.group 0).cfg.en = true ∧ (p.group 0).cfg.isData = false ∧ (p.group 0).state = .run ∧ (p.group 0).staged = [] ∧ (p.group 0).bufferRoom 1 = true ∧
    (base.group 0).cfg.en = false ∧ (q.group 0).cfg.isData = true ∧ (q.group 0).phase = 1 ∧ (1 : Word) = (q.group 0).roundLast + 1 ∧ (q.group 0).unacked.erase (2, 0) = [] ∧
    (t.group 0).unacked.erase (2, 0) ≠ [] ∧ (p.group 0).phase ≠ 1 ∧ (p.group 0).rb = false ∧ (p.group 0).roundLast < d.round ∧ ((p.storeDecision 0 d).group 0).rb = false ∧
    d.commit = true ∧ d.round = (q.group 0).roundLast + 1 ∧ (q.group 0).decisions = [] := by decide +kernel
theorem witness_rebuild :
    let o := grouped 0 fun g => { g with cfg := { g.cfg with en := false, repl := true }, state := .off }
    let r := grouped 0 fun g => { g with state := .rebuild }
    ((grouped 0 id).group 0).state ≠ .off ∧ ((grouped 0 id).group 0).state ≠ .degraded ∧ (o.group 0).state = .off ∧ (o.group 0).cfg.repl = true ∧ (o.group 0).cfg.en = false ∧
    o.joinRefused 0 { (o.group 0).cfg with en := true } = false ∧ ((grouped 0 id).group 0).state ≠ .rebuild ∧ (r.group 0).state = .rebuild ∧ (r.group 0).rbNext ≤ 0 := by decide +kernel

/-! ### The machine -/

/-- `fetched` stands before the entry of its next bundle, which holds the one word. -/
def fetched (w : Nat) : State := State.reset.withFetchWord 32 w
def entered (w : Nat) : State := (fetched w).beginCycle.boundaryKill.modFront fun f => { f with hold := .none }
theorem witness_step :
    let s := fetched 0x02188280
    let u := entered 0x02188280
    let v := (u.takePreempt u.coreId).1
    let t := v.due.1
    s.agenda = [] ∧ s.beginCycle.core.task.isSome = true ∧ s.beginCycle.core.front.halted = false ∧ s.beginCycle.boundaryKill.core.task.isSome = true ∧
    u.core.front.leaving = none ∧ u.core.front.run = none ∧ u.clusterHeld = false ∧ u.core.front.bubbles = 0 ∧ u.core.front.emptyLeft = 0 ∧
    (u.takePreempt u.coreId).2 = false ∧ (match v.due.2 with
      | .at p => p == 0
      | _ => false) = true ∧ (t.core.front.cur.bind fun g => g.bundles[0]?).map Stored.words = some [(0, 0x02188280)] ∧
    t.core.front.reenter = none ∧ (t.core.front.cur.bind fun g => g.bundles[0]?).any (fun b =>
      !t.headerIllegal b.hdr b.words (bitAt b.hdr 18 || t.core.front.idemNext) && !bitAt b.hdr 18) = true ∧ t.core.front.idemNext = false ∧
    t.entryAcquire.2 = .done ∧ t.entryAcquire.1.core.front.reenter = none ∧ (t.entryAcquire.1.fuseEntry true).fuseGo = true ∧
    (t.core.front.cur.bind fun g => g.bundles[0]?).any (fun b =>
      let c := t.entryAcquire.1
      let r := c.runOf 16 0 b false
      r.bad != some 0 && ((State.slotSyl (0, 0x02188280)).any fun z =>
        !(c.modFront fun f => { f with run := some r }).gateClosed z && ((c.modFront fun f => { f with run := some r }).readMiss z false).isNone &&
        ((c.modFront fun f => { f with run := some r }).stallOf (0, 0x02188280) z).isNone &&
        ((((c.fuseEntry true).notePreempt.modFront fun f => { f with reenter := none, idemNext := false, marked := false }).modFront fun f =>
          { f with run := some { r with slot := 0, word := 0x02188280 } }).readMiss z true).isNone)) = true := by decide +kernel
theorem witness_step_event :
    ((Instr.jidxWrite 1 5).wf = true ∧ encode (.jidxWrite 1 5) = none) ∧ (Instr.add 3 4 5 0).wf = true ∧ encode (.add 3 4 5 0) = some 0x02188280 := by decide +kernel
theorem witness_step_refused : slotAdmits (fld 0x02188280 25 7) 2 = false ∧ fld 0 25 7 = 0 ∧ fld 0xFE000000 25 7 = 0x7F := by decide +kernel
theorem witness_suppressed : base.sqOn (instrSq (.add 3 4 5 1)) = false := by decide +kernel
theorem witness_results :
    let s := base.modCore fun c => { c with flight := [⟨4, .x 63 9⟩, ⟨2, .p 15 9⟩, ⟨6, .v 31 1 9⟩] }
    s.core.front.reenter = none ∧ s.core.flight = [] ++ ⟨4, .x 63 9⟩ :: [⟨2, .p 15 9⟩, ⟨6, .v 31 1 9⟩] ∧ 63 < 64 ∧ 15 < 16 ∧ 31 < 32 ∧ s.core.regs.v[31]? = some 0 ∧
    (63 : BitVec 6) ≠ 0 ∧ (15 : BitVec 4) ≠ 0 := by decide +kernel
theorem witness_lease : owned.root.owner.id ≠ 0 ∧ owned.root.owner.beat + owned.root.owner.lease.toNat ≤ { owned with time := 1000000 }.time ∧
    (match step { owned with time := 999999 } with
     | .next t => t.root.owner.id == 0 || decide (t.time < t.root.owner.beat + t.root.owner.lease.toNat)
     | _ => false) = true := by decide +kernel
/-! ### Further inputs: one for each clause that the witnesses above do not meet -/

theorem witness_launch_completes :
    let s := withX [(2, 0x100000)] ringed
    let y := s.ringReserve s.myDie (s.ringReg 0) 0 (List.replicate 64 0)
    let h := ({ y.1 with core := { y.1.core with slotHeld := some (0, 0) } } : State)
    (s.viewRead 0x100000 0x100000 64).2.data = List.replicate 64 0 ∧ (s.ringWords s.myDie (s.ringReg 0)).2 = some (0, 0, 0) ∧ 0 - 0 < 2 ^ ringLog (s.ringReg 0) ∧
    y.2 = true ∧ h.core.published = none ∧ (h.ringTry (h.ringReg 0) 0).2 = true ∧ (s.modCore fun c => { c with published := some 1 }).core.published = some 1 := by decide +kernel
theorem witness_cancel_levels :
    let ps : List Phase := [{ id := 1, ctx := 0, job := 6, addr := 0 }, { id := 2, ctx := 0, job := 6, addr := 0, graph := 4 }, { id := 3, ctx := 0, job := 6, addr := 0, complete := true }]
    let g := ({ base with sched := { base.sched with graphs := [someGraph, { someGraph with id := 5, complete := true }], jobs := [someJobRun], phases := ps } } : State)
    (g.graph? 4).map (fun g => g.complete) = some false ∧ (g.graph? 5).map (fun g => g.complete) = some true ∧ (g.phase? 1).map (fun p => (p.complete, p.graph)) = some (false, 0) ∧
    (g.phase? 2).map (fun p => (p.complete, p.graph)) = some (false, 4) ∧ (g.phase? 3).map (fun p => p.complete) = some true ∧ (g.job? 6).map (fun j => (j.stopped, j.complete)) = some (false, false) ∧
    ({ constLaunch with final := 2 } : Launch).final ≠ 1 ∧ someTask.state = .ready ∧ ({ someTask with state := .faultWait } : Machine.Task).state = .faultWait := by decide +kernel
theorem witness_tret :
    let s := (base.modStat fun t => { t with sv := true }).modCore fun c => { c with snap := some someSnap }
    let f := s.modCore fun c => { c with snapOps := [.ld someSnap 36] }
    s.core.regs.z.stat.sv = true ∧ s.core.snap = some someSnap ∧ (∀ o ∈ s.core.snapOps, o.isStore = true) ∧ (∃ o ∈ f.core.snapOps, o.isStore = false) ∧
    s.snapNow = some someSnap := by decide +kernel
theorem witness_line :
    let c := fun (l : Tab LineWait) (g : List FuseGroup) => ({ line := l, groups := g } : Cluster)
    (c [(1, .fuse 3 16 5 7)] []).fuseEnd 0 3 16 = some 0 ∧ (c [(1, .fuse 3 24 5 7)] []).fuseEnd 0 3 16 = some 1 ∧ (c [] [{ mask := 2, coupled := 2 }]).fuseEnd 0 3 16 = some 1 ∧
    (c [] []).fuseEnd 0 3 16 = none ∧ (c [(0, .rejn 16 4), (1, .rejn 16 5)] []).rejnEnd (some { mask := 3, coupled := 3 }) 16 = some 0 ∧
    (c [(0, .rejn 16 4), (1, .rejn 24 5)] []).rejnEnd (some { mask := 3, coupled := 3 }) 16 = some 1 ∧
    (c [(0, .rejn 16 4)] []).rejnEnd (some { mask := 3, coupled := 3 }) 16 = none ∧ (3 : BitVec 4).getLsbD 1 = true := by decide +kernel
theorem witness_far_acquire :
    let r := withX [(2, 0x100000)] (remotePage.modCore fun c => { c with answer := some (.sync 9 4) })
    let u := ({ r with core := { r.core with asked := none, answer := none, released := none } } : State)
    r.isRemote 0x100000 = true ∧ Scope.system ∈ [Scope.peer, .domain, .group, .network, .system] ∧ r.core.released = none ∧ r.core.answer = some (.sync 9 4) ∧
    (u.acquirePart (varOf 0x100000) true (u.farSources 0x100000) (Scope.eager .system)).2 = .done := by decide +kernel
/-- With DEV = 0 the scheduler places a task on the first idle core. -/
theorem witness_pick_up :
    let s := ({ waiting with dies := [(0, { dev := 0 })] } : State)
    s.choice 0 = some someTask ∧ s.placement someTask = some 0 := by decide +kernel
/-- A core that waits for the record of a LOOPSR at 0x100000. -/
def awaiting : State :=
  withX [(5, 0x100000)] (mapped.modFront fun f => { f with hold := .fetch, run := some { addr := 0x100010, pos := 0, hdr := 0x10000000, todo := [(0, (encode (.loopsr 5 6 1 0)).getD 0)] } })
theorem witness_record_and_segment :
    let n := mapped.modFront fun f => { f with cur := some { twoBundles with next := 0x100040 } }
    let l := mapped.modFront fun f => { f with cur := none, latched := some (.addr 0x104010) }
    awaiting.heldRecord = some 0x100000 ∧ ((awaiting.ctx awaiting.bound.ctx).translate? 0x100000 .rd).map Access.ia = some 0x100000 ∧ awaiting.core.front.hold = .fetch ∧
    0x100000 % 64 = 0 ∧ awaiting.isRemote 0x100000 = false ∧ awaiting.recordHit 0x100000 = none ∧ (awaiting.walk awaiting.myDie 0x100000).2 = .page 0x100000 false ∧
    (awaiting.viewRead 0x100000 0x100000 64).2.lost = false ∧ n.core.front.cur.map Segment.next = some 0x100040 ∧ (n.core.front.cur.bind fun g => g.bad.map fun _ => 0) = none ∧
    n.core.front.succ = none ∧ l.core.front.cur = none ∧ l.core.front.latched = some (.addr 0x104010) ∧ l.core.front.bubbles = 0 := by decide +kernel
theorem witness_remote_reply :
    let s := ({ mapped with sched := { mapped.sched with tasks := [{ parkedTask with recVa := 0x100000, save := 0x100000 }] } } : State)
    let t := { parkedTask with recVa := 0x100000, save := 0x100000 }
    farLoad.rest = [] ∧ s.task? 1 0 = some t ∧ t.state = .parked ∧ t.park = some (.remote farLoad true) ∧
    (s.replyWrite t farLoad (List.replicate 8 7)).2 = none ∧ (s.replyWrite t { farLoad with reg := 13 } (List.replicate 8 7)).2 = none := by decide +kernel
theorem witness_engine_events :
    let im : Archived := { key := 0, len := 64, snap := someSnap }
    let st := base.modCore fun c => { c with snapOps := [.st 64 im 1] }
    let ld := base.modCore fun c => { c with snapOps := [.ld someSnap 1] }
    let far : Rec := { core := 0, ctx := 0, launch := 1, index := 0, seq := 1, addr := 0x100000, len := 8, cells := [(0x100000, 1)], sent := true }
    let o := ({ base with mem := { base.mem with recs := [far] } } : State)
    let h := ringed.modCore fun c => { c with slotHeld := some (0, 0) }
    let mc : MxCmd := { op := .mzero, ticket := 0, since := 0 }
    let q := (matrix .bf16 0 .none).modMx fun m => { m with queue := [mc] }
    let a := base.modMx fun m => { m with array := some { mc with done := 1000 } }
    (st.focus 0).core.snapOps = [.st 64 im 1] ∧ (ld.focus 0).core.snapOps = [.ld someSnap 1] ∧ 1 ≤ 1 ∧ (o.coreAt 0).asked = none ∧
    (o.mem.recs.find? fun r => r.core == 0 && r.sent) = some far ∧ ((0x0C : BitVec 8) ≠ 0x0B) ∧ (h.focus 0).core.slotHeld = some (0, 0) ∧
    ((h.focus 0).ringWords (h.focus 0).myDie ((h.focus 0).ringReg 0)).2 = some (0, 0, 0) ∧ ((h.focus 0).ringReady ((h.focus 0).ringReg 0)).2 = true ∧
    (q.focus 0).core.mx.queue = mc :: [] ∧ (q.focus 0).mxReady mc = true ∧ (q.focus 0).frozen = false ∧ (a.focus 0).core.mx.load = none ∧
    (a.focus 0).core.mx.array = some { mc with done := 1000 } ∧ mc.length ≤ 1000 + 1 := by decide +kernel
theorem witness_copy_events :
    let j := someJob .hs
    let s := mapped.modCopy fun c => { c with jobs := [j] }
    let r := mapped.modCopy fun c => { c with jobs := [{ j with src := 0x100000, running := true }] }
    let k : Job := { j with src := 0x100000, running := true }
    let e : CopyErr := { code := 0x0A, addr := 0x100000, detail := 0 }
    s.core.copy.jobs = j :: [] ∧ j.running = false ∧ s.frozen = false ∧ s.conflict? 1 j.ticket j.foot = none ∧ r.core.copy.jobs = k :: [] ∧ k.running = true ∧
    r.jobReach k = none ∧ (r.jobRun k none).lost = none ∧ (r.jobRun k none).wait = false ∧
    ((r.jobRun k none).s.jobRecords k.dstInc (State.runsOf (r.jobRun k none).glob)).2 = true ∧
    e.code ∈ ([0x0A, 0x0B, 0x0C, 0x12, 0x13, 0x14] : List (BitVec 8)) ∧ (r.jobRun k (some e.addr.toNat)).lost ≠ none ∧
    ((r.jobRun k (some e.addr.toNat)).s.jobRecords k.dstInc (State.runsOf (r.jobRun k (some e.addr.toNat)).glob)).2 = true := by decide +kernel
theorem witness_debugger : ({ base with root := { base.root with debugger := true } } : State).root.debugger = true ∧ base.frozenAt 0 = false ∧
    (base.modFront fun f => { f with halted := true, freeze := true }).frozenAt 0 = true := by decide +kernel
theorem witness_phase_again :
    let p : Phase := { id := 9, ctx := 0, job := 6, addr := 0, gaddr := 0x100000 }
    let s := ({ graphed with sched := { graphed.sched with graphs := [], jobs := [{ someJobRun with active := true }], phases := [p] } } : State)
    (s.sched.phases.find? fun p => p.job == 6 && !p.complete && p.graph == 0 && p.gaddr != 0) = some p ∧ s.sched.launches = [] ∧ p.stopped = false ∧
    ({ someJobRun with active := true } : JobRun).active = true ∧ constLaunch.again = false ∧ ({ constLaunch with orphan := true } : Launch).orphan = true := by decide +kernel
theorem witness_host :
    let s := mapped
    s.peekPa? (s.localIa 0x100000) = some 0x100000 ∧ s.imageWait (s.localIa 0x100000) = false ∧ (s.syncReady (hostSource - 4) (s.localIa 0x100000) 8 true true).2 = true ∧
    ((s.syncReady (hostSource - 4) (s.localIa 0x100000) 8 true true).1.homeRead (s.localIa 0x100000) 0x100000 8).2 = some (List.replicate 8 0) ∧
    (s.readIa 0 (s.localIa 0x100000) 8 2).2 = some (List.replicate 8 0) := by decide +kernel
theorem witness_session_up :
    let s := fabricAt .run { state := .setup, spdm := 7 } {}
    let a := s.modFabric fun f => { f with accept := [(2, 5)] }
    (s.peer 3).state = .setup ∧ (s.peer 3).spdm = 7 ∧ (∃ k, k < 4 ∧ tget (0 : Digest) a.fabric.accept k ≠ 0) ∧ (∀ k, k < 4 → tget (0 : Digest) a.fabric.accept k ≠ 6) ∧
    (∃ k, k < 4 ∧ tget (0 : Digest) a.fabric.accept k = 5) ∧ (∀ k, k < 4 → tget (0 : Digest) s.fabric.accept k = 0) := by
  refine ⟨by decide +kernel, by decide +kernel, ⟨2, by decide +kernel⟩, by decide +kernel, ⟨2, by decide +kernel⟩, by decide +kernel⟩
/-- No port of `requested` is left, so no device has a route. -/
def cut : State := requested.modFabric fun f => { f with ports := [] }
theorem witness_reroute :
    let s := cut.modCore fun c => { c with asked := some (3, true) }
    let j : Job := { someJob .hs with running := true, foot := { reads := [{ glob := true, lo := 3 * 2 ^ 50, hi := 3 * 2 ^ 50 + 1 }] } }
    let c := cut.modCopy fun c => { c with jobs := [j] }
    let w := { lapReq false with copying := true }
    let n := ({ cut with net := { cut.net with work := [w] } } : State)
    (s.coreAt 0).asked = some (3, true) ∧ (s.coreAt 0).answer = none ∧ s.unroutedFor 3 (s.coreAt 0).askedAt = true ∧ (c.coreAt 0).copy.jobs.head? = some j ∧ j.running = true ∧
    c.unroutedFor 3 j.tick = true ∧ ((j.foot.reads ++ j.foot.writes).find? fun r => r.glob && c.holderOf r.lo == 3) = some { glob := true, lo := 3 * 2 ^ 50, hi := 3 * 2 ^ 50 + 1 } ∧
    (n.net.work.find? fun w => w.ctx == 0 && w.ring == 0 && w.slot == 0 && w.started && !w.finished && (w.op == 3 || w.op == 4)) = some w ∧ n.unroutedFor 3 w.tick = true := by
  decide +kernel
theorem witness_forwarded :
    let r : RemoteReq := { inc := 1, addr := 0, op := .load 8 }
    let page := 2 ^ 33
    let s := ({ requested with fabric := { requested.fabric with directory := [(page, { holder := 5 })] } } : State)
    let u := s.modPeer 3 fun x => { x with due := [] }
    frameCount (opBytes r.op) ≤ (s.peer 3).due.length ∧ r.inc = u.root.inc ∧ State.opNamed ({ r with addr := page * 65536 } : RemoteReq).op = true ∧
    u.isRemote (u.reqIa (page * 65536)) = true ∧ roaming (page * 65536) = true := by decide +kernel
theorem witness_roam_moves :
    let page := 2 ^ 33
    let home := ({ base with fabric := { base.fabric with roamCfg := 4, migTh := 1, directory := [(page, { holder := 5, moving := some 6 })], accesses := [(page, [0])] } } : State)
    let far := 3 * 2 ^ 34 + 2 ^ 33
    let away := ({ base with fabric := { base.fabric with roamCfg := 4, migTh := 1, accesses := [(far, [0])] } } : State)
    home.fabric.migTh ≠ 0 ∧ home.holderOf (page * 65536) ≠ home.devNum ∧ devOf (page * 65536) = home.devNum ∧ home.fabric.migTh.toNat ≤ ((tget [] home.fabric.accesses page).filter fun t => decide (home.time < t + 10000)).length ∧
    (({ home with fabric := { home.fabric with directory := [(page, { holder := 5 })] } } : State).decideMove page 0 false).2 = true ∧
    (tget { holder := home.devNum } home.fabric.directory page).moving ≠ some 7 ∧ devOf (far * 65536) ≠ away.devNum ∧ away.holderOf (far * 65536) ≠ away.devNum ∧
    away.poolFrame? (far * 65536) = none ∧ away.freeFrame = some 0 ∧ 5 ≠ away.devNum := by decide +kernel
theorem witness_lap_arrival :
    let w := { lapReq false with bytes := [3, 0, 0, 0, 4, 0, 0, 0] ++ (((lapReq false).bytes.drop 8).take 32) ++ [0, 0, 0x10, 0, 0, 0, 0, 0] ++ ((lapReq false).bytes.drop 48) }
    let s := collective 0 [w]
    (s.net.work.find? fun w => w.ctx == 0 && w.op == 3 && w.started && decide (w.arrived < w.word36)) = some w ∧ [1, 2, 3, 4].length = w.len ∧
    s.lapBuf w (w.arrived + 1) = some 0x100000 := by decide +kernel
theorem witness_decisions :
    let p := grouped 2 fun g => { g with asking := [1] }
    let r := grouped 2 fun g => { g with state := .rebuild }
    let d := grouped 2 fun g => { g with state := .degraded, dead := 2 }
    1 ∈ (p.group 0).asking ∧ 0 ∉ (p.group 0).asking ∧ (r.group 0).state = .rebuild ∧ 1 ∉ (r.group 0).asking ∧ (d.group 0).state = .degraded ∧ (d.group 0).rb = false ∧
    (d.group 0).dead.getLsbD 1 = true ∧ (d.group 0).dead.getLsbD 0 = false := by decide +kernel
/-! ### Decoding: one word for each syllable, its operands placed by the fields that the opcode table gives the row -/

theorem test_words_0 : decodeTableWord 32 0x03C63502 = some (.add 56 49 42 2) ∧
    decodeTableWord 32 0x03C6350A = some (.addW 56 49 42 2) ∧
    decodeTableWord 32 0x05C63502 = some (.sub 56 49 42 2) ∧
    decodeTableWord 32 0x05C6350A = some (.subW 56 49 42 2) ∧
    decodeTableWord 32 0x07C63502 = some (.and 56 49 42 2) ∧
    decodeTableWord 32 0x07C6350A = some (.andW 56 49 42 2) ∧
    decodeTableWord 32 0x09C63502 = some (.or 56 49 42 2) ∧
    decodeTableWord 32 0x09C6350A = some (.orW 56 49 42 2) ∧
    decodeTableWord 32 0x0BC63502 = some (.xor 56 49 42 2) ∧
    decodeTableWord 32 0x0BC6350A = some (.xorW 56 49 42 2) ∧
    decodeTableWord 32 0x0DC63502 = some (.shl 56 49 42 2) ∧
    decodeTableWord 32 0x0DC6350A = some (.shlW 56 49 42 2) ∧
    decodeTableWord 32 0x0FC63502 = some (.shr 56 49 42 2) := ⟨rfl, rfl, rfl, rfl, rfl, rfl, rfl, rfl, rfl, rfl, rfl, rfl, rfl⟩
theorem test_words_1 : decodeTableWord 32 0x0FC6350A = some (.shrW 56 49 42 2) ∧
    decodeTableWord 32 0x11C63502 = some (.sra 56 49 42 2) ∧
    decodeTableWord 32 0x11C6350A = some (.sraW 56 49 42 2) ∧
    decodeTableWord 32 0x13C63FEA = some (.addi 56 49 8170) ∧
    decodeTableWord 32 0x15C63FEA = some (.andi 56 49 8170) ∧
    decodeTableWord 32 0x17C63FEA = some (.ori 56 49 8170) ∧
    decodeTableWord 32 0x19C63FEA = some (.xori 56 49 8170) ∧
    decodeTableWord 32 0x1BC6203D = some (.shli 56 49 61) ∧
    decodeTableWord 32 0x1BC6283D = some (.shri 56 49 61) ∧
    decodeTableWord 32 0x1BC6303D = some (.srai 56 49 61) ∧
    decodeTableWord 32 0x1DC7FFF1 = some (.lui 56 524273) ∧
    decodeTableWord 32 0x1FC7FFF1 = some (.aub 56 524273) ∧
    decodeTableWord 32 0x21C63502 = some (.mul 56 49 42 2) := ⟨rfl, rfl, rfl, rfl, rfl, rfl, rfl, rfl, rfl, rfl, rfl, rfl, rfl⟩
theorem test_words_2 : decodeTableWord 32 0x21C6350A = some (.mulh 56 49 42 2) ∧
    decodeTableWord 32 0x21C63512 = some (.mulhu 56 49 42 2) ∧
    decodeTableWord 32 0x23C63502 = some (.div 56 49 42 2) ∧
    decodeTableWord 32 0x23C6350A = some (.divu 56 49 42 2) ∧
    decodeTableWord 32 0x23C63512 = some (.rem 56 49 42 2) ∧
    decodeTableWord 32 0x23C6351A = some (.remu 56 49 42 2) ∧
    decodeTableWord 32 0x25C63502 = some (.min 56 49 42 2) ∧
    decodeTableWord 32 0x25C6350A = some (.max 56 49 42 2) ∧
    decodeTableWord 32 0x25C63512 = some (.minu 56 49 42 2) ∧
    decodeTableWord 32 0x25C6351A = some (.maxu 56 49 42 2) ∧
    decodeTableWord 32 0x27C63502 = some (.slt 56 49 42 2) ∧
    decodeTableWord 32 0x27C6350A = some (.sltu 56 49 42 2) ∧
    decodeTableWord 32 0x27C63512 = some (.seq 56 49 42 2) := ⟨rfl, rfl, rfl, rfl, rfl, rfl, rfl, rfl, rfl, rfl, rfl, rfl, rfl⟩
theorem test_words_3 : decodeTableWord 32 0x27C6351A = some (.sne 56 49 42 2) ∧
    decodeTableWord 32 0x29C63FEA = some (.slti 56 49 8170) ∧
    decodeTableWord 32 0x2BC63FEA = some (.sltiu 56 49 8170) ∧
    decodeTableWord 32 0x2DC63519 = some (.sel 56 49 42 3 1) ∧
    decodeTableWord 32 0x2FC62003 = some (.clz 56 49 3) ∧
    decodeTableWord 32 0x2FC6200B = some (.ctz 56 49 3) ∧
    decodeTableWord 32 0x2FC62013 = some (.popc 56 49 3) ∧
    decodeTableWord 32 0x31C63502 = some (.bfx 56 49 42 2) ∧
    decodeTableWord 32 0x31C6350A = some (.bfxu 56 49 42 2) ∧
    decodeTableWord 32 0x31C63512 = some (.bfi 56 49 42 2) ∧
    decodeTableWord 32 0x33C63502 = some (.madd 56 49 42 2) ∧
    decodeTableWord 32 0x35C63519 = some (.addsc 56 49 42 3 1) ∧
    decodeTableWord 32 0x37C63502 = some (.fadd 56 49 42 2) := ⟨rfl, rfl, rfl, rfl, rfl, rfl, rfl, rfl, rfl, rfl, rfl, rfl, rfl⟩
theorem test_words_4 : decodeTableWord 32 0x37C6350A = some (.fsub 56 49 42 2) ∧
    decodeTableWord 32 0x37C63512 = some (.fmul 56 49 42 2) ∧
    decodeTableWord 32 0x37C6351A = some (.fmin 56 49 42 2) ∧
    decodeTableWord 32 0x37C63522 = some (.fmax 56 49 42 2) ∧
    decodeTableWord 32 0x39C63502 = some (.feq 56 49 42 2) ∧
    decodeTableWord 32 0x39C6350A = some (.flt 56 49 42 2) ∧
    decodeTableWord 32 0x39C63512 = some (.fle 56 49 42 2) ∧
    decodeTableWord 32 0x3BC62003 = some (.fcvtFi 56 49 3) ∧
    decodeTableWord 32 0x3BC6200B = some (.fcvtIf 56 49 3) ∧
    decodeTableWord 32 0x3BC62013 = some (.fcvtFu 56 49 3) ∧
    decodeTableWord 32 0x3BC6201B = some (.fcvtUf 56 49 3) ∧
    decodeTableWord 32 0x3C463502 = some (.setpEq 8 49 42 2) ∧
    decodeTableWord 32 0x3C46350A = some (.setpNe 8 49 42 2) := ⟨rfl, rfl, rfl, rfl, rfl, rfl, rfl, rfl, rfl, rfl, rfl, rfl, rfl⟩
theorem test_words_5 : decodeTableWord 32 0x3C463512 = some (.setpLt 8 49 42 2) ∧
    decodeTableWord 32 0x3C46351A = some (.setpLtu 8 49 42 2) ∧
    decodeTableWord 32 0x3C463522 = some (.setpGe 8 49 42 2) ∧
    decodeTableWord 32 0x3C46352A = some (.setpGeu 8 49 42 2) ∧
    decodeTableWord 32 0x3E402502 = some (.pand 8 1 10 2) ∧
    decodeTableWord 32 0x3E40250A = some (.por 8 1 10 2) ∧
    decodeTableWord 32 0x3E402512 = some (.pxor 8 1 10 2) ∧
    decodeTableWord 32 0x3E40201B = some (.pnot 8 1 3) ∧
    decodeTableWord 32 0x3E402023 = some (.pmov 8 1 3) ∧
    decodeTableWord 32 0x415FFFF1 = some (.bra 5 2097137) ∧
    decodeTableWord 32 0x417FFFF1 = some (.call 5 2097137) ∧
    decodeTableWord 32 0x42070004 = some (.jr 56 4) ∧
    decodeTableWord 32 0x43C6200B = some (.jrl 56 49 3) := ⟨rfl, rfl, rfl, rfl, rfl, rfl, rfl, rfl, rfl, rfl, rfl, rfl, rfl⟩
theorem test_words_6 : decodeTableWord 32 0x42000015 = some (.ret 5) ∧
    decodeTableWord 32 0x45C63502 = some (.jtab 56 49 42 2) ∧
    decodeTableWord 32 0x460E3FEA = some (.loop 1 49 8170) ∧
    decodeTableWord 32 0x470E3FEA = some (.loopi 1 49 8170) ∧
    decodeTableWord 32 0x4807189A = some (.loopsr 56 49 3 2) ∧
    decodeTableWord 32 0x4A000005 = some (.rfence 5) ∧
    decodeTableWord 32 0x4A07000C = some (.rfenceA 56 4) ∧
    decodeTableWord 32 0x4C000000 = some (.idem) ∧
    decodeTableWord 32 0x4E000005 = some (.suspYield 5) ∧
    decodeTableWord 32 0x4E07000C = some (.suspPark 56 4) ∧
    decodeTableWord 32 0x4E000015 = some (.suspExit 5) ∧
    decodeTableWord 32 0x51C01FF1 = some (.mfs 56 8177) ∧
    decodeTableWord 32 0x52071FF1 = some (.mts 56 8177) := ⟨rfl, rfl, rfl, rfl, rfl, rfl, rfl, rfl, rfl, rfl, rfl, rfl, rfl⟩
theorem test_words_7 : decodeTableWord 32 0x54001FF8 = some (.trap 8184) ∧
    decodeTableWord 32 0x540F1FF1 = some (.trapNz 56 8177) ∧
    decodeTableWord 32 0x56000000 = some (.tret) ∧
    decodeTableWord 32 0x58070000 = some (.snapst 56) ∧
    decodeTableWord 32 0x580F0000 = some (.snapld 56) ∧
    decodeTableWord 32 0x5A000000 = some (.snaprel) ∧
    decodeTableWord 32 0x5C001FF8 = some (.brk 8184) ∧
    decodeTableWord 32 0x5E070031 = some (.launch 56 49) ∧
    decodeTableWord 32 0x5E0F0003 = some (.cancel 56 .phase) ∧
    decodeTableWord 32 0x61C633E3 = some (.ld 56 49 .w 995) ∧
    decodeTableWord 32 0x63C633E3 = some (.st 56 49 .w 995) ∧
    decodeTableWord 32 0x658C4EA3 = some (.ldv 24 49 234 3) ∧
    decodeTableWord 32 0x658C52A3 = some (.ldvS 24 49 42 3) := ⟨rfl, rfl, rfl, rfl, rfl, rfl, rfl, rfl, rfl, rfl, rfl, rfl, rfl⟩
theorem test_words_8 : decodeTableWord 32 0x658C6EA3 = some (.ldvB 24 49 234 3) ∧
    decodeTableWord 32 0x678C4EA3 = some (.stv 24 49 234 3) ∧
    decodeTableWord 32 0x678C52A3 = some (.stvS 24 49 42 3) ∧
    decodeTableWord 32 0x6988A98C = some (.gath 24 17 10 .i32 12) ∧
    decodeTableWord 32 0x6988A99C = some (.scat 24 17 10 .i32 12) ∧
    decodeTableWord 32 0x6BC631E3 = some (.ldg 56 49 .w 483) ∧
    decodeTableWord 32 0x6BC633E3 = some (.stg 56 49 .w 483) ∧
    decodeTableWord 32 0x6D8C5EA3 = some (.ldgv 24 49 490 3) ∧
    decodeTableWord 32 0x6D8C7EA3 = some (.stgv 24 49 490 3) ∧
    decodeTableWord 32 0x6FC633E3 = some (.ldc 56 49 .w 995) ∧
    decodeTableWord 32 0x71C62003 = some (.tlook 56 49 3) ∧
    decodeTableWord 32 0x72071883 = some (.tfill 56 49 3) ∧
    decodeTableWord 32 0x7207000C = some (.tevict 56 4) := ⟨rfl, rfl, rfl, rfl, rfl, rfl, rfl, rfl, rfl, rfl, rfl, rfl, rfl⟩
theorem test_words_9 : decodeTableWord 32 0x72070014 = some (.tinv 56 4) ∧
    decodeTableWord 32 0x75C62003 = some (.tlock 56 49 3) ∧
    decodeTableWord 32 0x75C6200B = some (.tunlock 56 49 3) ∧
    decodeTableWord 32 0x76401FF1 = some (.hwait 8 8177) ∧
    decodeTableWord 32 0x77401FF1 = some (.hwaitf 8 8177) ∧
    decodeTableWord 32 0x78401FF1 = some (.hadvp 8 8177) ∧
    decodeTableWord 32 0x79401FF1 = some (.hadvc 8 8177) ∧
    decodeTableWord 32 0x7A463502 = some (.hset 8 49 42 2) ∧
    decodeTableWord 32 0x7C0D5181 = some (.footr false true 42 35 1) ∧
    decodeTableWord 32 0x7D055189 = some (.footw true false 42 35 1) ∧
    decodeTableWord 32 0x7C000014 = some (.footclr false 4) ∧
    decodeTableWord 32 0x7E000005 = some (.spfence 5) ∧
    decodeTableWord 32 0x81C6204A = some (.acq 56 49 .group 2) := ⟨rfl, rfl, rfl, rfl, rfl, rfl, rfl, rfl, rfl, rfl, rfl, rfl, rfl⟩
theorem test_words_10 : decodeTableWord 32 0x83C6204A = some (.rel 56 49 .group 2) ∧
    decodeTableWord 32 0x8400004C = some (.fence .group 4) ∧
    decodeTableWord 32 0x87C63502 = some (.amoAdd 56 49 42 2) ∧
    decodeTableWord 32 0x87C6350A = some (.amoAnd 56 49 42 2) ∧
    decodeTableWord 32 0x87C63512 = some (.amoOr 56 49 42 2) ∧
    decodeTableWord 32 0x87C6351A = some (.amoXor 56 49 42 2) ∧
    decodeTableWord 32 0x87C63522 = some (.amoMin 56 49 42 2) ∧
    decodeTableWord 32 0x87C6352A = some (.amoMax 56 49 42 2) ∧
    decodeTableWord 32 0x87C63532 = some (.amoMinu 56 49 42 2) ∧
    decodeTableWord 32 0x87C6353A = some (.amoMaxu 56 49 42 2) ∧
    decodeTableWord 32 0x87C63542 = some (.amoSwap 56 49 42 2) ∧
    decodeTableWord 32 0x87C6354A = some (.amoFadd 56 49 42 2) ∧
    decodeTableWord 32 0x89C63502 = some (.cas 56 49 42 2) := ⟨rfl, rfl, rfl, rfl, rfl, rfl, rfl, rfl, rfl, rfl, rfl, rfl, rfl⟩
theorem test_words_11 : decodeTableWord 32 0x8BC62003 = some (.logcmp 56 49 3) ∧
    decodeTableWord 32 0x8DC00004 = some (.logmark 56 4) ∧
    decodeTableWord 32 0x8DC6200B = some (.logtrunc 56 49 3) ∧
    decodeTableWord 32 0x8E000025 = some (.sstepDie 5) ∧
    decodeTableWord 32 0x8E00002D = some (.sstepPackage 5) ∧
    decodeTableWord 32 0x90054003 = some (.gset false 0 42 3) ∧
    decodeTableWord 32 0x92080000 = some (.gswap false 1) ∧
    decodeTableWord 32 0x94263565 = some (.cpyHs 1 49 42 true .e4 5) ∧
    decodeTableWord 32 0x942E3525 = some (.cpySh 1 49 42 false .e4 5) ∧
    decodeTableWord 32 0x94363565 = some (.cpySs 1 49 42 true .e4 5) ∧
    decodeTableWord 32 0x943E3520 = some (.cpyRm 1 49 42 false .e4) ∧
    decodeTableWord 32 0x960718EC = some (.cpyrHs 56 49 true .e4 12) ∧
    decodeTableWord 32 0x960F18EC = some (.cpyrSh 56 49 true .e4 12) := ⟨rfl, rfl, rfl, rfl, rfl, rfl, rfl, rfl, rfl, rfl, rfl, rfl, rfl⟩
theorem test_words_12 : decodeTableWord 32 0x961718EC = some (.cpyrSs 56 49 true .e4 12) ∧
    decodeTableWord 32 0x961F18E0 = some (.cpyrRm 56 49 true .e4) ∧
    decodeTableWord 32 0x98000008 = some (.cpyw 8) ∧
    decodeTableWord 32 0x9A071880 = some (.engw 56 49) ∧
    decodeTableWord 32 0x9A0F1880 = some (.engr 56 49) ∧
    decodeTableWord 32 0x9C070000 = some (.tseq 56) ∧
    decodeTableWord 32 0x9E071880 = some (.ccadd 56 49) ∧
    decodeTableWord 32 0x9E0F1880 = some (.ccwait 56 49) ∧
    decodeTableWord 32 0xA188A98C = some (.vadd 24 17 10 .i32 12) ∧
    decodeTableWord 32 0xA388A98C = some (.vsub 24 17 10 .i32 12) ∧
    decodeTableWord 32 0xA588A98C = some (.vmul 24 17 10 .i32 12) ∧
    decodeTableWord 32 0xA788A98C = some (.vminmaxMin 24 17 10 .i32 12) ∧
    decodeTableWord 32 0xA788A99C = some (.vminmaxMax 24 17 10 .i32 12) := ⟨rfl, rfl, rfl, rfl, rfl, rfl, rfl, rfl, rfl, rfl, rfl, rfl, rfl⟩
theorem test_words_13 : decodeTableWord 32 0xA988A865 = some (.vfma 24 17 10 3 false 5) ∧
    decodeTableWord 32 0xAB88A865 = some (.vfms 24 17 10 3 false 5) ∧
    decodeTableWord 32 0xAD88A865 = some (.vfnma 24 17 10 3 false 5) ∧
    decodeTableWord 32 0xAF88A98C = some (.vlogicAnd 24 17 10 .i32 12) ∧
    decodeTableWord 32 0xAF88A99C = some (.vlogicOr 24 17 10 .i32 12) ∧
    decodeTableWord 32 0xAF88A9AC = some (.vlogicXor 24 17 10 .i32 12) ∧
    decodeTableWord 32 0xAF88A9BC = some (.vlogicAndn 24 17 10 .i32 12) ∧
    decodeTableWord 32 0xAF8881C3 = some (.vlogicNot 24 17 .i32 3) ∧
    decodeTableWord 32 0xB188A98C = some (.vshiftShl 24 17 10 .i32 12) ∧
    decodeTableWord 32 0xB188A99C = some (.vshiftShr 24 17 10 .i32 12) ∧
    decodeTableWord 32 0xB188A9AC = some (.vshiftSra 24 17 10 .i32 12) ∧
    decodeTableWord 32 0xB288A98C = some (.vcmpEq 8 17 10 .i32 12) ∧
    decodeTableWord 32 0xB288A99C = some (.vcmpNe 8 17 10 .i32 12) := ⟨rfl, rfl, rfl, rfl, rfl, rfl, rfl, rfl, rfl, rfl, rfl, rfl, rfl⟩
theorem test_words_14 : decodeTableWord 32 0xB288A9AC = some (.vcmpLt 8 17 10 .i32 12) ∧
    decodeTableWord 32 0xB288A9BC = some (.vcmpLe 8 17 10 .i32 12) ∧
    decodeTableWord 32 0xB288A9CC = some (.vcmpGt 8 17 10 .i32 12) ∧
    decodeTableWord 32 0xB288A9DC = some (.vcmpGe 8 17 10 .i32 12) ∧
    decodeTableWord 32 0xB588A803 = some (.vsel 24 17 10 3) ∧
    decodeTableWord 32 0xB78889D5 = some (.vcvt 24 17 .rs .i32 .i8 5) ∧
    decodeTableWord 32 0xB9888183 = some (.vredAdd 24 17 .i32 3) ∧
    decodeTableWord 32 0xB9888193 = some (.vredMax 24 17 .i32 3) ∧
    decodeTableWord 32 0xB98881A3 = some (.vredMin 24 17 .i32 3) ∧
    decodeTableWord 32 0xBB888183 = some (.vscan 24 17 .i32 3) ∧
    decodeTableWord 32 0xBD88A803 = some (.vpermIdx 24 17 10 3) ∧
    decodeTableWord 32 0xBD88A813 = some (.vpermRot 24 17 10 3) ∧
    decodeTableWord 32 0xBD88A823 = some (.vpermPsh 24 17 10 3) := ⟨rfl, rfl, rfl, rfl, rfl, rfl, rfl, rfl, rfl, rfl, rfl, rfl, rfl⟩
theorem test_words_15 : decodeTableWord 32 0xBF888183 = some (.vbcast 24 17 .i32 3) ∧
    decodeTableWord 32 0xBF88A990 = some (.vext 24 17 10 .i32) ∧
    decodeTableWord 32 0xC188800A = some (.vtransRcp 24 17 10) ∧
    decodeTableWord 32 0xC188801A = some (.vtransRsq 24 17 10) ∧
    decodeTableWord 32 0xC188802A = some (.vtransExp2 24 17 10) ∧
    decodeTableWord 32 0xC188803A = some (.vtransLog2 24 17 10) ∧
    decodeTableWord 32 0xC188804A = some (.vtransTanh 24 17 10) ∧
    decodeTableWord 32 0xC188805A = some (.vtransSin 24 17 10) ∧
    decodeTableWord 32 0xC188806A = some (.vtransCos 24 17 10) ∧
    decodeTableWord 32 0xC188807A = some (.vtransSqrt 24 17 10) ∧
    decodeTableWord 32 0xC388A98C = some (.vdiv 24 17 10 .i32 12) ∧
    decodeTableWord 32 0xC5800001 = some (.vrow 24 1) ∧
    decodeTableWord 32 0xC780018A = some (.viota 24 .i32 10) := ⟨rfl, rfl, rfl, rfl, rfl, rfl, rfl, rfl, rfl, rfl, rfl, rfl, rfl⟩
theorem test_words_16 : decodeTableWord 32 0xC980800A = some (.vmaskPopc 24 1 10) ∧
    decodeTableWord 32 0xC988801A = some (.vmaskCompress 24 17 10) ∧
    decodeTableWord 32 0xC988802A = some (.vmaskExpand 24 17 10) ∧
    decodeTableWord 32 0xC980803A = some (.vmaskFirst 24 1 10) ∧
    decodeTableWord 32 0xCA888183 = some (.vbnd 8 17 .i32 3) ∧
    decodeTableWord 32 0xCD888183 = some (.vabs 24 17 .i32 3) ∧
    decodeTableWord 32 0xCD888193 = some (.vneg 24 17 .i32 3) ∧
    decodeTableWord 32 0xCE88800A = some (.vdefDefer 8 17 10) ∧
    decodeTableWord 32 0xCF800011 = some (.vdefRefill 24 1) ∧
    decodeTableWord 32 0xCF800020 = some (.vdefCount 24) ∧
    decodeTableWord 32 0xD0000000 = some (.mclaim) ∧
    decodeTableWord 32 0xD2000000 = some (.mrel) ∧
    decodeTableWord 32 0xD5C6206C = some (.mloadA 56 49 true .fp4 12) := ⟨rfl, rfl, rfl, rfl, rfl, rfl, rfl, rfl, rfl, rfl, rfl, rfl, rfl⟩
theorem test_words_17 : decodeTableWord 32 0xD5C620EC = some (.mloadB 56 49 true .fp4 12) ∧
    decodeTableWord 32 0xD5C6216C = some (.mloadBt 56 49 true .fp4 12) ∧
    decodeTableWord 32 0xD7C620A0 = some (.mma 56 49 true false .fp4) ∧
    decodeTableWord 32 0xD7C621A0 = some (.mmaAcc 56 49 true false .fp4) ∧
    decodeTableWord 32 0xD9C6208C = some (.mmaqF4 56 49 true false 12) ∧
    decodeTableWord 32 0xD9C6214C = some (.mmaqF4Acc 56 49 false true 12) ∧
    decodeTableWord 32 0xD9C6228C = some (.mmaqI4 56 49 true false 12) ∧
    decodeTableWord 32 0xD9C6234C = some (.mmaqI4Acc 56 49 false true 12) ∧
    decodeTableWord 32 0xDA000080 = some (.mdrain true false) ∧
    decodeTableWord 32 0xDC900000 = some (.mcfg true false .fp8) ∧
    decodeTableWord 32 0xDE000080 = some (.mzero true) ∧
    decodeTableWord 32 0xE08C5EA0 = some (.scldBlk 8 49 490) ∧
    decodeTableWord 32 0xE08C7EA0 = some (.scldBand 8 49 490) := ⟨rfl, rfl, rfl, rfl, rfl, rfl, rfl, rfl, rfl, rfl, rfl, rfl, rfl⟩
theorem test_words_18 : decodeTableWord 32 0xE388810C = some (.qcvtF8 24 17 false .rs 12) ∧
    decodeTableWord 32 0xE388A91C = some (.qcvtDb4 24 17 10 .rs 12) ∧
    decodeTableWord 32 0xE3888123 = some (.qcvtMx4 24 17 .rs 3) ∧
    decodeTableWord 32 0xE388A83C = some (.qcvtUnp 24 17 10 false 12) ∧
    decodeTableWord 32 0xE5800001 = some (.rndgInt 24 1) ∧
    decodeTableWord 32 0xE5800011 = some (.rndgUni 24 1) ∧
    decodeTableWord 32 0xE7800001 = some (.statc 24 1) ∧
    decodeTableWord 32 0xE9C442A3 = some (.send 56 17 42 3) ∧
    decodeTableWord 32 0xEBC442A3 = some (.recv 56 17 42 3) ∧
    decodeTableWord 32 0xEDC442A3 = some (.raddBf16 56 17 42 3) ∧
    decodeTableWord 32 0xEDC446A3 = some (.raddF32 56 17 42 3) ∧
    decodeTableWord 32 0xEFC00310 = some (.chwait 56 49) ∧
    decodeTableWord 32 0xF1C0004F = some (.barr 56 79) := ⟨rfl, rfl, rfl, rfl, rfl, rfl, rfl, rfl, rfl, rfl, rfl, rfl, rfl⟩
theorem test_words_19 : decodeTableWord 32 0xF1C0104F = some (.barw 56 79) ∧
    decodeTableWord 32 0xF207004F = some (.barm 56 79) ∧
    decodeTableWord 32 0xF5C62000 = some (.fuse 56 49) ∧
    decodeTableWord 32 0xF4000008 = some (.decpl) ∧
    decodeTableWord 32 0xF5C00010 = some (.rejn 56) ∧
    decodeTableWord 32 0xF7C62000 = some (.wdog 56 49) ∧
    decodeTableWord 32 0xF8070000 = some (.prot 56) ∧
    decodeTableWord 32 0xF80F0000 = some (.unprot 56) ∧
    decodeTableWord 32 0xFA071880 = some (.rprep 56 49) ∧
    decodeTableWord 32 0xFA0F1880 = some (.rcomm 56 49) ∧
    decodeTableWord 32 0xFA171880 = some (.rstat 56 49) ∧
    decodeTableWord 32 0xFC071880 = some (.netpost 56 49) ∧
    decodeTableWord 32 0xFC0F1880 = some (.netwait 56 49) := ⟨rfl, rfl, rfl, rfl, rfl, rfl, rfl, rfl, rfl, rfl, rfl, rfl, rfl⟩
/-! ### Single steps: results worked out by hand from the rules -/

/-- The x register `n` after the results in flight of an answer have come due. -/
def xAfter (o : Out) (n : Nat) : Option Word :=
  match o with
  | .next t => t.core.flight.findSome? fun f => match f.w with
    | .x k v => if k = n then some v else none
    | _ => none
  | _ => none
/-- Element `e` of width `w` of the vector result in flight. -/
def vAfter (o : Out) (w e : Nat) : Option Nat :=
  match o with
  | .next t => t.core.flight.findSome? fun f => match f.w with
    | .v _ _ v => some (vElem w v e)
    | _ => none
  | _ => none
def withV (l : List (Nat × VReg)) (s : State) : State := s.modRegs fun r => { r with v := l.foldl (fun v e => v.setIfInBounds e.1 e.2) r.v }

theorem test_add_wraps : xAfter (exec (.add 3 1 2 0) (withX [(1, 0xFFFFFFFFFFFFFFFF), (2, 2)] base)) 3 = some 1 := by decide +kernel
theorem test_addw_sign : xAfter (exec (.addW 3 1 2 0) (withX [(1, 0x7FFFFFFF), (2, 1)] base)) 3 = some 0xFFFFFFFF80000000 := by decide +kernel
theorem test_sra_amount : xAfter (exec (.sra 3 1 2 0) (withX [(1, 0x8000000000000000), (2, 65)] base)) 3 = some 0xC000000000000000 := by decide +kernel
theorem test_addi_negative : xAfter (exec (.addi 3 1 0x1FFF) (withX [(1, 5)] base)) 3 = some 4 := by decide +kernel
theorem test_lui_sign : xAfter (exec (.lui 3 0x40000) base) 3 = some 0xFFFFFFFF80000000 := by decide +kernel
theorem test_mulh : xAfter (exec (.mulh 3 1 2 0) (withX [(1, 0xFFFFFFFFFFFFFFFF), (2, 2)] base)) 3 = some 0xFFFFFFFFFFFFFFFF := by decide +kernel
theorem test_div_zero : xAfter (exec (.div 3 1 2 0) (withX [(1, 7)] base)) 3 = some 0xFFFFFFFFFFFFFFFF ∧ xAfter (exec (.rem 3 1 2 0) (withX [(1, 7)] base)) 3 = some 7 := by decide +kernel
theorem test_div_overflow : xAfter (exec (.div 3 1 2 0) (withX [(1, 0x8000000000000000), (2, 0xFFFFFFFFFFFFFFFF)] base)) 3 = some 0x8000000000000000 := by decide +kernel
theorem test_bfx_sign : xAfter (exec (.bfx 3 1 2 0) (withX [(1, 0xF0), (2, 0x304)] base)) 3 = some 0xFFFFFFFFFFFFFFFF := by decide +kernel
theorem test_fadd : xAfter (exec (.fadd 3 1 2 0) (withX [(1, 0x3F800000), (2, 0x3F800000)] base)) 3 = some 0x40000000 := by decide +kernel
theorem test_fcvt_fi : xAfter (exec (.fcvtFi 3 1 0) (withX [(1, 0xBFC00000)] base)) 3 = some 0xFFFFFFFFFFFFFFFF := by decide +kernel
theorem test_ld_sign : xAfter (exec (.ld 3 1 .b 0) (withX [(1, 8)] (base.modCore fun c => { c with spad := [(8, 0x80)] }))) 3 = some 0xFFFFFFFFFFFFFF80 := by decide +kernel
theorem test_trap_entry : (match exec (.trap 5) armed with
    | .next t => t.core.regs.z.stat.tm && t.core.regs.z.cause == { detail := 5, slot := 0, code := 0x0F } && t.core.front.latched == some (.addr 0x2000)
    | _ => false) = true := by decide +kernel
theorem test_vadd : vAfter (exec (.vadd 3 1 2 .f32 0) (withV [(1, 0x3F800000), (2, 0x40000000)] base)) 32 0 = some 0x40400000 := by decide +kernel
theorem test_vmul_i16_wraps : vAfter (exec (.vmul 3 1 2 .i16 0) (withV [(1, 0x7FFF), (2, 2)] base)) 16 0 = some 0xFFFE := by decide +kernel
theorem test_vcvt_bf16 : vAfter (exec (.vcvt 3 1 .rne .f32 .bf16 0) (withV [(1, 0x3F808000)] base)) 16 0 = some 0x3F80 ∧
    vAfter (exec (.vcvt 3 1 .rne .f32 .bf16 0) (withV [(1, 0x3F818000)] base)) 16 0 = some 0x3F82 := by decide +kernel
theorem test_vfma_one_rounding : vAfter (exec (.vfma 3 1 1 2 false 0) (withV [(1, 0x3F800003), (2, 0xBF800000)] base)) 32 0 = some 0x35400002 := by decide +kernel
/-- R188: the generator on an all-zero key and counter, as its authors print it. -/
theorem test_philox : philoxDraw 0 0 0 = 0x6627E8D5 ∧ philoxDraw 0 0 1 = 0xE169C58D ∧ philoxDraw 0 0 2 = 0xBC57AC4C ∧ philoxDraw 0 0 3 = 0x9B00DBD8 := by decide +kernel
/-- R336: SHA-384 of "abc" begins as FIPS 180-4's example says. -/
theorem test_sha384 : ((sha384 [0x61, 0x62, 0x63]).take 8).map BitVec.toNat = [0xCB, 0x00, 0x75, 0x3F, 0x45, 0xA3, 0x5E, 0x8B] := by decide +kernel
/-- R356, R359: AES-256 in Galois/Counter mode on an all-zero key and nonce and no data, as the mode's first published vector for that key size says. -/
theorem test_aes_gcm : gcmTag (aesKeys (List.replicate 32 0)) (List.replicate 12 0) [] [] = 0x530F8AFBC74536B9A963B4F1C4CB738B := by decide +kernel
/-- R356: the CRC-32C of the nine digits is the check value that is printed for it. -/
theorem test_crc32c : crc32c [0x31, 0x32, 0x33, 0x34, 0x35, 0x36, 0x37, 0x38, 0x39] = 0xE3069283 := by decide +kernel
/-- R7: after reset memory is in its canonical form, and a store keeps it. -/
theorem test_reset_memory : State.reset.memWf = true := by decide

end Sys2Proof.Tests
end

section
/-! The system registers (spec 00_scope.md R7; 01_task.md R25, R35 to R37; 03_scalar_control.md R92, R99): what MFS and MTS do by the number that they
name, and where the words of ZSTAT, ZCAUSE and DBGCTL hold their fields. -/

namespace Sys2Proof.Machine

/-! ### MFS and MTS by the number they name -/

theorem exec_mfs_of_listed {s : State} {n : BitVec 13} {w : Word} (d : BitVec 6) (h : s.sys n.toNat = some w) :
    exec (.mfs d n) s = .next (s.setX d w 1) := by
  change execMfs d n s = _
  simp only [execMfs, h]

theorem exec_mfs_of_unassigned {s : State} {n : BitVec 13} (d : BitVec 6) (h : s.sys n.toNat = none) :
    exec (.mfs d n) s = .next s.illegal := by
  change execMfs d n s = _
  simp only [execMfs, h]

theorem exec_mts_of_unassigned {s : State} {n : BitVec 13} (a : BitVec 6) (h : s.sys n.toNat = none) :
    exec (.mts a n) s = .next s.illegal := by
  change execMts a n s = _
  simp only [execMts, h]

theorem exec_mts_of_listed {s : State} {n : BitVec 13} (a : BitVec 6) (h : s.sys n.toNat ≠ none) :
    exec (.mts a n) s = .next (if mtsWrites n.toNat then s.result 1 (.z n.toNat (s.x a)) else s) := by
  obtain ⟨w, hw⟩ := Option.ne_none_iff_exists'.mp h
  change execMts a n s = _
  simp only [execMts, hw]

theorem mtsWrites_iff (n : Nat) : mtsWrites n = true ↔ n ∈ [0, 5, 6, 0x20, 0x21, 0x22] := by
  simp [mtsWrites, or_assoc]

/-- Outside a re-entered bundle a syllable reads the register as it stands (R25). -/
theorem State.sys_eq_sysNow {s : State} (h : s.image = {}) (n : Nat) : s.sys n = s.sysNow n := by
  simp only [State.sys, h, tget?]

/-! ### Fields of a word by its value -/

theorem getLsbD_eq_of_toNat {n i : Nat} {w : BitVec n} {b : Bool} (h : w.toNat / 2 ^ i % 2 = b.toNat) : w.getLsbD i = b := by
  rw [← BitVec.testBit_toNat, Nat.testBit_eq_decide_div_mod_eq, h]
  cases b <;> rfl

theorem extractLsb'_eq_of_toNat {n i len : Nat} {w : BitVec n} {v : BitVec len} (h : w.toNat / 2 ^ i % 2 ^ len = v.toNat) :
    w.extractLsb' i len = v := by
  apply BitVec.eq_of_toNat_eq
  rw [BitVec.extractLsb'_toNat, Nat.shiftRight_eq_div_pow, h]

theorem extractLsb'_eq_zero_of_toNat {n i len : Nat} {w : BitVec n} (h : w.toNat / 2 ^ i % 2 ^ len = 0) : w.extractLsb' i len = 0 :=
  extractLsb'_eq_of_toNat (h.trans BitVec.toNat_zero.symm)

/-! ### ZSTAT, ZCAUSE and DBGCTL, field by field -/

/-- R35: TM, SV, TEN, SLICEUP, JOOR, DEFOV, F8, DET and AF in bits 31 to 23, SRF in [22:20], SS in bit 19, zeros elsewhere. -/
theorem ZStat.word_fields (t : ZStat) :
    t.word.getLsbD 31 = t.tm ∧ t.word.getLsbD 30 = t.sv ∧ t.word.getLsbD 29 = t.ten ∧ t.word.getLsbD 28 = t.sliceup ∧
    t.word.getLsbD 27 = t.joor ∧ t.word.getLsbD 26 = t.defov ∧ t.word.getLsbD 25 = t.f8 ∧ t.word.getLsbD 24 = t.det ∧ t.word.getLsbD 23 = t.af ∧
    t.word.extractLsb' 20 3 = t.srf ∧ t.word.getLsbD 19 = t.ss ∧ t.word.extractLsb' 32 32 = 0 ∧ t.word.extractLsb' 0 19 = 0 := by
  have htm := t.tm.toNat_le
  have hsv := t.sv.toNat_le
  have hten := t.ten.toNat_le
  have hsliceup := t.sliceup.toNat_le
  have hjoor := t.joor.toNat_le
  have hdefov := t.defov.toNat_le
  have hf8 := t.f8.toNat_le
  have hdet := t.det.toNat_le
  have haf := t.af.toNat_le
  have hsrf := t.srf.isLt
  have hss := t.ss.toNat_le
  have hw : t.word.toNat = _ := (BitVec.toNat_ofNat _ 64).trans (Nat.mod_eq_of_lt (by omega))
  refine ⟨getLsbD_eq_of_toNat ?_, getLsbD_eq_of_toNat ?_, getLsbD_eq_of_toNat ?_, getLsbD_eq_of_toNat ?_, getLsbD_eq_of_toNat ?_,
    getLsbD_eq_of_toNat ?_, getLsbD_eq_of_toNat ?_, getLsbD_eq_of_toNat ?_, getLsbD_eq_of_toNat ?_, extractLsb'_eq_of_toNat ?_,
    getLsbD_eq_of_toNat ?_, extractLsb'_eq_zero_of_toNat ?_, extractLsb'_eq_zero_of_toNat ?_⟩ <;> rw [hw] <;> omega

/-- R36: DETAIL in [63:32], the slot in [10:8], the code in [7:0], zeros between. -/
theorem ZCause.word_fields (c : ZCause) :
    c.word.extractLsb' 32 32 = c.detail ∧ c.word.extractLsb' 11 21 = 0 ∧ c.word.extractLsb' 8 3 = c.slot ∧ c.word.extractLsb' 0 8 = c.code := by
  have hdetail := c.detail.isLt
  have hslot := c.slot.isLt
  have hcode := c.code.isLt
  have hw : c.word.toNat = _ := (BitVec.toNat_ofNat _ 64).trans (Nat.mod_eq_of_lt (by omega))
  refine ⟨extractLsb'_eq_of_toNat ?_, extractLsb'_eq_zero_of_toNat ?_, extractLsb'_eq_of_toNat ?_, extractLsb'_eq_of_toNat ?_⟩ <;>
    rw [hw] <;> omega

/-- R99: STEP in bit 0, FREEZE in bit 1, zeros above. -/
theorem dbgctl_fields (step freeze : Bool) :
    let w : Word := BitVec.ofNat 64 (step.toNat + 2 * freeze.toNat)
    w.getLsbD 0 = step ∧ w.getLsbD 1 = freeze ∧ w.extractLsb' 2 62 = 0 := by
  cases step <;> cases freeze <;> decide

/-! ### The obligation -/

/-- Settles O13: the first part by what MFS and MTS do with a listed and with an unassigned number, the second by the words' fields, the third by the
definition of a write to ZSTAT. -/
theorem systemRegisters : Obligations.SystemRegisters := by
  unfold Obligations.SystemRegisters
  refine ⟨fun s d a n => ⟨fun w hw => exec_mfs_of_listed d hw, fun hn => ⟨exec_mfs_of_unassigned d hn, exec_mts_of_unassigned a hn⟩,
    fun hn hrw => ?_, fun hn hro => ?_⟩, fun s himage => ?_, fun t w => ⟨rfl, rfl, rfl, rfl, rfl, rfl, rfl, rfl, rfl, rfl, rfl⟩⟩
  · rw [exec_mts_of_listed a hn, if_pos ((mtsWrites_iff _).mpr hrw)]
  · rw [exec_mts_of_listed a hn, if_neg (mt (mtsWrites_iff _).mp hro)]
  · simp only [State.sys_eq_sysNow himage]
    exact ⟨⟨_, rfl, s.core.regs.z.stat.word_fields⟩, ⟨_, rfl, s.core.regs.z.cause.word_fields⟩, rfl, rfl, rfl, rfl, rfl,
      ⟨_, rfl, dbgctl_fields s.core.front.step s.core.front.freeze⟩⟩

end Sys2Proof.Machine
end

section
/-! The record cache, IDEM and the suspensions (spec 01_task.md R24; 03_scalar_control.md R87 to R91). -/

namespace Sys2Proof.Machine

/-- A syllable that its scalar predicate lets through executes (R55). -/
theorem State.guarded_on {s : State} {q : BitVec 3} (hq : s.sqOn q = true) (f : State → State) : s.guarded q f = f s := if_pos hq

/-- Without a bad load, a copy job and a held cause, nothing comes before a suspension (R90, R220, R222). -/
theorem State.suspend_of_clear {s : State} (a : After) (hmisses : s.core.misses = []) (hjobs : s.core.copy.jobs = []) (herr : s.core.copy.err = []) :
    s.suspend a = s.modRun fun r => { r with after := some a } := by
  simp [State.suspend, State.beforeLeaving, State.badMiss?, hmisses, hjobs, herr]

/-- R91: what PARK of an affine task outside its loops comes to, by its counter's address. -/
def State.parkAt (s : State) (a : BitVec 6) : State :=
  match (s.ctx s.bound.ctx).translate? (s.x a).toNat .rd with
  | none => s.noWindow (s.x a)
  | some c =>
    if (s.x a).toNat % 8 ≠ 0 then s.misalign (s.x a) 8
    else if s.isRemote c.ia then s.illegal
    else s.suspend (.park (BitVec.ofNat 64 c.ia) (s.x 8))

section

variable {s : State} {q : BitVec 3} (a : BitVec 6) (hq : s.sqOn q = true)
include hq

/-- R89: RFENCE.A drops the record of its address where a window covers it. -/
theorem exec_rfenceA {w : Nat} (hw : (s.ctx s.bound.ctx).cover? (s.x a).toNat = some w) :
    exec (.rfenceA a q) s = .next (s.modCore fun k => { k with rcache := k.rcache.filter fun e =>
      e.1 != ((tget {} (s.ctx s.bound.ctx).aws w).ibase * 65536 +
        ((s.x a).toNat - (tget {} (s.ctx s.bound.ctx).aws w).vbase * 65536)) / 64 * 64 }) := by
  change Host.Outcome.next (s.guarded q _) = _
  rw [State.guarded_on hq]
  simp only [hw]

theorem exec_rfenceA_uncovered (hw : (s.ctx s.bound.ctx).cover? (s.x a).toNat = none) : exec (.rfenceA a q) s = .next s := by
  change Host.Outcome.next (s.guarded q _) = _
  rw [State.guarded_on hq]
  simp only [hw]

/-! ### Suspensions with TM = 1 and with TM = 0 -/

/-- R24: a suspension while TM = 1 kills the task. -/
theorem exec_suspend_masked (htm : s.core.regs.z.stat.tm = true) :
    exec (.suspYield q) s = .next s.suspendMasked ∧ exec (.suspPark a q) s = .next s.suspendMasked ∧
    exec (.suspExit q) s = .next s.suspendMasked := by
  refine ⟨?_, ?_, ?_⟩
  all_goals
    change Host.Outcome.next (s.guarded q _) = _
    rw [State.guarded_on hq, if_pos htm]

theorem exec_suspYield (htm : s.core.regs.z.stat.tm = false) (hloops : s.core.front.loops = []) :
    exec (.suspYield q) s = .next (s.suspend .yield) := by
  change Host.Outcome.next (s.guarded q _) = _
  rw [State.guarded_on hq]
  simp [htm, hloops]

theorem exec_suspExit (htm : s.core.regs.z.stat.tm = false) : exec (.suspExit q) s = .next (s.suspend .exit) := by
  change Host.Outcome.next (s.guarded q _) = _
  rw [State.guarded_on hq]
  simp [htm]

/-- R91: only an affine task parks. -/
theorem exec_suspPark_notAffine (htm : s.core.regs.z.stat.tm = false) (haf : s.core.regs.z.stat.af = false) :
    exec (.suspPark a q) s = .next s.illegal := by
  change Host.Outcome.next (s.guarded q _) = _
  rw [State.guarded_on hq]
  simp [htm, haf]

theorem exec_suspPark (htm : s.core.regs.z.stat.tm = false) (haf : s.core.regs.z.stat.af = true) (hloops : s.core.front.loops = []) :
    exec (.suspPark a q) s = .next (s.parkAt a) := by
  change Host.Outcome.next (s.guarded q _) = _
  rw [State.guarded_on hq]
  simp only [htm, haf, hloops, List.isEmpty_nil, Bool.not_true, Bool.or_self, Bool.false_eq_true, if_false]
  rfl

end

/-- Settles O9: by what each of the syllables does, PARK by its counter's address. -/
theorem suspensionOutcomes : Obligations.SuspensionOutcomes := by
  unfold Obligations.SuspensionOutcomes
  refine ⟨fun s a q hq => ⟨?_, exec_rfenceA_uncovered a hq, fun w hw => ⟨_, exec_rfenceA a hq hw, rfl, fun e => ?_⟩, rfl⟩,
    fun s a q hq htm hloops hmisses hjobs herr => ⟨?_, ?_, fun c haf hc halign hlocal => ?_⟩,
    fun s a q hq => ⟨exec_suspend_masked a hq,
      exec_suspPark_notAffine a hq, fun htm haf hloops => ⟨fun hc => ?_, fun c hc halign => ?_, fun c hc halign hremote => ?_⟩⟩⟩
  · change Host.Outcome.next (s.guarded q _) = _
    rw [State.guarded_on hq]
    rfl
  · simp only [State.modCore_core, List.mem_filter, bne_iff_ne]
  · rw [exec_suspYield hq htm hloops, State.suspend_of_clear _ hmisses hjobs herr]
  · rw [exec_suspExit hq htm, State.suspend_of_clear _ hmisses hjobs herr]
  · simp only [exec_suspPark a hq htm haf hloops, State.parkAt, hc, halign, hlocal, State.suspend_of_clear _ hmisses hjobs herr]
    simp
  · simp only [exec_suspPark a hq htm haf hloops, State.parkAt, hc]
  · simp only [exec_suspPark a hq htm haf hloops, State.parkAt, hc, if_pos halign]
  · simp only [exec_suspPark a hq htm haf hloops, State.parkAt, hc, halign, hremote]
    simp

end Sys2Proof.Machine
end

section
/-! Taking an exception (spec 01_task.md R22 to R24, R38): what the snapshot holds, and what each way out of a cause leaves. -/

namespace Sys2Proof.Machine

/-! ### The operand image of a snapshot (R23) -/

theorem tget?_tset_fun {α : Type} (t : Tab α) (f : Nat → α) (m : Nat) {n : Nat} (h : m = n ∨ tget? t n = some (f n)) :
    tget? (tset t m (f m)) n = some (f n) := by
  by_cases hm : n = m
  · subst hm; exact tget?_tset_same t n (f n)
  · rw [tget?_tset_ne t (f m) hm]
    exact h.resolve_left (Ne.symm hm)

/-- What holds after one element of a list and is kept by every other holds after the list. -/
theorem foldl_of_mem {α β : Type} {f : α → β → α} {P : α → Prop} {b : β} (hset : ∀ a, P (f a b)) (hkeep : ∀ a c, P a → P (f a c)) :
    ∀ {l : List β} (a : α), b ∈ l → P (l.foldl f a)
  | c :: l, a, hb => by
    rcases List.mem_cons.mp hb with rfl | hb
    · exact List.foldlRecOn l f (hset a) fun a ha c _ => hkeep a c ha
    · exact foldl_of_mem hset hkeep (f a c) hb

/-- The image holds the bundle-entry value of the x, p, v or sc register that `w` writes. -/
def RegImage.holds (g : RegImage) (s : State) : RegWrite → Prop
  | .x n _ => tget? g.x n = some (s.x (BitVec.ofNat 6 n))
  | .p n _ => tget? g.p n = some (s.p (BitVec.ofNat 4 n))
  | .v n _ _ => tget? g.v n = some (s.v (BitVec.ofNat 5 n))
  | .sc n _ => tget? g.sc n = some (s.sc (BitVec.ofNat 4 n))
  | _ => True

theorem RegImage.holds_withShape {g : RegImage} {s : State} {w : RegWrite} (sh : Tab (ShapeReg × ShapeReg)) (h : g.holds s w) :
    RegImage.holds { g with shape := sh } s w := by
  cases w <;> exact h

/-- Writes of shape registers leave the rest of the image. -/
theorem State.imageWrite_swap (s : State) (g : RegImage) (gy : Bool) (m : BitVec 4) :
    s.imageWrite g (.swap gy m) = { g with shape := (s.imageWrite g (.swap gy m)).shape } := by
  have h : ∀ l : List Nat, l.foldl (fun g i => if m.getLsbD i then s.imageShape g (gy.toNat * 4 + i) else g) g =
      { g with shape := (l.foldl (fun g i => if m.getLsbD i then s.imageShape g (gy.toNat * 4 + i) else g) g).shape } := by
    intro l
    induction l generalizing g with
    | nil => rfl
    | cons i l ih =>
      rw [List.foldl_cons, ih]
      split <;> rfl
  exact h (List.range 4)

theorem State.imageWrite_holds (s : State) (g : RegImage) (w : RegWrite) : (s.imageWrite g w).holds s w := by
  cases w with
  | x n v => exact tget?_tset_fun g.x (fun n => s.x (BitVec.ofNat 6 n)) n (.inl rfl)
  | p n v => exact tget?_tset_fun g.p (fun n => s.p (BitVec.ofNat 4 n)) n (.inl rfl)
  | v n m v => exact tget?_tset_fun g.v (fun n => s.v (BitVec.ofNat 5 n)) n (.inl rfl)
  | sc n v => exact tget?_tset_fun g.sc (fun n => s.sc (BitVec.ofNat 4 n)) n (.inl rfl)
  | _ => trivial

/-- A later write of the same register adds the same bundle-entry value, and every other write leaves it. -/
theorem State.imageWrite_keeps (s : State) (g : RegImage) (w' w : RegWrite) (h : g.holds s w) : (s.imageWrite g w').holds s w := by
  cases w' with
  | x m v =>
    cases w with
    | x n u => exact tget?_tset_fun g.x (fun n => s.x (BitVec.ofNat 6 n)) m (.inr h)
    | _ => exact h
  | p m v =>
    cases w with
    | p n u => exact tget?_tset_fun g.p (fun n => s.p (BitVec.ofNat 4 n)) m (.inr h)
    | _ => exact h
  | v m k v =>
    cases w with
    | v n j u => exact tget?_tset_fun g.v (fun n => s.v (BitVec.ofNat 5 n)) m (.inr h)
    | _ => exact h
  | sc m v =>
    cases w with
    | sc n u => exact tget?_tset_fun g.sc (fun n => s.sc (BitVec.ofNat 4 n)) m (.inr h)
    | _ => exact h
  | gset k f v => exact RegImage.holds_withShape _ h
  | swap gy m => rw [State.imageWrite_swap]; exact RegImage.holds_withShape _ h
  | eng off v =>
    simp only [State.imageWrite]
    split
    · exact RegImage.holds_withShape _ h
    · exact h
  | _ => cases w <;> exact h

/-- R23: the image of a bundle's writes holds the bundle-entry value of every register that one of them writes. -/
theorem State.imageWrites_holds (s : State) {ws : List RegWrite} (g : RegImage) {w : RegWrite} (h : w ∈ ws) :
    (ws.foldl s.imageWrite g).holds s w :=
  foldl_of_mem (P := fun g => g.holds s w) (fun g => s.imageWrite_holds g w) (fun g w' => s.imageWrite_keeps g w' w) g h

/-! ### The snapshot -/

theorem State.snapshot_engines (s : State) (addr slot : Nat) :
    (s.snapshot addr slot).queue = s.core.mx.queue ∧ (s.snapshot addr slot).drain = s.core.mx.drain ∧
    (s.snapshot addr slot).loops = s.core.front.loops := by
  unfold State.snapshot
  dsimp only
  split <;> exact ⟨rfl, rfl, rfl⟩

/-- R23: the snapshot of a bundle that issues. -/
theorem State.snapshot_of_run {s : State} {r : Run} (hr : s.core.front.run = some r) (addr slot : Nat) :
    (s.snapshot addr slot).addr = BitVec.ofNat 64 addr ∧ (s.snapshot addr slot).slot = slot ∧ (s.snapshot addr slot).flight = s.core.flight ∧
    (s.snapshot addr slot).misses = s.core.misses ∧ (s.snapshot addr slot).latched = r.latched ∧
    (s.snapshot addr slot).image = r.wrote.foldl s.imageWrite {} := by
  unfold State.snapshot
  dsimp only
  rw [hr]
  cases s.core.front.reenter <;> exact ⟨rfl, rfl, rfl, rfl, rfl, rfl⟩

/-! ### Capturing the trap's state (steps 1 to 3 of R23) -/

theorem State.spireFlush_of_nil {s : State} (h : s.core.spireOut = []) : s.spireFlush = s := by
  rw [State.spireFlush, h]; rfl

section

variable {s : State} (hspire : s.core.spireOut = []) (c : Cause) (slot srf bundle resume : Nat)
include hspire

theorem State.captureTrap_snap : (s.captureTrap c slot srf bundle resume).core.snap = some (s.snapshot resume srf) := by
  rw [State.captureTrap, State.spireFlush_of_nil hspire]; rfl

/-- What the capture writes of ZSTAT, ZCAUSE, ZADDR, ZBUNDLE and ZSNAP; every other register stays. -/
theorem State.captureTrap_regs : (s.captureTrap c slot srf bundle resume).core.regs = { s.core.regs with z := { s.core.regs.z with
    stat := { s.core.regs.z.stat with sv := true, ss := false, tm := true, srf := BitVec.ofNat 3 srf }
    cause := { detail := c.detail, slot := BitVec.ofNat 3 slot, code := c.code }
    addr := c.addr
    bundle := BitVec.ofNat 64 bundle
    snapLen := BitVec.ofNat 16 (64 * (1 + Config.imageBlocks s.free % 256)) } } := by
  rw [State.captureTrap, State.spireFlush_of_nil hspire]; rfl

/-- What stops with the trap, and what the capture leaves as it is. -/
theorem State.captureTrap_frame :
    let t := s.captureTrap c slot srf bundle resume
    t.core.front.run = none ∧ t.core.front.latched = none ∧ t.core.front.loops = [] ∧ t.core.flight = [] ∧ t.core.mx.queue = [] ∧
    t.core.spad = s.core.spad ∧ t.mem = s.mem := by
  rw [State.captureTrap, State.spireFlush_of_nil hspire]
  exact ⟨rfl, rfl, rfl, rfl, rfl, rfl, rfl⟩

end

/-- R23, R97: an image is 64 bytes to 16 KiB long, in blocks of 64. -/
theorem imageLen_bounds (n : Nat) :
    let len := (BitVec.ofNat 16 (64 * (1 + n % 256))).toNat
    len % 64 = 0 ∧ 64 ≤ len ∧ len ≤ 16384 := by
  dsimp only
  rw [BitVec.toNat_ofNat]
  omega

/-! ### Where a cause goes (R23, R24, R38) -/

section

variable {s : State} {c : Cause} (slot srf bundle resume : Nat)

theorem State.takeTrap_of_containment (hc : c.cls = .containment) : s.takeTrap c slot srf bundle resume = s.killBound c slot := if_pos hc

theorem State.takeTrap_of_debugger (hc : c.cls = .debug) (hd : s.root.debugger = true) :
    s.takeTrap c slot srf bundle resume = s.enterDebugger c slot srf bundle resume := by
  simp [State.takeTrap, hc, hd]

/-- A cause that neither containment nor a debugger takes. -/
theorem State.takeTrap_of_handled (hc : c.cls ≠ .containment) (hd : c.cls = .debug → s.root.debugger = false) :
    s.takeTrap c slot srf bundle resume =
      if s.core.regs.z.stat.tm then s.killBound { code := 0x16, addr := c.addr, detail := c.code.zeroExtend 32 } slot
      else if s.core.regs.z.stat.ten ∧ s.core.regs.z.handler ≠ 0 then s.enterHandler c slot srf bundle resume
      else s.killBound c slot := by
  have hnd : ¬(c.cls = .debug ∧ s.root.debugger = true) := fun ⟨h, hon⟩ => by simp [hd h] at hon
  rw [State.takeTrap]
  simp only [if_neg hc, if_neg hnd]

end

theorem ZRegs.handler_eq_zero {z : ZRegs} (h : z.tvec.toNat < 4) : z.handler = 0 := by
  rw [ZRegs.handler, Nat.div_eq_of_lt h, Nat.zero_mul]

/-- Settles O10: by where the cause goes, then by what the capture writes and what the snapshot holds. -/
theorem trapEntry : Obligations.TrapEntry := by
  unfold Obligations.TrapEntry
  refine ⟨fun s c slot srf bundle resume _ _ hc hd htm hten hvec hspire => ⟨_, s.snapshot resume srf, rfl, ?_⟩,
    fun s c slot srf bundle resume => ⟨State.takeTrap_of_containment slot srf bundle resume, fun hc hd htm => ?_, fun hc hd htm hspire => ?_,
      fun hc htm => ?_, fun hc htm hoff => ?_⟩⟩
  · obtain ⟨hqueue, hdrain, hloops⟩ := s.snapshot_engines resume srf
    obtain ⟨hrun, -, hlevels, hflight, hmx, hspad, hmem⟩ := State.captureTrap_frame hspire c slot srf bundle resume
    have hregs := State.captureTrap_regs hspire c slot srf bundle resume
    rw [State.takeTrap_of_handled slot srf bundle resume hc hd, htm, if_neg (by simp), if_pos ⟨hten, hvec⟩, State.enterHandler]
    simp only [State.modFront_core_snap, State.modFront_core_regs, State.modFront_core_front, State.modFront_core_flight,
      State.modFront_core_mx, State.modFront_core_spad, State.modFront_mem, hregs, hrun, hlevels, hflight, hmx, hspad, hmem,
      State.captureTrap_snap hspire]
    obtain ⟨hmod, hlow, hhigh⟩ := imageLen_bounds (Config.imageBlocks s.free)
    refine ⟨trivial, hqueue, hdrain, hloops, fun r hr => ?_, trivial, trivial, trivial, trivial, hmod, hlow, hhigh, rfl, trivial, trivial, trivial, trivial, trivial, trivial,
      trivial, trivial, trivial, trivial, trivial⟩
    obtain ⟨haddr, hslot, hfl, hmisses, hlatched, himage⟩ := State.snapshot_of_run hr resume srf
    rw [himage]
    exact ⟨haddr, hslot, hfl, hmisses, hlatched, fun n w h => s.imageWrites_holds {} h, fun n w h => s.imageWrites_holds {} h,
      fun n m w h => s.imageWrites_holds {} h, fun n w h => s.imageWrites_holds {} h⟩
  · rw [State.takeTrap_of_debugger slot srf bundle resume hc hd, State.enterDebugger, if_pos htm]
  · obtain ⟨hrun, hlatched, -, -, -, hspad, hmem⟩ := State.captureTrap_frame hspire c slot srf bundle resume
    have hregs := State.captureTrap_regs hspire c slot srf bundle resume
    refine ⟨_, rfl, ?_⟩
    rw [State.takeTrap_of_debugger slot srf bundle resume hc hd, State.enterDebugger, if_neg (by simp [htm])]
    simp only [State.modFront_core_snap, State.modFront_core_regs, State.modFront_core_front, State.modFront_core_spad, State.modFront_mem,
      hregs, hrun, hlatched, hspad, hmem, State.captureTrap_snap hspire]
    exact ⟨trivial, rfl, trivial, trivial, trivial, trivial, trivial, trivial, trivial, trivial, trivial⟩
  · rw [State.takeTrap_of_handled slot srf bundle resume (by simp [hc]) (by simp [hc]), if_pos htm]
  · have hoff' : ¬(s.core.regs.z.stat.ten = true ∧ s.core.regs.z.handler ≠ 0) := by
      rintro ⟨hten, hvec⟩
      rcases hoff with h | h
      · simp [h] at hten
      · exact hvec (ZRegs.handler_eq_zero h)
    rw [State.takeTrap_of_handled slot srf bundle resume (by simp [hc]) (by simp [hc]), htm, if_neg (by simp), if_neg hoff']

end Sys2Proof.Machine
end

section
/-! The return from a trap and the snapshot image (spec 01_task.md R25; 03_scalar_control.md R96 to R98). -/

namespace Sys2Proof.Machine

/-! ### TRET -/

theorem exec_tret_of_snap {s : State} (hsv : s.core.regs.z.stat.sv = true) (hops : ∀ o ∈ s.core.snapOps, o.isStore = true) :
    exec .tret s = .next (s.returnFromTrap.modRun fun r => { r with tret := true, unmasked := !s.core.regs.z.stat.tm }) := by
  have hany : (s.core.snapOps.any fun o => !o.isStore) = false := by simpa using hops
  change execTret s = _
  simp [execTret, hsv, hany]

theorem exec_tret_of_fill {s : State} (hsv : s.core.regs.z.stat.sv = true) (hops : ∃ o ∈ s.core.snapOps, o.isStore = false) :
    exec .tret s = .next s.hold := by
  have hany : (s.core.snapOps.any fun o => !o.isStore) = true := by simpa using hops
  change execTret s = _
  simp [execTret, hsv, hany]

theorem exec_tret_of_none {s : State} (hsv : s.core.regs.z.stat.sv = false) : exec .tret s = .next s.illegal := by
  change execTret s = _
  simp [execTret, hsv]

/-- R25: what the return restores from the snapshot, what it leaves, and what goes on once the bundle is at hand. -/
theorem State.returnFromTrap_fields {s : State} {p : Snap} (hp : s.core.snap = some p) (f : Run → Run) :
    let t := s.returnFromTrap.modRun f
    t.core.regs.z.stat = { s.core.regs.z.stat with sv := false, tm := false } ∧ t.core.snap = none ∧
    t.core.front.reenter = some p ∧ t.core.front.loops = p.loops ∧ t.core.flight = s.core.flight ∧ t.core.misses = s.core.misses ∧
    t.resumeSnap.core.flight = p.flight ++ s.core.flight ∧ t.resumeSnap.core.misses = p.misses ++ s.core.misses ∧
    t.core.mx.queue = s.core.mx.queue ++ p.queue ∧ t.core.mx.drain = p.drain ∧ t.core.regs.x = s.core.regs.x ∧
    t.core.regs.p = s.core.regs.p ∧ t.core.regs.v = s.core.regs.v ∧ t.core.spad = s.core.spad ∧ t.mem = s.mem := by
  rw [State.returnFromTrap, hp]
  exact ⟨rfl, rfl, rfl, rfl, rfl, rfl, rfl, rfl, rfl, rfl, rfl, rfl, rfl, rfl, rfl⟩

/-! ### SNAPST and SNAPLD (R97) -/

section

variable {s : State} {a : BitVec 6}

/-- What SNAPST requires of the address. -/
def State.snapstOk (s : State) (a : BitVec 6) : Prop :=
  s.core.regs.z.stat.sv = true ∧ (s.x a).toNat % 64 = 0 ∧ s.spadOk (s.x a).toNat s.core.regs.z.snapLen.toNat = true

theorem exec_snapst {p : Snap} (hp : s.snapNow = some p) (hok : s.snapstOk a) :
    ∃ im : Archived, im.snap = p ∧ im.len = s.core.regs.z.snapLen.toNat ∧
      exec (.snapst a) s = .next ((({ s.nextFree with archive := im :: s.archive } : State).modCore fun c =>
        { c with snapOps := c.snapOps ++ [.st (s.x a).toNat im 36] }).modStat fun t => { t with ss := true }) := by
  obtain ⟨hsv, halign, hspad⟩ := hok
  refine ⟨{ key := s.free, len := s.core.regs.z.snapLen.toNat, snap := p }, rfl, rfl, ?_⟩
  change execSnapst a s = _
  simp [execSnapst, hp, hsv, halign, hspad]

theorem exec_snapst_illegal (hno : s.core.regs.z.stat.sv = false ∨ (s.x a).toNat % 64 ≠ 0 ∨
    s.spadOk (s.x a).toNat s.core.regs.z.snapLen.toNat = false) : exec (.snapst a) s = .next s.illegal := by
  have hbad : (!s.core.regs.z.stat.sv || (s.x a).toNat % 64 != 0 || !s.spadOk (s.x a).toNat s.core.regs.z.snapLen.toNat) = true := by
    simpa [or_assoc] using hno
  change execSnapst a s = _
  rw [execSnapst]
  dsimp only
  split
  · rfl
  · rw [if_pos hbad]

/-- The requirements of SNAPLD on the mode, the alignment and the header's place; `false` raises ILLEGAL. -/
theorem exec_snapld_of_place (hno : s.core.regs.z.stat.tm = true ∨ (s.x a).toNat % 64 ≠ 0 ∨ s.spadOk (s.x a).toNat 64 = false) :
    exec (.snapld a) s = .next s.illegal := by
  have hbad : (s.core.regs.z.stat.tm || (s.x a).toNat % 64 != 0 || !s.spadOk (s.x a).toNat 64) = true := by
    simpa [or_assoc] using hno
  change execSnapld a s = _
  rw [execSnapld]
  dsimp only
  rw [if_pos hbad]

section

variable (htm : s.core.regs.z.stat.tm = false) (halign : (s.x a).toNat % 64 = 0) (hspad : s.spadOk (s.x a).toNat 64 = true)
include htm halign hspad

theorem exec_snapld_of_header
    (hno : let n := at' (s.spadBytes (s.x a).toNat 64) 0 2
      n % 64 ≠ 0 ∨ n < 64 ∨ 16384 < n ∨ 7 < at' (s.spadBytes (s.x a).toNat 64) 4 1 ∨ s.spadOk (s.x a).toNat n = false) :
    exec (.snapld a) s = .next s.illegal := by
  change execSnapld a s = _
  rw [execSnapld]
  dsimp only at hno ⊢
  rw [if_neg (by simp [htm, halign, hspad]), if_pos (by simpa using hno)]

/-- R97: SNAPLD takes the slot and the address of the header. -/
theorem exec_snapld (hlen : at' (s.spadBytes (s.x a).toNat 64) 0 2 % 64 = 0) (hlow : 64 ≤ at' (s.spadBytes (s.x a).toNat 64) 0 2)
    (hhigh : at' (s.spadBytes (s.x a).toNat 64) 0 2 ≤ 16384) (hslot : at' (s.spadBytes (s.x a).toNat 64) 4 1 ≤ 7)
    (hbody : s.spadOk (s.x a).toNat (at' (s.spadBytes (s.x a).toNat 64) 0 2) = true) :
    ∃ p : Snap, exec (.snapld a) s = .next ((s.nextFree.modCore fun c =>
        { c with snapOps := c.snapOps.filter SnapOp.isStore ++ [.ld p 36] }).modStat fun t => { t with sv := true }) ∧
      p.slot = at' (s.spadBytes (s.x a).toNat 64) 4 1 ∧ p.addr = BitVec.ofNat 64 (at' (s.spadBytes (s.x a).toNat 64) 8 8) := by
  change ∃ p : Snap, execSnapld a s = _ ∧ _ ∧ _
  rw [execSnapld]
  dsimp only
  rw [if_neg (by simp [htm, halign, hspad]), if_neg (by simp [hlen, hlow, hhigh, hslot, hbody])]
  split <;> exact ⟨_, rfl, rfl, rfl⟩

end

end

/-- Settles O12: by what each of TRET, SNAPST, SNAPLD and SNAPREL does when it is allowed and when it is not. -/
theorem snapshotsAndReturn : Obligations.SnapshotsAndReturn := by
  unfold Obligations.SnapshotsAndReturn
  refine ⟨fun s => ⟨exec_tret_of_none, exec_tret_of_fill, fun p hsv hp hops => ⟨_, exec_tret_of_snap hsv hops, State.returnFromTrap_fields hp _⟩⟩,
    fun s a => ⟨fun p hp hsv halign hspad => ?_, exec_snapst_illegal, fun htm halign hspad => ⟨exec_snapld_of_header htm halign hspad,
      fun hlen hlow hhigh hslot hbody => ?_⟩, exec_snapld_of_place, fun hss => ?_, fun hss => ?_⟩⟩
  · obtain ⟨im, himage, hlen, hexec⟩ := exec_snapst hp ⟨hsv, halign, hspad⟩
    exact ⟨_, hexec, rfl, rfl, ⟨im, rfl, himage, hlen, rfl⟩, rfl, rfl⟩
  · obtain ⟨p, hexec, hpslot, hpaddr⟩ := exec_snapld htm halign hspad hlen hlow hhigh hslot hbody
    exact ⟨_, hexec, rfl, ⟨p, rfl, hpslot, hpaddr⟩, rfl, rfl⟩
  · refine ⟨s.modRun fun r => { r with snaprel := true }, ?_, fun r hr => ?_, rfl, rfl, rfl⟩
    · change execSnaprel s = _
      simp [execSnaprel, hss]
    · change s.core.front.run.map _ = _
      rw [hr]; rfl
  · change execSnaprel s = _
    simp [execSnaprel, hss]

end Sys2Proof.Machine
end

section
/-! What the answer of a walk depends on (spec 11_translation_scheduling.md R291, R293, R295; 12_hbm.md R315, R328): the page table and the root pointer, the
translations that a die keeps, the traverse and the roaming pool. Two states that agree on these walk alike. -/

namespace Sys2Proof.Machine

/-- `t` has the page table, the kept translations, the traverse and the roaming pool of `s`. -/
structure SameWalk (s t : State) : Prop where
  ptroot : t.root.ptroot = s.root.ptroot
  trav : t.trav = s.trav
  cells : t.mem.cells = s.mem.cells
  bad : t.mem.bad = s.mem.bad
  pool : t.fabric.pool = s.fabric.pool
  roamCfg : t.fabric.roamCfg = s.fabric.roamCfg
  tlb : ∀ d, (t.die d).tlb = (s.die d).tlb
  wcache : ∀ d, (t.die d).wcache = (s.die d).wcache

/-- Two operations answer alike and leave states that walk alike. -/
def Agree {α : Type} (p q : State × α) : Prop := ∃ a u v, p = (u, a) ∧ q = (v, a) ∧ SameWalk u v

theorem Agree.snd {α : Type} {p q : State × α} : Agree p q → q.2 = p.2 := by
  rintro ⟨a, u, v, rfl, rfl, -⟩; rfl

theorem Mem.bytes_congr {m k : Mem} (h : k.cells = m.cells) (pa n : Nat) : k.bytes pa n = m.bytes pa n := by
  rw [Mem.bytes, Mem.bytes, h]

theorem die_modDie_same (s : State) (d : Nat) (f : Die → Die) : (s.modDie d f).die d = f (s.die d) := tget_tmod_same (α := Die) {} s.dies d f

theorem die_modDie_ne (s : State) {d e : Nat} (f : Die → Die) (h : e ≠ d) : (s.modDie d f).die e = s.die e := tget_tmod_ne (α := Die) {} s.dies f h

namespace SameWalk

theorem refl (s : State) : SameWalk s s := ⟨rfl, rfl, rfl, rfl, rfl, rfl, fun _ => rfl, fun _ => rfl⟩

theorem symm {s t : State} (h : SameWalk s t) : SameWalk t s :=
  ⟨h.ptroot.symm, h.trav.symm, h.cells.symm, h.bad.symm, h.pool.symm, h.roamCfg.symm, fun d => (h.tlb d).symm, fun d => (h.wcache d).symm⟩

theorem trans {s t u : State} (h : SameWalk s t) (g : SameWalk t u) : SameWalk s u :=
  ⟨g.ptroot.trans h.ptroot, g.trav.trans h.trav, g.cells.trans h.cells, g.bad.trans h.bad, g.pool.trans h.pool, g.roamCfg.trans h.roamCfg,
    fun d => (g.tlb d).trans (h.tlb d), fun d => (g.wcache d).trans (h.wcache d)⟩

variable {s t : State} (h : SameWalk s t)
include h

/-- Both states change in what no walk reads. -/
theorem congr {u v : State} (hs : SameWalk s u) (ht : SameWalk t v) : SameWalk u v := hs.symm.trans (h.trans ht)

theorem agree {α : Type} (a : α) : Agree (s, a) (t, a) := ⟨a, s, t, rfl, rfl, h⟩

theorem ite {u v : State} {P : Prop} [Decidable P] (h' : SameWalk u v) : SameWalk (if P then s else u) (if P then t else v) := by
  split
  · exact h
  · exact h'

theorem modTrav (f : Trav → Trav) : SameWalk (s.modTrav f) (t.modTrav f) :=
  ⟨h.ptroot, congrArg f h.trav, h.cells, h.bad, h.pool, h.roamCfg, h.tlb, h.wcache⟩

/-- A change of a die that acts on the translations that it keeps by these alone. -/
theorem modDie (d : Nat) {f g : Die → Die}
    (hfg : ∀ x y : Die, y.tlb = x.tlb → y.wcache = x.wcache → (g y).tlb = (f x).tlb ∧ (g y).wcache = (f x).wcache) :
    SameWalk (s.modDie d f) (t.modDie d g) := by
  have hd : ∀ e, ((t.modDie d g).die e).tlb = ((s.modDie d f).die e).tlb ∧ ((t.modDie d g).die e).wcache = ((s.modDie d f).die e).wcache := by
    intro e
    by_cases he : e = d
    · subst he
      rw [die_modDie_same, die_modDie_same]
      exact hfg _ _ (h.tlb e) (h.wcache e)
    · rw [die_modDie_ne s f he, die_modDie_ne t g he]
      exact ⟨h.tlb e, h.wcache e⟩
  exact ⟨h.ptroot, h.trav, h.cells, h.bad, h.pool, h.roamCfg, fun e => (hd e).1, fun e => (hd e).2⟩

/-! ### Reads of a block -/

theorem trigger (f : Nat) : SameWalk (s.trigger f) (t.trigger f) := by
  unfold State.trigger
  dsimp only
  rw [h.trav]
  refine (h.modTrav _).ite (SameWalk.ite ?_ ((h.modTrav _).ite (h.modTrav _)))
  exact (h.modTrav _).congr ⟨rfl, rfl, rfl, rfl, rfl, rfl, fun _ => rfl, fun _ => rfl⟩ ⟨rfl, rfl, rfl, rfl, rfl, rfl, fun _ => rfl, fun _ => rfl⟩

theorem corrected (f : Nat) : SameWalk (s.corrected f) (t.corrected f) := by
  unfold State.corrected
  dsimp only
  rw [h.trav, (h.modTrav _).trav]
  exact ((h.modTrav _).trigger f).ite (h.modTrav _)

omit h in
theorem request (s : State) (pa : Nat) (b : Bool) : SameWalk s (s.request pa b) :=
  ⟨rfl, rfl, rfl, rfl, rfl, rfl, fun _ => rfl, fun _ => rfl⟩

theorem readBlock (pa : Nat) (w : Bool) : Agree (s.readBlock pa w) (t.readBlock pa w) := by
  have hreq : ∀ b, SameWalk (s.request pa b) (t.request pa b) := fun b => h.congr (request s pa b) (request t pa b)
  have hlost : ∀ b, (t.request pa b).mem.bad = (s.request pa b).mem.bad := fun _ => h.bad
  have htrav : ∀ b f, (((t.request pa b).modTrav f).trav) = (((s.request pa b).modTrav f).trav) := fun _ f => congrArg f h.trav
  unfold State.readBlock
  dsimp only
  rw [h.trav, htrav, hlost]
  split
  · generalize (((s.request pa _).modTrav _).trav.injType.toNat) = k
    have hfired := (hreq (s.trav.fires pa w && s.trav.injType == 3)).modTrav fun t => { t with injArm := false, injFired := true }
    match k with
    | 0 => exact (hfired.corrected _).agree _
    | 1 => exact hfired.agree _
    | 2 => exact hfired.agree _
    | _ + 3 => exact hfired.agree _
  · exact (hreq _).agree _

/-! ### Entries of the page table -/

theorem countParity (d : Nat) : SameWalk (s.countParity d) (t.countParity d) := h.modDie d fun _ _ htlb hwcache => ⟨htlb, hwcache⟩

theorem readPteOnce (pa l : Nat) : Agree (s.readPteOnce pa l) (t.readPteOnce pa l) := by
  obtain ⟨e, u, v, hs, ht, huv⟩ := h.readBlock pa true
  unfold State.readPteOnce
  dsimp only
  rw [hs, ht]
  dsimp only
  rw [Mem.bytes_congr huv.cells]
  exact huv.agree _

theorem readCritical (d pa l : Nat) (a : Option Pte) : Agree (s.readCritical d pa l a) (t.readCritical d pa l a) := by
  have htwice : ∀ {u v : State}, SameWalk u v → ∀ c e : Option (Option Pte), Agree
      (match c, e with
        | some (some x), some (some y) => if x = y then (u.countParity d, PteRead.entry x) else (u, .integrity)
        | _, _ => (u, .integrity))
      (match c, e with
        | some (some x), some (some y) => if x = y then (v.countParity d, PteRead.entry x) else (v, .integrity)
        | _, _ => (v, .integrity)) := by
    intro u v huv c e
    rcases c with - | - | x
    · exact huv.agree _
    · exact huv.agree _
    · rcases e with - | - | y
      · exact huv.agree _
      · exact huv.agree _
      · dsimp only
        split
        · exact (huv.countParity d).agree _
        · exact huv.agree _
  obtain ⟨b, s1, t1, hs, ht, h1⟩ := h.readPteOnce pa l
  obtain ⟨c, s2, t2, hs2, ht2, h2⟩ := h1.readPteOnce pa l
  obtain ⟨e, s3, t3, hs3, ht3, h3⟩ := h2.readPteOnce pa l
  unfold State.readCritical
  rw [hs, ht]
  dsimp only
  rw [hs2, ht2]
  dsimp only
  rw [hs3, ht3]
  rcases b with - | - | y
  · cases a <;> exact h1.agree _
  · cases a <;> exact htwice h3 c e
  · cases a with
    | none => exact htwice h3 c e
    | some x =>
      dsimp only
      split
      · exact h1.agree _
      · exact h1.agree _

theorem readPte (d pa l : Nat) : Agree (s.readPte d pa l) (t.readPte d pa l) := by
  obtain ⟨a, s1, t1, hs, ht, h1⟩ := h.readPteOnce pa l
  obtain ⟨b, s2, t2, hs2, ht2, h2⟩ := (h1.countParity d).readPteOnce pa l
  unfold State.readPte
  rw [h.trav, hs, ht, Mem.bytes_congr h.cells]
  dsimp only
  split
  · exact h.agree _
  · cases a with
    | none => exact h1.agree _
    | some p =>
      dsimp only
      split
      · exact h1.readCritical d pa l p
      · cases p with
        | some e => exact h1.agree _
        | none =>
          dsimp only
          rw [hs2, ht2]
          exact h2.agree _

/-! ### The walk -/

theorem keep (d : Nat) (w : WalkEntry) : SameWalk (s.modDie d fun x => x.keep w) (t.modDie d fun x => x.keep w) := by
  refine h.modDie d fun x y htlb hwcache => ?_
  unfold Die.keep
  split
  · exact ⟨htlb, by dsimp only; rw [hwcache]⟩
  · exact ⟨htlb, hwcache⟩

omit h in
theorem die_cached? {x y : Die} (hw : y.wcache = x.wcache) (c l off : Nat) : y.cached? c l off = x.cached? c l off := by
  rw [Die.cached?, Die.cached?, hw]

theorem walkEntry (d c pa l off : Nat) : Agree (s.walkEntry d c pa l off) (t.walkEntry d c pa l off) := by
  have hload : ∀ {u v : State}, SameWalk u v → Agree
      (match u.readPte d pa l with
        | (s, .entry e) => (s.modDie d fun x => x.keep { ctrl := c, level := l, tag := walkTag l off, pte := e }, PteRead.entry e)
        | r => r)
      (match v.readPte d pa l with
        | (s, .entry e) => (s.modDie d fun x => x.keep { ctrl := c, level := l, tag := walkTag l off, pte := e }, PteRead.entry e)
        | r => r) := by
    intro u v huv
    obtain ⟨e, u1, v1, hu, hv, h1⟩ := huv.readPte d pa l
    rw [hu, hv]
    cases e with
    | entry e => exact (h1.keep d _).agree _
    | _ => exact h1.agree _
  unfold State.walkEntry
  dsimp only
  rw [die_cached? (h.wcache d)]
  cases (s.die d).cached? c l off with
  | none => exact hload h
  | some w =>
    dsimp only
    split
    · exact h.agree _
    · refine hload ((h.countParity d).modDie d fun x y htlb hwcache => ⟨htlb, ?_⟩)
      dsimp only
      rw [hwcache]

theorem walkTable (d c off : Nat) : Agree (s.walkTable d c off) (t.walkTable d c off) := by
  unfold State.walkTable
  dsimp only
  rw [h.ptroot]
  split
  · exact h.agree _
  obtain ⟨r2, s2, t2, hs2, ht2, h2⟩ := h.walkEntry d c (fld s.root.ptroot.toNat 20 28 * 2 ^ 20 + 16 * fld off 34 16) 2 off
  rw [hs2, ht2]
  rcases r2 with p2 | - | -
  · dsimp only
    split
    · exact h2.agree _
    obtain ⟨r1, s1, t1, hs1, ht1, h1⟩ := h2.walkEntry d c (p2.pa + 16 * fld off 25 9) 1 off
    rw [hs1, ht1]
    rcases r1 with p1 | - | -
    · dsimp only
      split
      · exact h1.agree _
      split
      · split
        · exact h1.agree _
        · exact h1.agree _
      obtain ⟨r0, s0, t0, hs0, ht0, h0⟩ := h1.readPte d (p1.pa + 16 * fld off 16 9) 0
      rw [hs0, ht0]
      rcases r0 with p0 | - | -
      · dsimp only
        split
        · exact h0.agree _
        · split
          · exact h0.agree _
          · exact h0.agree _
      · exact h0.agree _
      · exact h0.agree _
    · exact h1.agree _
    · exact h1.agree _
  · exact h2.agree _
  · exact h2.agree _

theorem served (w : Walk) : t.served w = s.served w := by
  unfold State.served
  rw [h.trav]

theorem walkMiss (d c off : Nat) : Agree (s.walkMiss d c off) (t.walkMiss d c off) := by
  obtain ⟨⟨w, big⟩, s1, t1, hs, ht, h1⟩ := h.walkTable d c off
  unfold State.walkMiss
  rw [hs, ht]
  cases w with
  | page pa m =>
    dsimp only
    rw [h1.served]
    refine SameWalk.agree (h1.modDie d ?_) _
    exact fun x y htlb hwcache => ⟨by dsimp only; rw [htlb], hwcache⟩
  | _ => exact h1.agree _

theorem walk (d ia : Nat) : Agree (s.walk d ia) (t.walk d ia) := by
  have hpool : t.poolFrame? ia = s.poolFrame? ia := by rw [State.poolFrame?, State.poolFrame?, h.pool]
  have htrans : ∀ off, (t.die d).translator off = (s.die d).translator off := fun off => by
    simp only [Die.translator, die_cached? (h.wcache d)]
  unfold State.walk
  dsimp only
  rw [hpool, htrans, h.tlb d, h.roamCfg]
  cases s.poolFrame? ia with
  | some f => dsimp only; rw [h.served]; exact h.agree _
  | none =>
    dsimp only
    cases (s.die d).tlb.find? fun e => e.hits ((s.die d).translator (offOf ia)) (offOf ia) with
    | none => exact h.walkMiss d _ _
    | some e =>
      dsimp only
      split
      · rw [h.served]; exact h.agree _
      · refine SameWalk.walkMiss ((h.countParity d).modDie d ?_) d _ _
        exact fun x y htlb hwcache => ⟨by dsimp only; rw [htlb], hwcache⟩

/-- States that walk alike find a variable of this device at the same place. -/
theorem peekPa? (hid : t.coreId = s.coreId) (ia : Nat) : t.peekPa? ia = s.peekPa? ia := by
  unfold State.peekPa?
  rw [State.myDie, State.myDie, hid, (h.walk (dieOf s.coreId) ia).snd]

theorem syncDie (pa : Nat) : t.syncDie pa = s.syncDie pa := by
  rw [State.syncDie, State.syncDie, State.stackOf, State.stackOf, h.trav]

end SameWalk

end Sys2Proof.Machine
end

section
/-! Quiet memory (spec 10_memory_model.md R264, R270 to R272, R276): with no record in any log, nothing that synchronises waits or races, and what it does
is bookkeeping. -/

namespace Sys2Proof.Machine

/-! ### Sending leaves the roaming pool -/

/-- The roaming pool of the fabric is as before (R367). -/
def SamePool (s t : State) : Prop := t.fabric.pool = s.fabric.pool ∧ t.fabric.roamCfg = s.fabric.roamCfg

namespace SamePool

theorem refl (s : State) : SamePool s s := ⟨rfl, rfl⟩

theorem trans {s t u : State} (h : SamePool s t) (g : SamePool t u) : SamePool s u := ⟨g.1.trans h.1, g.2.trans h.2⟩

theorem ite_of_step {s t u : State} {P : Prop} [Decidable P] (ht : SamePool s t) (hu : SamePool t u) : SamePool s (if P then u else t) := by
  split
  · exact ht.trans hu
  · exact ht

theorem putFrame (s : State) (k d : Nat) (w : Wire) : SamePool s (s.putFrame k d w) := by
  unfold State.putFrame
  split
  · exact ⟨rfl, rfl⟩
  · have hkey : SamePool s (if s.keyed d = true ∧ 2 ^ 32 ≤ (s.peer d).txFrames + 1 then s.newKey d else s) :=
      ite_of_step (refl s) ⟨rfl, rfl⟩
    exact hkey.trans ⟨rfl, rfl⟩

theorem putOn (s : State) (b : Bool) (w : Wire) : SamePool s (s.putOn b w) := by
  unfold State.putOn
  dsimp only
  split
  · refine SamePool.trans ?_ (putFrame _ _ _ _)
    exact ite_of_step (refl s) ⟨rfl, rfl⟩
  · exact ⟨rfl, rfl⟩

theorem putFrames (s : State) (d : Nat) (x : OutMsg) (b : Bool) (n : Nat) : SamePool s (s.putFrames d x b n) := by
  induction n generalizing s with
  | zero => exact refl s
  | succ n ih =>
    refine SamePool.trans (SamePool.trans ?_ (putOn _ _ _)) (ih _)
    exact ⟨rfl, rfl⟩

theorem sendReq (s : State) (d a : Nat) (inc : BitVec 16) (op : ReqOp) : SamePool s (s.sendReq d a inc op) := by
  refine SamePool.trans (t := s.noteAccess a) ?_ (putFrames _ _ _ _ _)
  unfold State.noteAccess
  exact ite_of_step (refl s) ⟨rfl, rfl⟩

end SamePool

/-- Sending changes nothing that a walk reads. -/
theorem SentOnly.sameWalk {s t : State} : State.SentOnly s t → SamePool s t → SameWalk s t := by
  rintro ⟨f, o, rfl⟩ ⟨hpool, hcfg⟩
  exact ⟨rfl, rfl, rfl, rfl, hpool, hcfg, fun _ => rfl, fun _ => rfl⟩

theorem sendReq_sent (s : State) (d a : Nat) (inc : BitVec 16) (op : ReqOp) : State.SentOnly s (s.sendReq d a inc op) := by
  refine State.SentOnly.trans (t := s.noteAccess a) ?_ (State.postAs_sent _ _ _ _)
  unfold State.noteAccess
  split
  · exact State.modFabric_sent s _
  · exact State.SentOnly.refl s

/-! ### Compaction without records (R276) -/

theorem Mem.compactible_of_nil {m : Mem} (h : m.recs = []) (p : Rec → Nat → Bool) : m.compactible p = [] := by
  rw [Mem.compactible, Mem.released, h]; rfl

namespace State

variable {s : State} (hrecs : s.mem.recs = [])
include hrecs

theorem compact_of_nil (p : Rec → Nat → Bool) : s.compact p = (s, 0) := by
  rw [State.compact, Mem.compactible_of_nil hrecs]; rfl

theorem forceDie_of_nil (d st : Nat) : s.forceDie d st = (s, true) := by
  simp [State.forceDie, State.compactDie, compact_of_nil hrecs, hrecs]

theorem compactAt_of_nil (ia n : Nat) : s.compactAt ia n = (s, true) := by
  simp [State.compactAt, compact_of_nil hrecs, hrecs]

end State

/-! ### Room at a sync home (R270) -/

/-- `t` is `s` with the same core, memory and translations, and with no more sources at any sync home. -/
structure RoomMade (s t : State) : Prop where
  core : t.core = s.core
  coreId : t.coreId = s.coreId
  mem : t.mem = s.mem
  walk : SameWalk s t
  sources : ∀ d ia, t.sourcesOf d ia ⊆ s.sourcesOf d ia

namespace RoomMade

theorem refl (s : State) : RoomMade s s := ⟨rfl, rfl, rfl, SameWalk.refl s, fun _ _ => List.Subset.refl _⟩

theorem trans {s t u : State} (h : RoomMade s t) (g : RoomMade t u) : RoomMade s u :=
  ⟨g.core.trans h.core, g.coreId.trans h.coreId, g.mem.trans h.mem, h.walk.trans g.walk,
    fun d ia => List.Subset.trans (g.sources d ia) (h.sources d ia)⟩

theorem of_sent {s t : State} (hsent : State.SentOnly s t) (hpool : SamePool s t) : RoomMade s t := by
  have hwalk := SentOnly.sameWalk hsent hpool
  obtain ⟨f, o, rfl⟩ := hsent
  exact ⟨rfl, rfl, rfl, hwalk, fun _ _ => List.Subset.refl _⟩

theorem forceDevice (s : State) (d ia : Nat) : RoomMade s (s.forceDevice d ia).1 := by
  unfold State.forceDevice
  split
  · split
    · dsimp only
      exact of_sent (State.modFabric_sent s _) ⟨rfl, rfl⟩
    · exact refl s
  · exact of_sent ((State.modFabric_sent s _).trans (sendReq_sent _ _ _ _ _)) (SamePool.trans ⟨rfl, rfl⟩ (SamePool.sendReq _ _ _ _ _))
  · exact refl s
  · exact refl s
  · exact refl s

theorem forceSource {s : State} (hrecs : s.mem.recs = []) (ia src st : Nat) : RoomMade s (s.forceSource ia src st).1 := by
  unfold State.forceSource
  split
  · rw [State.forceDie_of_nil hrecs]; exact refl s
  · exact forceDevice s _ ia

theorem forceAll {s : State} (hrecs : s.mem.recs = []) (ia : Nat) (l : List (Nat × Nat)) : RoomMade s (s.forceAll ia l).1 := by
  induction l generalizing s with
  | nil => exact refl s
  | cons a l ih =>
    have hfirst := forceSource hrecs ia a.1 a.2
    exact hfirst.trans (ih (hfirst.mem ▸ hrecs))

/-- The variables of a sync home change so that none has a source that it had not. -/
theorem modDie_sync (s : State) (d : Nat) (f : List SyncVar → List SyncVar)
    (hf : ∀ l ia, (((f l).find? fun v => v.ia == ia).map SyncVar.sources).getD [] ⊆ ((l.find? fun v => v.ia == ia).map SyncVar.sources).getD []) :
    RoomMade s (s.modDie d fun x => { x with sync := f x.sync }) := by
  have hsources : ∀ (t : State) e ia, t.sourcesOf e ia = (((t.die e).sync.find? fun v => v.ia == ia).map SyncVar.sources).getD [] := by
    intro t e ia
    unfold State.sourcesOf
    cases (t.die e).sync.find? fun v => v.ia == ia <;> rfl
  have hdie : ∀ e, ((s.modDie d fun x => { x with sync := f x.sync }).die e) = if e = d then { s.die e with sync := f (s.die e).sync } else s.die e := by
    intro e
    split
    · rename_i he; rw [he, die_modDie_same]
    · rename_i he; rw [die_modDie_ne s _ he]
  refine ⟨rfl, rfl, rfl, ⟨rfl, rfl, rfl, rfl, rfl, rfl, fun e => ?_, fun e => ?_⟩, fun e ia => ?_⟩
  · rw [hdie]; split <;> rfl
  · rw [hdie]; split <;> rfl
  · rw [hsources, hsources, hdie]
    split
    · exact hf _ ia
    · exact List.Subset.refl _

/-- Dropping a source of a variable. -/
theorem find?_eraseSource (l : List SyncVar) (a k ia : Nat) :
    (((modFirst (fun v => v.ia == a) (fun v => { v with sources := terase v.sources k }) l).find? fun v => v.ia == ia).map SyncVar.sources).getD [] ⊆
      ((l.find? fun v => v.ia == ia).map SyncVar.sources).getD [] := by
  induction l with
  | nil => exact List.Subset.refl _
  | cons v l ih =>
    rw [modFirst]
    cases hv : v.ia == ia with
    | true =>
      split
      · simp only [List.find?_cons, hv]
        exact List.filter_subset_self _
      · simp only [List.find?_cons, hv]
        exact List.Subset.refl _
    | false =>
      split
      · simp only [List.find?_cons, hv]
        exact List.Subset.refl _
      · simp only [List.find?_cons, hv]
        exact ih

/-- Dropping a variable. -/
theorem find?_dropVar (l : List SyncVar) (a ia : Nat) :
    (((l.filter fun w => w.ia != a).find? fun v => v.ia == ia).map SyncVar.sources).getD [] ⊆
      ((l.find? fun v => v.ia == ia).map SyncVar.sources).getD [] := by
  induction l with
  | nil => exact List.Subset.refl _
  | cons v l ih =>
    by_cases ha : v.ia = a
    · rw [List.filter_cons_of_neg (by simp [ha])]
      by_cases hv : v.ia = ia
      · have hnone : (l.filter fun w => w.ia != a).find? (fun v => v.ia == ia) = none := by
          rw [List.find?_eq_none]
          intro w hw
          simpa [← hv, ha] using (List.mem_filter.mp hw).2
        rw [hnone]
        exact List.nil_subset _
      · rw [List.find?_cons_of_neg (by simpa using hv)]
        exact ih
    · rw [List.filter_cons_of_pos (by simpa using ha)]
      by_cases hv : v.ia = ia
      · rw [List.find?_cons_of_pos (by simpa using hv), List.find?_cons_of_pos (by simpa using hv)]
        exact List.Subset.refl _
      · rw [List.find?_cons_of_neg (by simpa using hv), List.find?_cons_of_neg (by simpa using hv)]
        exact ih

theorem sourceRoom {s : State} (hrecs : s.mem.recs = []) (d ia src : Nat) : RoomMade s (s.sourceRoom d ia src).1 := by
  unfold State.sourceRoom
  split
  · exact refl s
  · split
    · rename_i k st rest _
      have hforce := forceSource hrecs ia k st
      split
      · exact refl s
      · split <;> rename_i hq <;> rw [hq] at hforce
        · exact hforce.trans (modDie_sync _ d _ fun l => find?_eraseSource l ia k)
        · exact hforce
    · exact refl s

theorem dropVar {s : State} (hrecs : s.mem.recs = []) (d : Nat) (l : List SyncVar) : RoomMade s (s.dropVar d l).1 := by
  induction l generalizing s with
  | nil => exact refl s
  | cons v l ih =>
    have hforce := forceAll hrecs v.ia v.sources
    unfold State.dropVar
    split <;> rename_i hq <;> rw [hq] at hforce
    · exact hforce.trans (modDie_sync _ d _ fun l => find?_dropVar l v.ia)
    · exact hforce.trans (ih (hforce.mem ▸ hrecs))

theorem publishRoom {s : State} (hrecs : s.mem.recs = []) (ia src : Nat) : RoomMade s (s.publishRoom ia src).1 := by
  unfold State.publishRoom
  split
  · exact refl s
  · unfold State.syncRoom
    split_ifs
    · exact sourceRoom hrecs _ _ _
    · exact refl s
    · exact dropVar hrecs _ _

end RoomMade

/-! ### The sources of a variable -/

namespace State

theorem varSources_subset {s t : State} (hwalk : SameWalk s t) (hid : t.coreId = s.coreId)
    (hsources : ∀ d ia, t.sourcesOf d ia ⊆ s.sourcesOf d ia) (ia : Nat) : t.varSources ia ⊆ s.varSources ia := by
  unfold State.varSources
  rw [hwalk.peekPa? hid]
  cases s.peekPa? (varOf ia) with
  | none => exact List.Subset.refl _
  | some pa => dsimp only; rw [hwalk.syncDie]; exact hsources _ _

theorem mem_tset {α : Type} {t : Tab α} {n : Nat} {v : α} {e : Nat × α} (h : e ∈ tset t n v) : e = (n, v) ∨ e ∈ t := by
  rcases (mem_tins _ n v e).mp h with h | h
  · exact .inl h
  · exact .inr (List.mem_of_mem_filter h)

theorem mem_find?_modFirst {l : List SyncVar} {ia src st : Nat} {kv : Nat × Nat}
    (h : kv ∈ (((modFirst (fun v => v.ia == ia) (fun v => { v with sources := tset v.sources src st }) l).find? fun v => v.ia == ia).map SyncVar.sources).getD []) :
    kv = (src, st) ∨ kv ∈ ((l.find? fun v => v.ia == ia).map SyncVar.sources).getD [] := by
  induction l with
  | nil => exact .inr h
  | cons v l ih =>
    rw [modFirst] at h
    cases hv : v.ia == ia with
    | true =>
      simp only [List.find?_cons, hv, if_true, Option.map_some, Option.getD_some] at h ⊢
      exact mem_tset h
    | false =>
      simp only [List.find?_cons, hv, Bool.false_eq_true, if_false] at h ⊢
      exact ih h

theorem latest_walk (s : State) (d ia src st : Nat) : SameWalk s (s.latest d ia src st) := by
  have hdie : ∀ e, ((s.latest d ia src st).die e).tlb = (s.die e).tlb ∧ ((s.latest d ia src st).die e).wcache = (s.die e).wcache := by
    intro e
    unfold State.latest
    by_cases he : e = d
    · subst he
      rw [die_modDie_same]
      split <;> exact ⟨rfl, rfl⟩
    · rw [die_modDie_ne s _ he]; exact ⟨rfl, rfl⟩
  exact ⟨rfl, rfl, rfl, rfl, rfl, rfl, fun e => (hdie e).1, fun e => (hdie e).2⟩

theorem publish_walk (s : State) (ia src st : Nat) : SameWalk s (s.publish ia src st) := by
  unfold State.publish
  split
  · exact SameWalk.refl s
  · exact latest_walk _ _ _ _ _

theorem publish_frame (s : State) (ia src st : Nat) :
    (s.publish ia src st).core = s.core ∧ (s.publish ia src st).coreId = s.coreId ∧ (s.publish ia src st).mem = s.mem := by
  unfold State.publish
  split <;> exact ⟨rfl, rfl, rfl⟩

theorem mem_sourcesOf_latest {s : State} {d ia src st : Nat} {kv : Nat × Nat} (h : kv ∈ (s.latest d ia src st).sourcesOf d ia) :
    kv = (src, st) ∨ kv ∈ s.sourcesOf d ia := by
  have hsources : ∀ (t : State), t.sourcesOf d ia = (((t.die d).sync.find? fun v => v.ia == ia).map SyncVar.sources).getD [] := by
    intro t
    unfold State.sourcesOf
    cases (t.die d).sync.find? fun v => v.ia == ia <;> rfl
  rw [hsources] at h ⊢
  unfold State.latest at h
  rw [die_modDie_same] at h
  split at h
  · exact mem_find?_modFirst h
  · rename_i hnone
    have hfind : (s.die d).sync.find? (fun v => v.ia == ia) = none := by simpa using hnone
    simpa [List.find?_append, hfind] using h

/-- A release adds its own source to the variable's at most. -/
theorem mem_varSources_publish {s : State} {ia src st : Nat} {kv : Nat × Nat} (h : kv ∈ (s.publish ia src st).varSources ia) :
    kv = (src, st) ∨ kv ∈ s.varSources ia := by
  unfold State.varSources at h ⊢
  rw [(publish_walk s ia src st).peekPa? (publish_frame s ia src st).2.1] at h
  cases hp : s.peekPa? (varOf ia) with
  | none => rw [hp] at h; simp at h
  | some pa =>
    rw [hp] at h
    dsimp only at h ⊢
    rw [(publish_walk s ia src st).syncDie] at h
    unfold State.publish at h
    rw [hp] at h
    exact mem_sourcesOf_latest h

end State

end Sys2Proof.Machine
end

section
/-! AMO and CAS (spec 01_task.md R28; 10_memory_model.md R264, R281): the tests at issue, what quiet memory lets through, and the home atomic unit. -/

namespace Sys2Proof.Machine

/-! ### Bookkeeping -/

/-- `t` is `s` but for bookkeeping: the registers, the results in flight, the bundle, scratchpad and every byte at home are as before. -/
structure Quiet (s t : State) : Prop where
  regs : t.core.regs = s.core.regs
  flight : t.core.flight = s.core.flight
  front : t.core.front = s.core.front
  spad : t.core.spad = s.core.spad
  released : t.core.released = s.core.released
  cells : t.mem.cells = s.mem.cells
  stamps : t.mem.stamps = s.mem.stamps
  recs : t.mem.recs = s.mem.recs
  clock : s.mem.clock ≤ t.mem.clock
  bad : t.mem.bad ⊆ s.mem.bad

namespace Quiet

theorem of_core_mem {s t : State} (hcore : t.core = s.core) (hmem : t.mem = s.mem) : Quiet s t := by
  refine ⟨?_, ?_, ?_, ?_, ?_, ?_, ?_, ?_, ?_, ?_⟩ <;> simp [hcore, hmem]

theorem refl (s : State) : Quiet s s := of_core_mem rfl rfl

theorem trans {s t u : State} (h : Quiet s t) (g : Quiet t u) : Quiet s u :=
  ⟨g.regs.trans h.regs, g.flight.trans h.flight, g.front.trans h.front, g.spad.trans h.spad, g.released.trans h.released,
    g.cells.trans h.cells, g.stamps.trans h.stamps, g.recs.trans h.recs, h.clock.trans g.clock, List.Subset.trans g.bad h.bad⟩

theorem takeStamp (s : State) : Quiet s s.takeStamp.1 :=
  ⟨rfl, rfl, rfl, rfl, rfl, rfl, rfl, rfl, Nat.le_succ _, List.Subset.refl _⟩

theorem modTask (s : State) (f : Bound → Bound) : Quiet s (s.modTask f) :=
  ⟨rfl, rfl, rfl, rfl, rfl, rfl, rfl, rfl, Nat.le_refl _, List.Subset.refl _⟩

theorem freshen (s : State) : Quiet s s.freshen := (takeStamp s).trans (modTask _ _)

theorem walk (s : State) (d ia : Nat) : Quiet s (s.walk d ia).1 := of_core_mem (State.walk_core s d ia) (State.walk_mem s d ia)

theorem touch (s : State) (ia pa : Nat) : Quiet s (s.touch ia pa).1 := by
  have hread : Quiet s (s.readBlock pa false).1 := of_core_mem (State.readBlock_core s pa false) (State.readBlock_mem s pa false)
  unfold State.touch
  dsimp only
  split
  · split
    · split
      · exact hread.trans ⟨rfl, rfl, rfl, rfl, rfl, rfl, rfl, rfl, Nat.le_refl _, List.filter_subset_self _⟩
      · exact hread
    · exact hread
  · exact hread

theorem touchRange (s : State) (ia pa n : Nat) : Quiet s (s.touchRange ia pa n).1 := by
  induction n with
  | zero => exact touch s ia pa
  | succ n ih => exact ih.trans (touch _ _ _)

theorem homeRead (s : State) (ia pa n : Nat) : Quiet s (s.homeRead ia pa n).1 := touchRange s ia pa _

/-- What reads at home meets, and what a walk and a read at home leave. -/
theorem of_walk_homeRead {s u v : State} {d ia pa n : Nat} {w : Walk} {bs : Option (List Byte)} (hwalk : s.walk d ia = (u, w))
    (hread : u.homeRead ia pa n = (v, bs)) : Quiet s v := by
  have h1 := walk s d ia
  have h2 := homeRead u ia pa n
  rw [hwalk] at h1
  rw [hread] at h2
  exact h1.trans h2

end Quiet

/-! ### A release and an acquire in quiet memory (R271, R272) -/

namespace State

/-- With no record, a release takes its stamp and passes. -/
theorem releasePart_of_nil {s : State} (hrecs : s.mem.recs = []) :
    s.releasePart = ((s.takeStamp).1.release s.mem.clock, s.mem.clock, none) := by
  have hwords : wordsOf (s.mem.recs.filter s.covers) = [] := by rw [hrecs]; rfl
  have hconf : s.conflicts [] = [] := rfl
  unfold State.releasePart
  dsimp only
  rw [hwords, hconf]
  rfl

theorem release_quiet {s : State} (hrecs : s.mem.recs = []) (st : Nat) : Quiet s (s.release st) := by
  refine ⟨rfl, rfl, rfl, rfl, rfl, rfl, rfl, ?_, Nat.le_refl _, List.Subset.refl _⟩
  change s.mem.recs.map _ = s.mem.recs
  rw [hrecs]; rfl

theorem publish_quiet (s : State) (ia src st : Nat) : Quiet s (s.publish ia src st) :=
  Quiet.of_core_mem (publish_frame s ia src st).1 (publish_frame s ia src st).2.2

theorem acquireFrom_of_quiet {s : State} (hrecs : s.mem.recs = []) (ia src st : Nat) (hsrc : src < 4) :
    ∃ t, s.acquireFrom ia false src st = (t, .done) ∧ Quiet s t := by
  have hconf : ∀ lo hi, s.markConflicts (s.mem.releasedIn src lo hi) = [] := fun lo hi => by
    rw [Mem.releasedIn, hrecs]; rfl
  unfold State.acquireFrom
  dsimp only
  rw [hconf]
  dsimp only
  split
  · exact ⟨_, rfl, Quiet.modTask _ _⟩
  · rw [State.forceSource, if_pos hsrc, forceDie_of_nil hrecs]
    exact ⟨_, rfl, Quiet.freshen s⟩

theorem acquireAll_of_quiet {s : State} (hrecs : s.mem.recs = []) (ia : Nat) (l : List (Nat × Nat)) (hl : ∀ kv ∈ l, kv.1 < 4) :
    ∃ t, s.acquireAll ia false l = (t, .done) ∧ Quiet s t := by
  induction l generalizing s with
  | nil => exact ⟨s, rfl, Quiet.refl s⟩
  | cons a l ih =>
    obtain ⟨ha, hl⟩ := List.forall_mem_cons.mp hl
    obtain ⟨t, hfrom, hq⟩ := acquireFrom_of_quiet hrecs ia a.1 a.2 ha
    obtain ⟨u, hall, hq'⟩ := ih (hq.recs.trans hrecs) hl
    refine ⟨u, ?_, hq.trans hq'⟩
    rw [State.acquireAll, hfrom]
    exact hall

/-- With no record, an acquire from dies passes. -/
theorem acquirePart_of_quiet {s : State} (hrecs : s.mem.recs = []) (ia : Nat) (sources : Tab Nat) (eager : Bool)
    (hsources : ∀ kv ∈ sources, kv.1 < 4) : ∃ t, s.acquirePart ia false sources eager = (t, .done) ∧ Quiet s t := by
  obtain ⟨t, hall, hq⟩ := acquireAll_of_quiet hrecs ia ((sources.filter fun kv => kv.1 == s.myDie) ++ sources.filter fun kv => kv.1 != s.myDie)
    fun kv hkv => (List.mem_append.mp hkv).elim (fun h => hsources kv (List.mem_of_mem_filter h)) fun h => hsources kv (List.mem_of_mem_filter h)
  unfold State.acquirePart
  rw [hall]
  refine ⟨_, rfl, hq.trans ?_⟩
  split
  · exact (Quiet.freshen t).trans (Quiet.modTask _ _)
  · exact Quiet.modTask _ _

/-- A read-modify-write that finds nothing to wait for passes, and up to its operation does bookkeeping only. -/
theorem rmwPasses_of_ready {v : State} {ia : Nat} (h : RmwReady v ia) (pa n : Nat) (f : Word → Option Word) (eager : Bool) :
    ∃ y, Quiet v y ∧ RmwPasses v ia pa n f eager true (y.atomicAt ia pa n f).1 (y.atomicAt ia pa n f).2 := by
  obtain ⟨⟨hrecs, hid, hsources⟩, hreleased, hwait, hroom⟩ := h
  have hp := RoomMade.publishRoom hrecs ia v.myDie
  generalize hpr : v.publishRoom ia v.myDie = pr at hroom hp
  obtain ⟨p, ok⟩ := pr
  obtain rfl : ok = true := hroom
  have hprecs : p.mem.recs = [] := hp.mem ▸ hrecs
  have hvp : Quiet v p := Quiet.of_core_mem hp.core hp.mem
  have hpw : Quiet p (p.takeStamp.1.release p.mem.clock) := (Quiet.takeStamp p).trans (release_quiet (s := p.takeStamp.1) hprecs _)
  generalize hw : p.takeStamp.1.release p.mem.clock = w at hpw
  have hpwalk : SameWalk p w := by
    subst hw; exact ⟨rfl, rfl, rfl, rfl, rfl, rfl, fun _ => rfl, fun _ => rfl⟩
  have hwid : w.coreId = v.coreId := by subst hw; exact hp.coreId
  have hwsources : ∀ d ia, w.sourcesOf d ia ⊆ p.sourcesOf d ia := fun d ia => by subst hw; exact List.Subset.refl _
  have hwq := publish_quiet w ia w.myDie p.mem.clock
  generalize hq : w.publish ia w.myDie p.mem.clock = q at hwq
  have hqwalk : SameWalk w q := hq ▸ publish_walk w ia w.myDie p.mem.clock
  have hqid : q.coreId = w.coreId := hq ▸ (publish_frame w ia w.myDie p.mem.clock).2.1
  have hqr : Quiet q (q.modCore fun c => { c with released := none }) :=
    ⟨rfl, rfl, rfl, rfl, ((hwq.released.trans hpw.released).trans (hvp.released.trans hreleased)).symm, rfl, rfl, rfl, Nat.le_refl _, List.Subset.refl _⟩
  have hqrecs : q.mem.recs = [] := hwq.recs.trans (hpw.recs.trans hprecs)
  have hdie : w.myDie < 4 := by
    rw [State.myDie, dieOf, hwid]; omega
  have hrsources : ∀ kv ∈ (q.modCore fun c => { c with released := none }).varSources ia, kv.1 < 4 := by
    intro kv hkv
    have hkv : kv ∈ q.varSources ia :=
      varSources_subset (s := q) (t := q.modCore _) ⟨rfl, rfl, rfl, rfl, rfl, rfl, fun _ => rfl, fun _ => rfl⟩ rfl (fun _ _ => List.Subset.refl _) ia hkv
    rw [← hq] at hkv
    rcases mem_varSources_publish hkv with rfl | hkv
    · exact hdie
    · exact hsources kv (varSources_subset (hp.walk.trans hpwalk) hwid (fun d ia => List.Subset.trans (hwsources d ia) (hp.sources d ia)) ia hkv)
  obtain ⟨y, hacq, hry⟩ := acquirePart_of_quiet (s := q.modCore fun c => { c with released := none }) hqrecs (varOf ia) _ eager hrsources
  have hyrecs : y.mem.recs = [] := hry.recs.trans hqrecs
  refine ⟨y, ((hvp.trans hpw).trans hwq).trans (hqr.trans hry), p, w, p.mem.clock, q, y, y, hreleased, hwait, hpr, ?_, ?_, hacq,
    compactAt_of_nil hyrecs ia n, rfl⟩
  · rw [releasePart_of_nil hprecs, hw]
  · dsimp only
    rw [hq]
    split
    · exact forceDie_of_nil hqrecs _ _
    · rfl

/-! ### The home atomic unit (R264, R281) -/

/-- The 32-byte block of an aligned word is the only one that the word covers in part. -/
theorem eq_of_mem_partBlocks {pa n b : Nat} (hn : n = 4 ∨ n = 8) (halign : pa % n = 0) (hb : b ∈ partBlocks pa n) : b = pa / 32 := by
  rcases List.mem_append.mp hb with h | h <;> split at h
  · exact List.mem_singleton.mp h
  · cases h
  · rw [List.mem_singleton.mp h]
    rcases hn with rfl | rfl <;> omega
  · cases h

theorem homePut_byte_other (s : State) (ia pa : Nat) (bs : List Byte) (st : Nat) {x : Nat} (hx : x < pa ∨ pa + bs.length ≤ x) :
    (s.homePut ia pa bs st).1.homeByte x = s.homeByte x := by
  unfold State.homePut
  dsimp only
  split_ifs
  · rfl
  · change cget ((s.openImage ia pa).mem.putBytes st pa bs).cells x = _
    rw [putBytes_other _ _ _ _ hx, openImage_mem]
    rfl

/-- A write whose stamp is not below those of its bytes, and that meets no uncorrectable word, leaves its bytes at home (R276, R322). -/
theorem homePut_bytes {s : State} {ia pa st : Nat} {bs : List Byte} (hbad : ∀ b ∈ s.mem.bad, b ∉ partBlocks pa bs.length)
    (hstamps : ∀ i, i < bs.length → tget 0 s.mem.stamps (pa + i) ≤ st) : (s.homePut ia pa bs st).1.mem.bytes pa bs.length = bs := by
  have hlost : (s.mem.bad.any fun b => (partBlocks pa bs.length).contains b) = false := by simpa using hbad
  unfold State.homePut
  dsimp only
  rw [hlost, Bool.false_and, if_neg Bool.false_ne_true]
  refine List.ext_getElem (by simp [Mem.bytes]) fun i hi hi' => ?_
  have hbyte : cget ((s.openImage ia pa).mem.putBytes st pa bs).cells (pa + i) = bs.getD (pa + i - pa) 0 :=
    putBytes_same _ _ _ _ (by rw [openImage_mem]; exact hstamps) (by omega) (by omega)
  simp only [Mem.bytes, List.getElem_map, List.getElem_range]
  refine hbyte.trans ?_
  rw [show pa + i - pa = i by omega, List.getD_eq_getElem _ _ hi']

theorem atomicWrite_mem (s : State) (ia pa : Nat) (bs : List Byte) (st : Nat) : (s.atomicWrite ia pa bs st).1.mem = (s.homePut ia pa bs st).1.mem := by
  unfold State.atomicWrite
  dsimp only
  split <;> rfl

section

variable {s : State} (hrecs : s.mem.recs = []) (ia pa n : Nat) (f : Word → Option Word)
include hrecs

/-- R281: the answer is the old word. -/
theorem atomicAt_old : (s.atomicAt ia pa n f).2 = BitVec.ofNat 64 (leNat (s.mem.bytes pa n)) := by
  unfold State.atomicAt
  rw [compactAt_of_nil hrecs]
  dsimp only
  split <;> rfl

theorem atomicAt_mem_of_none (h : f (BitVec.ofNat 64 (leNat (s.mem.bytes pa n))) = none) : (s.atomicAt ia pa n f).1.mem = s.takeStamp.1.mem := by
  unfold State.atomicAt
  rw [compactAt_of_nil hrecs]
  dsimp only
  rw [show s.takeStamp.1.mem.bytes pa n = s.mem.bytes pa n from rfl, h]

theorem atomicAt_mem_of_some {v : Word} (h : f (BitVec.ofNat 64 (leNat (s.mem.bytes pa n))) = some v) :
    (s.atomicAt ia pa n f).1.mem = (s.takeStamp.1.homePut ia pa (leBytes n v.toNat) s.mem.clock).1.mem := by
  unfold State.atomicAt
  rw [compactAt_of_nil hrecs]
  dsimp only
  rw [show s.takeStamp.1.mem.bytes pa n = s.mem.bytes pa n from rfl, h]
  dsimp only
  rw [wakeCounter_mem, atomicWrite_mem]
  rfl

theorem atomicAt_cells_of_none (h : f (BitVec.ofNat 64 (leNat (s.mem.bytes pa n))) = none) : (s.atomicAt ia pa n f).1.mem.cells = s.mem.cells := by
  rw [atomicAt_mem_of_none hrecs ia pa n f h]; rfl

/-- R281: every byte of home outside the word is as before. -/
theorem atomicAt_byte_other {x : Nat} (hx : x < pa ∨ pa + n ≤ x) : (s.atomicAt ia pa n f).1.homeByte x = s.homeByte x := by
  cases h : f (BitVec.ofNat 64 (leNat (s.mem.bytes pa n))) with
  | none => rw [State.homeByte, atomicAt_mem_of_none hrecs ia pa n f h]; rfl
  | some v =>
    rw [State.homeByte, atomicAt_mem_of_some hrecs ia pa n f h]
    exact homePut_byte_other _ ia pa _ _ (by rwa [leBytes_length])

/-- R281: the new value stands at an aligned word that reads well. -/
theorem atomicAt_new (hn : n = 4 ∨ n = 8) (halign : pa % n = 0) (hbad : ∀ b ∈ s.mem.bad, b ≠ pa / 32)
    (hstamps : ∀ x, pa ≤ x → x < pa + n → tget 0 s.mem.stamps x ≤ s.mem.clock) {v : Word}
    (h : f (BitVec.ofNat 64 (leNat (s.mem.bytes pa n))) = some v) : leNat ((s.atomicAt ia pa n f).1.mem.bytes pa n) = v.toNat % 2 ^ (8 * n) := by
  have hbytes := homePut_bytes (s := s.takeStamp.1) (ia := ia) (pa := pa) (st := s.mem.clock) (bs := leBytes n v.toNat)
    (fun b hb hmem => hbad b hb (eq_of_mem_partBlocks hn halign (by rwa [leBytes_length] at hmem)))
    (fun i hi => hstamps (pa + i) (by omega) (by rw [leBytes_length] at hi; omega))
  rw [leBytes_length] at hbytes
  rw [atomicAt_mem_of_some hrecs ia pa n f h, hbytes, leNat_leBytes, show 256 = 2 ^ 8 by rfl, ← Nat.pow_mul]

end

/-! ### The tests at issue, and what follows them -/

theorem publishRoom_released (s : State) (ia src : Nat) : (s.publishRoom ia src).1.core.released = s.core.released := by
  unfold State.publishRoom
  split
  · rfl
  · exact (syncRoom_core s _ _ _).released

theorem remoteOk_scopeOf (k : BitVec 3) : Scope.remoteOk (scopeOf k) = decide (3 ≤ k.toNat) := by
  revert k; decide

theorem eager_scopeOf (k : BitVec 3) : Scope.eager (scopeOf k) = (k.toNat == 2 || k.toNat == 6 || k.toNat == 7) := by
  revert k; decide

section

variable (s : State) (d a : BitVec 6) (k : BitVec 3) (n : Nat) (req : ReqOp) (f : Word → Option Word)

theorem atomic_noWindow (h : (s.ctx s.bound.ctx).translate? (s.x a).toNat .rdw = none) :
    s.atomic d a (scopeOf k) n req f = s.noWindow (s.x a) := by
  unfold State.atomic State.syncAccess State.lsAccess
  rw [h]

variable {c : Access} (hc : (s.ctx s.bound.ctx).translate? (s.x a).toNat .rdw = some c)
include hc

theorem atomic_misalign (halign : (s.x a).toNat % n ≠ 0) : s.atomic d a (scopeOf k) n req f = s.misalign (s.x a) n := by
  unfold State.atomic State.syncAccess State.lsAccess
  rw [hc]
  exact if_pos halign

variable (halign : (s.x a).toNat % n = 0)
include halign

theorem atomic_constWrite (hconst : s.constWin c.win = true) : s.atomic d a (scopeOf k) n req f = s.constWrite (s.x a).toNat c.win := by
  unfold State.atomic State.syncAccess State.lsAccess
  rw [hc]
  dsimp only
  rw [if_neg (not_not.mpr halign), if_pos (by simp [hconst])]

variable (hconst : s.constWin c.win = false)
include hconst

theorem atomic_illegal (hremote : s.isRemote c.ia = true) (hk : k.toNat < 3) : s.atomic d a (scopeOf k) n req f = s.illegal := by
  have hreach : Scope.remoteOk (scopeOf k) = false := by rw [remoteOk_scopeOf]; simp; omega
  unfold State.atomic State.syncAccess State.lsAccess
  rw [hc]
  dsimp only
  rw [if_neg (not_not.mpr halign), if_neg (by simp [hconst]), if_pos (by simp [hremote, hreach])]

variable (hlocal : s.isRemote c.ia = false)
include hlocal

theorem atomic_hold (hout : s.loadsOut = true) : s.atomic d a (scopeOf k) n req f = s.hold := by
  unfold State.atomic State.syncAccess State.lsAccess
  rw [hc]
  dsimp only
  rw [if_neg (not_not.mpr halign), if_neg (by simp [hconst]), if_neg (by simp [hlocal]), if_pos hout]

/-- A word of this device: what follows once its page and its data are at hand. -/
theorem atomic_local (hout : s.loadsOut = false) : s.atomic d a (scopeOf k) n req f = s.syncWord c.ia n fun s pa _ =>
    if s.core.released.isNone && s.imageWait c.ia then s.hold
    else
      s.withRoom c.ia fun s =>
        s.withRelease (Scope.eager (scopeOf k)) (fun s st => (s.publish c.ia s.myDie st, 0)) fun s _ again =>
          s.withAcquire (varOf c.ia) false (s.varSources c.ia) (scopeOf k) again fun s =>
            s.withAtomic c.ia pa n f again fun s old => (s.setX d old 1).endRegion := by
  unfold State.atomic State.syncAccess State.lsAccess
  rw [hc]
  dsimp only
  rw [if_neg (not_not.mpr halign), if_neg (by simp [hconst]), if_neg (by simp [hlocal]), if_neg (by simp [hout]), if_neg (by simp [hlocal])]

theorem atomic_absent (hout : s.loadsOut = false) {u : State} (hwalk : s.walk s.myDie c.ia = (u, .absent)) :
    s.atomic d a (scopeOf k) n req f = u.abort c.ia := by
  rw [atomic_local s d a k n req f hc halign hconst hlocal hout, State.syncWord, State.withPage, hwalk]
  rfl

/-- A word of this device whose read-modify-write passes. -/
theorem atomic_passes (hout : s.loadsOut = false) {u v z : State} {pa : Nat} {m : Bool} {bs : List Byte} {old : Word}
    (hwalk : s.walk s.myDie c.ia = (u, .page pa m)) (hread : u.homeRead c.ia pa n = (v, some bs))
    (hpass : RmwPasses v c.ia pa n f (k.toNat == 2 || k.toNat == 6 || k.toNat == 7) true z old) :
    s.atomic d a (scopeOf k) n req f = (z.setX d old 1).endRegion := by
  obtain ⟨p, w, st, e, y, q, hreleased, hwait, hroom, hrelease, hforce, hacquire, hcompact, hatomic⟩ := hpass
  have hpreleased : p.core.released = none := by
    have h := publishRoom_released v c.ia v.myDie
    rw [hroom] at h
    exact h.trans hreleased
  rw [← eager_scopeOf] at hforce hacquire
  dsimp only at hforce hacquire
  rw [if_pos rfl] at hacquire
  rw [atomic_local s d a k n req f hc halign hconst hlocal hout, State.syncWord, State.withPage, hwalk]
  dsimp only
  rw [hread]
  dsimp only
  rw [if_neg (by simp [hwait]), State.withRoom, if_neg (by simp [hreleased]), hroom]
  dsimp only
  unfold State.withRelease
  dsimp only
  rw [hpreleased]
  dsimp only
  rw [hrelease]
  dsimp only
  rw [hforce]
  dsimp only
  rw [if_pos rfl, State.withAcquire, hacquire]
  dsimp only
  rw [State.withAtomic, hcompact]
  dsimp only
  rw [hatomic]

end

end State

/-- The word on which an AMO or a CAS acts, and its operation: `none` leaves the word (R281). -/
def IsRmw (s : State) (d a b : BitVec 6) (k : BitVec 3) (i : Instr) (n : Nat) (f : Word → Option Word) : Prop :=
  (i = .amoAdd d a b k ∧ n = 8 ∧ f = fun o => some (o + s.x b)) ∨ (i = .amoAnd d a b k ∧ n = 8 ∧ f = fun o => some (o &&& s.x b)) ∨
  (i = .amoOr d a b k ∧ n = 8 ∧ f = fun o => some (o ||| s.x b)) ∨ (i = .amoXor d a b k ∧ n = 8 ∧ f = fun o => some (o ^^^ s.x b)) ∨
  (i = .amoMin d a b k ∧ n = 8 ∧ f = fun o => some (if o.toInt ≤ (s.x b).toInt then o else s.x b)) ∨
  (i = .amoMax d a b k ∧ n = 8 ∧ f = fun o => some (if o.toInt ≤ (s.x b).toInt then s.x b else o)) ∨
  (i = .amoMinu d a b k ∧ n = 8 ∧ f = fun o => some (if o.toNat ≤ (s.x b).toNat then o else s.x b)) ∨
  (i = .amoMaxu d a b k ∧ n = 8 ∧ f = fun o => some (if o.toNat ≤ (s.x b).toNat then s.x b else o)) ∨
  (i = .amoSwap d a b k ∧ n = 8 ∧ f = fun _ => some (s.x b)) ∨
  (i = .amoFadd d a b k ∧ n = 4 ∧ f = fun o => some (BitVec.ofNat 64 (fp32.add (o.toNat % 2 ^ 32) ((s.x b).toNat % 2 ^ 32)).1)) ∨
  (i = .cas d a b k ∧ n = 8 ∧ f = fun o => if o = s.x d then some (s.x b) else none)

/-- R281: every AMO, and CAS, is `atomic` on its word with its operation. -/
theorem exec_rmw {s : State} {d a b : BitVec 6} {k : BitVec 3} {i : Instr} {n : Nat} {f : Word → Option Word} (h : IsRmw s d a b k i n f) :
    (n = 4 ∨ n = 8) ∧ ∃ req, exec i s = .next (s.atomic d a (scopeOf k) n req f) := by
  rcases h with ⟨rfl, rfl, rfl⟩ | ⟨rfl, rfl, rfl⟩ | ⟨rfl, rfl, rfl⟩ | ⟨rfl, rfl, rfl⟩ | ⟨rfl, rfl, rfl⟩ | ⟨rfl, rfl, rfl⟩ | ⟨rfl, rfl, rfl⟩ |
    ⟨rfl, rfl, rfl⟩ | ⟨rfl, rfl, rfl⟩ | ⟨rfl, rfl, rfl⟩ | ⟨rfl, rfl, rfl⟩
  all_goals exact ⟨by decide, _, rfl⟩

/-- What a read-modify-write leaves when it finds nothing to wait for. -/
theorem rmw_effects {s v : State} {ia pa n : Nat} (d : BitVec 6) (f : Word → Option Word) (hn : n = 4 ∨ n = 8) (hsv : Quiet s v) (hready : RmwReady v ia)
    (eager : Bool) : let old := BitVec.ofNat 64 (leNat (s.mem.bytes pa n))
    ∃ z, RmwPasses v ia pa n f eager true z old ∧ (let t := (z.setX d old 1).endRegion
      WritesX s t d old 1 ∧ EndsRegion t ∧ t.core.released = none ∧ t.core.regs = s.core.regs ∧ t.core.spad = s.core.spad ∧
      (f old = none → t.mem.cells = s.mem.cells) ∧ (∀ x, (x < pa ∨ pa + n ≤ x) → t.homeByte x = s.homeByte x) ∧
      (pa % n = 0 → (∀ b ∈ s.mem.bad, b ≠ pa / 32) → (∀ x, pa ≤ x → x < pa + n → tget 0 s.mem.stamps x ≤ s.mem.clock) →
        ∀ new, f old = some new → leNat (t.mem.bytes pa n) = new.toNat % 2 ^ (8 * n))) := by
  obtain ⟨y, hvy, hpass⟩ := State.rmwPasses_of_ready hready pa n f eager
  have hsy := hsv.trans hvy
  have hyrecs : y.mem.recs = [] := hvy.recs.trans hready.1.1
  have hbytes : y.mem.bytes pa n = s.mem.bytes pa n := Mem.bytes_congr hsy.cells pa n
  have hold := State.atomicAt_old hyrecs ia pa n f
  have hcore := State.atomicAt_core y ia pa n f
  have hnone := State.atomicAt_cells_of_none hyrecs ia pa n f
  have hother := fun x => State.atomicAt_byte_other hyrecs ia pa n f (x := x)
  have hnew := fun h1 h2 h3 v => State.atomicAt_new hyrecs ia pa n f hn h1 h2 h3 (v := v)
  rw [hbytes] at hold hnone hnew
  rw [hold] at hpass
  dsimp only
  generalize hz : (y.atomicAt ia pa n f).1 = z at hpass hcore hnone hother hnew
  generalize BitVec.ofNat 64 (leNat (s.mem.bytes pa n)) = old at hpass hnone hnew
  have hset : OnlyResults z (z.setX d old 1) := setX_only z d old 1
  have hmem : (z.setX d old 1).mem = z.mem := by rw [hset]
  refine ⟨z, hpass, ?_, fun r hr => ?_, ?_, ?_, ?_, fun h => ?_, fun x hx => ?_, fun h1 h2 h3 new h => ?_⟩
  · have hflight : z.core.flight = s.core.flight := hcore.flight.trans hsy.flight
    change (z.setX d old 1).core.flight = _
    split
    · rename_i hd; rw [hd, ← hflight, List.append_nil]; rfl
    · rename_i hd; rw [setX_flight z d old 1 hd, hflight]
  · obtain ⟨r', -, rfl⟩ := Option.map_eq_some_iff.mp hr
    rfl
  · change (z.setX d old 1).core.released = none
    rw [hset]
    exact (hcore.released.trans hvy.released).trans hready.2.1
  · change (z.setX d old 1).core.regs = _
    rw [hset]
    exact hcore.regs.trans hsy.regs
  · change (z.setX d old 1).core.spad = _
    rw [hset]
    exact hcore.spad.trans hsy.spad
  · change (z.setX d old 1).mem.cells = _
    rw [hmem]
    exact (hnone h).trans hsy.cells
  · change cget (z.setX d old 1).mem.cells x = _
    rw [hmem]
    refine (hother x hx).trans ?_
    rw [State.homeByte, hsy.cells]; rfl
  · change leNat ((z.setX d old 1).mem.bytes pa n) = _
    rw [hmem]
    refine hnew h1 (fun b hb => h2 b (hsy.bad hb)) (fun x hx hx' => ?_) new h
    rw [hsy.stamps]
    exact (h3 x hx hx').trans hsy.clock

/-- Settles O25: the tests in their order, the read-modify-write that passes, and what the home atomic unit leaves. -/
theorem atomicEffects : Obligations.AtomicEffects := by
  unfold Obligations.AtomicEffects
  refine ⟨fun s d a b k i n f hi => ?_, fun s t ia pa n f old hn halign hrecs _ hstamps hbad _ hat => ?_⟩
  · obtain ⟨hn, req, hexec⟩ := exec_rmw hi
    rw [hexec]
    refine ⟨fun h => by rw [State.atomic_noWindow s d a k n req f h], fun c hc => ⟨fun halign => by rw [State.atomic_misalign s d a k n req f hc halign],
      fun halign hconst => by rw [State.atomic_constWrite s d a k n req f hc halign hconst],
      fun halign hconst hremote hk => by rw [State.atomic_illegal s d a k n req f hc halign hconst hremote hk],
      fun halign hconst hlocal hout => by rw [State.atomic_hold s d a k n req f hc halign hconst hlocal hout],
      fun halign hconst hlocal hout => ⟨fun u hwalk => by rw [State.atomic_absent s d a k n req f hc halign hconst hlocal hout hwalk],
        fun u pa m v bs hwalk hread => ?_⟩⟩⟩
    have hpasses := fun z old hpass => State.atomic_passes s d a k n req f hc halign hconst hlocal hout (z := z) (old := old) hwalk hread hpass
    refine ⟨fun z old hpass => by rw [hpasses z old hpass], fun hready => ?_⟩
    obtain ⟨z, hpass, hwrites, hends, hreleased, hregs, hspad, hnone, hother, hnew⟩ :=
      rmw_effects (s := s) (pa := pa) d f hn (Quiet.of_walk_homeRead hwalk hread) hready (k.toNat == 2 || k.toNat == 6 || k.toNat == 7)
    exact ⟨_, by rw [hexec, hpasses z _ hpass], hwrites, hends, hreleased, hregs, hspad, hnone, hother,
      fun h1 _ h2 h3 => hnew h1 h2 h3⟩
  · have hold := State.atomicAt_old hrecs ia pa n f
    have hnone := State.atomicAt_cells_of_none hrecs ia pa n f
    have hother := fun x => State.atomicAt_byte_other hrecs ia pa n f (x := x)
    have hnew := fun v => State.atomicAt_new hrecs ia pa n f hn halign hbad hstamps (v := v)
    rw [hat] at hold hnone hother hnew
    obtain rfl : old = _ := hold
    exact ⟨rfl, hnone, fun v h => ⟨hnew v h, hother⟩⟩

end Sys2Proof.Machine
end

section
/-! Results in flight (spec 01_task.md R19, R20, R22, R23; 03_scalar_control.md R67, R68; 05_vector.md R137): what a write that takes effect leaves alone,
and when a scheduled one takes effect. -/

namespace Sys2Proof.Machine

/-! ### An ENGW leaves the x, p and v registers and the results in flight -/

/-- The core's registers, but for the shape registers, and its results in flight are as before. -/
def SameRegs (s t : State) : Prop := (∃ sh, t.core.regs = { s.core.regs with shape := sh }) ∧ t.core.flight = s.core.flight

theorem SameRegs.refl (s : State) : SameRegs s s := ⟨⟨_, rfl⟩, rfl⟩

theorem SameRegs.trans {s t u : State} : SameRegs s t → SameRegs t u → SameRegs s u := by
  rintro ⟨⟨sh, h⟩, hf⟩ ⟨⟨sh', h'⟩, hf'⟩
  exact ⟨⟨sh', by rw [h', h]⟩, hf'.trans hf⟩

theorem SameRegs.of_core {s t : State} (h : t.core = s.core) : SameRegs s t := by rw [SameRegs, h]; exact ⟨⟨_, rfl⟩, rfl⟩

theorem SameRegs.ite {s t u : State} {P : Prop} [Decidable P] (ht : SameRegs s t) (hu : SameRegs s u) : SameRegs s (if P then t else u) := by
  split
  · exact ht
  · exact hu

theorem SameRegs.ite_of_step {s t u : State} {P : Prop} [Decidable P] (ht : SameRegs s t) (hu : SameRegs t u) : SameRegs s (if P then u else t) :=
  SameRegs.ite (ht.trans hu) ht

namespace State

theorem modCoreAt_sameRegs (s : State) (n : Nat) {f : Core → Core} (hf : ∀ c, (f c).regs = c.regs ∧ (f c).flight = c.flight) :
    SameRegs s (s.modCoreAt n f) := by
  unfold State.modCoreAt
  split
  · exact ⟨⟨_, (hf s.core).1⟩, (hf s.core).2⟩
  · exact SameRegs.refl s

theorem modChanAt_sameRegs (s : State) (core ch : Nat) (f : Chan → Chan) : SameRegs s (s.modChanAt core ch f) :=
  modCoreAt_sameRegs s core fun _ => ⟨rfl, rfl⟩

theorem chanDrop_sameRegs (s : State) (core k : Nat) : SameRegs s (s.chanDrop core k) := modCoreAt_sameRegs s core fun _ => ⟨rfl, rfl⟩

theorem chanBreak_sameRegs (s : State) (core ch err : Nat) : SameRegs s (s.chanBreak core ch err) := modChanAt_sameRegs s core ch _

theorem chanOpen_sameRegs (s : State) (core ch owner : Nat) : SameRegs s (s.chanOpen core ch owner) := by
  have hopen := fun f => modChanAt_sameRegs s core ch f
  unfold State.chanOpen
  dsimp only
  refine SameRegs.ite (SameRegs.refl s) (SameRegs.ite ?_ (hopen _))
  split
  · exact SameRegs.ite (hopen _) ((hopen _).trans (chanBreak_sameRegs _ _ _ _))
  · exact (hopen _).trans (chanBreak_sameRegs _ _ _ _)
  · exact (hopen _).trans (chanBreak_sameRegs _ _ _ _)
  · exact hopen _

theorem chanClose_sameRegs (s : State) (core ch : Nat) : SameRegs s (s.chanClose core ch) := by
  unfold State.chanClose
  dsimp only
  refine SameRegs.ite (modChanAt_sameRegs s core ch _) (SameRegs.trans ?_ (modChanAt_sameRegs _ _ _ _))
  refine SameRegs.ite_of_step ?_ (SameRegs.of_core (post_core _ _ _))
  exact SameRegs.ite_of_step (chanDrop_sameRegs _ _ _) ((modChanAt_sameRegs _ _ _ _).trans (chanBreak_sameRegs _ _ _ _))

theorem modRegs_shape_sameRegs (s : State) (f : Regs → Vector (ShapeReg × ShapeReg) 8) : SameRegs s (s.modRegs fun r => { r with shape := f r }) :=
  ⟨⟨_, rfl⟩, rfl⟩

/-- R227: an ENGW writes no x, p or v register. -/
theorem engWrite_sameRegs (s : State) (off : Nat) (w : Word) : SameRegs s (s.engWrite off w) := by
  have hword : ∀ ch f, SameRegs s (s.modChan ch f) := fun _ _ => ⟨⟨_, rfl⟩, rfl⟩
  unfold State.engWrite
  refine SameRegs.ite ⟨⟨_, rfl⟩, rfl⟩ (SameRegs.ite ⟨⟨_, rfl⟩, rfl⟩ (SameRegs.ite ⟨⟨_, rfl⟩, rfl⟩ (SameRegs.ite (modRegs_shape_sameRegs s _)
    (SameRegs.ite ⟨⟨_, rfl⟩, rfl⟩ (SameRegs.ite ?_ (SameRegs.ite ⟨⟨_, rfl⟩, rfl⟩ (SameRegs.refl s)))))))
  generalize (off - 0xC000) / 64 = ch
  generalize (off - 0xC000) % 64 = o
  split
  · exact SameRegs.ite (SameRegs.ite ((hword _ _).trans (chanOpen_sameRegs _ _ _ _)) (hword _ _))
      (SameRegs.ite (SameRegs.refl s) (chanClose_sameRegs s _ _))
  · exact SameRegs.ite (hword _ _) (SameRegs.refl s)
  · exact SameRegs.refl s

/-! ### A write that takes effect -/

theorem applyWrite_flight (s : State) (w : RegWrite) : (s.applyWrite w).core.flight = s.core.flight := by
  cases w with
  | eng off v => exact (engWrite_sameRegs s off v).2
  | _ => rfl

theorem applyAll_flight (s : State) (ws : List RegWrite) : (s.applyAll ws).core.flight = s.core.flight := by
  induction ws generalizing s with
  | nil => rfl
  | cons w ws ih => exact (ih (s.applyWrite w)).trans (applyWrite_flight s w)

/-- `get` reads a part of the registers that only the writes that `hits` names change. -/
structure ReadsOnly {β : Type} (get : State → β) (hits : RegWrite → Prop) : Prop where
  of_miss : ∀ s w, ¬hits w → get (s.applyWrite w) = get s
  of_flight : ∀ (s : State) (l : List Flight), get (s.modCore fun c => { c with flight := l }) = get s

theorem readsOnly_x (n : Nat) : ReadsOnly (fun s => s.core.regs.x[n]?) (fun w => ∃ val, w = .x n val) where
  of_flight _ _ := rfl
  of_miss s w hw := by
    cases w with
    | x m val =>
      have hmn : m ≠ n := fun h => hw ⟨val, by rw [h]⟩
      exact Vector.getElem?_setIfInBounds_ne hmn
    | eng off val => obtain ⟨⟨sh, h⟩, -⟩ := engWrite_sameRegs s off val; change (s.engWrite off val).core.regs.x[n]? = _; rw [h]
    | _ => rfl

theorem readsOnly_p (n : Nat) : ReadsOnly (fun s => s.core.regs.p[n]?) (fun w => ∃ val, w = .p n val) where
  of_flight _ _ := rfl
  of_miss s w hw := by
    cases w with
    | p m val =>
      have hmn : m ≠ n := fun h => hw ⟨val, by rw [h]⟩
      exact Vector.getElem?_setIfInBounds_ne hmn
    | eng off val => obtain ⟨⟨sh, h⟩, -⟩ := engWrite_sameRegs s off val; change (s.engWrite off val).core.regs.p[n]? = _; rw [h]
    | _ => rfl

theorem readsOnly_v (n : Nat) : ReadsOnly (fun s => s.core.regs.v[n]?) (fun w => ∃ mask val, w = .v n mask val) where
  of_flight _ _ := rfl
  of_miss s w hw := by
    cases w with
    | v m mask val =>
      have hmn : m ≠ n := fun h => hw ⟨mask, val, by rw [h]⟩
      exact Vector.getElem?_setIfInBounds_ne hmn
    | eng off val => obtain ⟨⟨sh, h⟩, -⟩ := engWrite_sameRegs s off val; change (s.engWrite off val).core.regs.v[n]? = _; rw [h]
    | _ => rfl

/-! ### Advancing cycles (R19, R20) -/

/-- The results that wait on, one cycle on. -/
def stillInFlight (l : List Flight) : List Flight := (l.filter fun f => decide (1 < f.lat)).map fun f => { f with lat := f.lat - 1 }

/-- The writes whose latency elapses at the end of this cycle. -/
def dueWrites (l : List Flight) : List RegWrite := (l.filter fun f => decide (f.lat ≤ 1)).map Flight.w

theorem tickFlight_eq (s : State) :
    s.tickFlight = (s.modCore fun c => { c with flight := stillInFlight s.core.flight }).applyAll (dueWrites s.core.flight) := rfl

theorem tickFlight_flight (s : State) : s.tickFlight.core.flight = stillInFlight s.core.flight := by
  rw [tickFlight_eq, applyAll_flight]; rfl

theorem forall_w_of_stillInFlight {P : RegWrite → Prop} {l : List Flight} (h : ∀ f ∈ l, P f.w) : ∀ f ∈ stillInFlight l, P f.w := by
  intro f hf
  obtain ⟨g, hg, rfl⟩ := List.mem_map.mp hf
  exact h g (List.mem_of_mem_filter hg)

theorem forall_of_dueWrites {P : RegWrite → Prop} {l : List Flight} (h : ∀ f ∈ l, P f.w) : ∀ w ∈ dueWrites l, P w := by
  intro w hw
  obtain ⟨g, hg, rfl⟩ := List.mem_map.mp hw
  exact h g (List.mem_of_mem_filter hg)

section

variable {β : Type} {get : State → β} {hits : RegWrite → Prop} (hget : ReadsOnly get hits)
include hget

theorem get_applyAll_of_miss (s : State) {ws : List RegWrite} (h : ∀ w ∈ ws, ¬hits w) : get (s.applyAll ws) = get s := by
  induction ws generalizing s with
  | nil => rfl
  | cons w ws ih =>
    obtain ⟨hw, hws⟩ := List.forall_mem_cons.mp h
    exact (ih (s.applyWrite w) hws).trans (hget.of_miss s w hw)

/-- A result that is the only one to write what `get` reads leaves it until its latency has elapsed, and then writes it. -/
theorem get_tickFlight_iterate {w : RegWrite} {new old : β} (hnew : ∀ u, get u = old → get (u.applyWrite w) = new) (k : Nat) :
    ∀ (s : State) (l r : List Flight), get s = old → s.core.flight = l ++ ⟨k + 1, w⟩ :: r → (∀ f ∈ l ++ r, ¬hits f.w) →
      (∀ j, j < k + 1 → get (State.tickFlight^[j] s) = old) ∧ get (State.tickFlight^[k + 1] s) = new := by
  induction k with
  | zero =>
    intro s l r hold hs hmiss
    obtain ⟨hl, hr⟩ := List.forall_mem_append.mp hmiss
    refine ⟨fun j hj => by rwa [Nat.lt_one_iff.mp hj], ?_⟩
    have hdue : dueWrites s.core.flight = dueWrites l ++ w :: dueWrites r := by simp [hs, dueWrites]
    change get s.tickFlight = new
    rw [tickFlight_eq, hdue, State.applyAll, List.foldl_append, List.foldl_cons]
    refine (get_applyAll_of_miss hget _ (forall_of_dueWrites hr)).trans (hnew _ ?_)
    exact (get_applyAll_of_miss hget _ (forall_of_dueWrites hl)).trans ((hget.of_flight s _).trans hold)
  | succ k ih =>
    intro s l r hold hs hmiss
    obtain ⟨hl, hr⟩ := List.forall_mem_append.mp hmiss
    have hdue : dueWrites s.core.flight = dueWrites l ++ dueWrites r := by simp [hs, dueWrites]
    have hflight : s.tickFlight.core.flight = stillInFlight l ++ ⟨k + 1, w⟩ :: stillInFlight r := by
      simp [tickFlight_flight, hs, stillInFlight]
    have hkeep : get s.tickFlight = old := by
      rw [tickFlight_eq, hdue]
      refine (get_applyAll_of_miss hget _ fun w hw => ?_).trans ((hget.of_flight s _).trans hold)
      exact (List.mem_append.mp hw).elim (forall_of_dueWrites (P := fun w => ¬hits w) hl w) (forall_of_dueWrites (P := fun w => ¬hits w) hr w)
    obtain ⟨hbefore, hafter⟩ := ih s.tickFlight _ _ hkeep hflight
      (List.forall_mem_append.mpr ⟨forall_w_of_stillInFlight (P := fun w => ¬hits w) hl, forall_w_of_stillInFlight (P := fun w => ¬hits w) hr⟩)
    refine ⟨fun j hj => ?_, hafter⟩
    cases j with
    | zero => exact hold
    | succ j => exact hbefore j (by omega)

end

/-- R137: the lanes that a vector write leaves in its register. -/
theorem applyWrite_v {s : State} {n : Nat} {m : Pred} {val old : VReg} (hn : n < 32) (hold : s.core.regs.v[n]? = some old) :
    (s.applyWrite (.v n m val)).core.regs.v[n]? = some (if m = BitVec.allOnes 128 then val else mergeLanes m old val) := by
  change (s.core.regs.v.setIfInBounds n _)[n]? = _
  rw [Vector.getElem?_setIfInBounds_self_of_lt hn, hold]
  rfl

theorem lane_masked (m : Pred) (old val : VReg) {i : Nat} (hi : i < 128) :
    lane (if m = BitVec.allOnes 128 then val else mergeLanes m old val) i = if m.getLsbD i then lane val i else lane old i := by
  split
  · rename_i hm; rw [hm, BitVec.getLsbD_allOnes, decide_eq_true hi, if_pos rfl]
  · exact lane_mergeLanes m old val hi

/-! ### Scheduling a result (R22, R67) -/

theorem setSc_only (s : State) (k : BitVec 4) (z : ScReg) (lat : Nat) : OnlyResults s (s.setSc k z lat) := rfl

theorem image_result (s : State) (lat : Nat) (w : RegWrite) : (s.result lat w).image = s.image := by
  change ((s.core.front.run.map _).map Run.image).getD {} = _
  rw [Option.map_map]; rfl

theorem x_setX (s : State) (d : BitVec 6) (w : Word) (lat : Nat) (e : BitVec 6) : (s.setX d w lat).x e = s.x e := by
  unfold State.setX
  split
  · rfl
  · unfold State.x
    rw [image_result]; rfl

theorem setX_newResults (s : State) {d : BitVec 6} (hd : d ≠ 0) (w : Word) (lat : Nat) :
    NewResults s (s.setX d w lat) fun f => f = ⟨lat, .x d.toNat w⟩ :=
  ⟨_, setX_flight s d w lat hd, fun _ hf => List.mem_singleton.mp hf⟩

theorem setP_newResults (s : State) {p : BitVec 4} (hp : p ≠ 0) (u : Pred) (lat : Nat) :
    NewResults s (s.setP p u lat) fun f => f = ⟨lat, .p p.toNat u⟩ := by
  rw [State.setP, if_neg hp]
  exact ⟨_, rfl, fun _ hf => List.mem_singleton.mp hf⟩

theorem setX_homeByte (s : State) (d : BitVec 6) (w : Word) (lat a : Nat) : (s.setX d w lat).homeByte a = s.homeByte a := by
  rw [setX_only s d w lat]; rfl

end State

/-- Settles O58: the first part by what a write that takes effect leaves alone and the cycles until it does, the second by what scheduling changes. -/
theorem resultsInFlight : Obligations.ResultsInFlight := by
  unfold Obligations.ResultsInFlight
  refine ⟨fun s n lat l r hlat => ?_, fun s d p v k m w u y z lat => ?_⟩
  · obtain ⟨k, rfl⟩ : ∃ k, lat = k + 1 := ⟨lat - 1, by omega⟩
    refine ⟨fun val hn hs hmiss => ?_, fun val hn hs hmiss => ?_, fun m val old hn hold hs hmiss => ?_⟩
    · exact State.get_tickFlight_iterate (State.readsOnly_x n) (w := .x n val) (fun u _ => Vector.getElem?_setIfInBounds_self_of_lt hn)
        k s l r rfl hs fun f hf ⟨w, hw⟩ => hmiss f hf w hw
    · exact State.get_tickFlight_iterate (State.readsOnly_p n) (w := .p n val) (fun u _ => Vector.getElem?_setIfInBounds_self_of_lt hn)
        k s l r rfl hs fun f hf ⟨w, hw⟩ => hmiss f hf w hw
    · obtain ⟨hbefore, hafter⟩ := State.get_tickFlight_iterate (State.readsOnly_v n) (w := .v n m val) (fun u hu => State.applyWrite_v hn hu)
        k s l r hold hs fun f hf ⟨m, w, hw⟩ => hmiss f hf m w hw
      exact ⟨hbefore, _, hafter, fun i hi => State.lane_masked m old val hi⟩
  · exact ⟨setX_only s d w lat, setP_only s p u lat, setV_only s v m y lat, State.setSc_only s k z lat, rfl, rfl, rfl, rfl,
      fun hd => State.setX_newResults s hd w lat, fun hp => State.setP_newResults s hp u lat, State.setX_homeByte s d w lat, State.x_setX s d w lat⟩

end Sys2Proof.Machine
end

section
/-! The focused core (spec 01_task.md R17, R33; 11_translation_scheduling.md R305): what a change of focus leaves, how an event acts on the core it
names, and what a pre-emption asks of a group. -/

namespace Sys2Proof.Machine

theorem tget_terase_ne {α : Type} (d : α) (t : Tab α) {n m : Nat} (h : m ≠ n) : tget d (terase t n) m = tget d t m := by
  rw [tget, tget?_terase_ne t h, tget]

namespace State

variable (s : State) (n : Nat)

/-! ### Focus -/

theorem focus_core : (s.focus n).core = s.coreAt n := by
  rw [focus, coreAt]; split <;> rfl

@[simp] theorem focus_coreId : (s.focus n).coreId = n := by
  rw [focus]
  split
  · next h => exact h.symm
  · rfl

@[simp] theorem focus_mem : (s.focus n).mem = s.mem := by
  rw [focus]; split <;> rfl

@[simp] theorem focus_root : (s.focus n).root = s.root := by
  rw [focus]; split <;> rfl

@[simp] theorem focus_time : (s.focus n).time = s.time := by
  rw [focus]; split <;> rfl

/-- A change of focus moves no core's state. -/
@[simp] theorem coreAt_focus (m : Nat) : (s.focus n).coreAt m = s.coreAt m := by
  by_cases hself : n = s.coreId
  · rw [focus, if_pos hself]
  · rw [focus, if_neg hself]
    by_cases hm : m = n
    · subst hm
      rw [coreAt, if_pos rfl, coreAt, if_neg hself]
    · have hne : (State.coreAt { s with core := tget {} s.others n, coreId := n, others := terase (tset s.others s.coreId s.core) n } m) =
          tget {} (terase (tset s.others s.coreId s.core) n) m := if_neg hm
      rw [hne, tget_terase_ne _ _ hm, coreAt]
      split
      · next hcur => rw [hcur, tget_tset_same]
      · next hcur => exact tget_tset_ne _ _ _ hcur

/-! ### Acting on a core -/

@[simp] theorem coreAt_modCoreAt_same (f : Core → Core) : (s.modCoreAt n f).coreAt n = f (s.coreAt n) := by
  rw [modCoreAt]
  split
  · next h => subst h; simp [coreAt, modCore]
  · next h =>
    have hother : coreAt { s with others := tset s.others n (f (tget {} s.others n)) } n = tget {} (tset s.others n (f (tget {} s.others n))) n := if_neg h
    rw [hother, tget_tset_same, coreAt, if_neg h]

theorem coreAt_modCoreAt_ne {m : Nat} (f : Core → Core) (h : m ≠ n) : (s.modCoreAt n f).coreAt m = s.coreAt m := by
  rw [modCoreAt]
  split
  · next hcur =>
    subst hcur
    exact (if_neg h).trans (if_neg h).symm
  · rw [coreAt, coreAt]
    dsimp only
    rw [tget_tset_ne _ _ _ h]

theorem modCoreAt_mem (f : Core → Core) : (s.modCoreAt n f).mem = s.mem := by
  rw [modCoreAt]; split <;> rfl

theorem modCoreAt_sched (f : Core → Core) : (s.modCoreAt n f).sched = s.sched := by
  rw [modCoreAt]; split <;> rfl

variable {s n}

/-- An operation that stays on its core acts on the core it is given. -/
theorem coreAt_onCore {f : State → State} (hf : (f (s.focus n)).coreId = n) : (s.onCore n f).coreAt n = (f (s.focus n)).core := by
  rw [onCore, coreAt_focus, coreAt, if_pos hf.symm]

theorem onBound_eq {f : State → State} {v : State} (hcore : n < 352) (htask : (s.coreAt n).task.isSome = true) (h : f (s.focus n) = v) :
    s.onBound n f = v.focus s.coreId := by
  rw [onBound, if_pos ⟨hcore, htask⟩, onCore, h]

theorem onAny_eq {f : State → State} {v : State} (hcore : n < 352) (h : f (s.focus n) = v) : s.onAny n f = v.focus s.coreId := by
  rw [onAny, if_pos hcore, onCore, h]

/-! ### Pre-emption (R33, R249, R305) -/

/-- The request for a pre-emption of one core. -/
def setPreempt (s : State) (n : Nat) : State := s.modCoreAt n fun c => { c with preempt := true }

theorem setPreempt_same : ((s.setPreempt n).coreAt n).preempt = true := by
  rw [setPreempt, coreAt_modCoreAt_same]

theorem setPreempt_mem_sched : (s.setPreempt n).mem = s.mem ∧ (s.setPreempt n).sched = s.sched :=
  ⟨modCoreAt_mem .., modCoreAt_sched ..⟩

/-- A request withdraws no other request. -/
theorem setPreempt_keeps {m : Nat} (h : (s.coreAt m).preempt = true) : ((s.setPreempt n).coreAt m).preempt = true := by
  by_cases hm : m = n
  · rw [hm]; exact setPreempt_same
  · rwa [setPreempt, coreAt_modCoreAt_ne _ _ _ hm]

/-- The requests to the coupled members of a group. -/
def setPreemptGroup (s : State) (k : Nat) (m : BitVec 4) : State :=
  (List.range 4).foldl (fun s i => if m.getLsbD i then s.setPreempt (k * 4 + i) else s) s

/-- What every request keeps, the requests to a group keep. -/
theorem setPreemptGroup_keeps {P : State → Prop} (hP : ∀ t c, P t → P (t.setPreempt c)) (k : Nat) (m : BitVec 4) (h : P s) :
    P (s.setPreemptGroup k m) := by
  rw [setPreemptGroup]
  refine List.foldlRecOn _ _ h fun t ht i _ => ?_
  split
  · exact hP t _ ht
  · exact ht

/-- Every coupled member is asked. -/
theorem setPreemptGroup_coupled {k : Nat} {m : BitVec 4} {i : Nat} (hi : i < 4) (hm : m.getLsbD i = true) :
    ((s.setPreemptGroup k m).coreAt (k * 4 + i)).preempt = true :=
  foldl_of_mem (P := fun t => (t.coreAt (k * 4 + i)).preempt = true) (b := i) (fun t => by rw [if_pos hm]; exact setPreempt_same)
    (fun t j h => by
      split
      · exact setPreempt_keeps h
      · exact h) s (List.mem_range.mpr hi)

theorem askPreempt_of_group {g : FuseGroup} (hg : (s.cluster (clusterOf n)).groups.find? (fun g => g.coupled.getLsbD (lowCore n)) = some g) :
    s.askPreempt n = (s.setPreempt n).setPreemptGroup (clusterOf n) g.coupled := by
  rw [askPreempt, hg]
  rfl

theorem askPreempt_of_alone (hg : (s.cluster (clusterOf n)).groups.find? (fun g => g.coupled.getLsbD (lowCore n)) = none) :
    s.askPreempt n = s.setPreempt n := by
  rw [askPreempt, hg]
  rfl

/-- A request reaches the core and every coupled member of its group; it asks nothing of memory or the scheduler. -/
theorem askPreempt_asks : ((s.askPreempt n).coreAt n).preempt = true ∧ (s.askPreempt n).mem = s.mem ∧ (s.askPreempt n).sched = s.sched ∧
    ∀ g i, (s.cluster (clusterOf n)).groups.find? (fun g => g.coupled.getLsbD (lowCore n)) = some g → i < 4 → g.coupled.getLsbD i = true →
      ((s.askPreempt n).coreAt (clusterOf n * 4 + i)).preempt = true := by
  cases hg : (s.cluster (clusterOf n)).groups.find? (fun g => g.coupled.getLsbD (lowCore n)) with
  | none =>
    rw [askPreempt_of_alone hg]
    exact ⟨setPreempt_same, setPreempt_mem_sched.1, setPreempt_mem_sched.2, fun g i h => by cases h⟩
  | some g =>
    rw [askPreempt_of_group hg]
    obtain ⟨hmem, hsched⟩ := setPreemptGroup_keeps (P := fun t => t.mem = s.mem ∧ t.sched = s.sched)
      (fun _ _ h => ⟨setPreempt_mem_sched.1.trans h.1, setPreempt_mem_sched.2.trans h.2⟩) (clusterOf n) g.coupled (setPreempt_mem_sched (n := n))
    refine ⟨setPreemptGroup_keeps (P := fun t => (t.coreAt n).preempt = true) (fun _ _ => setPreempt_keeps) _ _ setPreempt_same, hmem, hsched, ?_⟩
    intro g' i h hi hcoupled
    cases h
    exact setPreemptGroup_coupled hi hcoupled

/-- Every coupled member at one safe point leaves there. -/
theorem takePreempt_of_safe (hpre : (s.coreAt n).preempt = true)
    (hsafe : ∀ c ∈ s.coupledCores n, (s.focus c).atSafePoint = true ∧ (s.focus c).nextAddr = (s.focus n).nextAddr) :
    (s.takePreempt n).1 = (s.coupledCores n).foldl (fun v c => v.onCore c fun u =>
      { u with core := { u.core with preAt := some u.time, front := { u.core.front with leaving := some (.preempt, u.nextAddr), hold := .none } } }) s := by
  have hall : ((s.coreAt n).preempt && (s.coupledCores n).all fun c => (s.focus c).atSafePoint && (s.focus c).nextAddr == (s.focus n).nextAddr) = true := by
    simp only [hpre, Bool.true_and, List.all_eq_true, Bool.and_eq_true, beq_iff_eq]
    exact hsafe
  rw [takePreempt]
  dsimp only
  rw [if_pos hall]
  rfl

/-! ### Binding (R296, R297) -/

theorem bindOn_of_choice {t : Task} (hchoice : s.choice n = some t) (hplace : s.placement t = some n) :
    s.bindOn n t.launch t.index = (((s.decide' t n).focus n).pickUp t).focus s.coreId := by
  rw [bindOn, hchoice]
  dsimp only
  rw [if_pos ⟨rfl, rfl, hplace⟩]

end State

end Sys2Proof.Machine
end

section
/-! What an event does to the core that it names (spec 01_task.md R17, R20, R27; 02_encoding.md R44, R47; 03_scalar_control.md R86, R95, R97, R99;
05_vector.md R157; 06_matrix.md R171; 10_memory_model.md R261, R276; 13_package.md R347), where its conditions hold. -/

namespace Sys2Proof.Machine

namespace State

variable {u v w : State}

/-! ### The watchdog, arrivals and expansions (R206, R47, R86, R307) -/

/-- The watchdog's condition: COUNT at a budget that is not 0, at a boundary or in a hold. -/
theorem watchdog_due (hbudget : u.core.regs.z.budget ≠ 0) (hcount : u.core.regs.z.budget.toNat ≤ u.core.regs.z.wcount.toNat)
    (hat : u.core.front.run = none ∨ u.core.front.hold ≠ .none) :
    (u.watchdogDue && (u.core.front.run.isNone || u.core.front.hold != .none)) = true := by
  have hrun : (u.core.front.run.isNone || u.core.front.hold != .none) = true := by
    obtain h | h := hat
    · simp [h]
    · simp [h]
  rw [hrun, watchdogDue, bne_iff_ne.mpr hbudget, decide_eq_true hcount]
  rfl

theorem arrive_of_miss {k : Nat} {m : Miss} (hm : u.core.misses[k]? = some m) (hgood : m.bad = false) :
    u.arrive k = (u.modCore fun c => { c with misses := c.misses.eraseIdx k }).applyWrite m.w := by
  rw [arrive, hm]
  dsimp only
  rw [if_neg (by simp [hgood])]

/-- A record of this device on a page that is there fills the cache, and its fetch hold ends. -/
theorem fillHeld_of_page {va : Word} {a : Access} {pa : Nat} {x : Bool} {g : ViewGot} (hva : u.heldRecord = some va)
    (ha : (u.ctx u.bound.ctx).translate? va.toNat .rd = some a) (hhold : u.core.front.hold = .fetch) (halign : a.ia % 64 = 0)
    (hlocal : u.isRemote a.ia = false) (hmiss : u.recordHit a.ia = none) (hwalk : u.walk u.myDie a.ia = (v, .page pa x))
    (hread : v.viewRead a.ia pa 64 = (w, g)) (hgot : g.lost = false) :
    u.fillHeld a.ia = (w.recordFill a.ia g.data).modFront fun f => { f with holdPage := none } := by
  rw [fillHeld, hva]
  dsimp only
  rw [ha]
  dsimp only
  rw [if_pos ⟨hhold, rfl, halign, by simp [hlocal], by simp [hmiss]⟩, hwalk]
  dsimp only
  rw [hread]
  dsimp only
  rw [if_neg (by simp [hgot])]

theorem expandSucc_of_next {g n : Segment} (hcur : u.core.front.cur = some g) (hgood : g.bad = none) (hnext : g.next ≠ 0) (hsucc : u.core.front.succ = none)
    (htake : u.takeSegment g.next = (v, n)) : u.expandSucc = v.modFront fun f => { f with succ := some n } := by
  rw [expandSucc, hcur]
  dsimp only
  rw [if_pos ⟨by simp [hgood], hnext, hsucc⟩, htake]

theorem expandEntry_eq {frame : Nat} {n : Segment} (htake : u.takeSegment frame = (v, n)) :
    u.expandEntry frame = v.modFront fun f => { f with cur := some n, succ := none } := by
  rw [expandEntry, htake]

/-! ### The snapshot image, the log and the ring (R97, R261, R347) -/

/-- The one pending operation, when it is due, happens. -/
theorem snapSettle_of_due {p : SnapOp → Bool} {o : SnapOp} (hops : u.core.snapOps = [o]) (hp : p o = true) (hdue : snapLeft o ≤ 1) :
    u.snapSettle p = (u.modCore fun c => { c with snapOps := [] }).snapApply o := by
  have hcond : (p o && decide (snapLeft o ≤ 1)) = true := by simp [hp, hdue]
  have hrest : u.modCore (fun c => { c with snapOps := c.snapOps.filter fun o => !(p o && decide (snapLeft o ≤ 1)) }) =
      u.modCore fun c => { c with snapOps := [] } := by
    rw [modCore, modCore, hops, List.filter_cons, hcond]
    rfl
  rw [snapSettle, hrest, hops, List.filter_cons, if_pos hcond]
  rfl

theorem logTimeout_of_due {t : Nat} (hsince : u.core.front.logSince = some t) (hdue : t + (u.die u.myDie).logStall.toNat ≤ u.time) :
    u.logTimeout = u.modFront fun f => { f with logDue := true } := by
  rw [logTimeout, hsince]
  exact if_pos hdue

theorem ringTry_of_ready {r : Word} {h k c : Nat} (hwords : u.ringWords u.myDie r = (v, some (h, k, c))) (hready : v.ringReady r = (w, true)) :
    (u.ringTry r k).1 = (w.ringPublish r k).modCore fun c => { c with slotHeld := none, published := some k } := by
  rw [ringTry, hwords]
  dsimp only
  rw [if_neg (by simp), hready]

/-! ### Answers of another device (R276, R363) -/

theorem takeAnswer_of_fits {r : RemoteReply} {d : Nat} (hasked : u.core.asked = some (d, true)) (hnone : u.core.answer = none)
    (hfits : u.answerFits r = true) : u.takeAnswer r = u.modCore fun c => { c with answer := some r } := by
  rw [takeAnswer, hasked]
  exact if_pos (by simp [hnone, hfits])

end State

end Sys2Proof.Machine
end

section
/-! The engines of a core and what runs beside it (spec 01_task.md R17, R27; 06_matrix.md R171; 07_core_memory.md R216, R217, R220;
10_memory_model.md R260, R276, R283; 14_fabric.md R363; 03_scalar_control.md R95, R99), where the conditions of their events hold. -/

namespace Sys2Proof.Machine

namespace State

variable {s u v t : State}

/-! ### Replies to parked loads (R17, R27, R421) -/

theorem replyTo_value {p : Task} {l : RemoteLoad} {bs : List Byte} (hrest : l.rest = []) (hwrite : s.replyWrite p l bs = (v, none)) :
    s.replyTo p l (.value bs) = v.makeReady p.launch p.index fun t => { t with held := none } := by
  rw [replyTo]
  simp only [hwrite, hrest]
  rfl

/-- A reply's error that a trap or a kill carries is held for the next pick-up. -/
theorem replyTo_error {p : Task} {l : RemoteLoad} {c : BitVec 8} {d : BitVec 32} {h : HeldCause} (hcause : replyError l c d = some h) :
    s.replyTo p l (.error c d) = s.makeReady p.launch p.index fun t => { t with held := some h } := by
  rw [replyTo, replyFails, hcause]
  rfl

theorem replyError_trap {l : RemoteLoad} {c : BitVec 8} {d : BitVec 32} (hc : c = 0x0A ∨ c = 0x0B ∨ c = 0x0C) :
    replyError l c d = some { cause := { code := c, addr := BitVec.ofNat 64 l.ia, detail := d }, trap := true, bundle := l.bundle } :=
  if_pos hc

theorem replyError_kill {l : RemoteLoad} {c : BitVec 8} {d : BitVec 32} (hc : c = 0x12 ∨ c = 0x13 ∨ c = 0x14) :
    replyError l c d = some { cause := { code := c, addr := BitVec.ofNat 64 l.ia, detail := d }, trap := false, bundle := l.bundle } := by
  have hno : ¬(c = 0x0A ∨ c = 0x0B ∨ c = 0x0C) := by
    obtain rfl | rfl | rfl := hc <;> decide
  exact (if_neg hno).trans (if_pos hc)

/-! ### Answers for the log (R260, R276, R363) -/

theorem recordDone_value {core : Nat} {r : Rec} {bs : List Byte} (hr : s.mem.recs.find? (fun r => r.core == core && r.sent) = some r) :
    s.recordDone core (.value bs) = { s with mem := s.mem.drop r } := by
  rw [recordDone, hr]
  rfl

/-- An error that is no restart of the target: the record is sent again. -/
theorem recordDone_error {core : Nat} {r : Rec} {c : BitVec 8} {d : BitVec 32} (hr : s.mem.recs.find? (fun r => r.core == core && r.sent) = some r)
    (hc : c ≠ 0x0B) : s.recordDone core (.error c d) = { s with mem := s.mem.modRec r fun x => { x with sent := false } } := by
  rw [recordDone, hr]
  exact if_neg hc

/-! ### The matrix units (R171) -/

theorem settleHandles_mx (u : State) : u.settleHandles.core.mx = u.core.mx := by
  rw [settleHandles]
  refine List.foldlRecOn (motive := fun (t : State) => t.core.mx = u.core.mx) _ _ rfl fun t h x _ => ?_
  split
  · exact h
  · exact h

theorem handleEnd_mx (u : State) (hd : Nat) (producer : Bool) (ticket : Nat) : (u.handleEnd hd producer ticket).core.mx = u.core.mx := by
  rw [handleEnd, settleHandles_mx]
  split <;> rfl

/-- The end of the load path leaves the array's command. -/
theorem loadEnd_array (u : State) (c : MxCmd) : (u.loadEnd c).core.mx.array = u.core.mx.array := by
  rw [loadEnd, handleEnd_mx]
  rfl

theorem loadCycle_of_last {c : MxCmd} (hload : u.core.mx.load = some c) (hlast : c.length ≤ c.done + 1) : u.loadCycle = u.loadEnd c := by
  rw [loadCycle, hload]
  exact if_pos hlast

/-- MLOAD takes the load path with its snapshot of the scratchpad, every other command the array with its scale register. -/
theorem mxStart_of_ready {c : MxCmd} {rest : List MxCmd} (hqueue : u.core.mx.queue = c :: rest) (hready : u.mxReady c = true)
    (hv : v = u.modMx fun m => { m with queue := rest }) : u.mxStart = if c.op = .mload
      then (v.readSlots (c.reads.map fun r => (r.lo, r.hi))).modMx fun m => { m with load := some (v.mloadTake c) }
      else v.modMx fun m => { m with array := some { c with scVal := v.core.regs.sc[c.sc]?.getD 0 } } := by
  rw [mxStart, hqueue]
  dsimp only
  rw [if_pos hready, ← hv]
  cases hop : c.op with
  | mload => rfl
  | mma | mmaq | mzero => rfl

/-! ### The copy engine (R216, R217, R220) -/

theorem jobStart_of_free {j : Job} {js : List Job} (hjobs : u.core.copy.jobs = j :: js) (hidle : j.running = false) (hmoves : u.frozen = false)
    (hfree : u.det = true ∨ u.conflict? 1 j.ticket j.foot = none)
    (hv : v = u.modCopy fun c => { c with jobs := { j with running := true, tick := u.time } :: js }) :
    u.jobStart = if j.dir = .sh ∨ j.dir = .ss ∨ j.dir = .tevict
      then v.readSlots ((loopIndices j.ext).map fun i => (elemAddr j.src j.str i, elemAddr j.src j.str i + j.w)) else v := by
  have hclear : ¬(!u.det && (u.conflict? 1 j.ticket j.foot).isSome) = true := by
    obtain h | h := hfree
    · simp [h]
    · simp [h]
  rw [jobStart, hjobs]
  dsimp only
  rw [if_neg (by simp [hidle, hmoves]), if_neg hclear, ← hv]

/-- The tag that a slot's copy leaves: a fill makes its slot valid, an eviction makes its slot invalid unless it is locked (R195). -/
def tagsAfter (j : Job) (tags : Tab TagEntry) : Tab TagEntry :=
  match j.dir with
  | .tfill => tmod {} tags j.slot fun e => { e with valid := true }
  | .tevict => tmod {} tags j.slot fun e => if e.lock then e else { e with valid := false }
  | _ => tags

/-- A running job whose source is there and whose records have room ends well. -/
theorem jobEnd_of_done {j : Job} {js : List Job} {r : JobRunState} (hjobs : u.core.copy.jobs = j :: js) (hrun : j.running = true)
    (hmoves : u.frozen = false) (hreach : u.jobReach j = none) (hr : u.jobRun j none = r) (hlost : r.lost = none) (hwait : r.wait = false)
    (hrecords : r.s.jobRecords j.dstInc (runsOf r.glob) = (t, true)) :
    u.jobEnd = (t.modCopy fun c => { c with
      bytes := c.bytes + BitVec.ofNat 64 (j.w * j.ext.foldl (· * ·) 1), tags := tagsAfter j c.tags }).jobGone j true := by
  rw [jobEnd, hjobs]
  dsimp only
  rw [if_neg (by simp [hrun, hmoves]), hreach]
  dsimp only
  rw [hr, hlost]
  dsimp only
  rw [if_neg (by simp [hwait]), hrecords]
  dsimp only [tagsAfter]
  cases j.dir <;> rfl

/-- A job that fails at an address holds its cause once its records have room. -/
theorem jobFailAt_of_lost {j : Job} {js : List Job} {r : JobRunState} {c : Cause} (hjobs : u.core.copy.jobs = j :: js) (hrun : j.running = true)
    (hr : u.jobRun j (some c.addr.toNat) = r) (hlost : r.lost ≠ none) (hrecords : r.s.jobRecords j.dstInc (runsOf r.glob) = (t, true)) :
    u.jobFailAt c = (t.jobGone j false).modCopy fun e => { e with err := e.err ++ [⟨c, j.hd⟩] } := by
  rw [jobFailAt, hjobs]
  dsimp only
  rw [if_neg (by simp [hrun]), hr, if_pos (Option.isSome_iff_ne_none.mpr hlost), jobFail, hrecords]

/-! ### Supersteps (R276, R278, R283) -/

/-- The last arrival ends the superstep: the records of its dies are compacted and the generation moves on. -/
theorem sstepRelease_of_arrived {launch key : Nat} (hsome : (s.superStep launch key).arrived ≠ [])
    (hall : ∀ i ∈ s.participants launch key, i ∈ (s.superStep launch key).arrived) :
    s.sstepRelease launch key = ((((if key = 4 then [0, 1, 2, 3] else [key]).foldl (fun u d => (u.compactDie d u.mem.clock).1) s).clearOwners key).modStep
      launch key fun v => { v with gen := v.gen + 1, arrived := [] }) := by
  have hcond : (s.superStep launch key).arrived ≠ [] ∧
      ((s.participants launch key).all fun i => (s.superStep launch key).arrived.contains i) = true :=
    ⟨hsome, by simpa using hall⟩
  rw [sstepRelease]
  dsimp only
  rw [if_pos hcond]

/-! ### The debugger (R95, R99) -/

theorem returnFromTrap_outside (u : State) :
    u.returnFromTrap.mem = u.mem ∧ u.returnFromTrap.root = u.root ∧ u.returnFromTrap.coreId = u.coreId := by
  rw [returnFromTrap]
  split
  · exact ⟨rfl, rfl, rfl⟩
  · exact ⟨rfl, rfl, rfl⟩

theorem debugContinue_outside (u : State) : u.debugContinue.mem = u.mem ∧ u.debugContinue.root = u.root ∧ u.debugContinue.coreId = u.coreId := by
  rw [debugContinue]
  split
  · split
    · exact returnFromTrap_outside u
    · exact ⟨rfl, rfl, rfl⟩
  · exact ⟨rfl, rfl, rfl⟩

theorem debugContinue_runs (u : State) : u.debugContinue.core.front.halted = false ∧ u.debugContinue.core.front.debug = false := ⟨rfl, rfl⟩

theorem onCore_debugContinue (s : State) (n : Nat) :
    (s.onCore n debugContinue).mem = s.mem ∧ (s.onCore n debugContinue).root = s.root := by
  obtain ⟨hmem, hroot, -⟩ := debugContinue_outside (s.focus n)
  rw [onCore]
  simp [hmem, hroot]

/-- Halted cores go on one by one; memory and the root are as they were. -/
theorem continueAll_outside (s : State) (l : List Nat) :
    (l.foldl (fun s c => s.onCore c debugContinue) s).mem = s.mem ∧ (l.foldl (fun s c => s.onCore c debugContinue) s).root = s.root :=
  List.foldlRecOn (motive := fun (t : State) => t.mem = s.mem ∧ t.root = s.root) l _ ⟨rfl, rfl⟩ fun t ⟨hmem, hroot⟩ c _ =>
    ⟨(onCore_debugContinue t c).1.trans hmem, (onCore_debugContinue t c).2.trans hroot⟩

end State

end Sys2Proof.Machine
end

section
/-! The events of a core (O46): each is the rule above that its conditions select, at the core that it names. -/

namespace Sys2Proof.Machine

theorem next_onBound {s v : State} {n : Nat} {f : State → State} (hcore : n < 352) (htask : (s.coreAt n).task.isSome = true)
    (h : f (s.focus n) = v) : (Host.Outcome.next (s.onBound n f) : Out) = .next (v.focus s.coreId) :=
  congrArg Host.Outcome.next (State.onBound_eq hcore htask h)

/-- A reply reaches the task that is parked on the load. -/
theorem exec_remoteReply {s : State} {t : Task} {l : RemoteLoad} {launch index : Nat} (r : RemoteReply) (ht : s.task? launch index = some t)
    (hparked : t.state = .parked) (hpark : t.park = some (.remote l true)) : exec (.remoteReply launch index r) s = .next (s.replyTo t l r) := by
  change execRemoteReply launch index r s = _
  rw [execRemoteReply, ht]
  dsimp only
  rw [hparked, hpark]

/-- An answer to a core that asks for none is the answer to a record that it has sent. -/
theorem exec_syncOpComplete_of_log {s : State} {core : Nat} (r : RemoteReply) (hcore : core < 352) (hasked : (s.coreAt core).asked = none) :
    exec (.syncOpComplete core r) s = .next (s.recordDone core r) := by
  change execSyncOpComplete core r s = _
  rw [execSyncOpComplete, hasked]
  dsimp only
  rw [if_neg (by omega), if_neg (by omega), if_neg (by simp)]

/-- The answer that a core's held syllable awaits goes to that core. -/
theorem exec_syncOpComplete_of_held {s : State} {core d : Nat} {r : RemoteReply} (hcore : core < 352)
    (hasked : (s.coreAt core).asked = some (d, true)) (hnone : (s.coreAt core).answer = none) (hvalue : r ≠ .value []) :
    exec (.syncOpComplete core r) s = .next (s.onBound core fun u => u.takeAnswer r) := by
  change execSyncOpComplete core r s = _
  rw [execSyncOpComplete, hasked]
  dsimp only
  rw [if_neg (by omega), if_neg (by omega), if_pos (by simp [hnone, hvalue])]

theorem exec_syncOpComplete_of_device {s : State} {dev : Nat} (r : RemoteReply) (hdev : dev < 128) :
    exec (.syncOpComplete (352 + dev) r) s = .next (s.forceDone dev) := by
  change execSyncOpComplete (352 + dev) r s = _
  rw [execSyncOpComplete, if_neg (by omega), if_pos (by omega), Nat.add_sub_cancel_left]

/-- The codes with which a running job may fail (R220). -/
theorem copyErrOk_of_mem {e : CopyErr} (h : e.code ∈ ([0x0A, 0x0B, 0x0C, 0x12, 0x13, 0x14] : List (BitVec 8))) : copyErrOk e = true := by
  simp only [List.mem_cons, List.not_mem_nil, or_false] at h
  simp only [copyErrOk, Bool.or_eq_true, beq_iff_eq]
  tauto

/-- Settles O46: each clause is the rule of its event, at the core that the event names. -/
theorem coreEvents : Obligations.CoreEvents := by
  unfold Obligations.CoreEvents
  refine ⟨fun s core hcore => ⟨fun rep => rfl, ?bind, ?preempt, ?slice, fun htask => ⟨?watchdog, ?arrive, ?record, ?succ, ?entry⟩, ?reply⟩,
    ⟨fun s core hcore => ⟨?snapst, ?log, fun htask => ⟨?snapld, ?logfull, ?answer, ?ring, fun hmoves => ⟨?mxStart, ?loadEnd, ?arrayEnd⟩, ?drain,
      fun j js hjobs => ⟨?jobStart, ?jobEnd, ?jobFail⟩⟩⟩, fun s d bound => rfl, ?force, fun s launch => ⟨?sstepDie, ?sstepPackage⟩⟩,
    fun s core hcore => ⟨fun hdebug => ⟨?dbgctl, ?goOn⟩, rfl, ?detach⟩⟩
  case bind =>
    intro t hchoice hplace
    change Host.Outcome.next (if core < 352 then s.bindOn core t.launch t.index else s) = _
    rw [if_pos hcore, State.bindOn_of_choice hchoice hplace]
  case preempt =>
    intro hpre hsafe
    change Host.Outcome.next (if core < 352 then (s.takePreempt core).1 else s) = _
    rw [if_pos hcore, State.takePreempt_of_safe hpre hsafe]
  case slice =>
    intro hover
    refine ⟨s.askPreempt core, ?_, State.askPreempt_asks⟩
    change Host.Outcome.next (if core < 352 ∧ s.sliceOver core then s.askPreempt core else s) = _
    rw [if_pos ⟨hcore, hover⟩]
  case watchdog =>
    intro hbudget hcount hat
    exact next_onBound hcore htask (if_pos (State.watchdog_due hbudget hcount hat))
  case arrive =>
    intro k m hm hgood
    exact next_onBound hcore htask (State.arrive_of_miss hm hgood)
  case record =>
    intro va a v pa x w g hva ha hhold halign hlocal hmiss hwalk hread hgot
    exact next_onBound hcore htask (State.fillHeld_of_page hva ha hhold halign hlocal hmiss hwalk hread hgot)
  case succ =>
    intro g v n hcur hgood hnext hsucc htake
    refine next_onBound hcore htask ((if_pos ?_).trans (State.expandSucc_of_next hcur hgood hnext hsucc htake))
    rw [hcur, Option.map_some]
  case entry =>
    intro a v n hcur hlatched hbubbles htake
    refine next_onBound hcore htask ((if_neg ?_).trans ?_)
    · rw [hcur]; simp
    · rw [hlatched]
      dsimp only
      rw [if_pos ⟨rfl, hcur, hbubbles⟩, State.expandEntry_eq htake]
      rfl
  case reply =>
    intro l t launch index ht hparked hpark
    refine ⟨fun bs v hrest hwrite => ?_, fun c d hc => ?_, fun c d hc => ?_⟩
    · rw [exec_remoteReply _ ht hparked hpark, State.replyTo_value hrest hwrite]
    · rw [exec_remoteReply _ ht hparked hpark, State.replyTo_error (State.replyError_trap hc)]
    · rw [exec_remoteReply _ ht hparked hpark, State.replyTo_error (State.replyError_kill hc)]
  case snapst =>
    intro a im n hops hn
    exact congrArg Host.Outcome.next (State.onAny_eq hcore (State.snapSettle_of_due hops rfl hn))
  case log =>
    intro r c d hasked hr
    refine ⟨fun bs => ?_, fun hc => ?_⟩
    · rw [exec_syncOpComplete_of_log _ hcore hasked, State.recordDone_value hr]
    · rw [exec_syncOpComplete_of_log _ hcore hasked, State.recordDone_error hr hc]
  case snapld =>
    intro p n hops hn
    exact next_onBound hcore htask (State.snapSettle_of_due hops rfl hn)
  case logfull =>
    intro t hsince hdue
    exact next_onBound hcore htask (State.logTimeout_of_due hsince (hdue.trans_eq (State.focus_time s core).symm))
  case answer =>
    intro r d hasked hnone hfits hvalue
    rw [exec_syncOpComplete_of_held hcore hasked hnone hvalue]
    refine next_onBound hcore htask (State.takeAnswer_of_fits (d := d) ?_ ?_ hfits)
    · rw [State.focus_core, hasked]
    · rw [State.focus_core, hnone]
  case ring =>
    intro ring k v h c w hheld hwords hready
    refine ⟨_, next_onBound hcore htask ?_, _, rfl, rfl⟩
    dsimp only
    rw [hheld]
    exact State.ringTry_of_ready hwords hready
  case mxStart =>
    intro c rest hqueue hready
    refine next_onBound hcore htask ((if_neg ?_).trans (State.mxStart_of_ready hqueue hready rfl))
    rw [hmoves]; exact Bool.false_ne_true
  case loadEnd =>
    intro c hload hlast harray
    refine next_onBound hcore htask ((if_neg (by simp [hmoves])).trans ?_)
    have hcycle : (if (s.focus core).core.mx.load.any fun c => decide (c.length ≤ c.done + 1) then (s.focus core).loadCycle else s.focus core) =
        (s.focus core).loadEnd c := by
      rw [if_pos (by simp [hload, hlast]), State.loadCycle_of_last hload hlast]
    rw [hcycle]
    exact if_neg (by simp [State.loadEnd_array, harray])
  case arrayEnd =>
    intro c hload harray hlast
    refine next_onBound hcore htask ((if_neg (by simp [hmoves])).trans ?_)
    have hcycle : (if (s.focus core).core.mx.load.any fun c => decide (c.length ≤ c.done + 1) then (s.focus core).loadCycle else s.focus core) =
        s.focus core := if_neg (by simp [hload])
    rw [hcycle]
    exact if_pos (by simp [harray, hlast])
  case drain =>
    intro hdrain hrun hpass
    refine next_onBound hcore htask (if_pos ?_)
    simp [hdrain, hrun, hpass]
  case jobStart =>
    intro hidle hmoves hfree
    exact next_onBound hcore htask (State.jobStart_of_free hjobs hidle hmoves hfree rfl)
  case jobEnd =>
    intro r t hrun hmoves hreach hr hlost hwait hrecords
    exact next_onBound hcore htask (State.jobEnd_of_done hjobs hrun hmoves hreach hr hlost hwait hrecords)
  case jobFail =>
    intro e r t hrun hcode hr hlost hrecords
    exact next_onBound hcore htask ((if_pos (copyErrOk_of_mem hcode)).trans (State.jobFailAt_of_lost hjobs hrun hr hlost hrecords))
  case force =>
    intro s dev r hdev
    exact exec_syncOpComplete_of_device r hdev
  case sstepDie =>
    intro d hd hsome hall
    change Host.Outcome.next (if d < 4 then s.sstepRelease launch d else s) = _
    rw [if_pos hd, State.sstepRelease_of_arrived hsome hall, if_neg (by omega)]
  case sstepPackage =>
    intro d hsome hall
    change Host.Outcome.next (s.sstepRelease launch 4) = _
    rw [State.sstepRelease_of_arrived hsome hall, if_pos rfl]
  case dbgctl =>
    intro v
    change Host.Outcome.next (if core < 352 ∧ s.root.debugger then _ else s) = _
    rw [if_pos ⟨hcore, hdebug⟩]
  case goOn =>
    have hstays : ((s.focus core).debugContinue).coreId = core := (State.debugContinue_outside _).2.2.trans (State.focus_coreId s core)
    refine ⟨s.onCore core State.debugContinue, ?_, (State.onCore_debugContinue s core).1, (State.onCore_debugContinue s core).2, ?_⟩
    · change Host.Outcome.next (if core < 352 ∧ s.root.debugger then _ else s) = _
      rw [if_pos ⟨hcore, hdebug⟩]
    · rw [State.coreAt_onCore hstays]
      exact State.debugContinue_runs _
  case detach =>
    obtain ⟨hmem, hroot⟩ := State.continueAll_outside (s.modRoot fun r => { r with debugger := false })
      ((s.modRoot fun r => { r with debugger := false }).liveCores.filter fun c => ((s.modRoot fun r => { r with debugger := false }).coreAt c).front.halted)
    exact ⟨_, rfl, hroot, hmem⟩

end Sys2Proof.Machine
end

section
/-! The step as the run of a decoded syllable (spec 01_task.md R19, R22; 02_encoding.md R57, R58, R60): what the decoder answers for a slot, how a
cycle reaches the lowest slot of the next bundle, and what the slot's outcome makes of the cycle. -/

namespace Sys2Proof.Machine

/-! ### The decoder at a slot -/

/-- The table's decoder and the issue end read one syllable from a word. -/
theorem decodeTableWord_of_decodeSyl {w : Nat} {y : Syl} (hw : w < 2 ^ 32) (hy : decodeSyl w = .ok y) : decodeTableWord 32 w = some y.toInstr := by
  have hbytes : decodeBytes (leBytes 4 w) = .ok y.toInstr := by
    have hword : leNat (leBytes 4 w) = w := by rw [leNat_leBytes]; omega
    have hlen : (leBytes 4 w).length = 4 := rfl
    rw [decodeBytes, if_pos hlen, hword, decode, hy]
  rw [decodeTableWord, if_pos rfl, hbytes]

theorem decodeSyl_of_slotSyl {k w : Nat} {y : Syl} (h : State.slotSyl (k, w) = some y) : decodeSyl w = .ok y := by
  rw [State.slotSyl] at h
  split at h
  · split at h
    · next hdec => rw [hdec, Option.some.inj h]
    · cases h
  · cases h

/-- A word whose opcode may not stand in the slot, or that does not decode, is no syllable there (R57, R58). -/
theorem slotSyl_eq_none {k w : Nat} (h : slotAdmits (fld w 25 7) k = false ∨ ∃ e, decodeSyl w = .error e) : State.slotSyl (k, w) = none := by
  rw [State.slotSyl]
  split
  · next hadmit =>
    obtain hslot | ⟨e, he⟩ := h
    · exact absurd hadmit (by simp [hslot])
    · simp only [he]
  · rfl

theorem decodeSyl_guard {w : Nat} (h : fld w 25 7 = 0 ∨ fld w 25 7 = 0x7F) : decodeSyl w = .error .guardOpcode := by
  rw [decodeSyl]
  obtain h | h := h
  · rw [h]; rfl
  · rw [h]; rfl

/-! ### Outcomes -/

/-- What a part of the cycle that follows makes of an outcome: it acts on the next state and passes a fault or a refusal on. -/
def outMap (f : State → State) : Out → Out
  | .next t => .next (f t)
  | .fault e => .fault e
  | .refused e => .refused e

@[simp] theorem outMap_next (f : State → State) (t : State) : outMap f (.next t) = .next (f t) := rfl

namespace State

/-! ### The slots -/

/-- The syllable of the lowest slot left raises ILLEGAL when its word is no syllable of the slot. -/
theorem runSlots_of_undecoded {s : State} {r : Run} {k w : Nat} {rest : List (Nat × Nat)} (n : Nat) (hrun : s.core.front.run = some r)
    (htodo : r.todo = (k, w) :: rest) (hbad : r.bad = some k ∨ slotSyl (k, w) = none) :
    runSlots (n + 1) s = .next (s.modRun fun r => { r with slot := k, word := w }).illegal := by
  have hsyl : (if r.bad == some k then none else slotSyl (k, w)) = none := by
    obtain hbad | hnone := hbad
    · simp [hbad]
    · simp [hnone]
  simp only [runSlots, hrun, htodo, hsyl]

/-- What the outcome of the lowest slot's syllable makes of the slots after it: a trap, a halt or a hold ends them, else they run. -/
def slotThen (n : Nat) : Out → Out
  | .next t =>
    if t.core.front.run.isNone then .next t
    else if t.core.front.halted then .next t.dropHead
    else if t.core.front.hold != .none then .next t
    else runSlots n t.dropHead.noteEnded
  | .fault e => .fault e
  | .refused e => .refused e

/-- The syllable of the lowest slot left executes as the instruction that it is. -/
theorem runSlots_of_decoded {s q : State} {r : Run} {k w : Nat} {rest : List (Nat × Nat)} {y : Syl} (n : Nat) (hrun : s.core.front.run = some r)
    (htodo : r.todo = (k, w) :: rest) (hbad : r.bad ≠ some k) (hsyl : slotSyl (k, w) = some y)
    (hq : q = s.modRun fun r => { r with slot := k, word := w }) (hmiss : q.readMiss y true = none) :
    runSlots (n + 1) s = slotThen n (exec y.toInstr q) := by
  have hslot : (if r.bad == some k then none else slotSyl (k, w)) = some y := by simp [hbad, hsyl]
  simp only [runSlots, hrun, htodo, hslot, ← hq, hmiss, sylExec_eq]
  rfl

/-- The bundle ends when no syllable is left and none holds or halted it. -/
def endIfDone (t : State) : State :=
  match t.core.front.run with
  | none => t
  | some r => if r.todo.isEmpty && !t.core.front.halted && t.core.front.hold == .none then t.endBundle else t

theorem endIfDone_of_none {t : State} (h : t.core.front.run = none) : t.endIfDone = t := by
  simp only [endIfDone, h]

theorem endIfDone_of_halted {t : State} (h : t.core.front.halted = true) : t.endIfDone = t := by
  rw [endIfDone]
  split
  · rfl
  · rw [h]; simp

theorem endIfDone_of_hold {t : State} (h : t.core.front.hold ≠ .none) : t.endIfDone = t := by
  rw [endIfDone]
  split
  · rfl
  · simp [h]

theorem runBundle_eq {s : State} {r : Run} (hrun : s.core.front.run = some r) : s.runBundle = outMap endIfDone (runSlots r.todo.length s) := by
  simp only [runBundle, hrun, Option.map_some, Option.getD_some]
  cases runSlots r.todo.length s <;> rfl

/-! ### The way to the lowest slot of the next bundle -/

/-- No gate, no missed load and no stall of the bundle's syllables, and no member of the core's group, holds the bundle: it issues. -/
theorem tryIssue_of_open {c : State} {r : Run} (htodo : r.todo ≠ [])
    (hopen : ∀ e ∈ r.todo, ∀ z, slotSyl (e.1, e.2) = some z →
      (c.modFront fun f => { f with run := some r }).gateClosed z = false ∧ (c.modFront fun f => { f with run := some r }).readMiss z false = none ∧
      (c.modFront fun f => { f with run := some r }).stallOf e z = none)
    (hgo : (c.fuseEntry true).fuseGo = true) :
    c.tryIssue r = (((c.fuseEntry true).notePreempt.modFront fun f => { f with reenter := none, idemNext := false, marked := false }).modFront
      fun f => { f with run := some r }).runBundle := by
  have hsyls : ∀ e ∈ (r.todo.takeWhile fun w => r.bad.all fun k => decide (w.1 < k)).filterMap fun w => (slotSyl w).map fun y => (w, y),
      e.1 ∈ r.todo ∧ slotSyl e.1 = some e.2 := by
    intro e he
    obtain ⟨w, hw, hmap⟩ := List.mem_filterMap.mp he
    obtain ⟨y, hy, rfl⟩ := Option.map_eq_some_iff.mp hmap
    exact ⟨(List.takeWhile_sublist _).subset hw, hy⟩
  rw [tryIssue]
  dsimp only
  generalize ((r.todo.takeWhile fun w => r.bad.all fun k => decide (w.1 < k)).filterMap fun w => (slotSyl w).map fun y => (w, y)) = syls at hsyls ⊢
  have hgates : ¬(syls.any fun e => (c.modFront fun f => { f with run := some r }).gateClosed e.2) = true := by
    simp only [List.any_eq_true, not_exists, not_and]
    intro e he
    simp [(hopen e.1 (hsyls e he).1 e.2 (hsyls e he).2).1]
  have hmisses : ¬(syls.any fun e => ((c.modFront fun f => { f with run := some r }).readMiss e.2 false).isSome) = true := by
    simp only [List.any_eq_true, not_exists, not_and]
    intro e he
    simp [(hopen e.1 (hsyls e he).1 e.2 (hsyls e he).2).2.1]
  have hstalls : (syls.findSome? fun e => (c.modFront fun f => { f with run := some r }).stallOf e.1 e.2) = none :=
    List.findSome?_eq_none_iff.mpr fun e he => (hopen e.1 (hsyls e he).1 e.2 (hsyls e he).2).2.2
  have hfull : ¬(r.todo.isEmpty && fld r.hdr 24 8 == 0) = true := by simp [htodo]
  rw [if_neg hgates, if_neg hmisses, hstalls]
  dsimp only
  rw [hgo, if_neg (by simp), if_neg hfull]

/-- The bundle at a position of the current segment is entered and its region marked, when its header is legal and it is no re-entry. -/
theorem enterBundle_of_fresh {t d c : State} {p : Nat} {g : Segment} {b : Stored} {ib : Bool} (hcur : t.core.front.cur = some g)
    (hb : g.bundles[p]? = some b) (hfresh : t.core.front.reenter = none) (hib : ib = (bitAt b.hdr 18 || t.core.front.idemNext))
    (hlegal : t.headerIllegal b.hdr b.words ib = false)
    (hd : d = if ib && !t.core.front.marked then ((t.markRegion (g.frame + b.off)).modTask fun b => { b with idem := t.core.front.idemNext }).modFront
      fun f => { f with marked := true } else t)
    (hacq : d.entryAcquire = (c, .done)) : t.enterBundle p = c.tryIssue (c.runOf (g.frame + b.off) p b ib) := by
  have hat : (t.core.front.cur.bind fun g => (g.bundles[p]?).map fun b => (g.frame + b.off, b)) = some (g.frame + b.off, b) := by
    rw [hcur, Option.bind_some, hb, Option.map_some]
  have hresume : t.resumeSnap = t := by rw [resumeSnap, hfresh]
  rw [enterBundle, hat]
  dsimp only
  simp only [hresume, hfresh, Option.map_none, Option.getD_none, Bool.or_false, beq_self_eq_true, Bool.true_and, Bool.and_true]
  rw [← hib, hlegal, if_neg Bool.false_ne_true, ← hd, hacq]

theorem enter_at {s t : State} {p : Nat} (n : Nat) (h : s.due = (t, .at p)) : enter (n + 1) s = t.enterBundle p := by
  rw [enter, h]

/-- A cycle without a bundle that has begun, a hold of the cluster, a counted cycle or a pre-emption enters the next bundle. -/
theorem issue_of_entry {u v : State} (hrun : u.core.front.run = none) (hheld : u.clusterHeld = false) (hbubbles : u.core.front.bubbles = 0)
    (hempty : u.core.front.emptyLeft = 0) (hpre : u.takePreempt u.coreId = (v, false)) : u.issue = enter 3 v := by
  have hrun' : ¬u.core.front.run.isSome = true := by simp [hrun]
  have hheld' : ¬u.clusterHeld = true := by simp [hheld]
  have hcounted : ¬(0 < u.core.front.bubbles ∨ 0 < u.core.front.emptyLeft) := by omega
  rw [issue, if_neg hrun', if_neg hheld', if_neg hcounted, hpre]

end State

/-- A step with an empty agenda, on a core with a task that neither ends nor leaves, is its issue and the end of its cycle. -/
theorem step_of_issue {s u : State} (hagenda : s.agenda = []) (htask : s.beginCycle.core.task.isSome = true)
    (hhalted : s.beginCycle.core.front.halted = false) (hu : u = s.beginCycle.boundaryKill.modFront fun f => { f with hold := .none })
    (hlive : s.beginCycle.boundaryKill.core.task.isSome = true) (hstay : u.core.front.leaving = none) :
    step s = outMap (fun t => t.endCycle.settleLease) u.issue := by
  have hruns : ¬(s.beginCycle.core.task.isNone || s.beginCycle.core.front.halted) = true := by
    simp [Option.isSome_iff_ne_none.mp htask, hhalted]
  have hbound : ¬s.beginCycle.boundaryKill.core.task.isNone = true := by simp [Option.isSome_iff_ne_none.mp hlive]
  rw [step, State.moveOn, State.move, hagenda]
  dsimp only
  rw [State.cycle]
  dsimp only
  rw [if_neg hruns, if_neg hbound, ← hu, hstay]
  dsimp only
  cases u.issue <;> rfl

/-- A well-formed event that heads the agenda is executed as the instruction it is. -/
theorem step_of_event {s : State} {i : Instr} {l : List Move} (hagenda : s.agenda = .event i :: l) (hwf : i.wf = true) (henc : encode i = none) :
    step s = outMap State.settleLease (exec i { s with agenda := l }) := by
  have hok : State.eventOk i = true := by simp [State.eventOk, hwf, henc]
  rw [step, State.moveOn, State.move, hagenda]
  dsimp only
  rw [if_pos hok]
  cases exec i { s with agenda := l } <;> rfl

/-- Settles O54: a cycle is led to the lowest slot of its bundle, hypothesis by hypothesis, and `slotThen` and `endIfDone` say what the slot's outcome makes of
it. -/
theorem stepRunsDecoded : Obligations.StepRunsDecoded := by
  unfold Obligations.StepRunsDecoded
  refine ⟨⟨?decoded, ?event, ?bundle⟩, ?undecoded⟩
  case decoded =>
    intro k w y i hw hdec hadmits hsyl
    rw [decodeTableWord_of_decodeSyl hw (decodeSyl_of_slotSyl hsyl)] at hdec
    exact Option.some.inj hdec
  case event =>
    intro s i l hagenda hwf henc
    rw [step_of_event hagenda hwf henc]
    cases exec i { s with agenda := l } <;> rfl
  case bundle =>
    intro s u v t c e q d p k w rest g b ib y r hagenda htask hhalted hu hlive hstay hrun hheld hbubbles hempty hpre hdue hcur hb hfresh hfresh' hib
      hlegal hd hacq he hgo hwords hr hbad hopen hsyl hq hmiss
    subst he
    have htodo : r.todo = (k, w) :: rest := by rw [hr, State.runOf, hfresh', ← hwords]
    have hslots : (((c.fuseEntry true).notePreempt.modFront fun f => { f with reenter := none, idemNext := false, marked := false }).modFront
        fun f => { f with run := some r }).runSlots r.todo.length = State.slotThen rest.length (exec y.toInstr q) := by
      rw [htodo, List.length_cons]
      exact State.runSlots_of_decoded rest.length rfl htodo hbad hsyl hq hmiss
    have hstep : step s = outMap (fun t => t.endCycle.settleLease) (outMap State.endIfDone (State.slotThen rest.length (exec y.toInstr q))) := by
      rw [step_of_issue hagenda htask hhalted hu hlive hstay, State.issue_of_entry hrun hheld hbubbles hempty hpre, State.enter_at 2 hdue,
        State.enterBundle_of_fresh hcur hb hfresh hib hlegal hd hacq, ← hr,
        State.tryIssue_of_open (by simp [htodo]) (by rwa [htodo, ← hwords]) hgo, State.runBundle_eq rfl, hslots]
    cases hx : exec y.toInstr q with
    | next n =>
      dsimp only
      rw [hstep, hx, State.slotThen]
      by_cases hend : n.core.front.run = none
      · rw [if_pos (.inl (by simp [hend])), if_pos (by simp [hend]), outMap_next, State.endIfDone_of_none hend, outMap_next]
      · have hsome : ¬n.core.front.run.isNone = true := by simpa using hend
        rw [if_neg hsome]
        by_cases hhalt : n.core.front.halted = true
        · rw [if_pos hhalt, if_neg (by simp [hend, hhalt]), if_pos hhalt, outMap_next, State.endIfDone_of_halted (t := n.dropHead) hhalt, outMap_next]
        · rw [if_neg hhalt, if_neg hhalt]
          by_cases hhold : n.core.front.hold = .none
          · rw [if_neg (by simp [hend, hhold]), if_neg (by simp [hhold])]
            cases State.runSlots rest.length n.dropHead.noteEnded <;> rfl
          · rw [if_pos (.inr ⟨by simpa using hhalt, hhold⟩), if_pos (by simp [hhold]), outMap_next, State.endIfDone_of_hold hhold, outMap_next]
    | fault e => rw [hstep, hx]; rfl
    | refused e => rw [hstep, hx]; rfl
  case undecoded =>
    intro s r n k w rest hrun htodo h
    refine ⟨State.runSlots_of_undecoded n hrun htodo ?_, decodeSyl_guard⟩
    obtain hbad | hno := h
    · exact .inl hbad
    · exact .inr (slotSyl_eq_none hno)

end Sys2Proof.Machine
end

section
/-! Reset (spec 13_package.md R333, R338): what the package register window reads right after reset. -/

namespace Sys2Proof.Machine

/-- Past the identity and journal blocks, every master reads the same right after reset: the window answers (R338), and no other block has a register
of one master. -/
theorem State.regRead_reset (m : Nat) {off : Nat} (h : 0x2000 ≤ off) : State.reset.regRead m off = State.reset.regRead 2 off := by
  have hanswers : ∀ m, ¬(State.reset.root.stage.stage = 0 ∧ State.reset.root.stage.cause = 1 ∧ m ≠ 2) := fun m ⟨_, hcause, _⟩ =>
    absurd hcause (by decide)
  have hidentity : ¬off < 0x1000 := by omega
  have hjournal : ¬off < 0x2000 := by omega
  simp only [State.regRead, if_neg (hanswers m), if_neg (hanswers 2), if_neg hidentity, if_neg hjournal]

/-- Settles O60: each value by evaluation, the registers of the package as one master reads them. -/
theorem resetValues : Obligations.ResetValues := by
  unfold Obligations.ResetValues
  refine ⟨rfl, rfl, rfl, rfl, rfl, rfl, rfl, rfl, fun m => ⟨rfl, rfl, rfl, ?_, ?_, ?_, fun d hd => ?_, fun c hc => ?_, ?_, ?_, ?_, ?_, fun k hk => ?_, ?_⟩⟩
  · rw [State.regRead_reset m (by omega)]; decide
  · rw [State.regRead_reset m (by omega)]; decide
  · rw [State.regRead_reset m (by omega)]; decide
  · simp only [State.regRead_reset m (off := 0x2000 + 0x400 * d) (by omega), State.regRead_reset m (off := 0x2000 + 0x400 * d + 0x8) (by omega),
      State.regRead_reset m (off := 0x2000 + 0x400 * d + 0x10) (by omega), State.regRead_reset m (off := 0x2000 + 0x400 * d + 0x20) (by omega)]
    revert d; decide
  · rw [State.regRead_reset m (by omega)]
    revert c; decide
  · rw [State.regRead_reset m (by omega)]; decide
  · rw [State.regRead_reset m (by omega)]; decide
  · rw [State.regRead_reset m (by omega)]; decide
  · rw [State.regRead_reset m (by omega)]; decide
  · rw [State.regRead_reset m (off := 0x5100 + 0x40 * k) (by omega), State.regRead_reset m (off := 0x7100 + 8 * k) (by omega)]
    revert k; decide
  · rw [State.regRead_reset m (by omega)]; decide

end Sys2Proof.Machine
end

section
/-! Encoding and decoding (spec 02_encoding.md R54 to R59): a word is a sum of fixed bits and of operand fields that stand apart, so each field reads
back as the operand put there; the opcode map says for each instruction which fields those are. -/

namespace Sys2Proof

open Sys2Proof.Machine (fld)

/-! ### Reading one field of a sum of fields -/

/-- What stands above a field does not reach it. -/
theorem fld_add_above {w v k lo n : Nat} (h : lo + n ≤ k) : fld (w + v * 2 ^ k) lo n = fld w lo n := by
  obtain ⟨j, rfl⟩ := Nat.exists_eq_add_of_le h
  have hsplit : v * 2 ^ (lo + n + j) = 2 ^ lo * (2 ^ n * (v * 2 ^ j)) := by ring
  rw [fld, fld, hsplit, Nat.add_mul_div_left _ _ (Nat.two_pow_pos lo), Nat.add_mul_mod_self_left]

/-- A value put where the word holds 0 is what is read there. -/
theorem fld_add_same {w v k m : Nat} (hv : v < 2 ^ m) (hzero : fld w k m = 0) : fld (w + v * 2 ^ k) k m = v := by
  rw [fld] at hzero
  rw [fld, Nat.add_mul_div_right _ _ (Nat.two_pow_pos k), Nat.add_mod, hzero, Nat.zero_add, Nat.mod_mod, Nat.mod_eq_of_lt hv]

/-- A value put where the word holds 0 carries nothing into the bits above it. -/
theorem fld_add_below {w v k m lo n : Nat} (hv : v < 2 ^ m) (hzero : fld w k m = 0) (h : k + m ≤ lo) :
    fld (w + v * 2 ^ k) lo n = fld w lo n := by
  obtain ⟨j, rfl⟩ := Nat.exists_eq_add_of_le h
  have hdrop : (w + v * 2 ^ k) / 2 ^ k / 2 ^ m = w / 2 ^ k / 2 ^ m := by
    rw [fld] at hzero
    rw [Nat.add_mul_div_right _ _ (Nat.two_pow_pos k), Nat.add_div_of_dvd_right (Nat.dvd_of_mod_eq_zero hzero), Nat.div_eq_of_lt hv, Nat.add_zero]
  simp only [fld, pow_add, ← Nat.div_div_eq_div_mul, hdrop]

/-! ### Words made of operand fields -/

/-- The fields of a format from bit 0 upwards, each with its lowest bit and its width (R54). -/
abbrev Layout := List (Nat × Nat)

/-- A value for each field of a layout, in the field's range. -/
def Layout.Values : Layout → Type
  | [] => Unit
  | (_, n) :: l => Fin (2 ^ n) × Layout.Values l

/-- A value where the encoder puts it: times a power of two, but in the lowest field. -/
def placed (v : Nat) : Nat → Nat
  | 0 => v
  | k + 1 => v * 2 ^ (k + 1)

theorem placed_eq (v k : Nat) : placed v k = v * 2 ^ k := by
  cases k <;> simp [placed]

/-- The word with `c` in its fixed fields and the values in their places. -/
def Layout.word (c : Nat) : {l : Layout} → Values l → Nat
  | [], _ => c
  | (lo, _) :: _, (v, vs) => word c vs + placed v.val lo

/-- Does no field of the layout meet the bits [lo+n-1:lo]? -/
def Layout.avoids (l : Layout) (lo n : Nat) : Bool := l.all fun f => decide (f.1 + f.2 ≤ lo) || decide (lo + n ≤ f.1)

/-- Are the fields apart from each other, within 32 bits, and 0 in the fixed word? -/
def Layout.fits (c : Nat) : Layout → Bool
  | [] => decide (c < 2 ^ 32)
  | (lo, n) :: l => decide (lo + n ≤ 32) && (fld c lo n == 0 && (avoids l lo n && fits c l))

/-- The values, read from a word. -/
def Layout.Holds (w : Nat) : {l : Layout} → Values l → Prop
  | [], _ => True
  | (lo, n) :: _, (v, vs) => fld w lo n = v.val ∧ Holds w vs

theorem Layout.avoids_cons {k m lo n : Nat} {l : Layout} :
    avoids ((k, m) :: l) lo n = true ↔ (k + m ≤ lo ∨ lo + n ≤ k) ∧ avoids l lo n = true := by
  simp [avoids]

theorem Layout.fits_cons {c k m : Nat} {l : Layout} :
    fits c ((k, m) :: l) = true ↔ k + m ≤ 32 ∧ fld c k m = 0 ∧ avoids l k m = true ∧ fits c l = true := by
  simp [fits]

theorem Layout.lt_of_fits {c : Nat} {l : Layout} (h : fits c l = true) : c < 2 ^ 32 := by
  induction l with
  | nil => simpa [fits] using h
  | cons f l ih => exact ih (fits_cons.mp h).2.2.2

/-- Nothing of a layout that fits stands above bit 31. -/
theorem Layout.avoids_of_fits {c : Nat} {l : Layout} (h : fits c l = true) (n : Nat) : avoids l 32 n = true := by
  induction l with
  | nil => rfl
  | cons f l ih =>
    obtain ⟨htop, -, -, hrest⟩ := fits_cons.mp h
    exact avoids_cons.mpr ⟨.inl htop, ih hrest⟩

/-- Bits that no field meets are those of the fixed word. -/
theorem Layout.fld_word_of_avoids {c : Nat} {l : Layout} (vs : Values l) (hfits : fits c l = true) {lo n : Nat} (h : avoids l lo n = true) :
    fld (word c vs) lo n = fld c lo n := by
  induction l generalizing lo n with
  | nil => rfl
  | cons f l ih =>
    obtain ⟨k, m⟩ := f
    obtain ⟨v, vs⟩ := vs
    obtain ⟨-, hc, hapart, hrest⟩ := fits_cons.mp hfits
    obtain ⟨hside, h⟩ := avoids_cons.mp h
    have hzero : fld (word c vs) k m = 0 := (ih vs hrest hapart).trans hc
    rw [word, placed_eq]
    obtain hbelow | habove := hside
    · rw [fld_add_below v.isLt hzero hbelow, ih vs hrest h]
    · rw [fld_add_above habove, ih vs hrest h]

/-- Another field's value leaves the values as they are. -/
theorem Layout.Holds.add {l : Layout} {vs : Values l} {w v k m : Nat} (h : Holds w vs) (hv : v < 2 ^ m) (hzero : fld w k m = 0)
    (hapart : avoids l k m = true) : Holds (w + v * 2 ^ k) vs := by
  induction l with
  | nil => trivial
  | cons f l ih =>
    obtain ⟨u, us⟩ := vs
    obtain ⟨hside, hapart⟩ := avoids_cons.mp hapart
    refine ⟨?_, ih h.2 hapart⟩
    obtain hbelow | habove := hside
    · rw [fld_add_above hbelow, h.1]
    · rw [fld_add_below hv hzero habove, h.1]

/-- Each field reads back as its value. -/
theorem Layout.holds_word {c : Nat} {l : Layout} (vs : Values l) (hfits : fits c l = true) : Holds (word c vs) vs := by
  induction l with
  | nil => trivial
  | cons f l ih =>
    obtain ⟨k, m⟩ := f
    obtain ⟨v, vs⟩ := vs
    obtain ⟨-, hc, hapart, hrest⟩ := fits_cons.mp hfits
    have hzero : fld (word c vs) k m = 0 := (fld_word_of_avoids vs hrest hapart).trans hc
    rw [word, placed_eq]
    exact ⟨fld_add_same v.isLt hzero, (ih vs hrest).add v.isLt hzero hapart⟩

theorem Layout.word_lt {c : Nat} {l : Layout} (vs : Values l) (hfits : fits c l = true) : word c vs < 2 ^ 32 := by
  have hc : c < 2 ^ 32 := lt_of_fits hfits
  have habove : ∀ n, word c vs / 2 ^ 32 % 2 ^ n = 0 := fun n => by
    rw [← fld, fld_word_of_avoids vs hfits (avoids_of_fits hfits n), fld, Nat.div_eq_of_lt hc, Nat.zero_mod]
  have hzero := habove (word c vs / 2 ^ 32)
  rw [Nat.mod_eq_of_lt Nat.lt_two_pow_self] at hzero
  exact (Nat.div_eq_zero_iff_lt (Nat.two_pow_pos 32)).mp hzero

/-! ### Operands as field values

The code of an operand is a value of a field of the code's width, and the decoder's table takes it back to the operand. -/

def VTy.fin (t : VTy) : Fin (2 ^ 3) := ⟨vTyCode t, by cases t <;> decide⟩
def MSize.fin (z : MSize) : Fin (2 ^ 3) := ⟨mSizeCode z, by cases z <;> decide⟩
def RMode.fin (r : RMode) : Fin (2 ^ 2) := ⟨rModeCode r, by cases r <;> decide⟩
def Scope.fin (s : Scope) : Fin (2 ^ 4) := ⟨scopeCode s, by cases s <;> decide⟩
def CWidth.fin (c : CWidth) : Fin (2 ^ 2) := ⟨cWidthCode c, by cases c <;> decide⟩
def FClass.fin (c : FClass) : Fin (2 ^ 2) := ⟨fClassCode c, by cases c <;> decide⟩
def MPair.fin (p : MPair) : Fin (2 ^ 3) := ⟨mPairCode p, by cases p <;> decide⟩
def CLevel.fin (l : CLevel) : Fin (2 ^ 3) := ⟨cLevelCode l, by cases l <;> decide⟩
def bitFin (b : Bool) : Fin (2 ^ 1) := ⟨bitCode b, by cases b <;> decide⟩

@[simp] theorem VTy.vTyOf_fin (t : VTy) : vTyOf t.fin = some t := by cases t <;> rfl
@[simp] theorem MSize.mSizeOf_fin (z : MSize) : mSizeOf z.fin = some z := by cases z <;> rfl
@[simp] theorem RMode.rModeOf_fin (r : RMode) : rModeOf r.fin = some r := by cases r <;> rfl
@[simp] theorem Scope.scopeOf_fin (s : Scope) : scopeOf s.fin = some s := by cases s <;> rfl
@[simp] theorem CWidth.cWidthOf_fin (c : CWidth) : cWidthOf c.fin = some c := by cases c <;> rfl
@[simp] theorem FClass.fClassOf_fin (c : FClass) : fClassOf c.fin = some c := by cases c <;> rfl
@[simp] theorem MPair.mPairOf_fin (p : MPair) : mPairOf p.fin = some p := by cases p <;> rfl
@[simp] theorem CLevel.cLevelOf_fin (l : CLevel) : cLevelOf l.fin = some l := by cases l <;> rfl
@[simp] theorem bitFin_beq_one (b : Bool) : ((bitFin b : Nat) == 1) = b := by cases b <;> rfl

/-! ### Rows of the opcode map (R57, R59) -/

@[simp] theorem withReserved_true (r : Except DecodeError Syl) : withReserved true r = r := rfl

theorem decode_eq_map (w : Nat) : decode w = (decodeSyl w).map Syl.toInstr := by
  rw [decode]
  cases decodeSyl w <;> rfl

/-- A row of the opcode map (R59): the decoder of its opcode, its operand fields, and the operands that stand in them. -/
structure OpRow where
  decoder : Nat → Except DecodeError Syl
  layout : Layout
  operands : Layout.Values layout

/-- The word that `i` encodes to is made of the row's operands and fixed bits `c`, and decodes to `i`. -/
def OpRow.Recovers (r : OpRow) (i : Instr) : Prop :=
  ∃ c, encode i = some (Layout.word c r.operands) ∧ Layout.fits c r.layout = true ∧ (i.wf = true → decode (Layout.word c r.operands) = .ok i)

/-- It is enough that the opcode selects the row's decoder, and that this decoder answers `i` for the operands in their fields and the fixed bits
elsewhere. -/
theorem OpRow.Recovers.intro {i : Instr} {decoder : Nat → Except DecodeError Syl} {l : Layout} {vs : Layout.Values l} {c : Nat}
    (hword : encode i = some (Layout.word c vs)) (hfits : Layout.fits c l = true) (hopcode : Layout.avoids l 25 7 = true)
    (hselect : ∀ w, fld w 25 7 = c / 2 ^ 25 % 2 ^ 7 → decodeSyl w = decoder w)
    (hdecode : ∀ w, Layout.Holds w vs → (∀ lo n, Layout.avoids l lo n = true → fld w lo n = c / 2 ^ lo % 2 ^ n) →
      accept i = .ok (.instr i) → (decoder w).map Syl.toInstr = .ok i) : OpRow.Recovers ⟨decoder, l, vs⟩ i := by
  refine ⟨c, hword, hfits, fun hwf => ?_⟩
  have hfixed {lo n : Nat} (h : Layout.avoids l lo n = true) : fld (Layout.word c vs) lo n = c / 2 ^ lo % 2 ^ n :=
    Layout.fld_word_of_avoids vs hfits h
  rw [decode_eq_map, hselect _ (hfixed hopcode)]
  exact hdecode _ (Layout.holds_word vs hfits) (fun _ _ => hfixed) (if_pos hwf)

/-- The rows of the scalar instructions, opcodes 0x01 to 0x1F. -/
def scalarRow : Instr → Option OpRow
  | .add d a b q | .addW d a b q => some ⟨decodeOp01, [(0, 3), (7, 6), (13, 6), (19, 6)], q.toFin, b.toFin, a.toFin, d.toFin, ()⟩
  | .sub d a b q | .subW d a b q => some ⟨decodeOp02, [(0, 3), (7, 6), (13, 6), (19, 6)], q.toFin, b.toFin, a.toFin, d.toFin, ()⟩
  | .and d a b q | .andW d a b q => some ⟨decodeOp03, [(0, 3), (7, 6), (13, 6), (19, 6)], q.toFin, b.toFin, a.toFin, d.toFin, ()⟩
  | .or d a b q | .orW d a b q => some ⟨decodeOp04, [(0, 3), (7, 6), (13, 6), (19, 6)], q.toFin, b.toFin, a.toFin, d.toFin, ()⟩
  | .xor d a b q | .xorW d a b q => some ⟨decodeOp05, [(0, 3), (7, 6), (13, 6), (19, 6)], q.toFin, b.toFin, a.toFin, d.toFin, ()⟩
  | .shl d a b q | .shlW d a b q => some ⟨decodeOp06, [(0, 3), (7, 6), (13, 6), (19, 6)], q.toFin, b.toFin, a.toFin, d.toFin, ()⟩
  | .shr d a b q | .shrW d a b q => some ⟨decodeOp07, [(0, 3), (7, 6), (13, 6), (19, 6)], q.toFin, b.toFin, a.toFin, d.toFin, ()⟩
  | .sra d a b q | .sraW d a b q => some ⟨decodeOp08, [(0, 3), (7, 6), (13, 6), (19, 6)], q.toFin, b.toFin, a.toFin, d.toFin, ()⟩
  | .addi d a i => some ⟨decodeOp09, [(0, 13), (13, 6), (19, 6)], i.toFin, a.toFin, d.toFin, ()⟩
  | .andi d a i => some ⟨decodeOp0A, [(0, 13), (13, 6), (19, 6)], i.toFin, a.toFin, d.toFin, ()⟩
  | .ori d a i => some ⟨decodeOp0B, [(0, 13), (13, 6), (19, 6)], i.toFin, a.toFin, d.toFin, ()⟩
  | .xori d a i => some ⟨decodeOp0C, [(0, 13), (13, 6), (19, 6)], i.toFin, a.toFin, d.toFin, ()⟩
  | .shli d a n | .shri d a n | .srai d a n => some ⟨decodeOp0D, [(0, 7), (13, 6), (19, 6)], n.toFin, a.toFin, d.toFin, ()⟩
  | .lui d i => some ⟨decodeOp0E, [(0, 19), (19, 6)], i.toFin, d.toFin, ()⟩
  | .aub d i => some ⟨decodeOp0F, [(0, 19), (19, 6)], i.toFin, d.toFin, ()⟩
  | .mul d a b q | .mulh d a b q | .mulhu d a b q => some ⟨decodeOp10, [(0, 3), (7, 6), (13, 6), (19, 6)], q.toFin, b.toFin, a.toFin, d.toFin, ()⟩
  | .div d a b q | .divu d a b q | .rem d a b q | .remu d a b q =>
    some ⟨decodeOp11, [(0, 3), (7, 6), (13, 6), (19, 6)], q.toFin, b.toFin, a.toFin, d.toFin, ()⟩
  | .min d a b q | .max d a b q | .minu d a b q | .maxu d a b q =>
    some ⟨decodeOp12, [(0, 3), (7, 6), (13, 6), (19, 6)], q.toFin, b.toFin, a.toFin, d.toFin, ()⟩
  | .slt d a b q | .sltu d a b q | .seq d a b q | .sne d a b q =>
    some ⟨decodeOp13, [(0, 3), (7, 6), (13, 6), (19, 6)], q.toFin, b.toFin, a.toFin, d.toFin, ()⟩
  | .slti d a i => some ⟨decodeOp14, [(0, 13), (13, 6), (19, 6)], i.toFin, a.toFin, d.toFin, ()⟩
  | .sltiu d a i => some ⟨decodeOp15, [(0, 13), (13, 6), (19, 6)], i.toFin, a.toFin, d.toFin, ()⟩
  | .sel d a b p q => some ⟨decodeOp16, [(0, 3), (3, 4), (7, 6), (13, 6), (19, 6)], q.toFin, p.toFin, b.toFin, a.toFin, d.toFin, ()⟩
  | .clz d a q | .ctz d a q | .popc d a q => some ⟨decodeOp17, [(0, 3), (13, 6), (19, 6)], q.toFin, a.toFin, d.toFin, ()⟩
  | .bfx d a b q | .bfxu d a b q | .bfi d a b q => some ⟨decodeOp18, [(0, 3), (7, 6), (13, 6), (19, 6)], q.toFin, b.toFin, a.toFin, d.toFin, ()⟩
  | .madd d a b q => some ⟨decodeOp19, [(0, 3), (7, 6), (13, 6), (19, 6)], q.toFin, b.toFin, a.toFin, d.toFin, ()⟩
  | .addsc d a b s q => some ⟨decodeOp1A, [(0, 3), (3, 4), (7, 6), (13, 6), (19, 6)], q.toFin, s.toFin, b.toFin, a.toFin, d.toFin, ()⟩
  | .fadd d a b q | .fsub d a b q | .fmul d a b q | .fmin d a b q | .fmax d a b q =>
    some ⟨decodeOp1B, [(0, 3), (7, 6), (13, 6), (19, 6)], q.toFin, b.toFin, a.toFin, d.toFin, ()⟩
  | .feq d a b q | .flt d a b q | .fle d a b q => some ⟨decodeOp1C, [(0, 3), (7, 6), (13, 6), (19, 6)], q.toFin, b.toFin, a.toFin, d.toFin, ()⟩
  | .fcvtFi d a q | .fcvtIf d a q | .fcvtFu d a q | .fcvtUf d a q => some ⟨decodeOp1D, [(0, 3), (13, 6), (19, 6)], q.toFin, a.toFin, d.toFin, ()⟩
  | .setpEq p a b q | .setpNe p a b q | .setpLt p a b q | .setpLtu p a b q | .setpGe p a b q | .setpGeu p a b q =>
    some ⟨decodeOp1E, [(0, 3), (7, 6), (13, 6), (19, 4)], q.toFin, b.toFin, a.toFin, p.toFin, ()⟩
  | .pand p a b q | .por p a b q | .pxor p a b q => some ⟨decodeOp1F, [(0, 3), (7, 4), (13, 4), (19, 4)], q.toFin, b.toFin, a.toFin, p.toFin, ()⟩
  | .pnot p a q | .pmov p a q => some ⟨decodeOp1F, [(0, 3), (13, 4), (19, 4)], q.toFin, a.toFin, p.toFin, ()⟩
  | _ => none

theorem scalarRow_recovers {i : Instr} {r : OpRow} (hr : scalarRow i = some r) : r.Recovers i := by
  cases i <;> cases hr
  all_goals
    refine .intro rfl rfl rfl (fun w hopcode => by rw [decodeSyl, hopcode]; rfl) fun w hholds hfixed haccept => ?_
    simp only [Layout.Holds] at hholds
    simp (disch := decide) [decodeOp01, decodeOp02, decodeOp03, decodeOp04, decodeOp05, decodeOp06, decodeOp07, decodeOp08, decodeOp09, decodeOp0A,
      decodeOp0B, decodeOp0C, decodeOp0D, decodeOp0E, decodeOp0F, decodeOp10, decodeOp11, decodeOp12, decodeOp13, decodeOp14, decodeOp15,
      decodeOp16, decodeOp17, decodeOp18, decodeOp19, decodeOp1A, decodeOp1B, decodeOp1C, decodeOp1D, decodeOp1E, decodeOp1F, hfixed, hholds,
      haccept, Except.map, Syl.toInstr]

/-- The rows of S0 alone and of S1 alone: control, the spire, the copy engine, coding groups and the network (opcodes 0x20 to 0x2F, 0x48 to 0x4F and
0x78 to 0x7E). -/
def controlRow : Instr → Option OpRow
  | .bra q o | .call q o => some ⟨decodeOp20, [(0, 21), (22, 3)], o.toFin, q.toFin, ()⟩
  | .jr a q => some ⟨decodeOp21, [(0, 3), (13, 6)], q.toFin, a.toFin, ()⟩
  | .jrl d a q => some ⟨decodeOp21, [(0, 3), (13, 6), (19, 6)], q.toFin, a.toFin, d.toFin, ()⟩
  | .ret q => some ⟨decodeOp21, [(0, 3)], q.toFin, ()⟩
  | .jtab d a b q => some ⟨decodeOp22, [(0, 3), (7, 6), (13, 6), (19, 6)], q.toFin, b.toFin, a.toFin, d.toFin, ()⟩
  | .loop l a i => some ⟨decodeOp23, [(0, 13), (13, 6), (19, 2)], i.toFin, a.toFin, l.toFin, ()⟩
  | .loopi l n i => some ⟨decodeOp23, [(0, 13), (13, 6), (19, 2)], i.toFin, n.toFin, l.toFin, ()⟩
  | .loopsr a b l q => some ⟨decodeOp24, [(0, 3), (3, 2), (7, 6), (13, 6)], q.toFin, l.toFin, b.toFin, a.toFin, ()⟩
  | .rfence q => some ⟨decodeOp25, [(0, 3)], q.toFin, ()⟩
  | .rfenceA a q => some ⟨decodeOp25, [(0, 3), (13, 6)], q.toFin, a.toFin, ()⟩
  | .idem => some ⟨decodeOp26, [], ()⟩
  | .suspYield q | .suspExit q => some ⟨decodeOp27, [(0, 3)], q.toFin, ()⟩
  | .suspPark a q => some ⟨decodeOp27, [(0, 3), (13, 6)], q.toFin, a.toFin, ()⟩
  | .mfs d s => some ⟨decodeOp28, [(0, 13), (19, 6)], s.toFin, d.toFin, ()⟩
  | .mts a s => some ⟨decodeOp29, [(0, 13), (13, 6)], s.toFin, a.toFin, ()⟩
  | .trap c => some ⟨decodeOp2A, [(0, 13)], c.toFin, ()⟩
  | .trapNz a c => some ⟨decodeOp2A, [(0, 13), (13, 6)], c.toFin, a.toFin, ()⟩
  | .tret => some ⟨decodeOp2B, [], ()⟩
  | .snapst a | .snapld a => some ⟨decodeOp2C, [(13, 6)], a.toFin, ()⟩
  | .snaprel => some ⟨decodeOp2D, [], ()⟩
  | .brk c => some ⟨decodeOp2E, [(0, 13)], c.toFin, ()⟩
  | .launch a r => some ⟨decodeOp2F, [(0, 6), (13, 6)], r.toFin, a.toFin, ()⟩
  | .cancel a l => some ⟨decodeOp2F, [(0, 3), (13, 6)], l.fin, a.toFin, ()⟩
  | .gset k r a f => some ⟨decodeOp48, [(0, 4), (13, 6), (22, 2), (24, 1)], f.toFin, a.toFin, r.toFin, bitFin k, ()⟩
  | .gswap k m => some ⟨decodeOp49, [(19, 4), (24, 1)], m.toFin, bitFin k, ()⟩
  | .cpyHs g a b w c h | .cpySh g a b w c h | .cpySs g a b w c h =>
    some ⟨decodeOp4A, [(0, 4), (4, 2), (6, 1), (7, 6), (13, 6), (21, 2)], h.toFin, c.fin, bitFin w, b.toFin, a.toFin, g.toFin, ()⟩
  | .cpyRm g a b w c => some ⟨decodeOp4A, [(4, 2), (6, 1), (7, 6), (13, 6), (21, 2)], c.fin, bitFin w, b.toFin, a.toFin, g.toFin, ()⟩
  | .cpyrHs a b w c h | .cpyrSh a b w c h | .cpyrSs a b w c h =>
    some ⟨decodeOp4B, [(0, 4), (4, 2), (6, 1), (7, 6), (13, 6)], h.toFin, c.fin, bitFin w, b.toFin, a.toFin, ()⟩
  | .cpyrRm a b w c => some ⟨decodeOp4B, [(4, 2), (6, 1), (7, 6), (13, 6)], c.fin, bitFin w, b.toFin, a.toFin, ()⟩
  | .cpyw h => some ⟨decodeOp4C, [(0, 4)], h.toFin, ()⟩
  | .engw a b | .engr a b => some ⟨decodeOp4D, [(7, 6), (13, 6)], b.toFin, a.toFin, ()⟩
  | .tseq a => some ⟨decodeOp4E, [(13, 6)], a.toFin, ()⟩
  | .ccadd a b | .ccwait a b => some ⟨decodeOp4F, [(7, 6), (13, 6)], b.toFin, a.toFin, ()⟩
  | .barr d g | .barw d g => some ⟨decodeOp78, [(0, 7), (19, 6)], g.toFin, d.toFin, ()⟩
  | .barm a g => some ⟨decodeOp79, [(0, 7), (13, 6)], g.toFin, a.toFin, ()⟩
  | .fuse d a => some ⟨decodeOp7A, [(13, 6), (19, 6)], a.toFin, d.toFin, ()⟩
  | .decpl => some ⟨decodeOp7A, [], ()⟩
  | .rejn d => some ⟨decodeOp7A, [(19, 6)], d.toFin, ()⟩
  | .wdog d a => some ⟨decodeOp7B, [(13, 6), (19, 6)], a.toFin, d.toFin, ()⟩
  | .prot a | .unprot a => some ⟨decodeOp7C, [(13, 6)], a.toFin, ()⟩
  | .rprep a b | .rcomm a b | .rstat a b => some ⟨decodeOp7D, [(7, 6), (13, 6)], b.toFin, a.toFin, ()⟩
  | .netpost a b | .netwait a b => some ⟨decodeOp7E, [(7, 6), (13, 6)], b.toFin, a.toFin, ()⟩
  | _ => none

theorem controlRow_recovers {i : Instr} {r : OpRow} (hr : controlRow i = some r) : r.Recovers i := by
  cases i <;> cases hr
  all_goals
    refine .intro rfl rfl rfl (fun w hopcode => by rw [decodeSyl, hopcode]; rfl) fun w hholds hfixed haccept => ?_
    simp only [Layout.Holds] at hholds
    simp (disch := decide) [decodeOp20, decodeOp21, decodeOp22, decodeOp23, decodeOp24, decodeOp25, decodeOp26, decodeOp27, decodeOp28, decodeOp29,
      decodeOp2A, decodeOp2B, decodeOp2C, decodeOp2D, decodeOp2E, decodeOp2F, decodeOp48, decodeOp49, decodeOp4A, decodeOp4B, decodeOp4C,
      decodeOp4D, decodeOp4E, decodeOp4F, decodeOp78, decodeOp79, decodeOp7A, decodeOp7B, decodeOp7C, decodeOp7D, decodeOp7E, hfixed, hholds,
      haccept, Except.map, Syl.toInstr, Late.toInstr]

/-- The rows of LS, opcodes 0x30 to 0x47. -/
def memoryRow : Instr → Option OpRow
  | .ld d a z o => some ⟨decodeOp30, [(0, 10), (10, 3), (13, 6), (19, 6)], o.toFin, z.fin, a.toFin, d.toFin, ()⟩
  | .st s a z o => some ⟨decodeOp31, [(0, 10), (10, 3), (13, 6), (19, 6)], o.toFin, z.fin, a.toFin, s.toFin, ()⟩
  | .ldv d a o p | .ldvB d a o p => some ⟨decodeOp32, [(0, 4), (4, 8), (14, 6), (20, 5)], p.toFin, o.toFin, a.toFin, d.toFin, ()⟩
  | .ldvS d a s p => some ⟨decodeOp32, [(0, 4), (4, 6), (14, 6), (20, 5)], p.toFin, s.toFin, a.toFin, d.toFin, ()⟩
  | .stv v a o p => some ⟨decodeOp33, [(0, 4), (4, 8), (14, 6), (20, 5)], p.toFin, o.toFin, a.toFin, v.toFin, ()⟩
  | .stvS v a s p => some ⟨decodeOp33, [(0, 4), (4, 6), (14, 6), (20, 5)], p.toFin, s.toFin, a.toFin, v.toFin, ()⟩
  | .gath d a b t p => some ⟨decodeOp34, [(0, 4), (7, 3), (10, 5), (15, 5), (20, 5)], p.toFin, t.fin, b.toFin, a.toFin, d.toFin, ()⟩
  | .scat s a b t p => some ⟨decodeOp34, [(0, 4), (7, 3), (10, 5), (15, 5), (20, 5)], p.toFin, t.fin, b.toFin, a.toFin, s.toFin, ()⟩
  | .ldg d a z o => some ⟨decodeOp35, [(0, 9), (10, 3), (13, 6), (19, 6)], o.toFin, z.fin, a.toFin, d.toFin, ()⟩
  | .stg s a z o => some ⟨decodeOp35, [(0, 9), (10, 3), (13, 6), (19, 6)], o.toFin, z.fin, a.toFin, s.toFin, ()⟩
  | .ldgv d a o p => some ⟨decodeOp36, [(0, 4), (4, 9), (14, 6), (20, 5)], p.toFin, o.toFin, a.toFin, d.toFin, ()⟩
  | .stgv s a o p => some ⟨decodeOp36, [(0, 4), (4, 9), (14, 6), (20, 5)], p.toFin, o.toFin, a.toFin, s.toFin, ()⟩
  | .ldc d a z o => some ⟨decodeOp37, [(0, 10), (10, 3), (13, 6), (19, 6)], o.toFin, z.fin, a.toFin, d.toFin, ()⟩
  | .tlook d a q => some ⟨decodeOp38, [(0, 3), (13, 6), (19, 6)], q.toFin, a.toFin, d.toFin, ()⟩
  | .tfill a b q => some ⟨decodeOp39, [(0, 3), (7, 6), (13, 6)], q.toFin, b.toFin, a.toFin, ()⟩
  | .tevict a q | .tinv a q => some ⟨decodeOp39, [(0, 3), (13, 6)], q.toFin, a.toFin, ()⟩
  | .tlock d a q | .tunlock d a q => some ⟨decodeOp3A, [(0, 3), (13, 6), (19, 6)], q.toFin, a.toFin, d.toFin, ()⟩
  | .hwait h n | .hwaitf h n => some ⟨decodeOp3B, [(0, 13), (19, 4)], n.toFin, h.toFin, ()⟩
  | .hadvp h n | .hadvc h n => some ⟨decodeOp3C, [(0, 13), (19, 4)], n.toFin, h.toFin, ()⟩
  | .hset h a b q => some ⟨decodeOp3D, [(0, 3), (7, 6), (13, 6), (19, 4)], q.toFin, b.toFin, a.toFin, h.toFin, ()⟩
  | .footr g y a b q | .footw g y a b q =>
    some ⟨decodeOp3E, [(0, 3), (7, 6), (13, 6), (19, 1), (24, 1)], q.toFin, b.toFin, a.toFin, bitFin y, bitFin g, ()⟩
  | .footclr y q => some ⟨decodeOp3E, [(0, 3), (19, 1)], q.toFin, bitFin y, ()⟩
  | .spfence q => some ⟨decodeOp3F, [(0, 3)], q.toFin, ()⟩
  | .acq d a s q => some ⟨decodeOp40, [(0, 3), (3, 4), (13, 6), (19, 6)], q.toFin, s.fin, a.toFin, d.toFin, ()⟩
  | .rel d a s q => some ⟨decodeOp41, [(0, 3), (3, 4), (13, 6), (19, 6)], q.toFin, s.fin, a.toFin, d.toFin, ()⟩
  | .fence s q => some ⟨decodeOp42, [(0, 3), (3, 4)], q.toFin, s.fin, ()⟩
  | .amoAdd d a b s | .amoAnd d a b s | .amoOr d a b s | .amoXor d a b s | .amoMin d a b s | .amoMax d a b s | .amoMinu d a b s
  | .amoMaxu d a b s | .amoSwap d a b s | .amoFadd d a b s =>
    some ⟨decodeOp43, [(0, 3), (7, 6), (13, 6), (19, 6)], s.toFin, b.toFin, a.toFin, d.toFin, ()⟩
  | .cas d a b s => some ⟨decodeOp44, [(0, 3), (7, 6), (13, 6), (19, 6)], s.toFin, b.toFin, a.toFin, d.toFin, ()⟩
  | .logcmp d a q => some ⟨decodeOp45, [(0, 3), (13, 6), (19, 6)], q.toFin, a.toFin, d.toFin, ()⟩
  | .logmark d q => some ⟨decodeOp46, [(0, 3), (19, 6)], q.toFin, d.toFin, ()⟩
  | .logtrunc d a q => some ⟨decodeOp46, [(0, 3), (13, 6), (19, 6)], q.toFin, a.toFin, d.toFin, ()⟩
  | .sstepDie q | .sstepPackage q => some ⟨decodeOp47, [(0, 3)], q.toFin, ()⟩
  | _ => none

theorem memoryRow_recovers {i : Instr} {r : OpRow} (hr : memoryRow i = some r) : r.Recovers i := by
  cases i <;> cases hr
  all_goals
    refine .intro rfl rfl rfl (fun w hopcode => by rw [decodeSyl, hopcode]; rfl) fun w hholds hfixed haccept => ?_
    simp only [Layout.Holds] at hholds
    simp (disch := decide) [decodeOp30, decodeOp31, decodeOp32, decodeOp33, decodeOp34, decodeOp35, decodeOp36, decodeOp37, decodeOp38, decodeOp39,
      decodeOp3A, decodeOp3B, decodeOp3C, decodeOp3D, decodeOp3E, decodeOp3F, decodeOp40, decodeOp41, decodeOp42, decodeOp43, decodeOp44,
      decodeOp45, decodeOp46, decodeOp47, hfixed, hholds, haccept, Except.map, Syl.toInstr]

/-- The rows of V0 and V1, MX, AX and CM, opcodes 0x50 to 0x77. -/
def engineRow : Instr → Option OpRow
  | .vadd d a b t p => some ⟨decodeOp50, [(0, 4), (7, 3), (10, 5), (15, 5), (20, 5)], p.toFin, t.fin, b.toFin, a.toFin, d.toFin, ()⟩
  | .vsub d a b t p => some ⟨decodeOp51, [(0, 4), (7, 3), (10, 5), (15, 5), (20, 5)], p.toFin, t.fin, b.toFin, a.toFin, d.toFin, ()⟩
  | .vmul d a b t p => some ⟨decodeOp52, [(0, 4), (7, 3), (10, 5), (15, 5), (20, 5)], p.toFin, t.fin, b.toFin, a.toFin, d.toFin, ()⟩
  | .vminmaxMin d a b t p | .vminmaxMax d a b t p =>
    some ⟨decodeOp53, [(0, 4), (7, 3), (10, 5), (15, 5), (20, 5)], p.toFin, t.fin, b.toFin, a.toFin, d.toFin, ()⟩
  | .vfma d a b c y p =>
    some ⟨decodeOp54, [(0, 4), (4, 1), (5, 5), (10, 5), (15, 5), (20, 5)], p.toFin, bitFin y, c.toFin, b.toFin, a.toFin, d.toFin, ()⟩
  | .vfms d a b c y p =>
    some ⟨decodeOp55, [(0, 4), (4, 1), (5, 5), (10, 5), (15, 5), (20, 5)], p.toFin, bitFin y, c.toFin, b.toFin, a.toFin, d.toFin, ()⟩
  | .vfnma d a b c y p =>
    some ⟨decodeOp56, [(0, 4), (4, 1), (5, 5), (10, 5), (15, 5), (20, 5)], p.toFin, bitFin y, c.toFin, b.toFin, a.toFin, d.toFin, ()⟩
  | .vlogicAnd d a b t p | .vlogicOr d a b t p | .vlogicXor d a b t p | .vlogicAndn d a b t p =>
    some ⟨decodeOp57, [(0, 4), (7, 3), (10, 5), (15, 5), (20, 5)], p.toFin, t.fin, b.toFin, a.toFin, d.toFin, ()⟩
  | .vlogicNot d a t p => some ⟨decodeOp57, [(0, 4), (7, 3), (15, 5), (20, 5)], p.toFin, t.fin, a.toFin, d.toFin, ()⟩
  | .vshiftShl d a b t p | .vshiftShr d a b t p | .vshiftSra d a b t p =>
    some ⟨decodeOp58, [(0, 4), (7, 3), (10, 5), (15, 5), (20, 5)], p.toFin, t.fin, b.toFin, a.toFin, d.toFin, ()⟩
  | .vcmpEq p a b t g | .vcmpNe p a b t g | .vcmpLt p a b t g | .vcmpLe p a b t g | .vcmpGt p a b t g | .vcmpGe p a b t g =>
    some ⟨decodeOp59, [(0, 4), (7, 3), (10, 5), (15, 5), (20, 4)], g.toFin, t.fin, b.toFin, a.toFin, p.toFin, ()⟩
  | .vsel d a b p => some ⟨decodeOp5A, [(0, 4), (10, 5), (15, 5), (20, 5)], p.toFin, b.toFin, a.toFin, d.toFin, ()⟩
  | .vcvt d a r s u p =>
    some ⟨decodeOp5B, [(0, 4), (4, 3), (7, 3), (10, 2), (15, 5), (20, 5)], p.toFin, u.fin, s.fin, r.fin, a.toFin, d.toFin, ()⟩
  | .vredAdd d a t p | .vredMax d a t p | .vredMin d a t p =>
    some ⟨decodeOp5C, [(0, 4), (7, 3), (15, 5), (20, 5)], p.toFin, t.fin, a.toFin, d.toFin, ()⟩
  | .vscan d a t p => some ⟨decodeOp5D, [(0, 4), (7, 3), (15, 5), (20, 5)], p.toFin, t.fin, a.toFin, d.toFin, ()⟩
  | .vpermIdx d a b p | .vpermRot d a b p | .vpermPsh d a b p =>
    some ⟨decodeOp5E, [(0, 4), (10, 5), (15, 5), (20, 5)], p.toFin, b.toFin, a.toFin, d.toFin, ()⟩
  | .vbcast d a t p => some ⟨decodeOp5F, [(0, 4), (7, 3), (15, 5), (20, 5)], p.toFin, t.fin, a.toFin, d.toFin, ()⟩
  | .vext d a b t => some ⟨decodeOp5F, [(7, 3), (10, 5), (15, 5), (20, 5)], t.fin, b.toFin, a.toFin, d.toFin, ()⟩
  | .vtransRcp d a p | .vtransRsq d a p | .vtransExp2 d a p | .vtransLog2 d a p | .vtransTanh d a p | .vtransSin d a p | .vtransCos d a p
  | .vtransSqrt d a p => some ⟨decodeOp60, [(0, 4), (15, 5), (20, 5)], p.toFin, a.toFin, d.toFin, ()⟩
  | .vdiv d a b t p => some ⟨decodeOp61, [(0, 4), (7, 3), (10, 5), (15, 5), (20, 5)], p.toFin, t.fin, b.toFin, a.toFin, d.toFin, ()⟩
  | .vrow d p => some ⟨decodeOp62, [(0, 4), (20, 5)], p.toFin, d.toFin, ()⟩
  | .viota d t p => some ⟨decodeOp63, [(0, 4), (7, 3), (20, 5)], p.toFin, t.fin, d.toFin, ()⟩
  | .vmaskPopc d s p | .vmaskFirst d s p => some ⟨decodeOp64, [(0, 4), (15, 4), (20, 5)], p.toFin, s.toFin, d.toFin, ()⟩
  | .vmaskCompress d a p | .vmaskExpand d a p => some ⟨decodeOp64, [(0, 4), (15, 5), (20, 5)], p.toFin, a.toFin, d.toFin, ()⟩
  | .vbnd p a t g => some ⟨decodeOp65, [(0, 4), (7, 3), (15, 5), (20, 4)], g.toFin, t.fin, a.toFin, p.toFin, ()⟩
  | .vabs d a t p | .vneg d a t p => some ⟨decodeOp66, [(0, 4), (7, 3), (15, 5), (20, 5)], p.toFin, t.fin, a.toFin, d.toFin, ()⟩
  | .vdefDefer p a g => some ⟨decodeOp67, [(0, 4), (15, 5), (20, 4)], g.toFin, a.toFin, p.toFin, ()⟩
  | .vdefRefill d p => some ⟨decodeOp67, [(0, 4), (20, 5)], p.toFin, d.toFin, ()⟩
  | .vdefCount d => some ⟨decodeOp67, [(20, 5)], d.toFin, ()⟩
  | .mclaim => some ⟨decodeOp68, [], ()⟩
  | .mrel => some ⟨decodeOp69, [], ()⟩
  | .mloadA s a w c h | .mloadB s a w c h | .mloadBt s a w c h =>
    some ⟨decodeOp6A, [(0, 4), (4, 2), (6, 1), (13, 6), (19, 6)], h.toFin, c.fin, bitFin w, a.toFin, s.toFin, ()⟩
  | .mma s b l w c | .mmaAcc s b l w c =>
    some ⟨decodeOp6B, [(4, 2), (6, 1), (7, 1), (13, 6), (19, 6)], c.fin, bitFin w, bitFin l, b.toFin, s.toFin, ()⟩
  | .mmaqF4 s b l w c | .mmaqF4Acc s b l w c | .mmaqI4 s b l w c | .mmaqI4Acc s b l w c =>
    some ⟨decodeOp6C, [(0, 4), (6, 1), (7, 1), (13, 6), (19, 6)], c.toFin, bitFin w, bitFin l, b.toFin, s.toFin, ()⟩
  | .mdrain l w => some ⟨decodeOp6D, [(6, 1), (7, 1)], bitFin w, bitFin l, ()⟩
  | .mcfg b a p => some ⟨decodeOp6E, [(19, 3), (22, 1), (23, 1)], p.fin, bitFin a, bitFin b, ()⟩
  | .mzero l => some ⟨decodeOp6F, [(7, 1)], bitFin l, ()⟩
  | .scldBlk s a o | .scldBand s a o => some ⟨decodeOp70, [(4, 9), (14, 6), (20, 4)], o.toFin, a.toFin, s.toFin, ()⟩
  | .qcvtF8 d a k r p => some ⟨decodeOp71, [(0, 4), (7, 2), (9, 1), (15, 5), (20, 5)], p.toFin, r.fin, bitFin k, a.toFin, d.toFin, ()⟩
  | .qcvtDb4 d a s r p => some ⟨decodeOp71, [(0, 4), (7, 2), (10, 4), (15, 5), (20, 5)], p.toFin, r.fin, s.toFin, a.toFin, d.toFin, ()⟩
  | .qcvtMx4 d a r p => some ⟨decodeOp71, [(0, 4), (7, 2), (15, 5), (20, 5)], p.toFin, r.fin, a.toFin, d.toFin, ()⟩
  | .qcvtUnp d a s k p => some ⟨decodeOp71, [(0, 4), (9, 1), (10, 4), (15, 5), (20, 5)], p.toFin, bitFin k, s.toFin, a.toFin, d.toFin, ()⟩
  | .rndgInt d p | .rndgUni d p => some ⟨decodeOp72, [(0, 4), (20, 5)], p.toFin, d.toFin, ()⟩
  | .statc d p => some ⟨decodeOp73, [(0, 4), (20, 5)], p.toFin, d.toFin, ()⟩
  | .send c v l p => some ⟨decodeOp74, [(0, 4), (4, 6), (14, 5), (19, 6)], p.toFin, l.toFin, v.toFin, c.toFin, ()⟩
  | .recv c v l p => some ⟨decodeOp75, [(0, 4), (4, 6), (14, 5), (19, 6)], p.toFin, l.toFin, v.toFin, c.toFin, ()⟩
  | .raddBf16 c v l p | .raddF32 c v l p => some ⟨decodeOp76, [(0, 4), (4, 6), (14, 5), (19, 6)], p.toFin, l.toFin, v.toFin, c.toFin, ()⟩
  | .chwait c n => some ⟨decodeOp77, [(4, 6), (19, 6)], n.toFin, c.toFin, ()⟩
  | _ => none

theorem engineRow_recovers {i : Instr} {r : OpRow} (hr : engineRow i = some r) : r.Recovers i := by
  cases i <;> cases hr
  all_goals
    refine .intro rfl rfl rfl (fun w hopcode => by rw [decodeSyl, hopcode]; rfl) fun w hholds hfixed haccept => ?_
    simp only [Layout.Holds] at hholds
    simp (disch := decide) [decodeOp50, decodeOp51, decodeOp52, decodeOp53, decodeOp54, decodeOp55, decodeOp56, decodeOp57, decodeOp58, decodeOp59,
      decodeOp5A, decodeOp5B, decodeOp5C, decodeOp5D, decodeOp5E, decodeOp5F, decodeOp60, decodeOp61, decodeOp62, decodeOp63, decodeOp64,
      decodeOp65, decodeOp66, decodeOp67, decodeOp68, decodeOp69, decodeOp6A, decodeOp6B, decodeOp6C, decodeOp6D, decodeOp6E, decodeOp6F,
      decodeOp70, decodeOp71, decodeOp72, decodeOp73, decodeOp74, decodeOp75, decodeOp76, decodeOp77, hfixed, hholds, haccept, Except.map,
      Syl.toInstr, Late.toInstr]

/-- The rows of the opcode map. -/
def opRow (i : Instr) : Option OpRow := (scalarRow i).or ((controlRow i).or ((memoryRow i).or (engineRow i)))

theorem opRow_recovers {i : Instr} {r : OpRow} (hr : opRow i = some r) : r.Recovers i := by
  simp only [opRow, Option.or_eq_some_iff] at hr
  obtain hr | ⟨-, hr | ⟨-, hr | ⟨-, hr⟩⟩⟩ := hr
  · exact scalarRow_recovers hr
  · exact controlRow_recovers hr
  · exact memoryRow_recovers hr
  · exact engineRow_recovers hr

/-- The map has a row for each instruction that has a word, and for no event. -/
theorem isSome_opRow (i : Instr) : (opRow i).isSome = (encode i).isSome := by cases i <;> rfl

/-! ### The obligations -/

theorem decodeTableWord_of_decode {i : Instr} {w : Nat} (hw : w < 2 ^ 32) (h : decode w = .ok i) : decodeTableWord 32 w = some i := by
  rw [decode_eq_map] at h
  cases hsyl : decodeSyl w with
  | error e => rw [hsyl] at h; cases h
  | ok y =>
    rw [hsyl] at h
    cases h
    exact Machine.decodeTableWord_of_decodeSyl hw hsyl

/-- Settles O56: the row of the instruction gives its word, and recovers it. -/
theorem decodeEncodeRoundTrip : Obligations.DecodeEncodeRoundTrip := by
  unfold Obligations.DecodeEncodeRoundTrip
  intro i w hwf hencode
  obtain ⟨r, hr⟩ : ∃ r, opRow i = some r := Option.isSome_iff_exists.mp (by rw [isSome_opRow, hencode]; rfl)
  obtain ⟨c, hword, hfits, hdecode⟩ := opRow_recovers hr
  obtain rfl : w = Layout.word c r.operands := Option.some.inj (hencode.symm.trans hword)
  have hlt := Layout.word_lt r.operands hfits
  exact ⟨hlt, decodeTableWord_of_decode hlt (hdecode hwf)⟩

theorem decodeTableWord_of_encode {i : Instr} {w : Nat} (hwf : i.wf = true) (hencode : encode i = some w) : decodeTableWord 32 w = some i :=
  (decodeEncodeRoundTrip i w hwf hencode).2

/-- Settles O55: each of the words is the one that its instruction encodes to. -/
theorem decodeWords : Obligations.DecodeWords := by
  unfold Obligations.DecodeWords
  refine ⟨?_, ?_, ?_, ?_, ?_, ?_, ?_, ?_, ?_, ?_, ?_, ?_, ?_, ?_, ?_, ?_, ?_, ?_, ?_, ?_, ?_, ?_, ?_, ?_, ?_, ?_⟩
  all_goals exact decodeTableWord_of_encode rfl rfl

end Sys2Proof
end

section
/-! Suppressed syllables (spec 02_encoding.md R55; 03_scalar_control.md R67). -/

namespace Sys2Proof.Machine

theorem State.sqOn_zero (s : State) : s.sqOn 0 = true := rfl

theorem State.guarded_off {s : State} {q : BitVec 3} (hq : s.sqOn q = false) (f : State → State) : s.guarded q f = s := if_neg (by simp [hq])

/-- A syllable whose sq field names a predicate does what it does under that predicate and nothing else, its faults included. -/
theorem exec_eq_guarded {i : Instr} (hq : instrSq i ≠ 0) (s : State) : ∃ f : State → State, exec i s = .next (s.guarded (instrSq i) f) := by
  cases i with
  | add | addW | sub | subW | and | andW | or | orW | xor | xorW | shl | shlW | shr | shrW | sra | sraW | mul | mulh | mulhu | div | divu | rem
  | remu | min | max | minu | maxu | slt | sltu | seq | sne | sel | clz | ctz | popc | bfx | bfxu | bfi | madd | addsc | fadd | fsub | fmul
  | fmin | fmax | feq | flt | fle | fcvtFi | fcvtIf | fcvtFu | fcvtUf | setpEq | setpNe | setpLt | setpLtu | setpGe | setpGeu | pand | por | pxor
  | pnot | pmov | bra | call | jr | jrl | ret | jtab | loopsr | rfence | rfenceA | suspYield | suspPark | suspExit | tlook | tfill | tevict
  | tinv | tlock | tunlock | hset | footr | footw | footclr | spfence | acq | rel | fence | logcmp | logmark | logtrunc | sstepDie | sstepPackage =>
    exact ⟨_, rfl⟩
  | _ => exact absurd rfl hq

/-- Settles O57: sq = 0 suppresses nothing, and any other syllable with an sq is guarded by it. -/
theorem suppressedHasNoEffect : Obligations.SuppressedHasNoEffect := by
  unfold Obligations.SuppressedHasNoEffect
  intro i s hoff
  have hq : instrSq i ≠ 0 := fun hzero => by
    rw [hzero, State.sqOn_zero] at hoff
    exact absurd hoff (by decide)
  obtain ⟨f, hf⟩ := exec_eq_guarded hq s
  rw [hf, State.guarded_off hoff]

end Sys2Proof.Machine
end

section
/-! Taken transfers (spec 02_encoding.md R50; 03_scalar_control.md R78 to R80): where a branch by positions leads, and what the transfers latch and
write. -/

namespace Sys2Proof.Machine

namespace State

theorem segBundles_of_cur {s : State} {g : Segment} (hcur : s.core.front.cur = some g) : s.segBundles = g.bundles := by simp [segBundles, hcur]

theorem latch_pos (s : State) (t : Target) : (s.latch t).pos = s.pos := by
  unfold pos latch
  cases h : s.core.front.run <;> simp [h]

theorem latch_returnAddr (s : State) (t : Target) : (s.latch t).returnAddr = s.returnAddr := by
  rw [returnAddr, latch_pos]
  rfl

/-- R79: CALL and JRL return to the next stored bundle of the segment. -/
theorem returnAddr_of_next {s : State} {g : Segment} {b : Stored} (hcur : s.core.front.cur = some g) (hb : g.bundles[s.pos + 1]? = some b) :
    s.returnAddr = BitVec.ofNat 64 (g.frame + b.off) := by
  simp only [returnAddr, hcur, hb]

/-- R79: from the last bundle they return to the first one of the successor, or past the end of the last segment. -/
theorem returnAddr_of_last {s : State} {g : Segment} (hcur : s.core.front.cur = some g) (hb : g.bundles[s.pos + 1]? = none) :
    s.returnAddr = BitVec.ofNat 64 (if g.next = 0 then g.frame + g.len else g.next + 16) := by
  simp only [returnAddr, hcur, hb, ne_eq, ite_not]

/-! ### Branches by positions (R50) -/

theorem branch_before {s : State} {o : BitVec 21} (hneg : (s.pos : Int) + o.toInt < 0) (k : State → State) : s.branch o k = s.illegal := by
  simp only [branch, if_pos hneg]

section

variable {s : State} {o : BitVec 21} {g : Segment} (hcur : s.core.front.cur = some g) (k : State → State)
include hcur

theorem branch_into_segment (hlow : 0 ≤ (s.pos : Int) + o.toInt) (hhigh : (s.pos : Int) + o.toInt < g.bundles.length) :
    s.branch o k = k (s.latch (.pos false ((s.pos : Int) + o.toInt).toNat)) := by
  have hlt : ((s.pos : Int) + o.toInt).toNat < g.bundles.length := by omega
  simp only [branch, segBundles_of_cur hcur, if_neg (Int.not_lt.mpr hlow), if_pos hlt]

theorem branch_into_successor {n : Segment} (hsucc : s.core.front.succ = some n) (hnext : g.next ≠ 0) (hbad : n.bad = none)
    (hlow : (g.bundles.length : Int) ≤ s.pos + o.toInt) (hhigh : (s.pos : Int) + o.toInt < g.bundles.length + n.bundles.length) :
    s.branch o k = k (s.latch (.pos true (((s.pos : Int) + o.toInt).toNat - g.bundles.length))) := by
  have hpos : ¬(s.pos : Int) + o.toInt < 0 := by omega
  have hpast : ¬((s.pos : Int) + o.toInt).toNat < g.bundles.length := by omega
  have hwithin : ((s.pos : Int) + o.toInt).toNat < g.bundles.length + n.bundles.length := by omega
  simp [branch, segBundles_of_cur hcur, hcur, hsucc, hbad, hnext, hpos, hpast, hwithin]

theorem branch_past_last (hnext : g.next = 0) (hlow : (g.bundles.length : Int) ≤ s.pos + o.toInt) : s.branch o k = s.illegal := by
  have hpos : ¬(s.pos : Int) + o.toInt < 0 := by omega
  have hpast : ¬((s.pos : Int) + o.toInt).toNat < g.bundles.length := by omega
  simp [branch, segBundles_of_cur hcur, hcur, hnext, hpos, hpast]

theorem branch_past_successor {n : Segment} (hsucc : s.core.front.succ = some n) (hbad : n.bad = none)
    (hlow : (g.bundles.length + n.bundles.length : Int) ≤ s.pos + o.toInt) : s.branch o k = s.illegal := by
  by_cases hnext : g.next = 0
  · exact branch_past_last hcur k hnext (by omega)
  · have hpos : ¬(s.pos : Int) + o.toInt < 0 := by omega
    have hpast : ¬((s.pos : Int) + o.toInt).toNat < g.bundles.length := by omega
    have hbeyond : ¬((s.pos : Int) + o.toInt).toNat < g.bundles.length + n.bundles.length := by omega
    simp [branch, segBundles_of_cur hcur, hcur, hsucc, hbad, hnext, hpos, hpast, hbeyond]

end

end State

/-! ### The transfers under a scalar predicate that lets them through -/

section

variable {s : State} {q : BitVec 3} (hq : s.sqOn q = true)
include hq

theorem exec_bra (o : BitVec 21) : exec (.bra q o) s = .next (s.branch o id) := congrArg Host.Outcome.next (State.guarded_on hq _)

theorem exec_call (o : BitVec 21) : exec (.call q o) s = .next (s.branch o fun t => t.setX 1 t.returnAddr 1) :=
  congrArg Host.Outcome.next (State.guarded_on hq _)

theorem exec_jr (a : BitVec 6) : exec (.jr a q) s = .next (s.latch (.addr (s.x a))) := congrArg Host.Outcome.next (State.guarded_on hq _)

theorem exec_jrl (d a : BitVec 6) : exec (.jrl d a q) s = .next ((s.latch (.addr (s.x a))).setX d s.returnAddr 1) :=
  congrArg Host.Outcome.next (State.guarded_on hq _)

theorem exec_ret : exec (.ret q) s = .next (s.latch (.addr (s.x 1))) := congrArg Host.Outcome.next (State.guarded_on hq _)

end

/-- Settles O6: BRA and CALL resolve one branch, by where its target lies. -/
theorem transfersLatch : Obligations.TransfersLatch := by
  unfold Obligations.TransfersLatch
  refine ⟨fun s d a o q g hq hcur => ⟨fun hlow hhigh => ?_, fun n hsucc hnext hbad hlow hhigh => ?_, exec_jr hq a, exec_jrl hq d a, exec_ret hq,
    fun b => State.returnAddr_of_next hcur, State.returnAddr_of_last hcur⟩, fun s o q g hq hcur hwhere => ?_⟩
  · rw [exec_bra hq, exec_call hq, State.branch_into_segment hcur _ hlow hhigh, State.branch_into_segment hcur _ hlow hhigh, State.latch_returnAddr]
    exact ⟨rfl, rfl⟩
  · rw [exec_bra hq, exec_call hq, State.branch_into_successor hcur _ hsucc hnext hbad hlow hhigh,
      State.branch_into_successor hcur _ hsucc hnext hbad hlow hhigh, State.latch_returnAddr]
    exact ⟨rfl, rfl⟩
  · have hillegal (k : State → State) : s.branch o k = s.illegal := by
      obtain hneg | ⟨hpast, hlast⟩ | ⟨n, hsucc, hbad, hpast⟩ := hwhere
      · exact State.branch_before hneg k
      · exact State.branch_past_last hcur k hlast hpast
      · exact State.branch_past_successor hcur k hsucc hbad hpast
    rw [exec_bra hq, exec_call hq, hillegal, hillegal]
    exact ⟨rfl, rfl⟩

end Sys2Proof.Machine
end

section
/-! The scalar results of S0 and S1 (spec 03_scalar_control.md R69 to R71, R73 to R77): each form writes one value under its scalar
predicate, and what remains is that the model's value is the spec's. -/

namespace Sys2Proof.Machine

/-! ### Forms that write one register -/

/-- What a form under sq writes when the predicate lets it through (R55, R68). -/
theorem scalarOp_on {s : State} {q : BitVec 3} {d : BitVec 6} {lat : Nat} {val : State → Word} {w : Word} (hq : s.sqOn q = true) (hval : val s = w) :
    scalarOp d q lat val s = .next (s.setX d w lat) := by
  rw [scalarOp, State.guarded_on hq, hval]

theorem predOp_on {s : State} {q : BitVec 3} {p : BitVec 4} {val : State → Pred} {w : Pred} (hq : s.sqOn q = true) (hval : val s = w) :
    predOp p q val s = .next (s.setP p w 1) := by
  rw [predOp, State.guarded_on hq, hval]

/-! ### The low 32 bits (R69) -/

theorem sext32_add (a b : Word) : sext32 (a + b) = (a.truncate 32 + b.truncate 32).signExtend 64 :=
  congrArg (BitVec.signExtend 64) (BitVec.setWidth_add a b (by decide))

theorem sext32_sub (a b : Word) : sext32 (a - b) = (a.truncate 32 - b.truncate 32).signExtend 64 :=
  congrArg (BitVec.signExtend 64) (by bv_omega)

theorem sext32_and (a b : Word) : sext32 (a &&& b) = (a.truncate 32 &&& b.truncate 32).signExtend 64 :=
  congrArg (BitVec.signExtend 64) BitVec.setWidth_and

theorem sext32_or (a b : Word) : sext32 (a ||| b) = (a.truncate 32 ||| b.truncate 32).signExtend 64 :=
  congrArg (BitVec.signExtend 64) BitVec.setWidth_or

theorem sext32_xor (a b : Word) : sext32 (a ^^^ b) = (a.truncate 32 ^^^ b.truncate 32).signExtend 64 :=
  congrArg (BitVec.signExtend 64) BitVec.setWidth_xor

theorem sext32_shiftLeft (a : Word) (k : Nat) : sext32 (zext32 a <<< k) = (a.truncate 32 <<< k).signExtend 64 := by
  refine congrArg (BitVec.signExtend 64) (BitVec.eq_of_getLsbD_eq fun i hi => ?_)
  simp [zext32, hi]

theorem sext32_ushiftRight (a : Word) (k : Nat) : sext32 (zext32 a >>> k) = (a.truncate 32 >>> k).signExtend 64 := by
  refine congrArg (BitVec.signExtend 64) (BitVec.eq_of_getLsbD_eq fun i hi => ?_)
  simp [zext32, hi]
  omega

theorem sext32_sshiftRight (a : Word) (k : Nat) : sext32 ((sext32 a).sshiftRight k) = ((a.truncate 32).sshiftRight k).signExtend 64 := by
  refine congrArg (BitVec.signExtend 64) (BitVec.eq_of_getLsbD_eq fun i hi => ?_)
  have hword : ¬64 ≤ i := by omega
  by_cases hin : k + i < 32
  · have hin' : k + i < 64 := by omega
    simp [sext32, BitVec.getLsbD_sshiftRight, BitVec.getElem_sshiftRight, BitVec.getElem_signExtend, hi, hin, hin', hword]
  · by_cases hin' : k + i < 64 <;>
      simp [sext32, BitVec.getLsbD_sshiftRight, BitVec.getElem_sshiftRight, BitVec.getElem_signExtend, BitVec.msb_signExtend, hi, hin, hin', hword]

/-! ### Choices by a comparison of two words (R69, R73, R76) -/

section

variable {α : Type} (a b : Word) (x y : α)

theorem ite_slt : (if a.slt b then x else y) = if a.toInt < b.toInt then x else y := if_congr BitVec.slt_iff_toInt_lt rfl rfl
theorem ite_ult : (if a.ult b then x else y) = if a.toNat < b.toNat then x else y := if_congr BitVec.ult_iff_lt rfl rfl
theorem ite_beq : (if a == b then x else y) = if a = b then x else y := if_congr beq_iff_eq rfl rfl
theorem ite_bne : (if a != b then x else y) = if a = b then y else x := (if_congr bne_iff_ne rfl rfl).trans (ite_not (a = b) x y)
theorem ite_not_slt : (if !a.slt b then x else y) = if b.toInt ≤ a.toInt then x else y := if_congr (by simp [BitVec.slt]) rfl rfl
theorem ite_not_ult : (if !a.ult b then x else y) = if b.toNat ≤ a.toNat then x else y := if_congr (by simp [BitVec.ult]) rfl rfl

end

/-! ### Bit counts (R73) -/

theorem firstTo_eq_none {n : Nat} {f : Nat → Bool} (h : firstTo n f = none) {j : Nat} (hj : j < n) : f j = false := by
  induction n with
  | zero => omega
  | succ n ih =>
    rw [firstTo] at h
    split at h
    · cases h
    · next hn =>
      split at h
      · cases h
      · next hf =>
        rcases Nat.lt_succ_iff_lt_or_eq.mp hj with hj | rfl
        · exact ih hn hj
        · exact Bool.eq_false_of_not_eq_true hf

theorem firstTo_eq_some {n i : Nat} {f : Nat → Bool} (h : firstTo n f = some i) : i < n ∧ f i = true ∧ ∀ j, j < i → f j = false := by
  induction n with
  | zero => cases h
  | succ n ih =>
    rw [firstTo] at h
    split at h
    · next hk =>
      cases h
      obtain ⟨hlt, hf, hbefore⟩ := ih hk
      exact ⟨Nat.lt_succ_of_lt hlt, hf, hbefore⟩
    · next hn =>
      split at h
      · next hf =>
        cases h
        exact ⟨Nat.lt_succ_self _, hf, fun j hj => firstTo_eq_none hn hj⟩
      · cases h

theorem ctz_of_ne {w : Word} (hw : w ≠ 0) : w.getLsbD (ctz w) = true ∧ ∀ k, k < ctz w → w.getLsbD k = false := by
  rw [ctz]
  cases h : firstTo 64 fun i => w.getLsbD i with
  | some i => exact (firstTo_eq_some h).2
  | none => exact absurd (BitVec.eq_of_getLsbD_eq fun i hi => by simpa using firstTo_eq_none h hi) hw

theorem clz_of_ne {w : Word} (hw : w ≠ 0) : w.getLsbD (63 - clz w) = true ∧ ∀ k, 63 - clz w < k → w.getLsbD k = false := by
  rw [clz]
  cases h : firstTo 64 fun i => w.getLsbD (63 - i) with
  | some i =>
    obtain ⟨-, hbit, habove⟩ := firstTo_eq_some h
    refine ⟨hbit, fun k hk => ?_⟩
    rw [Option.getD_some] at hk
    by_cases hin : k < 64
    · have hj := habove (63 - k) (by omega)
      rwa [Nat.sub_sub_self (by omega)] at hj
    · exact BitVec.getLsbD_of_ge w k (by omega)
  | none =>
    refine absurd (BitVec.eq_of_getLsbD_eq fun i hi => ?_) hw
    have hj := firstTo_eq_none h (j := 63 - i) (by omega)
    rw [Nat.sub_sub_self (by omega)] at hj
    simpa using hj

theorem clz_zero : clz 0 = 64 := by decide
theorem ctz_zero : ctz 0 = 64 := by decide

/-! ### Predicates (R76, R77) -/

/-- R21: a predicate other than p0 counts as the destination. -/
theorem sylDests_of_pred {i : Instr} {p : BitVec 4} (hp : p ≠ 0) (hi : instrDests i = [.p p.toNat]) : sylDests (.instr i) = [.p p.toNat] := by
  have hne : p.toNat ≠ 0 := fun h => hp (BitVec.eq_of_toNat_eq h)
  simp [sylDests, hi, hne]

/-- A truth value in bit 0 (R74). -/
theorem ofNat_toNat_bool (b : Bool) : BitVec.ofNat 64 b.toNat = if b then 1 else 0 := by cases b <;> rfl

/-! ### The obligations -/

/-- Settles O1: each form by its definition, the .W forms by what bits [31:0] of their result are. -/
theorem scalarAluResults : Obligations.ScalarAluResults := by
  unfold Obligations.ScalarAluResults
  refine ⟨fun s d a b q hq => ⟨scalarOp_on hq rfl, scalarOp_on hq rfl, scalarOp_on hq rfl, scalarOp_on hq rfl, scalarOp_on hq rfl,
    scalarOp_on hq rfl, scalarOp_on hq rfl, scalarOp_on hq rfl, scalarOp_on hq (sext32_add _ _), scalarOp_on hq (sext32_sub _ _),
    scalarOp_on hq (sext32_and _ _), scalarOp_on hq (sext32_or _ _), scalarOp_on hq (sext32_xor _ _), scalarOp_on hq (sext32_shiftLeft _ _),
    scalarOp_on hq (sext32_ushiftRight _ _), scalarOp_on hq (sext32_sshiftRight _ _)⟩,
    fun s d a i n u => ⟨rfl, rfl, rfl, rfl, rfl, rfl, rfl,
      congrArg (fun w => Host.Outcome.next (s.setX d w 1)) (ite_slt _ _ _ _), congrArg (fun w => Host.Outcome.next (s.setX d w 1)) (ite_ult _ _ _ _), rfl, rfl⟩⟩

/-- Settles O3: the comparisons by the values that they compare, the counts by the first set bit from either end. -/
theorem compareSelectFieldResults : Obligations.CompareSelectFieldResults := by
  unfold Obligations.CompareSelectFieldResults
  intro s d a b f q hq
  refine ⟨scalarOp_on hq (ite_slt _ _ _ _), scalarOp_on hq (ite_slt _ _ _ _), scalarOp_on hq (ite_ult _ _ _ _), scalarOp_on hq (ite_ult _ _ _ _),
    scalarOp_on hq (ite_slt _ _ _ _), scalarOp_on hq (ite_ult _ _ _ _), scalarOp_on hq (ite_beq _ _ _ _), scalarOp_on hq (ite_bne _ _ _ _),
    scalarOp_on hq rfl, scalarOp_on hq rfl, scalarOp_on hq rfl, scalarOp_on hq rfl, scalarOp_on hq rfl,
    ⟨scalarOp_on hq rfl, scalarOp_on hq rfl, scalarOp_on hq rfl⟩, clz_of_ne, ctz_of_ne, fun h => ?_⟩
  rw [h]
  exact ⟨clz_zero, ctz_zero⟩

/-- Settles O4: each form by its definition. -/
theorem scalarFloatResults : Obligations.ScalarFloatResults := by
  unfold Obligations.ScalarFloatResults
  intro s d a b q hq
  exact ⟨⟨scalarOp_on hq rfl, scalarOp_on hq rfl, scalarOp_on hq rfl, scalarOp_on hq rfl, scalarOp_on hq rfl, scalarOp_on hq (ofNat_toNat_bool _),
    scalarOp_on hq (ofNat_toNat_bool _), scalarOp_on hq (ofNat_toNat_bool _), scalarOp_on hq rfl, scalarOp_on hq rfl⟩, scalarOp_on hq rfl, scalarOp_on hq rfl⟩

/-- Settles O5: the results by the values compared, the words and the destinations form by form. -/
theorem predicateResults : Obligations.PredicateResults := by
  unfold Obligations.PredicateResults
  intro s p a b g h q
  refine ⟨fun hq => ⟨predOp_on hq (ite_beq _ _ _ _), predOp_on hq (ite_bne _ _ _ _), predOp_on hq (ite_slt _ _ _ _), predOp_on hq (ite_ult _ _ _ _),
    predOp_on hq (ite_not_slt _ _ _ _), predOp_on hq (ite_not_ult _ _ _ _), predOp_on hq rfl, predOp_on hq rfl, predOp_on hq rfl, predOp_on hq rfl,
    predOp_on hq rfl⟩, rfl, ?_, fun hp i hi => sylDests_of_pred hp ?_⟩
  · refine ⟨congrArg some ?_, congrArg some ?_, congrArg some ?_, congrArg some ?_, congrArg some ?_, congrArg some ?_, congrArg some ?_,
      congrArg some ?_, congrArg some ?_, congrArg some ?_, congrArg some ?_⟩ <;> omega
  · simp only [List.mem_cons, List.not_mem_nil, or_false] at hi
    obtain rfl | rfl | rfl | rfl | rfl | rfl | rfl | rfl | rfl | rfl | rfl := hi <;> rfl

end Sys2Proof.Machine
end

section
/-! Multiply and divide (spec 02_encoding.md R54, R58, R59; 03_scalar_control.md R72): the quotients and remainders by their integers, and the words of
these opcodes that name no form. -/

namespace Sys2Proof.Machine

/-! ### Quotients and remainders (R72) -/

theorem divSigned_eq (a b : Word) : divSigned a b = if b = 0 then BitVec.allOnes 64 else BitVec.ofInt 64 (a.toInt.tdiv b.toInt) := by
  rw [divSigned]
  congr 1
  apply BitVec.eq_of_toInt_eq
  rw [BitVec.toInt_sdiv, BitVec.toInt_ofInt]

theorem divUnsigned_eq (a b : Word) : divUnsigned a b = if b = 0 then BitVec.allOnes 64 else BitVec.ofNat 64 (a.toNat / b.toNat) := by
  rw [divUnsigned, BitVec.udiv_def]

theorem remSigned_eq (a b : Word) : remSigned a b = if b = 0 then a else BitVec.ofInt 64 (a.toInt.tmod b.toInt) := by
  rw [remSigned]
  congr 1
  apply BitVec.eq_of_toInt_eq
  rw [← BitVec.toInt_srem, BitVec.ofInt_toInt]

theorem remUnsigned_eq (a b : Word) : remUnsigned a b = if b = 0 then a else BitVec.ofNat 64 (a.toNat % b.toNat) := by
  rw [remUnsigned, BitVec.umod_def]

/-! ### Words with a fn that the table does not name (R72) -/

theorem decodeTableWord_of_error {w : Nat} {e : DecodeError} (hw : w < 2 ^ 32) (h : decodeSyl w = .error e) : decodeTableWord 32 w = none := by
  have hword : leNat (leBytes 4 w) = w := by rw [leNat_leBytes]; omega
  have hlen : (leBytes 4 w).length = 4 := rfl
  have hbytes : decodeBytes (leBytes 4 w) = .error e := by rw [decodeBytes, if_pos hlen, hword, decode, h]
  rw [decodeTableWord, if_pos rfl, hbytes]

theorem withReserved_of_ne {n : Nat} (h : n ≠ 0) (r : Except DecodeError Syl) : withReserved (n == 0) r = .error .reservedField := by
  rw [withReserved, if_neg (by simpa using h)]

theorem decodeSyl_of_op10 {w : Nat} (h : fld w 25 7 = 0x10) : decodeSyl w = decodeOp10 w := by rw [decodeSyl, h]; rfl
theorem decodeSyl_of_op11 {w : Nat} (h : fld w 25 7 = 0x11) : decodeSyl w = decodeOp11 w := by rw [decodeSyl, h]; rfl
theorem decodeSyl_of_op19 {w : Nat} (h : fld w 25 7 = 0x19) : decodeSyl w = decodeOp19 w := by rw [decodeSyl, h]; rfl

/-- The fn field as the decoders of forms read it: two bits that select the form, and two reserved ones. -/
theorem fld_fn (w : Nat) : fld w 3 2 = fld w 3 4 % 4 ∧ fld w 5 2 = fld w 3 4 / 4 := by
  simp only [fld]
  omega

theorem decodeOp10_unnamed {w : Nat} (h : 3 ≤ fld w 3 4) : ∃ e, decodeOp10 w = .error e := by
  obtain ⟨hform, hreserved⟩ := fld_fn w
  rw [decodeOp10]
  split
  case h_4 => exact ⟨_, rfl⟩
  all_goals exact ⟨_, withReserved_of_ne (by omega) _⟩

theorem decodeOp11_unnamed {w : Nat} (h : 4 ≤ fld w 3 4) : ∃ e, decodeOp11 w = .error e := by
  obtain ⟨hform, hreserved⟩ := fld_fn w
  rw [decodeOp11]
  split
  case h_5 => exact ⟨_, rfl⟩
  all_goals exact ⟨_, withReserved_of_ne (by omega) _⟩

theorem decodeOp19_unnamed {w : Nat} (h : 1 ≤ fld w 3 4) : ∃ e, decodeOp19 w = .error e := ⟨_, withReserved_of_ne (by omega) _⟩

/-- The word of an opcode in SR format with a value in each field (R54). -/
def srWord (op : Nat) (d a b : BitVec 6) (fn : Fin (2 ^ 4)) (q : BitVec 3) : Nat :=
  Layout.word (l := [(0, 3), (3, 4), (7, 6), (13, 6), (19, 6)]) (op * 2 ^ 25) (q.toFin, fn, b.toFin, a.toFin, d.toFin, ())

theorem srWord_fields {op : Nat} (d a b : BitVec 6) (fn : Fin (2 ^ 4)) (q : BitVec 3) (hop : op < 2 ^ 7) :
    srWord op d a b fn q < 2 ^ 32 ∧ fld (srWord op d a b fn q) 25 7 = op ∧ fld (srWord op d a b fn q) 3 4 = fn := by
  have hfits : Layout.fits (op * 2 ^ 25) [(0, 3), (3, 4), (7, 6), (13, 6), (19, 6)] = true := by
    simp [Layout.fits, Layout.avoids, fld]
    omega
  have hopcode : fld (op * 2 ^ 25) 25 7 = op := by rw [fld]; omega
  exact ⟨Layout.word_lt _ hfits, (Layout.fld_word_of_avoids _ hfits rfl).trans hopcode, (Layout.holds_word _ hfits).2.1⟩

/-- R72: a word of the opcodes of products, quotients and MADD with another fn is no instruction. -/
theorem decodeTableWord_srWord_unnamed {op : Nat} (d a b : BitVec 6) (fn : Fin (2 ^ 4)) (q : BitVec 3)
    (h : op = 0x10 ∧ 3 ≤ fn.val ∨ op = 0x11 ∧ 4 ≤ fn.val ∨ op = 0x19 ∧ 1 ≤ fn.val) : decodeTableWord 32 (srWord op d a b fn q) = none := by
  obtain ⟨hlt, hopcode, hfn⟩ := srWord_fields d a b fn q (by omega : op < 2 ^ 7)
  rw [← hfn] at h
  obtain ⟨e, he⟩ : ∃ e, decodeSyl (srWord op d a b fn q) = .error e := by
    obtain ⟨rfl, h⟩ | ⟨rfl, h⟩ | ⟨rfl, h⟩ := h
    · rw [decodeSyl_of_op10 hopcode]; exact decodeOp10_unnamed h
    · rw [decodeSyl_of_op11 hopcode]; exact decodeOp11_unnamed h
    · rw [decodeSyl_of_op19 hopcode]; exact decodeOp19_unnamed h
  exact decodeTableWord_of_error hlt he

/-- Settles O2: the quotients by their values as integers, the last part by the fields of the word. -/
theorem multiplyDivideResults : Obligations.MultiplyDivideResults := by
  unfold Obligations.MultiplyDivideResults
  refine ⟨fun s d a b q hq => ⟨scalarOp_on hq rfl, scalarOp_on hq rfl, scalarOp_on hq rfl, scalarOp_on hq rfl, scalarOp_on hq (divSigned_eq _ _),
    scalarOp_on hq (divUnsigned_eq _ _), scalarOp_on hq (remSigned_eq _ _), scalarOp_on hq (remUnsigned_eq _ _)⟩, by decide, by decide,
    fun d a b q op fn hfn hlt => ?_⟩
  exact decodeTableWord_srWord_unnamed d a b ⟨fn, hlt⟩ q hfn

end Sys2Proof.Machine
end

section
/-! Table jumps, loops and software traps (spec 01_task.md R22, R23; 03_scalar_control.md R81, R82, R86, R94, R95). -/

namespace Sys2Proof.Machine

/-! ### JTAB (R81) -/

section

variable {s : State} {q : BitVec 3} (d a b : BitVec 6) (hq : s.sqOn q = true)
include hq

theorem exec_jtab_past (h : (s.x d).toNat ≤ (s.x a).toNat) : exec (.jtab d a b q) s = .next (s.modStat fun t => { t with joor := true }) := by
  change Host.Outcome.next (s.guarded q _) = _
  rw [State.guarded_on hq, if_pos h]

theorem exec_jtab_readable (h : (s.x a).toNat < (s.x d).toNat) {u : State} {t : Word} (hread : s.readView64 (s.x b + 8 * s.x a) = (u, some t)) :
    exec (.jtab d a b q) s = .next (u.latch (.addr t)) := by
  change Host.Outcome.next (s.guarded q _) = _
  rw [State.guarded_on hq, if_neg (Nat.not_le.mpr h)]
  simp only [hread]

theorem exec_jtab_unreadable (h : (s.x a).toNat < (s.x d).toNat) {u : State} (hread : s.readView64 (s.x b + 8 * s.x a) = (u, none)) :
    exec (.jtab d a b q) s = .next (u.raise { code := 0x0D, addr := s.x b + 8 * s.x a }) := by
  change Host.Outcome.next (s.guarded q _) = _
  rw [State.guarded_on hq, if_neg (Nat.not_le.mpr h)]
  simp only [hread]

end

/-- Settles O7: by where the index stands, then by what reading the entry answers. -/
theorem jtabOutcomes : Obligations.JtabOutcomes := by
  unfold Obligations.JtabOutcomes
  refine fun s d a b q hq => ⟨exec_jtab_past d a b hq, fun h u r hread => ?_⟩
  cases r with
  | some t => exact exec_jtab_readable d a b hq h hread
  | none => exact exec_jtab_unreadable d a b hq h hread

/-! ### Loop levels (R82, R86) -/

theorem find?_of_tget? {α : Type} {t : Tab α} {n : Nat} {v : α} (h : tget? t n = some v) : t.find? (fun e => e.1 == n) = some (n, v) := by
  induction t with
  | nil => cases h
  | cons e t ih =>
    rw [tget?] at h
    split at h
    · next hk =>
      cases h
      subst hk
      simp
    · next hk => rw [List.find?_cons_of_neg (by simpa using hk), ih h]

namespace State

variable {s : State} (l : BitVec 2) {imm cnt : Nat}

theorem startLoop_of_outside (h : s.segBundles.length ≤ s.pos + 1 + imm) : s.startLoop l imm cnt = s.illegal := if_pos h

theorem startLoop_of_zero (h : s.pos + 1 + imm < s.segBundles.length) : s.startLoop l imm 0 =
    (s.modFront fun f => { f with loops := terase f.loops l.toNat }).modRun fun r => { r with skipTo := some (s.pos + 1 + imm + 1) } :=
  if_neg (Nat.not_le.mpr h)

theorem startLoop_of_pos (h : s.pos + 1 + imm < s.segBundles.length) (hcnt : cnt ≠ 0) : s.startLoop l imm cnt =
    s.modFront fun f => { f with loops := tset f.loops l.toNat { start := s.pos + 1, stop := s.pos + 1 + imm, rem := cnt } } :=
  (if_neg (Nat.not_le.mpr h)).trans (if_neg hcnt)

/-- R87: a cached record is at hand, and is the most recently used from now on. -/
theorem recordHit_of_cached {s : State} {ia : Nat} {bs : List Byte} (h : tget? s.core.rcache ia = some bs) :
    s.recordHit ia = some (s.modCore fun c => { c with rcache := (ia, bs) :: c.rcache.filter fun x => x.1 != ia }, bs) := by
  rw [recordHit, find?_of_tget? h]
  rfl

theorem withRecord_of_cached {s : State} {va : Word} {c : Access} {bs : List Byte} (k : State → List Byte → State)
    (hc : (s.ctx s.bound.ctx).translate? va.toNat .rd = some c) (halign : va.toNat % 64 = 0) (h : tget? s.core.rcache c.ia = some bs) :
    s.withRecord va k = k (s.modCore fun k => { k with rcache := (c.ia, bs) :: k.rcache.filter fun x => x.1 != c.ia }) bs := by
  simp only [withRecord, hc, halign, recordHit_of_cached h]
  rfl

end State

/-- R82: LOOPSR with a cached record starts a level with the record's extent as its count. -/
theorem exec_loopsr_of_cached {s : State} {a b : BitVec 6} {l : BitVec 2} {q : BitVec 3} {c : Access} {bs : List Byte} (hq : s.sqOn q = true)
    (hc : (s.ctx s.bound.ctx).translate? (s.x a).toNat .rd = some c) (halign : (s.x a).toNat % 64 = 0) (h : tget? s.core.rcache c.ia = some bs) :
    exec (.loopsr a b l q) s = .next ((s.modCore fun k => { k with rcache := (c.ia, bs) :: k.rcache.filter fun x => x.1 != c.ia }).startLoop l
      (fld (s.x b).toNat 0 13) (at' bs (8 + 4 * fld (s.x b).toNat 13 2) 4)) := by
  change Host.Outcome.next (s.guarded q _) = _
  rw [State.guarded_on hq, State.withRecord_of_cached _ hc halign h]
  rfl

/-- Settles O8: LOOP, LOOPI and LOOPSR start one level by the same rule, LOOPSR from a record that is at hand. -/
theorem loopsStart : Obligations.LoopsStart := by
  unfold Obligations.LoopsStart
  intro s l a b n i q
  refine ⟨fun h => ⟨?_, ?_⟩, fun h => ⟨?_, fun ha => ?_, fun ha => ?_⟩, fun hq bs c halign hc hcached hin hcnt =>
    ⟨_, (exec_loopsr_of_cached hq hc halign hcached).trans (congrArg Host.Outcome.next (State.startLoop_of_pos l hin (Nat.ne_of_gt hcnt))), rfl⟩⟩
  · exact congrArg Host.Outcome.next (State.startLoop_of_outside l h)
  · exact congrArg Host.Outcome.next (State.startLoop_of_outside l h)
  · exact congrArg Host.Outcome.next (State.startLoop_of_pos l h (Nat.succ_ne_zero _))
  · have hcnt : (s.x a).toNat ≠ 0 := fun h => ha (BitVec.eq_of_toNat_eq h)
    exact congrArg Host.Outcome.next (State.startLoop_of_pos l h hcnt)
  · change Host.Outcome.next (s.startLoop l i.toNat (s.x a).toNat) = _
    rw [ha]
    exact congrArg Host.Outcome.next (State.startLoop_of_zero l h)

/-! ### TRAP and BRK (R94, R95) -/

namespace State

/-- What every capture writes, whatever reaches the spire before it. -/
theorem captureTrap_z (s : State) (c : Cause) (slot srf bundle resume : Nat) :
    (s.captureTrap c slot srf bundle resume).core.regs.z.cause = { detail := c.detail, slot := BitVec.ofNat 3 slot, code := c.code } ∧
    (s.captureTrap c slot srf bundle resume).core.regs.z.stat.srf = BitVec.ofNat 3 srf ∧
    (s.captureTrap c slot srf bundle resume).core.regs.z.stat.tm = true ∧
    (s.captureTrap c slot srf bundle resume).core.regs.z.bundle = BitVec.ofNat 64 bundle := ⟨rfl, rfl, rfl, rfl⟩

variable {s : State}

theorem softTrap_of_handled {code : BitVec 8} (imm : BitVec 13) (hcls : ({ code := code, detail := imm.zeroExtend 32 } : Cause).cls ≠ .containment)
    (hdebug : ({ code := code, detail := imm.zeroExtend 32 } : Cause).cls = .debug → s.root.debugger = false)
    (htm : s.core.regs.z.stat.tm = false) (hten : s.core.regs.z.stat.ten = true) (hvec : s.core.regs.z.handler ≠ 0) :
    s.softTrap code imm = s.enterHandler { code := code, detail := imm.zeroExtend 32 } 0 1 s.bundleAddr s.bundleAddr := by
  rw [softTrap, takeTrap_of_handled _ _ _ _ hcls hdebug, if_neg (by simp [htm]), if_pos ⟨hten, hvec⟩]

/-- R95: an attached debugger takes BRK. -/
theorem softTrap_of_debugger {code : BitVec 8} (imm : BitVec 13) (hcls : ({ code := code, detail := imm.zeroExtend 32 } : Cause).cls = .debug)
    (hdebug : s.root.debugger = true) (htm : s.core.regs.z.stat.tm = false) :
    s.softTrap code imm = (s.captureTrap { code := code, detail := imm.zeroExtend 32 } 0 1 s.bundleAddr s.bundleAddr).modFront
      fun f => { f with halted := true, debug := true } := by
  rw [softTrap, takeTrap_of_debugger _ _ _ _ hcls hdebug, enterDebugger, if_neg (by simp [htm])]

end State

theorem exec_trapNz_of_zero {s : State} {a : BitVec 6} (c : BitVec 13) (h : s.x a = 0) : exec (.trapNz a c) s = .next s :=
  congrArg Host.Outcome.next (if_pos h)

theorem exec_trapNz_of_ne {s : State} {a : BitVec 6} (c : BitVec 13) (h : s.x a ≠ 0) : exec (.trapNz a c) s = .next (s.softTrap 0x0F c) :=
  congrArg Host.Outcome.next (if_neg h)

/-- Settles O11: TRAP and BRK enter the handler, or BRK the debugger, and each writes what the capture writes. -/
theorem softTraps : Obligations.SoftTraps := by
  unfold Obligations.SoftTraps
  intro s a c htm hten hvec
  have htrap := State.softTrap_of_handled (s := s) (code := 0x0F) c (by simp [Cause.cls]) (by simp [Cause.cls]) htm hten hvec
  have hbreak := fun hdebug : s.root.debugger = false =>
    State.softTrap_of_handled (s := s) (code := 0x10) c (by simp [Cause.cls]) (fun _ => hdebug) htm hten hvec
  have hattached := fun hdebug => State.softTrap_of_debugger (s := s) (code := 0x10) c (by simp [Cause.cls]) hdebug htm
  have hz := fun code : BitVec 8 => s.captureTrap_z { code := code, detail := c.zeroExtend 32 } 0 1 s.bundleAddr s.bundleAddr
  refine ⟨⟨_, congrArg Host.Outcome.next htrap, hz 0x0F⟩, fun ha => ⟨_, (exec_trapNz_of_ne c ha).trans (congrArg Host.Outcome.next htrap), hz 0x0F⟩,
    exec_trapNz_of_zero c, fun hdebug => ⟨_, congrArg Host.Outcome.next (hbreak hdebug), hz 0x10⟩,
    fun hdebug => ⟨_, congrArg Host.Outcome.next (hattached hdebug), ?_⟩⟩
  obtain ⟨hcause, hsrf, htm', hbundle⟩ := hz 0x10
  exact ⟨hcause, hsrf, htm', hbundle, rfl⟩

end Sys2Proof.Machine
end

section
/-! LAUNCH, CANCEL and WDOG (spec 01_task.md R17; 03_scalar_control.md R101 to R103; 11_translation_scheduling.md R307; 13_package.md R347). -/

namespace Sys2Proof.Machine

/-! ### WDOG (R307) -/

@[simp] theorem setX_regs (s : State) (n : BitVec 6) (val : Word) (lat : Nat) : (s.setX n val lat).core.regs = s.core.regs := by
  unfold State.setX; split <;> rfl

@[simp] theorem setX_spad (s : State) (n : BitVec 6) (val : Word) (lat : Nat) : (s.setX n val lat).core.spad = s.core.spad := by
  unfold State.setX; split <;> rfl

@[simp] theorem setX_mem (s : State) (n : BitVec 6) (val : Word) (lat : Nat) : (s.setX n val lat).mem = s.mem := by
  unfold State.setX; split <;> rfl

theorem exec_wdog (s : State) (d a : BitVec 6) : exec (.wdog d a) s = .next (if (s.x a).toNat % 2 ^ 32 = 0 then s.setX d s.core.regs.z.wdogWord 1
    else (s.setX d s.core.regs.z.wdogWord 1).modZ fun z =>
      { z with budget := BitVec.ofNat 32 (min ((s.x a).toNat % 2 ^ 32) ((s.boundLaunch.map Launch.wdcap).getD 0)) }) := by
  change execWdog d a s = _
  simp only [execWdog, fld, pow_zero, Nat.div_one]

/-! ### The producer steps of a ring (R347) -/

namespace State

section

variable {s : State} (ring k : Nat) (fin : State → State)

theorem submitPublish_of_published {p : Nat} (h : s.core.published = some p) :
    s.submitPublish ring k fin = fin (s.modCore fun c => { c with published := none }) := by
  simp only [submitPublish, h]

theorem submitPublish_of_try {u : State} (h : s.core.published = none) (htry : s.ringTry (s.ringReg ring) k = (u, true)) :
    s.submitPublish ring k fin = fin (u.modCore fun c => { c with published := none }) := by
  simp only [submitPublish, h, htry]

theorem submitPublish_of_wait {u : State} (h : s.core.published = none) (htry : s.ringTry (s.ringReg ring) k = (u, false)) :
    s.submitPublish ring k fin = u.hold := by
  simp only [submitPublish, h, htry]

end

section

variable {s : State} {ring : Nat} (bs : List Byte) (fin : State → Nat → State)

theorem submitEntry_of_empty (h : ringLog (s.ringReg ring) = 0) : s.submitEntry ring bs fin = s.illegal := if_pos h

section

variable {x : State} {res pub con : Nat} (hlog : ringLog (s.ringReg ring) ≠ 0)
  (hwords : s.ringWords s.myDie (s.ringReg ring) = (x, some (res, pub, con)))
include hlog hwords

theorem submitEntry_of_full (hfull : 2 ^ ringLog (s.ringReg ring) ≤ res - con) : s.submitEntry ring bs fin = x.submitFull ring := by
  simp only [submitEntry, if_neg hlog, hwords, if_pos hfull]

/-- Steps 1 and 2 of R347: the core holds the slot that RES names, and waits for PUB. -/
theorem submitEntry_of_room (hroom : res - con < 2 ^ ringLog (s.ringReg ring)) {y : State}
    (hreserve : x.ringReserve x.myDie (s.ringReg ring) res bs = (y, true)) :
    s.submitEntry ring bs fin =
      (y.modCore fun c => { c with slotHeld := some (ring, res) }).submitPublish ring res fun s => fin s res := by
  simp only [submitEntry, if_neg hlog, hwords, if_neg (Nat.not_le.mpr hroom), hreserve]

end

end

section

variable {s : State} (va : Word) (ring : Nat) (check : State → List Byte → (State → State) → State) (fin : State → Nat → State)

theorem submit_of_held {r k : Nat} (h : s.core.slotHeld = some (r, k)) : s.submit va ring check fin = s.submitPublish r k fun s => fin s k := by
  simp only [submit, h]

theorem submit_of_published {k : Nat} (h : s.core.slotHeld = none) (hpub : s.core.published = some k) :
    s.submit va ring check fin = fin (s.modCore fun c => { c with published := none }) k := by
  simp only [submit, h, hpub, submitPublish_of_published _ _ _ hpub]

section

variable (hheld : s.core.slotHeld = none) (hpub : s.core.published = none) (hpage : s.core.front.holdPage = none)
include hheld hpub hpage

theorem submit_of_misaligned (halign : va.toNat % 64 ≠ 0) : s.submit va ring check fin = s.misalign va 64 := by
  simp [submit, hheld, hpub, hpage, halign]

theorem submit_of_noWindow (halign : va.toNat % 64 = 0) (hc : (s.ctx s.bound.ctx).translate? va.toNat .rd = none) :
    s.submit va ring check fin = s.noWindow va := by
  simp [submit, hheld, hpub, hpage, halign, hc]

variable {c : Access} (halign : va.toNat % 64 = 0) (hc : (s.ctx s.bound.ctx).translate? va.toNat .rd = some c)
include halign hc

theorem submit_of_remote (hremote : s.isRemote c.ia = true) : s.submit va ring check fin = s.illegal := by
  simp [submit, hheld, hpub, hpage, halign, hc, hremote]

variable (hlocal : s.isRemote c.ia = false)
include hlocal

theorem submit_of_absent {u : State} (hwalk : s.walk s.myDie c.ia = (u, .absent)) : s.submit va ring check fin = u.abort c.ia := by
  simp [submit, hheld, hpub, hpage, halign, hc, hlocal, hwalk, walkFails]

variable {u v : State} {pa : Nat} {m : Bool} {g : ViewGot} (hwalk : s.walk s.myDie c.ia = (u, .page pa m)) (hread : u.viewRead c.ia pa 64 = (v, g))
include hwalk hread

theorem submit_of_lost (hlost : g.lost = true) : s.submit va ring check fin = v.uncorrectable c.ia pa := by
  simp [submit, hheld, hpub, hpage, halign, hc, hlocal, hwalk, hread, hlost]

/-- R101: an entry that has been read goes to its ring. -/
theorem submit_of_read (hlost : g.lost = false) : s.submit va ring check fin = check v g.data fun s => s.submitEntry ring g.data fin := by
  simp [submit, hheld, hpub, hpage, halign, hc, hlocal, hwalk, hread, hlost]

end

end

/-- R102: a launch entry counts as submitted on its ring and slot for the bound task, and the region ends. -/
def launchSubmitted (r : BitVec 6) (s : State) (k : Nat) : State :=
  (s.modSched fun q => { q with submits := q.submits ++
    [{ ctx := s.bound.ctx, ring := r.toNat, slot := k, parent := (s.boundLaunch.map Launch.graph).getD 0 }] }).modRun fun r => { r with ended := true }

theorem launchSubmitted_spec (r : BitVec 6) (u : State) (k : Nat) :
    let t := launchSubmitted r (u.modCore fun c => { c with published := none }) k
    (∃ e, t.sched.submits = u.sched.submits ++ [e] ∧ e.ctx = u.bound.ctx ∧ e.ring = r.toNat ∧ e.slot = k) ∧
      t.mem = u.mem ∧ t.core.published = none ∧ t.core.regs = u.core.regs ∧ t.core.spad = u.core.spad ∧ ∀ x, t.core.front.run = some x → x.ended = true := by
  refine ⟨⟨_, rfl, rfl, rfl, rfl⟩, rfl, rfl, rfl, rfl, fun x hx => ?_⟩
  obtain ⟨y, -, rfl⟩ := Option.map_eq_some_iff.mp hx
  rfl

/-! ### Cancelling (R17, R103) -/

theorem cancelLaunch_of_none {s : State} {id : Nat} (level final : Nat) (h : s.launch? id = none) : s.cancelLaunch id level final = s := by
  simp only [cancelLaunch, h]

theorem cancelLaunch_of_ended {s : State} {id : Nat} {L : Launch} (level final : Nat) (h : s.launch? id = some L) (hend : L.final ≠ 1 ∨ L.complete = true) :
    s.cancelLaunch id level final = s := by
  simp only [cancelLaunch, h, if_pos hend]

theorem cancelLaunch_of_live {s : State} {id : Nat} {L : Launch} (level final : Nat) (h : s.launch? id = some L) (hfinal : L.final = 1)
    (hlive : L.complete = false) : s.cancelLaunch id level final = (s.sched.tasks.filter fun q => q.launch == id).foldl (fun s q => s.cancelTask q level)
      (s.modLaunchAny id fun l => { l with final := final, cancel := level }) := by
  simp only [cancelLaunch, h, hfinal, hlive]
  rfl

theorem cancelGraph_of_none {s : State} {id : Nat} (level final : Nat) (h : s.graph? id = none) : s.cancelGraph id level final = s := by
  simp only [cancelGraph, h]

theorem cancelGraph_of_complete {s : State} {id : Nat} {G : Graph} (level final : Nat) (h : s.graph? id = some G) (hend : G.complete = true) :
    s.cancelGraph id level final = s := by
  simp only [cancelGraph, h, if_pos hend]

theorem cancelGraph_of_live {s : State} {id : Nat} {G : Graph} (level final : Nat) (h : s.graph? id = some G) (hlive : G.complete = false) :
    s.cancelGraph id level final = (s.sched.launches.filter fun l => l.graph == id && !l.complete).foldl (fun s l => s.cancelLaunch l.id level final)
      (s.modGraph id fun g => { g with ended := true, active := [] }) := by
  simp only [cancelGraph, h, hlive]
  rfl

theorem cancelPhase_of_none {s : State} {id : Nat} (level final : Nat) (h : s.phase? id = none) : s.cancelPhase id level final = s := by
  simp only [cancelPhase, h]

theorem cancelPhase_of_complete {s : State} {id : Nat} {P : Phase} (level final : Nat) (h : s.phase? id = some P) (hend : P.complete = true) :
    s.cancelPhase id level final = s := by
  simp only [cancelPhase, h, if_pos hend]

theorem cancelPhase_of_waiting {s : State} {id : Nat} {P : Phase} (level final : Nat) (h : s.phase? id = some P) (hlive : P.complete = false)
    (hgraph : P.graph = 0) : s.cancelPhase id level final = s.modPhase id fun p => { p with stopped := true } := by
  simp [cancelPhase, h, hlive, hgraph]

theorem cancelPhase_of_running {s : State} {id : Nat} {P : Phase} (level final : Nat) (h : s.phase? id = some P) (hlive : P.complete = false)
    (hgraph : P.graph ≠ 0) : s.cancelPhase id level final = s.cancelGraph P.graph level final := by
  simp [cancelPhase, h, hlive, hgraph]

theorem stopJob_of_none {s : State} {id : Nat} (level final : Nat) (entry : Bool) (h : s.job? id = none) : s.stopJob id level final entry = s := by
  simp only [stopJob, h]

theorem stopJob_of_ended {s : State} {id : Nat} {J : JobRun} (level final : Nat) (entry : Bool) (h : s.job? id = some J)
    (hend : J.stopped = true ∨ J.complete = true) : s.stopJob id level final entry = s := by
  simp only [stopJob, h, if_pos hend]

theorem stopJob_of_live {s : State} {id : Nat} {J : JobRun} (level final : Nat) (h : s.job? id = some J) (hstopped : J.stopped = false)
    (hlive : J.complete = false) : s.stopJob id level final true = ((s.sched.phases.filter fun p => p.job == id && !p.complete).foldl
      (fun s p => s.cancelPhase p.id level final) (s.modJob id fun j => { j with stopped := true, active := false })).event 7 0 id := by
  simp only [stopJob, h, hstopped, hlive]
  rfl

theorem cancelTask_of_bound (s : State) {q : Task} {n : Nat} (level : Nat) (h : q.state = .bound n) :
    s.cancelTask q level = s.modTaskRec q.launch q.index fun t => { t with cancel := some level } := by
  simp only [cancelTask, h]

theorem cancelTask_of_ended (s : State) {q : Task} (level : Nat) (h : q.state = .done ∨ q.state = .killed) : s.cancelTask q level = s := by
  obtain h | h := h <;> simp only [cancelTask, h]

theorem cancelTask_of_ready (s : State) {q : Task} (level : Nat) (h : q.state = .ready) :
    s.cancelTask q level = (s.modTaskRec q.launch q.index fun t => { t with cancel := some level }).markCan q := by
  simp only [cancelTask, h]

theorem cancelTask_of_waiting (s : State) {q : Task} (level : Nat) (h : q.state = .parked ∨ q.state = .faultWait) :
    s.cancelTask q level = (s.makeReady q.launch q.index fun t => { t with cancel := some level, pages := [], unqueued := [] }).markCan q := by
  obtain h | h := h <;> simp only [cancelTask, h]

end State

/-! ### LAUNCH and CANCEL as instructions -/

theorem exec_launch (a r : BitVec 6) (s : State) :
    exec (.launch a r) s = .next (s.submit (s.x a) r.toNat (fun s _ k => k s) (State.launchSubmitted r)) := rfl

theorem exec_cancel (a : BitVec 6) (l : CLevel) (s : State) : exec (.cancel a l) s = .next (s.cancelUnit l ((s.x a).toNat % 2 ^ 32)) := by
  change Host.Outcome.next (s.cancelUnit l (fld (s.x a).toNat 0 32)) = _
  rw [fld, pow_zero, Nat.div_one]

/-- Settles O14: WDOG by whether it asks for a budget, LAUNCH by how far its submission has come and by each of its tests, CANCEL by its unit. -/
theorem launchCancelWatchdog : Obligations.LaunchCancelWatchdog := by
  unfold Obligations.LaunchCancelWatchdog
  refine ⟨fun s d a => ⟨_, exec_wdog s d a, ?wdog⟩,
    fun s a r => ⟨fun n k u hheld hpub => ⟨fun htry => ?heldPublishes, fun htry => ?heldWaits⟩, fun k hheld hpub => ?published,
    fun hheld hpub hpage => ⟨fun halign => ?misaligned, fun halign hc => ?noWindow, fun c halign hc => ⟨fun hremote => ?remote, fun u hlocal hwalk => ?absent,
      fun u pa w v g hlocal hwalk hread => ⟨fun hlost => ?lost, fun hlost hlog => ?emptyRing, fun x res pub con hlost hlog hwords =>
        ⟨fun hfull => ?fullRing, fun y z b hroom hreserve => ?reserved⟩⟩⟩⟩⟩, fun s a => ⟨?cancel, fun q n => s.cancelTask_of_bound 1,
      fun q => s.cancelTask_of_ended 1, fun q => s.cancelTask_of_ready 1, fun q => s.cancelTask_of_waiting 1⟩⟩
  case wdog => split <;> simp
  case heldPublishes =>
    exact ⟨_, by rw [exec_launch, State.submit_of_held _ _ _ _ hheld, State.submitPublish_of_try _ _ _ hpub htry], State.launchSubmitted_spec r u k⟩
  case heldWaits => rw [exec_launch, State.submit_of_held _ _ _ _ hheld, State.submitPublish_of_wait _ _ _ hpub htry]
  case published => exact ⟨_, by rw [exec_launch, State.submit_of_published _ _ _ _ hheld hpub], State.launchSubmitted_spec r s k⟩
  case misaligned => rw [exec_launch, State.submit_of_misaligned _ _ _ _ hheld hpub hpage halign]
  case noWindow => rw [exec_launch, State.submit_of_noWindow _ _ _ _ hheld hpub hpage halign hc]
  case remote => rw [exec_launch, State.submit_of_remote _ _ _ _ hheld hpub hpage halign hc hremote]
  case absent => rw [exec_launch, State.submit_of_absent _ _ _ _ hheld hpub hpage halign hc hlocal hwalk]
  case lost => rw [exec_launch, State.submit_of_lost _ _ _ _ hheld hpub hpage halign hc hlocal hwalk hread hlost]
  case emptyRing =>
    rw [exec_launch, State.submit_of_read _ _ _ _ hheld hpub hpage halign hc hlocal hwalk hread hlost]
    exact congrArg Host.Outcome.next (State.submitEntry_of_empty _ _ hlog)
  case fullRing =>
    rw [exec_launch, State.submit_of_read _ _ _ _ hheld hpub hpage halign hc hlocal hwalk hread hlost]
    exact congrArg Host.Outcome.next (State.submitEntry_of_full _ _ hlog hwords hfull)
  case reserved =>
    intro held hpub' htry
    have hsubmit : exec (.launch a r) s = .next (held.submitPublish r.toNat res fun t => State.launchSubmitted r t res) := by
      rw [exec_launch, State.submit_of_read _ _ _ _ hheld hpub hpage halign hc hlocal hwalk hread hlost]
      exact congrArg Host.Outcome.next (State.submitEntry_of_room _ _ hlog hwords hroom hreserve)
    refine ⟨fun hb => ⟨_, ?_, State.launchSubmitted_spec r z res⟩, fun hb => ?_⟩
    · rw [hsubmit, State.submitPublish_of_try _ _ _ hpub' (hb ▸ htry)]
    · rw [hsubmit, State.submitPublish_of_wait _ _ _ hpub' (hb ▸ htry)]
  case cancel =>
    simp only [exec_cancel, State.cancelUnit, Host.Outcome.next.injEq]
    exact ⟨State.cancelLaunch_of_none 1 2, State.cancelGraph_of_none 2 2, State.cancelPhase_of_none 3 2, State.stopJob_of_none 4 2 true,
      fun L => State.cancelLaunch_of_live 1 2, fun L => State.cancelLaunch_of_ended 1 2,
      fun G h => ⟨State.cancelGraph_of_complete 2 2 h, State.cancelGraph_of_live 2 2 h⟩,
      fun P h => ⟨State.cancelPhase_of_complete 3 2 h, State.cancelPhase_of_waiting 3 2 h, State.cancelPhase_of_running 3 2 h⟩,
      fun J h => ⟨State.stopJob_of_ended 4 2 true h, State.stopJob_of_live 4 2 h⟩⟩

end Sys2Proof.Machine
end

section
/-! VRED and VSCAN (spec 04_numbers.md R122, R123; 05_vector.md R149, R150): level `k` of the tree and of the scan by its index, and what they come to
when the combining operation is a sum. -/

namespace Sys2Proof.Machine

section

variable {α β : Type}

/-! ### The tree of R122 -/

/-- Node `i` of level `k` of the binary tree over `g`. -/
def treeAt (f : α → α → α) (g : Nat → α) : Nat → Nat → α
  | 0, i => g i
  | k + 1, i => f (treeAt f g k (2 * i)) (treeAt f g k (2 * i + 1))

theorem pairUp_map_range (f : α → α → α) (h : Nat → α) (n : Nat) :
    pairUp f ((List.range (2 * n)).map h) = (List.range n).map fun i => f (h (2 * i)) (h (2 * i + 1)) := by
  induction n generalizing h with
  | zero => rfl
  | succ n ih =>
    have htwo : List.range (2 * (n + 1)) = 0 :: 1 :: (List.range (2 * n)).map (· + 2) := by
      rw [Nat.mul_succ, List.range_succ_eq_map, List.range_succ_eq_map]
      simp
    rw [htwo, List.range_succ_eq_map]
    simp only [List.map_cons, List.map_map, pairUp]
    rw [ih]
    rfl

theorem foldl_pairUp_map_range (f : α → α → α) (g : Nat → α) (k n : Nat) :
    (List.range k).foldl (fun l _ => pairUp f l) ((List.range (2 ^ k * n)).map g) = (List.range n).map (treeAt f g k) := by
  induction k generalizing n with
  | zero => simp [treeAt]
  | succ k ih =>
    rw [List.range_succ, List.foldl_append, pow_succ, mul_assoc, ih (2 * n)]
    exact pairUp_map_range f (treeAt f g k) n

theorem tree128_map_range (f : α → α → α) (g : Nat → α) : tree128 f ((List.range 128).map g) = [treeAt f g 7 0] :=
  foldl_pairUp_map_range f g 7 1

/-- What carries one operation to another carries the one's tree to the other's. -/
theorem map_treeAt {F : α → α → α} {f : β → β → β} {φ : α → β} (hφ : ∀ x y, φ (F x y) = f (φ x) (φ y)) (G : Nat → α) (k i : Nat) :
    φ (treeAt F G k i) = treeAt f (fun i => φ (G i)) k i := by
  induction k generalizing i with
  | zero => rfl
  | succ k ih => rw [treeAt, treeAt, hφ, ih, ih]

/-- Node `i` of a tree of sums is the sum over its leaves. -/
theorem sumTo_add_treeAt (g : Nat → Nat) (k i : Nat) : sumTo (2 ^ k * i) g + treeAt (· + ·) g k i = sumTo (2 ^ k * (i + 1)) g := by
  induction k generalizing i with
  | zero => rw [pow_zero, Nat.one_mul, Nat.one_mul]; rfl
  | succ k ih =>
    have hleft := ih (2 * i)
    have hright := ih (2 * i + 1)
    rw [treeAt, pow_succ, mul_assoc, mul_assoc, show 2 * (i + 1) = 2 * i + 1 + 1 by omega]
    omega

/-! ### The scan of R123 -/

/-- Element `i` of the scan over `g` after the steps at distances 1 to 2^(k-1). -/
def scanAt (f : α → α → α) (g : Nat → α) : Nat → Nat → α
  | 0, i => g i
  | k + 1, i => if 2 ^ k ≤ i then f (scanAt f g k (i - 2 ^ k)) (scanAt f g k i) else scanAt f g k i

theorem scanStep_map_range (f : α → α → α) (h : Nat → α) (n m : Nat) :
    scanStep f n ((List.range m).map h) = (List.range m).map fun i => if n ≤ i then f (h (i - n)) (h i) else h i := by
  refine List.ext_getElem (by simp [scanStep]; omega) fun i hi hm => ?_
  have him : i < m := by simpa using hm
  rw [List.getElem_map, List.getElem_range]
  simp only [scanStep, List.getElem_append, List.length_take, List.length_map, List.length_range]
  by_cases hn : n ≤ i
  · have hmin : min n m = n := by omega
    have hadd : n + (i - n) = i := by omega
    simp [hn, hmin, hadd]
  · have hlt : i < min n m := by omega
    simp [hn, hlt]

theorem foldl_scanStep_map_range (f : α → α → α) (g : Nat → α) (k m : Nat) :
    (List.range k).foldl (fun l j => scanStep f (2 ^ j) l) ((List.range m).map g) = (List.range m).map (scanAt f g k) := by
  induction k with
  | zero => rfl
  | succ k ih =>
    rw [List.range_succ, List.foldl_append, ih]
    exact scanStep_map_range f (scanAt f g k) (2 ^ k) m

theorem scan128_map_range (f : α → α → α) (g : Nat → α) (m : Nat) :
    scan128 f ((List.range m).map g) = (List.range m).map (scanAt f g 7) :=
  foldl_scanStep_map_range f g 7 m

theorem map_scanAt {F : α → α → α} {f : β → β → β} {φ : α → β} (hφ : ∀ x y, φ (F x y) = f (φ x) (φ y)) (G : Nat → α) (k i : Nat) :
    φ (scanAt F G k i) = scanAt f (fun i => φ (G i)) k i := by
  induction k generalizing i with
  | zero => rfl
  | succ k ih => rw [scanAt, scanAt, apply_ite φ, hφ, ih, ih]

/-- After the step at distance 2^(k-1), element `i` of a scan of sums is the sum of the 2^k elements up to it. -/
theorem sumTo_add_scanAt (g : Nat → Nat) (k i : Nat) : sumTo (i + 1 - 2 ^ k) g + scanAt (· + ·) g k i = sumTo (i + 1) g := by
  induction k generalizing i with
  | zero => rfl
  | succ k ih =>
    have hi := ih i
    rw [scanAt, pow_succ]
    split
    · next hle =>
      have hbefore := ih (i - 2 ^ k)
      rw [show i - 2 ^ k + 1 - 2 ^ k = i + 1 - 2 ^ k * 2 by omega, show i - 2 ^ k + 1 = i + 1 - 2 ^ k by omega] at hbefore
      omega
    · next hgt =>
      rw [show i + 1 - 2 ^ k = 0 by omega] at hi
      rw [show i + 1 - 2 ^ k * 2 = 0 by omega]
      exact hi

end

/-! ### The operations of VRED and VSCAN -/

theorem sumLane_true_fst (x y : Nat × Ev) : (sumLane true x y).1 = (fp32.add x.1 y.1).1 := rfl

/-- On INT32 the low 32 bits of the sum are those of the sum of the operands' low bits. -/
theorem sumLane_false_fst_mod (x y : Nat × Ev) : (sumLane false x y).1 % 2 ^ 32 = (x.1 % 2 ^ 32 + y.1 % 2 ^ 32) % 2 ^ 32 :=
  (Nat.mod_mod _ _).trans (Nat.add_mod _ _ _)

/-- The lanes `g` as the sums of VRED and VSCAN take them, with no event yet. -/
def freshLane (g : Nat → Nat) (i : Nat) : Nat × Ev := (g i, {})

/-- An operation that does with the values what `f` does gives the tree of `f`, whatever it does with the events. -/
theorem treeAt_fresh {F : Nat × Ev → Nat × Ev → Nat × Ev} {f : Nat → Nat → Nat} (hF : ∀ x y, (F x y).1 = f x.1 y.1) (g : Nat → Nat) (k i : Nat) :
    (treeAt F (freshLane g) k i).1 % 2 ^ 32 = treeAt f g k i % 2 ^ 32 :=
  congrArg (· % 2 ^ 32) (map_treeAt (φ := Prod.fst) hF _ k i)

theorem treeAt_sumLane_int (g : Nat → Nat) (k : Nat) : (treeAt (sumLane false) (freshLane g) k 0).1 % 2 ^ 32 = sumTo (2 ^ k) g % 2 ^ 32 := by
  have hsum := sumTo_add_treeAt g k 0
  rw [Nat.mul_zero, Nat.zero_add, Nat.mul_one] at hsum
  calc (treeAt (sumLane false) (freshLane g) k 0).1 % 2 ^ 32
      = treeAt (fun x y => (x + y) % 2 ^ 32) (fun i => g i % 2 ^ 32) k 0 :=
        map_treeAt (φ := fun x : Nat × Ev => x.1 % 2 ^ 32) sumLane_false_fst_mod (freshLane g) k 0
    _ = treeAt (· + ·) g k 0 % 2 ^ 32 := (map_treeAt (φ := (· % 2 ^ 32)) (fun x y => Nat.add_mod x y _) g k 0).symm
    _ = sumTo (2 ^ k) g % 2 ^ 32 := by rw [← hsum]; exact congrArg (· % 2 ^ 32) (Nat.zero_add _).symm

theorem scanAt_sumLane_int (g : Nat → Nat) {k i : Nat} (h : i < 2 ^ k) :
    (scanAt (sumLane false) (freshLane g) k i).1 % 2 ^ 32 = sumTo (i + 1) g % 2 ^ 32 := by
  have hsum := sumTo_add_scanAt g k i
  rw [show i + 1 - 2 ^ k = 0 by omega] at hsum
  calc (scanAt (sumLane false) (freshLane g) k i).1 % 2 ^ 32
      = scanAt (fun x y => (x + y) % 2 ^ 32) (fun i => g i % 2 ^ 32) k i :=
        map_scanAt (φ := fun x : Nat × Ev => x.1 % 2 ^ 32) sumLane_false_fst_mod (freshLane g) k i
    _ = scanAt (· + ·) g k i % 2 ^ 32 := (map_scanAt (φ := (· % 2 ^ 32)) (fun x y => Nat.add_mod x y _) g k i).symm
    _ = sumTo (i + 1) g % 2 ^ 32 := by rw [← hsum]; exact congrArg (· % 2 ^ 32) (Nat.zero_add _).symm

/-! ### What the forms write -/

/-- Lane `i` of a source, the identity where the predicate disables it (R122). -/
def State.laneOr (s : State) (a : BitVec 5) (p : BitVec 4) (identity i : Nat) : Nat :=
  if (s.p p).getLsbD i then vElem 32 (s.v a) i else identity

theorem State.lanesOr_fresh (s : State) (a : BitVec 5) (p : BitVec 4) (identity : Nat) :
    ((s.lanesOr a p identity).map fun x => (x, ({} : Ev))) = (List.range 128).map (freshLane (s.laneOr a p identity)) := List.map_map

theorem vElem_ofNat_mod_zero (x : Nat) : vElem 32 (BitVec.ofNat 4096 (x % 2 ^ 32)) 0 = x % 2 ^ 32 := by
  simp only [vElem, elemOf, BitVec.toNat_ofNat]
  omega

/-- R149: VRED writes lane 0 alone, with the root of the tree. -/
theorem vecWrites_vreduce {i : Instr} {s : State} {d a : BitVec 5} {p : BitVec 4} {identity : Nat} {F : Nat × Ev → Nat × Ev → Nat × Ev}
    (hi : exec i s = .next (s.vreduce d a p identity F)) {r : Nat}
    (hr : (treeAt F (freshLane (s.laneOr a p identity)) 7 0).1 % 2 ^ 32 = r % 2 ^ 32) : VecWrites i s d 32 1 7 fun _ => r := by
  rw [State.vreduce, State.lanesOr_fresh, tree128_map_range] at hi
  refine vecWrites_setV d 32 1 _ 7 _ hi (countStat_only _ _ _) (countStat_flight _ _ _) fun e he hm => ?_
  obtain rfl : e = 0 := by
    by_contra hne
    simp [BitVec.getLsbD_one, hne] at hm
  exact (vElem_ofNat_mod_zero _).trans hr

/-- R150: VSCAN delivers the elements of the fixed scan, an FP32 NaN in its canonical form. -/
theorem vecWrites_vscan {s : State} {d a : BitVec 5} {t : VTy} {p : BitVec 4} {g : Nat → Nat}
    (hg : ∀ e, e < 128 → (let x := (scanAt (sumLane (VTy.isF32 t)) (freshLane (s.laneOr a p (if VTy.isF32 t then 0x80000000 else 0))) 7 e).1
      if VTy.isF32 t then fp32.canon x else x) % 2 ^ 32 = g e % 2 ^ 32) : VecWrites (.vscan d a t p) s d 32 (s.p p) 9 g := by
  refine vecWrites_setV d 32 (s.p p) _ 9 g rfl (countStat_only _ _ _) (countStat_flight _ _ _) fun e he _ => ?_
  have he' : e < 128 := by simpa using he
  rw [vElem, elemOf_ofElems 32 _ (by decide) he, State.lanesOr_fresh, scan128_map_range, ← hg e he']
  simp [he']

/-- Settles O39: each form's tree or scan by its index, whose values are the model's without their events. -/
theorem vectorReduceScan : Obligations.VectorReduceScan := by
  unfold Obligations.VectorReduceScan
  intro s d a p tree scan hzero hsucc
  have htree : ∀ f g k i, tree f g k i = treeAt f g k i := by
    intro f g k i
    induction k generalizing i with
    | zero => exact (hzero f g i).1
    | succ k ih => rw [(hsucc f g k i).1, ih, ih, treeAt]
  have hscan : ∀ f g k i, scan f g k i = scanAt f g k i := by
    intro f g k i
    induction k generalizing i with
    | zero => exact (hzero f g i).2
    | succ k ih => rw [(hsucc f g k i).2, ih, ih, scanAt]
  simp only [htree, hscan]
  exact ⟨vecWrites_vreduce rfl (treeAt_fresh sumLane_true_fst _ 7 0), vecWrites_vreduce rfl (treeAt_fresh (fun _ _ => rfl) _ 7 0),
    vecWrites_vreduce rfl (treeAt_fresh (fun _ _ => rfl) _ 7 0), vecWrites_vreduce rfl (treeAt_sumLane_int _ 7),
    vecWrites_vreduce rfl (treeAt_fresh (fun _ _ => rfl) _ 7 0), vecWrites_vreduce rfl (treeAt_fresh (fun _ _ => rfl) _ 7 0),
    vecWrites_vscan fun e _ => congrArg (fp32.canon · % 2 ^ 32) (map_scanAt (φ := Prod.fst) sumLane_true_fst _ 7 e),
    vecWrites_vscan fun e he => scanAt_sumLane_int _ he⟩

end Sys2Proof.Machine
end

section
/-! One cycle of an array command and of the load path (spec 04_numbers.md R118 to R120; 06_matrix.md R167, R171, R174, R175). -/

namespace Sys2Proof.Machine

/-! ### One update of a cell (R118 to R120) -/

theorem cellStep_float (acc : Nat) (products : List FVal) :
    cellStep false acc products = fp32.encode (2 * quantBits) (FVal.sum ((fp32.decode acc).scale quantBits :: products)) := rfl

theorem foldl_toInt_eq_sum (products : List FVal) : products.foldl (fun t p => t + p.toInt) 0 = (products.map FVal.toInt).sum := by
  rw [List.sum_eq_foldl, List.foldl_map]

/-- R120: an INT8 cell takes the sum, clamped to the range of INT32. -/
theorem cellStep_int_fst (acc : Nat) (products : List FVal) :
    (cellStep true acc products).1 = ofSval 32 (max (-2 ^ 31) (min (2 ^ 31 - 1) (sval 32 acc + (products.map FVal.toInt).sum))) := by
  rw [cellStep, if_pos rfl, foldl_toInt_eq_sum]
  dsimp only
  generalize sval 32 acc + (products.map FVal.toInt).sum = s
  split
  · next hlow => rw [max_eq_left (by omega)]; rfl
  · next hlow =>
    split
    · next hhigh => rw [min_eq_left (by omega)]; rfl
    · next hhigh => rw [min_eq_right (by omega), max_eq_right (by omega)]

theorem ofSval_mod (n : Nat) (i : Int) : ofSval n i % 2 ^ n = ofSval n i := by
  have hpos : (0 : Int) < ((2 ^ n : Nat) : Int) := by exact_mod_cast Nat.two_pow_pos n
  have hlt := Int.emod_lt_of_pos i hpos
  have hnonneg := Int.emod_nonneg i hpos.ne'
  exact Nat.mod_eq_of_lt (by rw [ofSval]; omega)

/-! ### A row of cells in one cycle -/

/-- A fold that counts its elements and puts its results in front holds them last to first. -/
theorem foldl_counted {β : Type} (step : Nat → β → Nat × Ev) (c : Nat → β) (n : Nat) :
    let r := ((List.range n).map c).foldl (fun (acc : List Nat × Ev × Nat) b =>
      ((step acc.2.2 b).1 :: acc.1, acc.2.1.add (step acc.2.2 b).2, acc.2.2 + 1)) ([], {}, 0)
    r.1 = ((List.range n).map fun j => (step j (c j)).1).reverse ∧ r.2.2 = n := by
  induction n with
  | zero => exact ⟨rfl, rfl⟩
  | succ n ih =>
    obtain ⟨hlist, hcount⟩ := ih
    simp only [List.range_succ, List.map_append, List.map_singleton, List.foldl_append, List.foldl_cons, List.foldl_nil, List.reverse_append]
    exact ⟨by rw [hlist, hcount]; rfl, by rw [hcount]⟩

theorem getD_reverse_map_range (f : Nat → Nat) {n j : Nat} (h : j < n) : ((List.range n).map f).reverse.getD (n - 1 - j) 0 = f j := by
  have hlt : n - 1 - j < n := by omega
  have hback : n - 1 - (n - 1 - j) = j := by omega
  simp [List.getD_eq_getElem?_getD, hlt, hback]

/-- In a table listed by key an entry is the one listed under its key. -/
theorem tget?_map_key {α : Type} {g : Nat → Nat × α} (hg : ∀ k, (g k).1 = k) {l : List Nat} {i : Nat} (h : i ∈ l) :
    tget? (l.map g) i = some (g i).2 := by
  induction l with
  | nil => exact absurd h (by simp)
  | cons k l ih =>
    change (if (g k).1 = i then some (g k).2 else tget? (l.map g) i) = _
    rw [hg]
    by_cases hk : k = i
    · rw [if_pos hk, hk]
    · rw [if_neg hk, ih ((List.mem_cons.mp h).resolve_left (Ne.symm hk))]

theorem vElem_zero (w e : Nat) : vElem w 0 e = 0 := by
  simp only [vElem, elemOf, BitVec.ofNat_eq_ofNat, BitVec.toNat_zero, Nat.zero_div, Nat.zero_mod]

namespace MxCmd

variable (c : MxCmd) (a b : OpSlot) (p : Plane) (n : Nat) {i j : Nat}

/-- What cell (i, j) of a plane counts as before cycle `n` of a command: 0 where it starts without accumulation (R174). -/
def oldCell (i j : Nat) : Nat := if n = 0 ∧ c.acc = false then 0 else vElem 32 (tget 0 p.rows i) j

theorem cycle_mzero (h : c.op = .mzero) : (c.cycle a b p n).1.rows = [] := by rw [cycle, if_pos h]

/-- R174: cell (i, j) after one cycle takes the products of row i of A and column j of B. -/
theorem cycle_cell (h : c.op ≠ .mzero) (hi : i < 128) (hj : j < 128) :
    vElem 32 (tget 0 (c.cycle a b p n).1.rows i) j =
      (cellStep (decide (c.op = .mma ∧ c.pair = .int8)) (c.oldCell p n i j)
        (List.zipWith FVal.mul ((c.factors a b n).1 i) ((c.factors a b n).2.1 j))).1 % 2 ^ 32 := by
  have hrow : i ∈ List.range 128 := List.mem_range.mpr hi
  have hold : vElem 32 (if n = 0 ∧ (!c.acc) = true then 0 else tget 0 p.rows i) j = c.oldCell p n i j := by
    simp only [oldCell, Bool.not_eq_true', apply_ite (vElem 32 · j), vElem_zero]
  rw [cycle, if_neg h, ← hold]
  dsimp only
  rw [List.map_map, tget, tget?_map_key (fun _ => rfl) hrow, Option.getD_some, Function.comp_apply, vElem, elemOf_ofElems 32 _ (by decide) (by simpa using hj)]
  obtain ⟨hcells, -⟩ := foldl_counted (fun j bv => cellStep (decide (c.op = .mma ∧ c.pair = .int8))
    (vElem 32 (if n = 0 ∧ (!c.acc) = true then 0 else tget 0 p.rows i) j) (List.zipWith FVal.mul ((c.factors a b n).1 i) bv)) (c.factors a b n).2.1 128
  rw [hcells, getD_reverse_map_range _ hj]

/-! ### The products of a cycle (R174, R175) -/

theorem products_mma (h : c.op = .mma) (i j : Nat) :
    List.zipWith FVal.mul ((c.factors a b n).1 i) ((c.factors a b n).2.1 j) = (chunkKs c.cls n).map fun k =>
      (operand c.pair c.ae5 c.skind a (a.elem (clsBits c.cls) (i * clsChunk c.cls + k)) i k).mul
        (operand c.pair c.be5 c.skindB b (b.elem (clsBits c.cls) (k * 128 + j)) j k) := by
  rw [factors, if_neg (by simp [h]), List.zipWith_map, List.zipWith_self]

theorem products_mmaq (h : c.op = .mmaq) (i j : Nat) :
    List.zipWith FVal.mul ((c.factors a b n).1 i) ((c.factors a b n).2.1 j) =
      [(bf16.decode (a.elem 16 (i * 128 + n))).mul (weight c.alt (b.elem 4 (n * 128 + j)) (scEntry c.scVal j)).1] := by
  rw [factors, if_pos h]
  rfl

end MxCmd

/-! ### One cycle of the units (R171) -/

namespace State

theorem countStat_mx (s : State) (id : Nat) (st : Stat) : (s.countStat id st).core.mx = s.core.mx := by
  rw [countStat_only s id st]

theorem arrayCycle_mx {s : State} {c : MxCmd} (h : s.core.mx.array = some c) : s.arrayCycle.core.mx =
    { s.core.mx with
      planes := tset s.core.mx.planes c.plane
        { (c.cycle (tget {} s.core.mx.slots c.slotA) (tget {} s.core.mx.slots c.slotB) (tget {} s.core.mx.planes c.plane) c.done).1 with
          kind := (tget {} s.core.mx.planes c.plane).kind }
      array := if c.length ≤ c.done + 1 then none else some { c with done := c.done + 1 } } := by
  rw [arrayCycle, h]
  dsimp only
  rw [modMx_core_mx, countStat_mx]

theorem loadCycle_of_more {s : State} {c : MxCmd} (h : s.core.mx.load = some c) (hmore : c.done + 1 < c.length) :
    s.loadCycle = s.modMx fun m => { m with load := some { c with done := c.done + 1 } } := by
  rw [loadCycle, h]
  exact if_neg (Nat.not_le.mpr hmore)

theorem loadEnd_mx (s : State) (c : MxCmd) : (s.loadEnd c).core.mx = { s.core.mx with
    load := none
    slots := tmod {} s.core.mx.slots c.slotA fun o => { o with elems := c.elems, scales := c.scales, bands := c.bands } } := by
  rw [loadEnd, handleEnd_mx]
  rfl

end State

/-- Settles O43: a cell by what one cycle makes of it, the array's and the load path's cycle by whether it is their command's last. -/
theorem matrixArithmetic : Obligations.MatrixArithmetic := by
  unfold Obligations.MatrixArithmetic
  refine ⟨fun c a b p n i j hi hj => ⟨fun hop => ⟨fun hpair => ?float, fun hpair => ?int8⟩, fun hop => ?mmaq, fun hop => ?mzero⟩,
    fun s c harray => ⟨?plane, fun hmore => ?arrayGoesOn, fun hlast => ?arrayEnds⟩, fun s c hload hop => ?load⟩
  case float =>
    rw [c.cycle_cell a b p n (by simp [hop]) hi hj, c.products_mma a b n hop, decide_eq_false fun h => hpair h.2, cellStep_float]
    rfl
  case int8 =>
    rw [c.cycle_cell a b p n (by simp [hop]) hi hj, c.products_mma a b n hop, decide_eq_true ⟨hop, hpair⟩, cellStep_int_fst, ofSval_mod]
    rfl
  case mmaq =>
    rw [c.cycle_cell a b p n (by simp [hop]) hi hj, c.products_mmaq a b n hop, decide_eq_false (by simp [hop]), cellStep_float]
    rfl
  case mzero =>
    rw [c.cycle_mzero a b p n hop]
    exact vElem_zero 32 j
  case plane => rw [State.arrayCycle_mx harray, tget_tset_same]
  case arrayGoesOn =>
    rw [State.arrayCycle_mx harray]
    exact if_neg (Nat.not_le.mpr hmore)
  case arrayEnds =>
    rw [State.arrayCycle_mx harray]
    exact if_pos hlast
  case load =>
    have hlength : c.length = 64 := by rw [MxCmd.length, hop]
    refine ⟨fun hmore => ?_, fun hlast => ?_⟩
    · rw [State.loadCycle_of_more hload (hlength ▸ hmore)]
      exact ⟨rfl, rfl⟩
    · rw [State.loadCycle_of_last hload (hlength ▸ hlast), State.loadEnd_mx]
      exact ⟨rfl, by rw [tget_tmod_same], fun q hq => by rw [tget_tmod_ne _ _ _ hq]⟩

end Sys2Proof.Machine
end

section
/-! Element-wise vector arithmetic (spec 04_numbers.md R106, R118; 05_vector.md R142 to R144, R156): codes and values of integers, and what the
shared operations of the forms write. -/

namespace Sys2Proof.Machine

/-! ### Integers and their codes (R106) -/

/-- A code is that of its integer modulo the number of codes. -/
theorem ofSval_congr {n : Nat} {i j : Int} (h : i ≡ j [ZMOD ((2 ^ n : Nat) : Int)]) : ofSval n i = ofSval n j := congrArg Int.toNat h

theorem ofSval_natCast (n x : Nat) : ofSval n x = x % 2 ^ n := by
  rw [ofSval, ← Int.natCast_emod, Int.toNat_natCast]

theorem sval_modEq (n x : Nat) : (x : Int) ≡ sval n x [ZMOD ((2 ^ n : Nat) : Int)] := by
  have hmod : ((x % 2 ^ n : Nat) : Int) ≡ x [ZMOD ((2 ^ n : Nat) : Int)] := by
    rw [Int.natCast_emod]
    exact Int.mod_modEq _ _
  rw [sval]
  split
  · exact hmod.symm
  · exact Int.modEq_sub_modulus_iff.mpr hmod.symm

/-- The value of a code is the code modulo the number of codes. -/
theorem IFmt.decode_modEq (f : IFmt) (x : Nat) : (x : Int) ≡ f.decode x [ZMOD ((2 ^ f.width : Nat) : Int)] := by
  rw [decode]
  split
  · exact sval_modEq _ _
  · rw [Int.natCast_emod]
    exact (Int.mod_modEq _ _).symm

/-- A natural number congruent to an integer has its code as its low bits. -/
theorem mod_eq_ofSval {n x : Nat} {i : Int} (h : (x : Int) ≡ i [ZMOD ((2 ^ n : Nat) : Int)]) : x % 2 ^ n = ofSval n i := by
  rw [← ofSval_natCast, ofSval_congr h]

/-- The complement that stands for a subtraction of codes. -/
theorem complement_modEq {n x y : Nat} {i j : Int} (hx : (x : Int) ≡ i [ZMOD ((2 ^ n : Nat) : Int)]) (hy : (y : Int) ≡ j [ZMOD ((2 ^ n : Nat) : Int)]) :
    ((x + (2 ^ n - y % 2 ^ n) : Nat) : Int) ≡ i - j [ZMOD ((2 ^ n : Nat) : Int)] := by
  have hle : y % 2 ^ n ≤ 2 ^ n := (Nat.mod_lt _ (Nat.two_pow_pos n)).le
  have hcompl : ((2 ^ n - y % 2 ^ n : Nat) : Int) ≡ -j [ZMOD ((2 ^ n : Nat) : Int)] := by
    rw [Nat.cast_sub hle, Int.natCast_emod]
    exact ((Int.modEq_iff_dvd.mpr (by simp) : _ ≡ 0 [ZMOD _]).sub ((Int.mod_modEq _ _).trans hy)).trans (by rw [zero_sub])
  rw [Nat.cast_add, sub_eq_add_neg]
  exact hx.add hcompl

/-! ### Elements (R107, R135) -/

theorem vElem_lt (w : Nat) (v : VReg) (e : Nat) : vElem w v e < 2 ^ w := Nat.mod_lt _ (Nat.two_pow_pos w)

theorem vElem_mod (w : Nat) (v : VReg) (e : Nat) : vElem w v e % 2 ^ w = vElem w v e := Nat.mod_eq_of_lt (vElem_lt w v e)

/-- The format of a type code has the width of its elements. -/
theorem VTy.fmt_width (f8 : Bool) (t : VTy) : (VTy.fmt f8 t).width = VTy.width t := by
  cases t
  case f8 => cases f8 <;> rfl
  all_goals rfl

/-! ### What the shared operations write -/

section

variable {i : Instr} {s : State} {d a b : BitVec 5} {t : VTy} {p : BitVec 4} {gfp : FFmt → Nat → Nat} {gint : IFmt → Nat → Int}

/-- R142: an operation on pairs writes what its floating-point form gives, or the code of what its integer form gives. -/
theorem vecWrites_vmap2 {lat : Nat} {fp : FFmt → Nat → Nat → Nat × Ev} {int : IFmt → Nat → Nat → Nat}
    (hi : exec i s = .next (s.vmap2 d a b t p lat fp int))
    (hfp : ∀ f e, (fp f (vElem (VTy.width t) (s.v a) e) (vElem (VTy.width t) (s.v b) e)).1 = gfp f e)
    (hint : ∀ f e, int f (vElem (VTy.width t) (s.v a) e) (vElem (VTy.width t) (s.v b) e) % 2 ^ f.width = ofSval f.width (gint f e)) :
    VecWrites i s d (VTy.width t) (s.p p) lat fun e => match VTy.fmt s.f8 t with
      | .fp f => gfp f e
      | .int f => ofSval (VTy.width t) (gint f e) := by
  refine vecWrites_setElems d _ (width_cases t) _ _ _ _ hi fun e => congrArg (· % _) ?_
  have hw := VTy.fmt_width s.f8 t
  generalize VTy.fmt s.f8 t = F at hw ⊢
  cases F with
  | fp f => exact hfp f e
  | int f => exact (show f.width = VTy.width t from hw) ▸ hint f e

/-- R143: an operation on single elements makes a NaN canonical, and writes what its floating-point form gives elsewhere or the code of what its
integer form gives. -/
theorem vecWrites_vmap1 {fp : FFmt → Nat → Nat} {int : IFmt → Nat → Nat}
    (hi : exec i s = .next (s.vmap1 d a t p fp int))
    (hfp : ∀ f, f.width = VTy.width t → ∀ e, fp f (vElem (VTy.width t) (s.v a) e) = gfp f e)
    (hint : ∀ f e, int f (vElem (VTy.width t) (s.v a) e) % 2 ^ f.width = ofSval f.width (gint f e)) :
    VecWrites i s d (VTy.width t) (s.p p) 3 fun e => match VTy.fmt s.f8 t with
      | .fp f => if (f.decode (vElem (VTy.width t) (s.v a) e)).isNaN then f.nanCode else gfp f e
      | .int f => ofSval (VTy.width t) (gint f e) := by
  refine vecWrites_setElems d _ (width_cases t) _ _ _ _ hi fun e => congrArg (· % _) ?_
  have hw := VTy.fmt_width s.f8 t
  generalize VTy.fmt s.f8 t = F at hw ⊢
  cases F with
  | fp f =>
    change (if _ then _ else fp f _) = _
    rw [hfp f hw e]
  | int f => exact (show f.width = VTy.width t from hw) ▸ hint f e

end

/-- R156: the quotient of two lanes is that of their integers, and all ones for a divisor of 0. -/
theorem divLane_vElem (u v : VReg) (e : Nat) : divLane (vElem 32 u e) (vElem 32 v e) =
    if vElem 32 v e = 0 then 0xFFFFFFFF else ofSval 32 ((sval 32 (vElem 32 u e)).tdiv (sval 32 (vElem 32 v e))) := by
  rw [divLane, vElem_mod]
  rfl

/-- A change of scale keeps the sign, so it may come before a negation or after it. -/
theorem FVal.scale_neg (k : Nat) (x : FVal) : x.neg.scale k = (x.scale k).neg := by cases x <;> rfl

/-- Settles O35: the integer forms by congruence modulo the number of codes, the floating-point forms as the model computes them. -/
theorem vectorArithmetic : Obligations.VectorArithmetic := by
  unfold Obligations.VectorArithmetic
  intro s d a b c t p y
  refine ⟨⟨?add, ?sub, ?mul, ?min, ?max, ?abs, ?neg⟩, ?fma, ?fms, ?fnma, ?divF32, ?divI32⟩
  case add =>
    refine vecWrites_vmap2 rfl (fun _ _ => rfl) fun f e => mod_eq_ofSval ?_
    rw [Nat.cast_add]
    exact (f.decode_modEq _).add (f.decode_modEq _)
  case sub => exact vecWrites_vmap2 rfl (fun _ _ => rfl) fun f e => mod_eq_ofSval (complement_modEq (f.decode_modEq _) (f.decode_modEq _))
  case mul =>
    refine vecWrites_vmap2 rfl (fun _ _ => rfl) fun f e => mod_eq_ofSval ?_
    rw [Nat.cast_mul]
    exact (f.decode_modEq _).mul (f.decode_modEq _)
  case min =>
    refine vecWrites_vmap2 rfl (fun _ _ => rfl) fun f e => mod_eq_ofSval ?_
    split
    · next hle => rw [min_eq_left hle]; exact f.decode_modEq _
    · next hlt => rw [min_eq_right (not_le.mp hlt).le]; exact f.decode_modEq _
  case max =>
    refine vecWrites_vmap2 rfl (fun _ _ => rfl) fun f e => mod_eq_ofSval ?_
    split
    · next hle => rw [max_eq_right hle]; exact f.decode_modEq _
    · next hlt => rw [max_eq_left (not_le.mp hlt).le]; exact f.decode_modEq _
  case abs => exact vecWrites_vmap1 rfl (fun f hw e => by rw [hw]) fun f e => ofSval_mod _ _
  case neg =>
    refine vecWrites_vmap1 rfl (fun f hw e => by rw [hw]) fun f e => mod_eq_ofSval ?_
    have hzero := complement_modEq (Int.ModEq.refl ((0 : Nat) : Int)) (f.decode_modEq (vElem (VTy.width t) (s.v a) e))
    simpa only [Nat.zero_add, Nat.cast_zero, zero_sub] using hzero
  case fma => exact vecWrites_setElems d 32 (.inl rfl) _ _ _ _ rfl fun e => by cases y <;> rfl
  case fms =>
    refine vecWrites_setElems d 32 (.inl rfl) _ _ _ _ rfl fun e => ?_
    simp only [← FVal.scale_neg]
    cases y <;> rfl
  case fnma => exact vecWrites_setElems d 32 (.inl rfl) _ _ _ _ rfl fun e => by cases y <;> rfl
  case divF32 => exact vecWrites_setElems d 32 (.inl rfl) _ _ _ _ rfl fun e => rfl
  case divI32 => exact vecWrites_setElems d 32 (.inl rfl) _ _ _ _ rfl fun e => (Nat.mod_mod _ _).trans (congrArg (· % _) (divLane_vElem _ _ e))

end Sys2Proof.Machine
end

section
/-! Vector logic, shifts, comparison and the bound test (spec 05_vector.md R145, R146, R160): the bits of a lane, and what the shared operations write. -/

namespace Sys2Proof.Machine

/-! ### Bits of a lane (R5) -/

theorem getLsbD_lane (v : VReg) (i j : Nat) : (lane v i).getLsbD j = (decide (j < 32) && v.getLsbD (32 * i + j)) := by
  rw [lane, BitVec.getLsbD_ofNat, Nat.testBit_div_two_pow, Nat.add_comm j]
  rfl

theorem lane_and (u v : VReg) (i : Nat) : lane (u &&& v) i = lane u i &&& lane v i :=
  BitVec.eq_of_getLsbD_eq fun j hj => by simp only [BitVec.getLsbD_and, getLsbD_lane, hj, decide_true, Bool.true_and]

theorem lane_or (u v : VReg) (i : Nat) : lane (u ||| v) i = lane u i ||| lane v i :=
  BitVec.eq_of_getLsbD_eq fun j hj => by simp only [BitVec.getLsbD_or, getLsbD_lane, hj, decide_true, Bool.true_and]

theorem lane_xor (u v : VReg) (i : Nat) : lane (u ^^^ v) i = lane u i ^^^ lane v i :=
  BitVec.eq_of_getLsbD_eq fun j hj => by simp only [BitVec.getLsbD_xor, getLsbD_lane, hj, decide_true, Bool.true_and]

theorem lane_not (v : VReg) {i : Nat} (h : i < 128) : lane (~~~v) i = ~~~lane v i := by
  refine BitVec.eq_of_getLsbD_eq fun j hj => ?_
  have hin : 32 * i + j < 4096 := by omega
  simp only [BitVec.getLsbD_not, getLsbD_lane, hj, hin, decide_true, Bool.true_and]

/-! ### What the shared operations write -/

section

variable {i : Instr} {s : State} {d a b : BitVec 5} {t : VTy} {p pd : BitVec 4}

/-- R145: VLOGIC writes what the operation on registers makes of each lane. -/
theorem vecWrites_vlogic {f : VReg → VReg → VReg} {g : Nat → BitVec 32} (hi : exec i s = .next (s.vlogic d a b p f))
    (hg : ∀ e, e < 128 → lane (f (s.v a) (s.v b)) e = g e) : VecWrites i s d 32 (s.p p) 3 fun e => (g e).toNat := by
  refine vecWrites_setV d 32 _ _ 3 _ hi (.refl s) rfl fun e he _ => ?_
  rw [← lane_toNat, hg e (by simpa using he), Nat.mod_eq_of_lt (g e).isLt]

/-- R145: VSHIFT writes the shifted element, cut to its width. -/
theorem vecWrites_vshift {f : Nat → Nat → Nat → Nat} {g : Nat → Nat} (hi : exec i s = .next (s.vshift d a b t p f))
    (hg : ∀ e, f (VTy.width t) (vElem (VTy.width t) (s.v a) e) (vElem (VTy.width t) (s.v b) e % VTy.width t) = g e) :
    VecWrites i s d (VTy.width t) (s.p p) 3 g :=
  vecWrites_setElems d _ (width_cases t) _ _ _ _ hi fun e => (Nat.mod_mod _ _).trans (congrArg (· % _) (hg e))

theorem predWrites_ofBits {lat : Nat} {f : Nat → Bool} {g : Nat → Prop} (hi : exec i s = .next (s.setP pd (ofBits f) lat))
    (hg : ∀ k, k < 128 → (f k = true ↔ g k)) : PredWrites i s pd lat g :=
  ⟨_, hi, fun k hk => by rw [getLsbD_ofBits f hk, hg k hk]⟩

/-- R146: VCMP sets the bit of an enabled lane whose elements all stand in the relation. -/
theorem predWrites_vcompare (fp : FVal → FVal → Bool) {int : Int → Int → Bool} (rel : Int → Int → Prop)
    (hi : exec i s = .next (s.vcompare pd a b t p fp int)) (hrel : ∀ x y, int x y = true ↔ rel x y) :
    PredWrites i s pd 2 fun l => (s.p p).getLsbD l = true ∧ ∀ j, j < 32 / VTy.width t → match VTy.fmt s.f8 t with
      | .fp f => fp (f.decode (vElem (VTy.width t) (s.v a) (l * (32 / VTy.width t) + j)))
          (f.decode (vElem (VTy.width t) (s.v b) (l * (32 / VTy.width t) + j))) = true
      | .int f => rel (f.decode (vElem (VTy.width t) (s.v a) (l * (32 / VTy.width t) + j)))
          (f.decode (vElem (VTy.width t) (s.v b) (l * (32 / VTy.width t) + j))) := by
  refine predWrites_ofBits hi fun l _ => ?_
  rw [Bool.and_eq_true, allTo_iff]
  refine and_congr_right fun _ => forall₂_congr fun j _ => ?_
  cases VTy.fmt s.f8 t with
  | fp f => exact Iff.rfl
  | int f => exact hrel _ _

end

theorem violates_iff (x lo hi : FVal) : violates x lo hi = true ↔ x = .nan ∨ x.lt lo = true ∨ hi.lt x = true := by
  rw [violates, Bool.or_eq_true, Bool.or_eq_true, or_assoc]
  cases x <;> simp [FVal.isNaN]

/-- Settles O36: the logic by the bits of lanes, the predicates by the bits they are built from. -/
theorem vectorLogicAndCompare : Obligations.VectorLogicAndCompare := by
  unfold Obligations.VectorLogicAndCompare
  refine ⟨fun s d a b t p => ⟨⟨?and, ?or, ?xor, ?andn, ?not⟩, vecWrites_vshift rfl fun _ => rfl,
      vecWrites_vshift rfl fun _ => rfl, vecWrites_vshift rfl fun _ => rfl⟩,
    fun s pd a b t g => ⟨?eq, ?ne, ?lt, ?le, ?gt, ?ge, ?bound⟩⟩
  case and => exact vecWrites_vlogic rfl fun e _ => lane_and _ _ e
  case or => exact vecWrites_vlogic rfl fun e _ => lane_or _ _ e
  case xor => exact vecWrites_vlogic rfl fun e _ => lane_xor _ _ e
  case andn => exact vecWrites_vlogic rfl fun e he => by rw [lane_and, lane_not _ he]
  case not => exact vecWrites_vlogic rfl fun e he => lane_not _ he
  case eq => exact predWrites_vcompare FVal.eq (· = ·) rfl fun _ _ => beq_iff_eq
  case ne => exact predWrites_vcompare (fun x y => !x.eq y) (· ≠ ·) rfl fun _ _ => bne_iff_ne
  case lt => exact predWrites_vcompare FVal.lt (· < ·) rfl fun _ _ => decide_eq_true_iff
  case le => exact predWrites_vcompare FVal.le (· ≤ ·) rfl fun _ _ => decide_eq_true_iff
  case gt => exact predWrites_vcompare (fun x y => y.lt x) (fun x y => y < x) rfl fun _ _ => decide_eq_true_iff
  case ge => exact predWrites_vcompare (fun x y => y.le x) (fun x y => y ≤ x) rfl fun _ _ => decide_eq_true_iff
  case bound =>
    refine predWrites_ofBits rfl fun l _ => ?_
    rw [Bool.and_eq_true, Bool.not_eq_true', ← Bool.not_eq_true, allTo_iff]
    simp only [not_forall, Bool.not_eq_true', Bool.not_eq_false, violates_iff, exists_prop]
    rfl

end Sys2Proof.Machine
end

section
/-! Selection, permutation and element numbers (spec 05_vector.md R147, R151, R153): what a form that moves whole lanes writes. -/

namespace Sys2Proof.Machine

/-- A form that builds its result from lanes writes the codes of these lanes. -/
theorem vecWrites_ofLanes {i : Instr} {s : State} {d : BitVec 5} {m : Pred} {lat : Nat} {f : Nat → BitVec 32} {g : Nat → Nat}
    (hi : exec i s = .next (s.setV d m (ofLanes f) lat)) (hg : ∀ e, e < 128 → (f e).toNat = g e) : VecWrites i s d 32 m lat g :=
  vecWrites_lanes d m lat f g hi fun e he _ => by rw [← hg e he, Nat.mod_eq_of_lt (f e).isLt]

/-- R153: the number of a lane is exact in FP32. -/
theorem fp32_decode_roundNE_lane : ∀ e, e < 128 → fp32.decode (fp32.roundNE false e 1).1 = .fin false (e * 2 ^ quantBits) := by decide

/-- R153: VIOTA of an integer type writes the element's number in its code. -/
theorem vecWrites_viota {s : State} {d : BitVec 5} {t : VTy} {p : BitVec 4} {g : Nat → Nat} (ht : VTy.isF32 t = false)
    (hg : ∀ e, e % 2 ^ VTy.width t = g e % 2 ^ VTy.width t) : VecWrites (.viota d t p) s d (VTy.width t) (s.p p) 2 g :=
  vecWrites_setElems d _ (width_cases t) _ _ _ _ rfl fun e => by
    rw [ht, if_neg Bool.false_ne_true, Nat.mod_mod, hg]

/-- Settles O37: the lanes that each form moves, and the elements that VIOTA numbers. -/
theorem vectorMoves : Obligations.VectorMoves := by
  unfold Obligations.VectorMoves
  intro s d a b p
  refine ⟨⟨?sel, ?idx, ?rot, ?psh⟩, ⟨_, fp32_decode_roundNE_lane, ?iotaF32⟩, vecWrites_viota rfl fun _ => rfl, vecWrites_viota rfl fun _ => rfl,
    vecWrites_viota rfl fun e => (Nat.mod_mod e _).symm⟩
  case sel => exact vecWrites_ofLanes rfl fun _ _ => apply_ite _ _ _ _
  case idx => exact vecWrites_ofLanes rfl fun _ _ => rfl
  case rot => exact vecWrites_ofLanes rfl fun _ _ => rfl
  case psh => exact vecWrites_ofLanes rfl fun _ _ => apply_ite _ _ _ _
  case iotaF32 => exact vecWrites_setElems d 32 (.inl rfl) _ _ _ _ rfl fun _ => rfl

end Sys2Proof.Machine
end

section
/-! Conversions, broadcasts, extraction and the forms of VMASK (spec 04_numbers.md R114; 05_vector.md R148, R152, R154, R162; 06_matrix.md R186): lists of
enabled lanes and their counts. -/

namespace Sys2Proof.Machine

/-! ### Lists of enabled lanes (R154, R161) -/

theorem length_filter_range (b : Nat → Bool) (n : Nat) : ((List.range n).filter b).length = sumTo n fun j => (b j).toNat := by
  induction n with
  | zero => rfl
  | succ n ih =>
    rw [List.range_succ, List.filter_append, List.length_append, ih, sumTo]
    cases hb : b n <;> simp [hb]

/-- The listed lanes below `i` are those of the first `i` lanes. -/
theorem filter_lt_filter_range (b : Nat → Bool) {i n : Nat} (h : i ≤ n) :
    ((List.range n).filter b).filter (fun j => decide (j < i)) = (List.range i).filter b := by
  obtain ⟨k, rfl⟩ := Nat.exists_eq_add_of_le h
  have hlow : (List.range i).filter (fun j => decide (j < i)) = List.range i :=
    List.filter_eq_self.mpr fun j hj => decide_eq_true (List.mem_range.mp hj)
  have hhigh : ((List.range k).map (i + ·)).filter (fun j => decide (j < i)) = [] := by
    simp [List.filter_eq_nil_iff]
  rw [List.filter_comm, List.range_add, List.filter_append, hlow, hhigh, List.append_nil]

/-! ### Elements written and draws consumed (R114, R186) -/

theorem vElem_ofElems {w e : Nat} (hw : w = 32 ∨ w = 16 ∨ w = 8) (f : Nat → Nat) (he : e < 4096 / w) : vElem w (ofElems w f) e = f e % 2 ^ w :=
  elemOf_ofElems w f (by rcases hw with rfl | rfl | rfl <;> rfl) he

theorem setElems_only (s : State) (d : BitVec 5) (w : Nat) (m : Pred) (lat : Nat) (f : Nat → Nat × Ev) : OnlyVector s (s.setElems d w m lat f) :=
  setV_onlyVector (countStat_only _ _ _) d m _ lat

theorem setElems_flight (s : State) (d : BitVec 5) (w : Nat) (m : Pred) (lat : Nat) (f : Nat → Nat × Ev) :
    (s.setElems d w m lat f).core.flight = s.core.flight ++ [⟨lat, .v d.toNat m (ofElems w fun e => (f e).1)⟩] := by
  rw [State.setElems, setV_flight]
  exact congrArg (· ++ _) (countStat_flight _ _ _)

namespace OnlyVector

variable {s t : State}

theorem regs (h : OnlyVector s t) : t.core.regs = s.core.regs := congrArg (·.core.regs) h
theorem spad (h : OnlyVector s t) : t.core.spad = s.core.spad := congrArg (·.core.spad) h
theorem mem (h : OnlyVector s t) : t.mem = s.mem := congrArg (·.mem) h

end OnlyVector

/-! ### Conversions (R148) -/

/-- Elements that a conversion from `t` to `u` converts: what the wider of the two types has room for. -/
def convertedCount (t u : VTy) : Nat := 128 * min (perLane (VTy.width t)) (perLane (VTy.width u))

/-- What VCVT makes of element `e` of a source, whose draw is `draw e`: 0 past the converted ones. -/
def State.converted (s : State) (a : BitVec 5) (r : RMode) (t u : VTy) (draw : Nat → Nat) (e : Nat) : Nat × Ev :=
  if e < convertedCount t u then convertElem (VTy.fmt s.f8 t) (VTy.fmt s.f8 u) r (draw e) (vElem (VTy.width t) (s.v a) e) else (0, {})

theorem State.converted_fst (s : State) (a : BitVec 5) (r : RMode) (t u : VTy) (draw : Nat → Nat) (e : Nat) : (s.converted a r t u draw e).1 =
    if e < convertedCount t u then (convertElem (VTy.fmt s.f8 t) (VTy.fmt s.f8 u) r (draw e) (vElem (VTy.width t) (s.v a) e)).1 else 0 :=
  apply_ite Prod.fst _ _ _

theorem exec_vcvt_rs (s : State) (d a : BitVec 5) (t u : VTy) (p : BitVec 4) : exec (.vcvt d a .rs t u p) s =
    .next ((s.setElems d (VTy.width u) (s.p p) 3 (s.converted a .rs t u s.draw)).drawn (convertedCount t u)) := rfl

/-- Settles O38: conversions as writes of elements, the stochastic one with the draws that it consumes; the lane forms by the list of enabled lanes. -/
theorem vectorConvertMask : Obligations.VectorConvertMask := by
  unfold Obligations.VectorConvertMask
  intro s d a b t u p q
  refine ⟨⟨?rne, ?rz, ?rs⟩, ⟨?compress, ?expand, rfl, rfl⟩, ?bcast, ?ext⟩
  case rne => exact vecWrites_setElems d _ (width_cases u) _ _ _ _ rfl fun e => congrArg (· % _) (s.converted_fst a .rne t u (fun _ => 0) e)
  case rz => exact vecWrites_setElems d _ (width_cases u) _ _ _ _ rfl fun e => congrArg (· % _) (s.converted_fst a .rz t u (fun _ => 0) e)
  case rs =>
    have honly := setElems_only s d (VTy.width u) (s.p p) 3 (s.converted a .rs t u s.draw)
    refine ⟨_, exec_vcvt_rs s d a t u p, ?rpos, ⟨_, setElems_flight s d _ _ _ _, fun e he _ => ?elem⟩,
      (congrArg Regs.v honly.regs :), honly.spad, honly.mem⟩
    case rpos => exact congrArg (fun r : Regs => r.z.rpos + BitVec.ofNat 64 (convertedCount t u)) honly.regs
    case elem =>
      rw [vElem_ofElems (width_cases u) _ he, s.converted_fst]
      rfl
  case compress =>
    refine vecWrites_ofLanes rfl fun i _ => ?_
    cases ((List.range 128).filter fun i => (s.p p).getLsbD i)[i]? <;> rfl
  case expand =>
    refine vecWrites_ofLanes rfl fun i hi => ?_
    rw [filter_lt_filter_range _ hi.le, length_filter_range]
  case bcast => exact vecWrites_setElems d _ (width_cases t) _ _ _ _ rfl fun e => Nat.mod_mod _ _
  case ext => cases t <;> rfl

end Sys2Proof.Machine
end

section
/-! VTRANS, VROW and the forms of VDEF (spec 05_vector.md R155, R157, R158, R161): the special cases by the decoded operand, the latch by the age of its
drain, and the deferral queue by the list of enabled lanes. -/

namespace Sys2Proof.Machine

/-! ### Special cases of VTRANS (R155) -/

theorem transLane_nan (fn : TransFn) {x : Nat} (h : fp32.decode x = .nan) : transLane fn x = (0x7FC00000, {}) := by
  cases fn <;> simp only [transLane, h]

/-- A negative number has no root and no logarithm. -/
theorem transLane_negative {fn : TransFn} (hfn : fn = .rsq ∨ fn = .log2 ∨ fn = .sqrt) {x m : Nat} (h : fp32.decode x = .fin true m) (hm : 0 < m) :
    (transLane fn x).1 = 0x7FC00000 := by
  rcases hfn with rfl | rfl | rfl <;> simp only [transLane, h, hm.ne', if_true, if_false]

theorem fp32_decode_infinity (neg : Bool) : fp32.decode (if neg then 0xFF800000 else 0x7F800000) = .inf neg := by cases neg <;> rfl

theorem fp32_decode_zero (neg : Bool) : fp32.decode (if neg then 0x80000000 else 0) = .fin neg 0 := by cases neg <;> rfl

theorem fp32_decode_one : fp32.decode 0x3F800000 = .fin false (2 ^ quantBits) := rfl

theorem fp32_signBit (neg : Bool) : fp32.signBit neg = if neg then 0x80000000 else 0 := rfl

theorem log2Val_one : (log2Val (2 ^ quantBits)).1 = 0 := rfl

/-! ### The latch (R157, R158) -/

theorem row?_of_drain {m : Mx} {d : Drain} (h : m.drain = some d) (hlow : 8 ≤ d.age) (hhigh : d.age < 136) : m.row? = some (d.plane, d.age - 8) := by
  rw [Mx.row?, h]
  exact if_pos ⟨hlow, hhigh⟩

/-- Without a drain, or with one whose rows are not yet there or all gone, the latch is empty. -/
theorem row?_eq_none {m : Mx} (h : ∀ d, m.drain = some d → d.age < 8 ∨ 136 ≤ d.age) : m.row? = none := by
  rw [Mx.row?]
  split
  · next d hd =>
    have hage := h d hd
    exact if_neg (by omega)
  · rfl

theorem exec_vrow_of_row {s : State} {n r : Nat} (d : BitVec 5) (p : BitVec 4) (h : s.core.mx.row? = some (n, r)) :
    exec (.vrow d p) s = .next ((s.setV d (s.p p) (s.core.mx.rowOf n r) 2).modRun fun r => { r with rowRead := true }) := by
  change execVrow d p s = _
  rw [execVrow, h]

theorem exec_vrow_of_empty {s : State} (d : BitVec 5) (p : BitVec 4) (h : s.core.mx.row? = none) :
    exec (.vrow d p) s = .next (s.modVec fun v => { v with empty := BitVec.ofNat 32 (satAdd 32 v.empty.toNat 1) }) := by
  change execVrow d p s = _
  rw [execVrow, h]

/-! ### The deferral queue (R161) -/

@[simp] theorem setP_regs (s : State) (n : BitVec 4) (val : Pred) (lat : Nat) : (s.setP n val lat).core.regs = s.core.regs := by
  unfold State.setP; split <;> rfl

@[simp] theorem setP_vec (s : State) (n : BitVec 4) (val : Pred) (lat : Nat) : (s.setP n val lat).core.vec = s.core.vec := by
  unfold State.setP; split <;> rfl

@[simp] theorem setP_spad (s : State) (n : BitVec 4) (val : Pred) (lat : Nat) : (s.setP n val lat).core.spad = s.core.spad := by
  unfold State.setP; split <;> rfl

@[simp] theorem setP_mem (s : State) (n : BitVec 4) (val : Pred) (lat : Nat) : (s.setP n val lat).mem = s.mem := by
  unfold State.setP; split <;> rfl

theorem setP_flight_of_ne {n : BitVec 4} (h : n ≠ 0) (s : State) (val : Pred) (lat : Nat) :
    (s.setP n val lat).core.flight = s.core.flight ++ [⟨lat, .p n.toNat val⟩] := by rw [State.setP, if_neg h]; rfl

theorem setP_zero (s : State) (val : Pred) (lat : Nat) : s.setP 0 val lat = s := if_pos rfl

/-- The lanes that a mask enables, lowest first. -/
def enabledLanes (m : Pred) : List Nat := (List.range 128).filter fun i => m.getLsbD i

theorem mem_enabledLanes {m : Pred} {i : Nat} : i ∈ enabledLanes m ↔ i < 128 ∧ m.getLsbD i = true := by
  rw [enabledLanes, List.mem_filter, List.mem_range]

theorem nodup_enabledLanes (m : Pred) : (enabledLanes m).Nodup := List.nodup_range.filter _

/-- The mask of the `k` lowest enabled lanes. -/
def lowestLanes (m : Pred) (k : Nat) : Pred := ofBits fun i => ((enabledLanes m).take k).contains i

theorem getLsbD_lowestLanes (m : Pred) (k : Nat) {i : Nat} (h : i < 128) : (lowestLanes m k).getLsbD i = true ↔ i ∈ (enabledLanes m).take k := by
  rw [lowestLanes, getLsbD_ofBits _ h, List.contains_iff_mem]

/-- Every enabled lane is among the `k` lowest exactly if there are no more than `k`. -/
theorem lowestLanes_eq_iff (m : Pred) (k : Nat) : lowestLanes m k = m ↔ (enabledLanes m).length ≤ k := by
  constructor
  · intro heq
    have hsub : enabledLanes m ⊆ (enabledLanes m).take k := fun i hi =>
      (getLsbD_lowestLanes m k (mem_enabledLanes.mp hi).1).mp (heq.symm ▸ (mem_enabledLanes.mp hi).2)
    exact ((List.subperm_of_subset (nodup_enabledLanes m) hsub).length_le).trans (List.length_take_le _ _)
  · intro hle
    refine BitVec.eq_of_getLsbD_eq fun i hi => Bool.eq_iff_iff.mpr ?_
    rw [getLsbD_lowestLanes m k hi, List.take_of_length_le hle, mem_enabledLanes, and_iff_right hi]

/-- The listed lane at index `k` has `k` enabled lanes below it. -/
theorem sumTo_of_filter_range_getElem? (b : Nat → Bool) {n k e : Nat} (h : ((List.range n).filter b)[k]? = some e) :
    b e = true ∧ sumTo e (fun j => (b j).toNat) = k := by
  induction n with
  | zero => simp at h
  | succ n ih =>
    rw [List.range_succ, List.filter_append, List.getElem?_append] at h
    split at h
    · exact ih h
    · next hk =>
      cases hb : b n
      · simp [hb] at h
      · obtain ⟨hz, rfl⟩ : k - ((List.range n).filter b).length = 0 ∧ n = e := by
          simpa [hb, List.getElem?_singleton] using h
        exact ⟨hb, by rw [← length_filter_range]; omega⟩

/-- R161: DEFER queues the lowest lanes that find room, and sets DEFOV when a lane finds none. -/
theorem exec_vdefDefer (s : State) (pd p : BitVec 4) (a : BitVec 5) :
    let on := enabledLanes (s.p p)
    let room := 4096 - s.core.vec.dq.length
    exec (.vdefDefer pd a p) s = .next (((s.modVec fun v => { v with dq := v.dq ++ (on.take room).map fun i => lane (s.v a) i }).modStat fun z =>
      { z with defov := z.defov || decide (room < on.length) }).setP pd (lowestLanes (s.p p) room) 2) := by
  intro on room
  change Host.Outcome.next ((if lowestLanes (s.p p) room = s.p p then _ else _ : State).setP pd (lowestLanes (s.p p) room) 2) = _
  congr 2
  split
  · next hall =>
    have hfit : ¬ room < on.length := not_lt.mpr ((lowestLanes_eq_iff _ _).mp hall)
    simp only [hfit, decide_false, Bool.or_false]
    rfl
  · next hsome =>
    have hlost : room < on.length := not_le.mp fun hle => hsome ((lowestLanes_eq_iff _ _).mpr hle)
    simp only [hlost, decide_true, Bool.or_true]
    rfl

/-- R161: REFILL delivers the oldest entries, one to each enabled lane from the lowest, and takes them from the queue. -/
theorem refill_lane {m : Pred} {q : List (BitVec 32)} {k e : Nat} (h : ((enabledLanes m).take q.length)[k]? = some e) :
    q[k]? = some (lane (ofLanes fun i => if m.getLsbD i then q.getD (sumTo i fun j => (m.getLsbD j).toNat) 0 else 0) e) := by
  rw [List.getElem?_take] at h
  split at h
  · next hk =>
    obtain ⟨hbit, hrank⟩ := sumTo_of_filter_range_getElem? _ h
    have he : e < 128 := (mem_enabledLanes.mp (List.mem_of_getElem? h)).1
    rw [lane_ofLanes _ he, if_pos hbit, hrank, List.getD_eq_getElem?_getD, List.getElem?_eq_getElem hk]
    rfl
  · exact absurd h (by simp)

theorem drop_length_take {α β : Type} (on : List α) (q : List β) : q.drop (on.take q.length).length = q.drop on.length := by
  rw [List.length_take]
  rcases le_total q.length on.length with h | h
  · rw [min_eq_left h, List.drop_length, List.drop_eq_nil_of_le h]
  · rw [min_eq_right h]

/-- Settles O40: the special cases by the decoded operand; VROW by what the latch holds; the queue by the lowest lanes that fit. -/
theorem vectorFunctionsLatch : Obligations.VectorFunctionsLatch := by
  unfold Obligations.VectorFunctionsLatch
  refine ⟨⟨fun s d a p => ?functions, fun fn x => transLane_nan fn, fun x m h hm => ?negatives, ?specials⟩,
    fun s d a pd p => ⟨fun n age hdrain hlow hhigh => ?row, fun hnone => ?empty, ?defer, ?refill, rfl⟩⟩
  case functions =>
    have hform : ∀ (i : Instr) (fn : TransFn), exec i s = .next (s.vtrans fn d a p) →
        VecWrites i s d 32 (s.p p) 12 fun e => (transLane fn (vElem 32 (s.v a) e)).1 :=
      fun i fn hi => vecWrites_setElems d 32 (.inl rfl) _ _ _ _ hi fun _ => rfl
    exact ⟨hform _ _ rfl, hform _ _ rfl, hform _ _ rfl, hform _ _ rfl, hform _ _ rfl, hform _ _ rfl, hform _ _ rfl, hform _ _ rfl⟩
  case negatives =>
    exact ⟨transLane_negative (.inl rfl) h hm, transLane_negative (.inr (.inl rfl)) h hm, transLane_negative (.inr (.inr rfl)) h hm⟩
  case specials =>
    have hpinf := fp32_decode_infinity false
    have hninf := fp32_decode_infinity true
    have hpzero := fp32_decode_zero false
    have hnzero := fp32_decode_zero true
    simp only [Bool.false_eq_true, if_true, if_false] at hpinf hninf hpzero hnzero
    simp [transLane, hpinf, hninf, hpzero, hnzero, fp32_decode_one, fp32_signBit, log2Val_one]
  case row =>
    rw [Completes, exec_vrow_of_row d p (row?_of_drain hdrain hlow hhigh)]
    exact ⟨_, rfl, rfl, rfl, rfl, rfl⟩
  case empty => exact exec_vrow_of_empty d p (row?_eq_none fun ⟨n, age⟩ h => hnone n age h)
  case defer =>
    refine ⟨_, exec_vdefDefer s pd p a, ?dq, ?defov, fun hpd => ⟨_, setP_flight_of_ne hpd _ _ _, fun i hi => getLsbD_lowestLanes _ _ hi⟩, ?flight,
      ?v, setP_spad _ _ _ _, setP_mem _ _ _ _⟩
    case dq => rw [setP_vec]; rfl
    case defov => rw [setP_regs, State.modStat_core_regs, Bool.or_eq_true, decide_eq_true_iff]; rfl
    case flight => rintro rfl; rw [setP_zero]; rfl
    case v => rw [setP_regs]; rfl
  case refill =>
    refine ⟨_, rfl, drop_length_take _ _, rfl, rfl, rfl, _, _, rfl, fun i hi => getLsbD_lowestLanes _ _ hi, fun k e h => refill_lane h⟩

end Sys2Proof.Machine
end

section
/-! The claim and the queue of the matrix engine (spec 06_matrix.md R164, R165, R169 to R178): what lets an MX syllable pass, what joins the queue, and what
MMA, MMAQ, MZERO and MDRAIN answer. -/

namespace Sys2Proof.Machine

/-! ### The gate of an MX syllable (R164, R170, R178) -/

/-- The MX syllables but MCLAIM. -/
def ClaimedMx (i : Instr) : Prop :=
  i = .mrel ∨ (∃ b a p, i = .mcfg b a p) ∨ (∃ n a w c h, i = .mloadA n a w c h ∨ i = .mloadB n a w c h ∨ i = .mloadBt n a w c h) ∨
  (∃ a b l w c, i = .mma a b l w c ∨ i = .mmaAcc a b l w c) ∨
  (∃ a b l w c, i = .mmaqF4 a b l w c ∨ i = .mmaqF4Acc a b l w c ∨ i = .mmaqI4 a b l w c ∨ i = .mmaqI4Acc a b l w c) ∨ (∃ l, i = .mzero l) ∨
  (∃ l w, i = .mdrain l w)

/-- Every MX syllable but MCLAIM passes the same gate. -/
theorem ClaimedMx.exec_eq {i : Instr} (h : ClaimedMx i) (s : State) : ∃ k, exec i s = .next (s.mxGate true k) := by
  rcases h with rfl | ⟨b, a, p, rfl⟩ | ⟨n, a, w, c, hd, rfl | rfl | rfl⟩ | ⟨a, b, l, w, c, rfl | rfl⟩ | ⟨a, b, l, w, c, rfl | rfl | rfl | rfl⟩ |
    ⟨l, rfl⟩ | ⟨l, w, rfl⟩ <;> exact ⟨_, rfl⟩

namespace State

variable {s : State}

theorem mxGate_of_passed {claim : Bool} (k : State → State) (htm : s.core.regs.z.stat.tm = false) (hreleased : s.core.front.released = false)
    (hclaim : claim = true → s.core.mx.claim = true) (hslot : s.core.mx.mcfgAt.map (fun c => c + 1) ≠ some s.core.cycle) : s.mxGate claim k = k s := by
  rw [mxGate, if_neg (by simp [htm, hreleased]), if_neg (by simpa using hclaim), if_neg hslot]

theorem mxGate_of_open (h : MxOpen s) (k : State → State) : s.mxGate true k = k s := by
  obtain ⟨htm, hreleased, hclaim, hslot⟩ := h
  exact mxGate_of_passed k htm hreleased (fun _ => hclaim) hslot

theorem mxGate_of_shut (h : s.core.regs.z.stat.tm = true ∨ s.core.front.released = true ∨ s.core.mx.claim = false) (k : State → State) :
    s.mxGate true k = s.illegal := by
  rw [mxGate]
  by_cases hhandler : (s.core.regs.z.stat.tm || s.core.front.released) = true
  · rw [if_pos hhandler]
  · obtain ⟨htm, hreleased⟩ : s.core.regs.z.stat.tm = false ∧ s.core.front.released = false := by simpa using hhandler
    rw [if_neg hhandler, if_pos]
    simpa [htm, hreleased] using h

/-- With room in the queue a queued command is not stalled (R171). -/
theorem mxGate_of_room (ho : MxOpen s) (hroom : s.core.mx.queue.length < 2) (k : State → State) :
    (s.mxGate true fun s => if 2 ≤ s.core.mx.queue.length then s.modFront fun f => { f with hold := .stall } else k s) = k s := by
  rw [mxGate_of_open ho, if_neg (Nat.not_le.mpr hroom)]

/-- R170: the cycle after an MCFG is its drain slot. -/
theorem mxGate_of_drainSlot (k : State → State) (htm : s.core.regs.z.stat.tm = false) (hreleased : s.core.front.released = false)
    (hclaim : s.core.mx.claim = true) (hslot : s.core.mx.mcfgAt.map (fun c => c + 1) = some s.core.cycle) : s.mxGate true k = s.format 6 0xF 0xF := by
  rw [mxGate, if_neg (by simp [htm, hreleased]), if_neg (by simp [hclaim]), if_pos hslot]

/-- R173: FORMAT, with its reason and the two codes in one number. -/
theorem format_eq {reason expected found n : Nat} (hexpected : expected < 16) (hfound : found < 16) (hn : n = reason * 256 + expected * 16 + found) :
    s.format reason expected found = s.raise { code := 0x03, detail := BitVec.ofNat 32 n } := by
  rw [format, Nat.mod_eq_of_lt hexpected, Nat.mod_eq_of_lt hfound, hn]

end State

/-! ### The claim and the pair (R164, R169) -/

theorem tget?_map {α β : Type} (f : α → β) (t : Tab α) (n : Nat) : tget? (t.map fun kv => (kv.1, f kv.2)) n = (tget? t n).map f := by
  induction t with
  | nil => rfl
  | cons e t ih =>
    change (if e.1 = n then some (f e.2) else tget? (t.map fun kv => (kv.1, f kv.2)) n) = (if e.1 = n then some e.2 else tget? t n).map f
    rw [ih, apply_ite (Option.map f), Option.map_some]

/-- A change of every entry that leaves the default alone reads as a change of the entry. -/
theorem tget_map {α : Type} {d : α} {f : α → α} (hd : f d = d) (t : Tab α) (n : Nat) :
    tget d (t.map fun kv => (kv.1, f kv.2)) n = f (tget d t n) := by
  rw [tget, tget, tget?_map]
  cases tget? t n with
  | none => exact hd.symm
  | some v => rfl

/-- R164: what a claim makes of the engine. -/
def Mx.claimed (m : Mx) : Mx :=
  { m with
    claim := true, pair := .bf16, ae5 := false, be5 := false
    slots := m.slots.map fun kv => (kv.1, { kv.2 with tag := none })
    planes := m.planes.map fun kv => (kv.1, { kv.2 with kind := .none }) }

theorem Mx.claimed_slot (m : Mx) (n : Nat) :
    (tget {} m.claimed.slots n).tag = none ∧ (tget {} m.claimed.slots n).elems = (tget {} m.slots n).elems := by
  rw [claimed, tget_map (f := fun o : OpSlot => { o with tag := none }) rfl m.slots n]
  exact ⟨rfl, rfl⟩

theorem Mx.claimed_plane (m : Mx) (n : Nat) :
    m.claimed.kind n = .none ∧ (tget {} m.claimed.planes n).rows = (tget {} m.planes n).rows := by
  rw [kind, claimed, tget_map (f := fun p : Plane => { p with kind := .none }) rfl m.planes n]
  exact ⟨rfl, rfl⟩

section

variable {s : State} (htm : s.core.regs.z.stat.tm = false) (hreleased : s.core.front.released = false)
  (hslot : s.core.mx.mcfgAt.map (fun c => c + 1) ≠ some s.core.cycle)
include htm hreleased hslot

theorem exec_mclaim_of_held (hclaim : s.core.mx.claim = true) : exec .mclaim s = .next s := by
  change Host.Outcome.next (s.mxGate false _) = _
  rw [State.mxGate_of_passed _ htm hreleased (fun h => absurd h Bool.false_ne_true) hslot, if_pos hclaim]

theorem exec_mclaim_of_free (hclaim : s.core.mx.claim = false) : exec .mclaim s = .next (s.modMx Mx.claimed) := by
  change Host.Outcome.next (s.mxGate false _) = _
  rw [State.mxGate_of_passed _ htm hreleased (fun h => absurd h Bool.false_ne_true) hslot, if_neg (by simp [hclaim])]
  rfl

end

/-- Dropping reservations changes handles only. -/
theorem Regs.foldl_dropReservation (cmds : List MxCmd) (r : Regs) :
    ∃ h, cmds.foldl (fun r c => r.dropReservation c.hd false) r = { r with h := h } := by
  refine List.foldlRecOn (motive := fun r' : Regs => ∃ h, r' = { r with h := h }) cmds _ ⟨r.h, rfl⟩ fun r' ⟨h, hr'⟩ c _ => ?_
  rw [dropReservation, hr']
  split
  · exact ⟨h, rfl⟩
  · exact ⟨_, rfl⟩

/-- R164: what a release of the claim changes of a core. -/
theorem State.mxRelease_eq (s : State) : ∃ h,
    s.mxRelease = { s with core := { s.core with mx := s.core.mx.release, vec := s.mxRelease.core.vec, regs := { s.core.regs with h := h } } } := by
  obtain ⟨h, hh⟩ := Regs.foldl_dropReservation s.mloads s.core.regs
  refine ⟨h, ?_⟩
  rw [← hh]
  rfl

theorem exec_mrel_of_open {s : State} (ho : MxOpen s) : exec .mrel s = .next s.mxRelease :=
  congrArg Host.Outcome.next (State.mxGate_of_open ho _)

theorem exec_mcfg_of_open {s : State} (ho : MxOpen s) (b a : Bool) (p : MPair) : exec (.mcfg b a p) s =
    .next (s.modMx fun m => { m with pair := p, ae5 := a, be5 := b, mcfgAt := some s.core.cycle }) :=
  congrArg Host.Outcome.next (State.mxGate_of_open ho _)

/-! ### What joins the queue (R171) -/

/-- The command with what it captures when it issues in `s`. -/
def MxCmd.issuedIn (c : MxCmd) (s : State) : MxCmd :=
  { c with ticket := s.ticket, since := s.core.cycle, tid := s.tid, pair := s.core.mx.pair, ae5 := s.core.mx.ae5, be5 := s.core.mx.be5 }

namespace State

/-- The state in which a command has joined the queue. -/
def withMxCmd (s : State) (c : MxCmd) : State := s.takeTicket.1.modMx fun m => { m with queue := m.queue ++ [c.issuedIn s] }

variable {s : State}

theorem mxQueue_of_room (c : MxCmd) (k : State → State) (hroom : s.core.mx.queue.length < 2) : s.mxQueue c k = k (s.withMxCmd c) := by
  rw [mxQueue, if_neg (Nat.not_le.mpr hroom)]
  rfl

theorem swapGm_flight (s : State) (w : Bool) : (s.swapGm w).core.flight = s.core.flight ++ (if w then [⟨1, .swap false 0xF⟩] else []) := by
  cases w with
  | false => exact (List.append_nil _).symm
  | true => rfl

theorem swapGm_mx (s : State) (w : Bool) : (s.swapGm w).core.mx = s.core.mx := by cases w <;> rfl
theorem swapGm_regs (s : State) (w : Bool) : (s.swapGm w).core.regs = s.core.regs := by cases w <;> rfl
theorem swapGm_spad (s : State) (w : Bool) : (s.swapGm w).core.spad = s.core.spad := by cases w <;> rfl
theorem swapGm_mem (s : State) (w : Bool) : (s.swapGm w).mem = s.mem := by cases w <;> rfl
theorem swapGm_ticket (s : State) (w : Bool) : (s.swapGm w).ticket = s.ticket := by cases w <;> rfl

theorem setKind_kind_same (s : State) (p : Nat) (k : PlaneKind) : (s.setKind p k).core.mx.kind p = k :=
  congrArg Plane.kind (tget_tmod_same (α := Plane) {} s.core.mx.planes p fun q => { q with kind := k })

theorem setKind_kind_ne (s : State) {p q : Nat} (k : PlaneKind) (h : q ≠ p) : (s.setKind p k).core.mx.kind q = s.core.mx.kind q :=
  congrArg Plane.kind (tget_tmod_ne (α := Plane) {} s.core.mx.planes (fun q => { q with kind := k }) h)

end State

/-- What a syllable does that queues an array command and sets its plane's kind. -/
theorem mxQueued_of_exec {i : Instr} {s : State} {c c' : MxCmd} {p : Nat} {k : PlaneKind} {w : Bool} (hroom : s.core.mx.queue.length < 2)
    (hi : exec i s = .next (s.mxQueue c fun s => (s.setKind p k).swapGm w)) (hc : c.issuedIn s = c') : MxQueued i s c' p k w := by
  subst hc
  rw [State.mxQueue_of_room c _ hroom] at hi
  refine ⟨_, hi, ?queue, ?kind, fun q hq => ?kinds, State.swapGm_flight _ w, ?slots, State.swapGm_regs _ w, State.swapGm_spad _ w, State.swapGm_mem _ w,
    State.swapGm_ticket _ w⟩
  case queue => rw [State.swapGm_mx]; rfl
  case kind => rw [State.swapGm_mx, State.setKind_kind_same]
  case kinds => rw [State.swapGm_mx, State.setKind_kind_ne _ k hq]; rfl
  case slots => rw [State.swapGm_mx]; rfl

/-! ### The checks of MMA and MMAQ (R173, R175) -/

theorem FClass.code_lt (c : FClass) : FClass.code c < 16 := by cases c <;> decide
theorem MPair.cls_lt (p : MPair) : MPair.cls p < 16 := by cases p <;> decide
theorem mPairCode_lt (p : MPair) : mPairCode p < 16 := by cases p <;> decide
theorem kindFound_lt (k : PlaneKind) : State.kindFound k < 16 := by cases k <;> decide

/-- A pair accumulates FP32 or INT32 planes. -/
theorem kindFound_kind (p : MPair) : State.kindFound (MPair.kind p) = if MPair.kind p = .int32 then 7 else 6 := by cases p <;> rfl

namespace State

variable {s : State}

theorem tagOk_some {g : SlotTag} {formB : Bool} {cls : Nat} {takes : Nat → Bool} (hform : g.formB = formB) (hcls : g.cls = cls)
    (htakes : takes g.skind = true) : tagOk (some g) formB cls takes = true := by
  rw [tagOk, hform, hcls, htakes]
  simp

theorem kindCheck_of_fits {acc : Bool} {p : Nat} {want : PlaneKind} (k : State → State)
    (h : acc = false ∨ s.core.mx.kind p = .zero ∨ s.core.mx.kind p = want) : s.kindCheck acc p want k = k s := by
  refine if_neg fun ⟨hacc, hzero, hwant⟩ => ?_
  rcases h with h | h | h
  · exact absurd (h.symm.trans hacc) Bool.false_ne_true
  · exact hzero h
  · exact hwant h

theorem kindCheck_of_other {p : Nat} {want : PlaneKind} (k : State → State) (hzero : s.core.mx.kind p ≠ .zero) (hwant : s.core.mx.kind p ≠ want) :
    s.kindCheck true p want k = s.format 5 (kindFound want) (kindFound (s.core.mx.kind p)) := if_pos ⟨rfl, hzero, hwant⟩

variable {a b : BitVec 6} {l w : Bool} {fc : FClass} {acc : Bool} (ho : MxOpen s) (hroom : s.core.mx.queue.length < 2)
include ho hroom

theorem mma_of_class_ne (hcls : MPair.cls s.core.mx.pair ≠ FClass.code fc) :
    s.mma a b l w fc acc = s.format 1 (MPair.cls s.core.mx.pair) (FClass.code fc) := by
  rw [mma, mxGate_of_room ho hroom]
  exact if_pos hcls

theorem mma_of_no_tag (hcls : MPair.cls s.core.mx.pair = FClass.code fc) (htag : s.slotTag a.toNat = none) :
    s.mma a b l w fc acc = s.format 2 (FClass.code fc) 0xF := by
  rw [mma, mxGate_of_room ho hroom, htag]
  exact (if_neg (not_not.mpr hcls)).trans (if_pos rfl)

theorem mma_of_tags {ga gb : SlotTag} (hcls : MPair.cls s.core.mx.pair = FClass.code fc) (hta : s.slotTag a.toNat = some ga)
    (htb : s.slotTag b.toNat = some gb) (hga : tagOk (some ga) false (FClass.code fc) (MPair.takes s.core.mx.pair) = true)
    (hgb : tagOk (some gb) true (FClass.code fc) (MPair.takes s.core.mx.pair) = true) :
    s.mma a b l w fc acc = s.kindCheck acc l.toNat (MPair.kind s.core.mx.pair) fun s' =>
      s'.mxQueue { op := .mma, slotA := a.toNat, slotB := b.toNat, plane := l.toNat, acc := acc, cls := FClass.code fc
                   skind := ga.skind, skindB := gb.skind } fun t => (t.setKind l.toNat (MPair.kind s.core.mx.pair)).swapGm w := by
  rw [mma, mxGate_of_room ho hroom, hta, htb]
  dsimp only
  rw [if_neg (not_not.mpr hcls), if_neg (by simp [hga]), if_neg (by simp [hgb])]
  rfl

theorem mmaq_of_pair_ne {sc : BitVec 4} {int4 : Bool} (hpair : s.core.mx.pair ≠ .bf16) :
    s.mmaq a b l w sc int4 acc = s.format 7 0 (mPairCode s.core.mx.pair) := by
  rw [mmaq, mxGate_of_room ho hroom]
  exact if_pos hpair

theorem mmaq_of_tags {sc : BitVec 4} {int4 : Bool} (hpair : s.core.mx.pair = .bf16) (hta : s.slotTag a.toNat = some ⟨false, 0, 0⟩)
    (htb : s.slotTag b.toNat = some ⟨true, 2, 0⟩) :
    s.mmaq a b l w sc int4 acc = s.kindCheck acc l.toNat .fp32 fun s' =>
      s'.mxQueue { op := .mmaq, slotA := a.toNat, slotB := b.toNat, plane := l.toNat, acc := acc, alt := int4, sc := sc.toNat }
        fun t => (t.setKind l.toNat .fp32).swapGm w := by
  rw [mmaq, mxGate_of_room ho hroom, hta, htb]
  exact if_neg (not_not.mpr hpair)

end State

/-! ### MDRAIN (R177) -/

/-- R172: the array commands that have issued on a plane and not ended. -/
theorem State.planeBusy_iff (s : State) (p : Nat) :
    s.planeBusy p = true ↔ ∃ c, (c ∈ s.core.mx.queue ∨ s.core.mx.array = some c) ∧ c.op ≠ .mload ∧ c.plane = p := by
  simp only [planeBusy, List.any_eq_true, List.mem_append, Option.mem_toList, Bool.and_eq_true, bne_iff_ne, beq_iff_eq]

theorem exec_mdrain_of_free {s : State} {l : Bool} (w : Bool) (ho : MxOpen s) (hfree : s.planeBusy l.toNat = false) (hdrain : s.core.mx.drain = none) :
    exec (.mdrain l w) s = .next ((s.modMx fun m => { m with drain := some ⟨l.toNat, 0⟩ }).swapGm w) := by
  change Host.Outcome.next (s.mxGate true _) = _
  rw [State.mxGate_of_open ho, if_neg (by simp [hfree, hdrain])]

theorem exec_mdrain_of_taken {s : State} {l : Bool} (w : Bool) (ho : MxOpen s) (h : s.planeBusy l.toNat = true ∨ s.core.mx.drain ≠ none) :
    exec (.mdrain l w) s = .next s.illegal := by
  change Host.Outcome.next (s.mxGate true _) = _
  rw [State.mxGate_of_open ho, if_pos (by simpa [Option.isSome_iff_ne_none] using h)]

/-! ### The obligation -/

/-- Settles O41: the claim by the gate that its syllables pass, the commands by the first check that fails. -/
theorem matrixClaimAndCommands : Obligations.MatrixClaimAndCommands := by
  unfold Obligations.MatrixClaimAndCommands
  refine ⟨fun s => ⟨fun htm hreleased hslot => ⟨exec_mclaim_of_held htm hreleased hslot, fun hclaim => ?claim⟩,
    fun ho => ⟨?release, exec_mcfg_of_open ho⟩, fun i hi => ⟨fun hshut => ?shut, fun htm hreleased hclaim hslot hpos => ?drainSlot⟩⟩,
    fun s a b l w fc sc ho hroom => ⟨fun ga gb hta htb hcls hformA hclsA htakesA hformB hclsB htakesB => ?mma, fun hcls => ?classNe,
      fun hcls hta => ?noTag, fun ga gb hta htb hpair hga hgb => ?mmaq, fun hpair => ?pairNe, ?mzero,
      fun hfree hdrain => ?drain, fun htaken => ?drainTaken⟩⟩
  case claim =>
    refine ⟨_, exec_mclaim_of_free htm hreleased hslot hclaim, rfl, rfl, rfl, rfl, rfl, fun n => ?_⟩
    obtain ⟨htag, helems⟩ := s.core.mx.claimed_slot n
    obtain ⟨hkind, hrows⟩ := s.core.mx.claimed_plane n
    exact ⟨htag, hkind, helems, hrows⟩
  case release =>
    obtain ⟨h, hrelease⟩ := s.mxRelease_eq
    refine ⟨_, exec_mrel_of_open ho, ?_⟩
    rw [hrelease]
    exact ⟨rfl, rfl, rfl, rfl, rfl, rfl, rfl, rfl, rfl, rfl, rfl, rfl⟩
  case shut =>
    obtain ⟨k, hk⟩ := ClaimedMx.exec_eq hi s
    rw [hk, State.mxGate_of_shut hshut]
  case drainSlot =>
    obtain ⟨k, hk⟩ := ClaimedMx.exec_eq hi s
    rw [hk, State.mxGate_of_drainSlot k htm hreleased hclaim (by rw [hslot, Option.map_some, Nat.sub_add_cancel hpos])]
    rfl
  case mma =>
    have hmma := fun acc => State.mma_of_tags (l := l) (w := w) (acc := acc) ho hroom hcls hta htb (State.tagOk_some hformA hclsA htakesA)
      (State.tagOk_some hformB hclsB htakesB)
    refine ⟨mxQueued_of_exec hroom (congrArg Host.Outcome.next ((hmma false).trans (State.kindCheck_of_fits _ (.inl rfl)))) rfl, fun hfits =>
      mxQueued_of_exec hroom (congrArg Host.Outcome.next ((hmma true).trans (State.kindCheck_of_fits _ (.inr hfits)))) rfl, fun hzero hwant =>
      congrArg Host.Outcome.next (((hmma true).trans (State.kindCheck_of_other _ hzero hwant)).trans
        (State.format_eq (kindFound_lt _) (kindFound_lt _) ?_))⟩
    rw [kindFound_kind]
    cases s.core.mx.kind l.toNat <;> rfl
  case classNe => exact congrArg Host.Outcome.next ((State.mma_of_class_ne ho hroom hcls).trans (State.format_eq (MPair.cls_lt _) (FClass.code_lt fc) rfl))
  case noTag => exact congrArg Host.Outcome.next ((State.mma_of_no_tag ho hroom hcls hta).trans (State.format_eq (FClass.code_lt fc) (by decide) (by omega)))
  case mmaq =>
    subst hga hgb
    have hmmaq := fun int4 acc => State.mmaq_of_tags (l := l) (w := w) (acc := acc) (sc := sc) (int4 := int4) ho hroom hpair hta htb
    have hzero := fun int4 => (hmmaq int4 false).trans (State.kindCheck_of_fits _ (.inl rfl))
    have hacc := fun int4 hfits => (hmmaq int4 true).trans (State.kindCheck_of_fits _ (.inr hfits))
    exact ⟨mxQueued_of_exec hroom (congrArg Host.Outcome.next (hzero false)) rfl, mxQueued_of_exec hroom (congrArg Host.Outcome.next (hzero true)) rfl,
      fun hfits => ⟨mxQueued_of_exec hroom (congrArg Host.Outcome.next (hacc false hfits)) rfl,
        mxQueued_of_exec hroom (congrArg Host.Outcome.next (hacc true hfits)) rfl⟩⟩
  case pairNe => exact congrArg Host.Outcome.next ((State.mmaq_of_pair_ne ho hroom hpair).trans (State.format_eq (by decide) (mPairCode_lt _) rfl))
  case mzero => exact mxQueued_of_exec hroom (congrArg Host.Outcome.next (State.mxGate_of_open ho _)) rfl
  case drain =>
    have hnot : s.planeBusy l.toNat = false := Bool.eq_false_iff.mpr fun hbusy => by
      obtain ⟨c, hc, hop, hplane⟩ := (s.planeBusy_iff l.toNat).mp hbusy
      exact hfree c hc hop hplane
    exact ⟨_, exec_mdrain_of_free w ho hnot hdrain, State.swapGm_mx _ w, State.swapGm_regs _ w, State.swapGm_mem _ w, State.swapGm_flight _ w⟩
  case drainTaken => exact exec_mdrain_of_taken w ho (htaken.imp_left (s.planeBusy_iff l.toNat).mpr)

end Sys2Proof.Machine
end

section
/-! MLOAD (spec 06_matrix.md R165 to R168): the command that it makes of the shape registers, its checks in their order, and the tile that the load takes
from the scratchpad. -/

namespace Sys2Proof.Machine

/-! ### The checks of MLOAD and what it queues (R166, R167) -/

/-- R166: the limits of ROWS and COLS; a form B without transposition has its K index along the rows. -/
def MxCmd.maxRows (c : MxCmd) : Nat := if c.formB && !c.alt then clsChunk c.cls else 128
def MxCmd.maxCols (c : MxCmd) : Nat := if c.formB && !c.alt then 128 else clsChunk c.cls

theorem MxCmd.maxRows_eq (c : MxCmd) : c.maxRows = if c.formB = true ∧ c.alt = false then clsChunk c.cls else 128 :=
  if_congr (by simp) rfl rfl

theorem MxCmd.maxCols_eq (c : MxCmd) : c.maxCols = if c.formB = true ∧ c.alt = false then 128 else clsChunk c.cls :=
  if_congr (by simp) rfl rfl

/-- R167: the scale kind does not go with the class or the form. -/
def MxCmd.BadScale (c : MxCmd) : Prop :=
  2 < c.skind ∨ (c.skind = 1 ∧ c.cls ≠ 2) ∨ (c.skind = 2 ∧ c.cls ≠ 1 ∧ c.cls ≠ 2) ∨ (c.skind ≠ 0 ∧ c.formB ∧ !c.alt)

/-- R167: the scale kinds that an MLOAD accepts, each in whole blocks. -/
theorem MxCmd.scale_accepted {c : MxCmd} (h : c.skind = 0 ∨ (c.skind = 1 ∧ c.cls = 2 ∧ (c.formB = false ∨ c.alt = true) ∧ c.cols % 8 = 0) ∨
    (c.skind = 2 ∧ (c.cls = 1 ∨ c.cls = 2) ∧ (c.formB = false ∨ c.alt = true) ∧ c.cols % 32 = 0)) :
    ¬2 < c.skind ∧ ¬c.BadScale ∧ ¬(c.skind ≠ 0 ∧ c.cols % blockLen c.skind ≠ 0) := by
  rcases h with hkind | ⟨hkind, hcls, hform, hcols⟩ | ⟨hkind, hcls, hform, hcols⟩
  · simp [BadScale, hkind]
  · simpa [BadScale, blockLen, hkind, hcls, hcols, or_iff_not_imp_left] using hform
  · have hclass : c.cls ≠ 1 → c.cls = 2 := hcls.resolve_left
    simpa [BadScale, blockLen, hkind, hcols, or_iff_not_imp_left] using And.intro hclass hform

/-- R167: the scale kinds that FORMAT reports with reason 4. -/
theorem MxCmd.scale_refused {c : MxCmd} (h : (c.skind = 1 ∧ c.cls ≠ 2) ∨ (c.skind = 2 ∧ c.cls ≠ 1 ∧ c.cls ≠ 2) ∨
    ((c.skind = 1 ∨ c.skind = 2) ∧ c.formB = true ∧ c.alt = false)) : c.skind ≤ 2 ∧ c.BadScale := by
  rcases h with ⟨hkind, hcls⟩ | ⟨hkind, hcls⟩ | ⟨hkind, hform, halt⟩
  · exact ⟨by omega, .inr (.inl ⟨hkind, hcls⟩)⟩
  · exact ⟨by omega, .inr (.inr (.inl ⟨hkind, hcls⟩))⟩
  · exact ⟨by omega, .inr (.inr (.inr ⟨by omega, hform, by simp [halt]⟩))⟩

/-- The bytes whose range MLOAD tests: of a scale kind above 2 no scales and no bands (assumption log 38). -/
def MxCmd.testedReads (c : MxCmd) : List Range := (if 2 < c.skind then { c with skind := 0 } else c).reads

theorem MxCmd.testedReads_of_le {c : MxCmd} (h : ¬2 < c.skind) : c.testedReads = c.reads := by rw [testedReads, if_neg h]

/-- R165: a slot with a tag. -/
def OpSlot.withTag (g : SlotTag) (o : OpSlot) : OpSlot := { o with tag := some g }

namespace State

theorem withHandle_of_ready {s : State} {hd : BitVec 4} {avail : Bool} (k : State → State) (h : hd = 0 ∨ s.handleWait hd avail 1 = some true) :
    s.withHandle hd avail k = k s := by
  rw [withHandle]
  split
  · rfl
  · next hne => rw [h.resolve_left hne]

theorem withFootprint_of_loose {s : State} (code : Nat) (f : Foot) (k : State → State) (h : s.det = false) : s.withFootprint code f k = k s := by
  rw [withFootprint, withFoots, if_neg (by simp [h])]

theorem testedReads_inRange {s : State} {c : MxCmd} (hkind : ¬2 < c.skind) (hrange : ∀ r ∈ c.reads, s.spadOk r.lo (r.hi - r.lo) = true) :
    ¬(c.testedReads.any fun r => !s.spadOk r.lo (r.hi - r.lo)) = true := by
  rw [MxCmd.testedReads_of_le hkind]
  simpa using hrange

/-- The start of a command on a handle changes handles only. -/
theorem handleStart_eq (s : State) (hd : Nat) (producer : Bool) : ∃ h, s.handleStart hd producer = s.modRegs fun r => { r with h := h } := by
  rw [handleStart]
  split
  · exact ⟨s.core.regs.h, rfl⟩
  · exact ⟨_, rfl⟩

/-- R166: the command that MLOAD makes of its operands and the shape registers. -/
def mloadCmd (s : State) (slot a : BitVec 6) (w : Bool) (fc : FClass) (hd : BitVec 4) (formB bt : Bool) : MxCmd :=
  let g := if formB then 1 else 0
  { op := .mload, slotA := slot.toNat, alt := bt, formB := formB, cls := FClass.code fc, skind := s.gmField w (g + 2) 0
    base := ((s.x a).toNat + (if hd = 0 then 0 else (s.h hd).headSlot)) % 2 ^ 64
    rows := s.gmField w g 0, cols := s.gmField w g 1, stride := s.gmField w g 2, soff := s.gmField w (g + 2) 1
    sstride := s.gmField w (g + 2) 2, bandoff := s.gmField w (g + 2) 3, hd := hd.toNat }

/-- R165, R168: at issue the slot takes its tag and the handle one more consumer. -/
def mloadTagged (s : State) (c : MxCmd) (w : Bool) : State :=
  ((s.handleStart c.hd false).modMx fun m => { m with slots := tmod {} m.slots c.slotA (OpSlot.withTag ⟨c.formB, c.cls, c.skind⟩) }).swapGm w

section

variable {s : State} {slot a : BitVec 6} {w : Bool} {fc : FClass} {hd : BitVec 4} {formB bt : Bool} {c : MxCmd} (ho : MxOpen s)
  (hroom : s.core.mx.queue.length < 2) (hready : hd = 0 ∨ s.handleWait hd true 1 = some true) (hc : s.mloadCmd slot a w fc hd formB bt = c)
include ho hroom hready hc

theorem mload_of_misaligned (h : c.base % 32 ≠ 0 ∨ c.stride % 32 ≠ 0) :
    s.mload slot a w fc hd formB bt = s.misalign (BitVec.ofNat 64 c.base) 32 := by
  subst hc
  rw [mload, mxGate_of_room ho hroom, withHandle_of_ready _ hready]
  exact if_pos h

variable (halign : ¬(c.base % 32 ≠ 0 ∨ c.stride % 32 ≠ 0))
include halign

theorem mload_of_large (h : c.maxRows < c.rows ∨ c.maxCols < c.cols) : s.mload slot a w fc hd formB bt = s.illegal := by
  subst hc
  rw [mload, mxGate_of_room ho hroom, withHandle_of_ready _ hready]
  exact (if_neg halign).trans (if_pos h)

variable (hsize : ¬(c.maxRows < c.rows ∨ c.maxCols < c.cols)) (hkind : ¬2 < c.skind)
  (hrange : ∀ r ∈ c.reads, s.spadOk r.lo (r.hi - r.lo) = true)
include hsize hkind hrange

theorem mload_of_badScale (h : c.BadScale) : s.mload slot a w fc hd formB bt = s.format 4 c.cls c.skind := by
  rw [← min_eq_left (show c.skind ≤ 15 by omega)]
  subst hc
  rw [mload, mxGate_of_room ho hroom, withHandle_of_ready _ hready]
  exact (if_neg halign).trans ((if_neg hsize).trans ((if_neg (testedReads_inRange hkind hrange)).trans (if_pos h)))

theorem mload_of_checked (hscale : ¬c.BadScale) (hblock : ¬(c.skind ≠ 0 ∧ c.cols % blockLen c.skind ≠ 0)) (hdet : s.det = false) :
    s.mload slot a w fc hd formB bt = (s.withMxCmd c).mloadTagged c w := by
  subst hc
  rw [mload, mxGate_of_room ho hroom, withHandle_of_ready _ hready]
  exact (if_neg halign).trans ((if_neg hsize).trans ((if_neg (testedReads_inRange hkind hrange)).trans ((if_neg hscale).trans ((if_neg hblock).trans
    ((withFootprint_of_loose 2 _ _ hdet).trans (mxQueue_of_room _ _ hroom))))))

end

end State

/-- What an accepted MLOAD writes: the queue, one slot's tag, and the swap that it asks for (R165, R168, R171). -/
theorem mloadTagged_frame (s : State) (c : MxCmd) (w : Bool) (t : State) (ht : t = (s.withMxCmd c).mloadTagged c w) :
    t.core.mx.queue = s.core.mx.queue ++ [c.issuedIn s] ∧ (tget {} t.core.mx.slots c.slotA).tag = some ⟨c.formB, c.cls, c.skind⟩ ∧
    (∀ q, q ≠ c.slotA → tget {} t.core.mx.slots q = tget {} s.core.mx.slots q) ∧
    t.core.flight = s.core.flight ++ (if w then [⟨1, .swap false 0xF⟩] else []) ∧ t.core.regs.x = s.core.regs.x ∧ t.core.regs.v = s.core.regs.v ∧
    t.core.spad = s.core.spad ∧ t.mem = s.mem := by
  obtain ⟨h, hstart⟩ := (s.withMxCmd c).handleStart_eq c.hd false
  rw [ht, State.mloadTagged, hstart, State.swapGm_mx, State.swapGm_regs, State.swapGm_spad, State.swapGm_mem, State.swapGm_flight]
  exact ⟨rfl, congrArg OpSlot.tag (tget_tmod_same {} s.core.mx.slots c.slotA (OpSlot.withTag ⟨c.formB, c.cls, c.skind⟩)),
    fun q hq => tget_tmod_ne {} s.core.mx.slots (OpSlot.withTag ⟨c.formB, c.cls, c.skind⟩) hq, rfl, rfl, rfl, rfl, rfl⟩

/-! ### The tile (R167) -/

/-- An element is not read past its own bits. -/
theorem elemOf_add_mul_low {w e k : Nat} (x y : Nat) (h : w * (e + 1) ≤ k) : elemOf w (x + y * 2 ^ k) e = elemOf w x e := by
  obtain ⟨j, rfl⟩ := Nat.exists_eq_add_of_le h
  have hsplit : y * 2 ^ (w * (e + 1) + j) = y * 2 ^ j * 2 ^ w * 2 ^ (w * e) := by ring
  rw [elemOf, elemOf, hsplit, Nat.add_mul_div_right _ _ (Nat.two_pow_pos _), Nat.add_mul_mod_self_right]

theorem elemOf_mod {w e k : Nat} (x : Nat) (h : w * (e + 1) ≤ k) : elemOf w (x % 2 ^ k) e = elemOf w x e := by
  rw [← elemOf_add_mul_low _ (x / 2 ^ k) h, Nat.mul_comm, Nat.mod_add_div]

theorem elemOf_ofNat {w e n : Nat} (x : Nat) (h : w * (e + 1) ≤ n) : elemOf w (BitVec.ofNat n x).toNat e = elemOf w x e := by
  rw [BitVec.toNat_ofNat, elemOf_mod x h]

/-- Element `e` of packed elements that are held in a bit vector with room for them. -/
theorem elemOf_ofNat_packElems {w m n e : Nat} (f : Nat → Nat) (he : e < m) (hn : w * m ≤ n) :
    elemOf w (BitVec.ofNat n (packElems w m f)).toNat e = f e % 2 ^ w := by
  rw [elemOf_ofNat _ ((Nat.mul_le_mul_left w he).trans hn), elemOf_packElems w m f he]

/-- R163, R165: 128 chunks of a class fill a slot. -/
theorem clsBits_mul_clsChunk {cls : Nat} (h : cls < 4) : clsBits cls * (128 * clsChunk cls) = 262144 := by
  interval_cases cls <;> rfl

/-- R167: element (sr, col) of the source tile, 0 past ROWS and COLS. -/
def State.sourceElem (s : State) (c : MxCmd) (sr col : Nat) : Nat :=
  if sr < c.rows ∧ col < c.cols then s.spadElem (c.base + sr * c.stride) (clsBits c.cls) col else 0

/-- The source element that the load places at index `i` of the slot. -/
def State.placedElem (s : State) (c : MxCmd) (i : Nat) : Nat :=
  if c.formB then (if c.alt then s.sourceElem c (i % 128) (i / 128) else s.sourceElem c (i / 128) (i % 128))
  else s.sourceElem c (i / clsChunk c.cls) (i % clsChunk c.cls)

theorem mloadTake_elem (s : State) {c : MxCmd} {i : Nat} (hcls : c.cls < 4) (hi : i < 128 * clsChunk c.cls) :
    elemOf (clsBits c.cls) (s.mloadTake c).elems.toNat i = s.placedElem c i % 2 ^ clsBits c.cls :=
  elemOf_ofNat_packElems (s.placedElem c) hi (clsBits_mul_clsChunk hcls).le

theorem sourceElem_mod (s : State) (c : MxCmd) (sr col : Nat) : s.sourceElem c sr col % 2 ^ clsBits c.cls =
    if sr < c.rows ∧ col < c.cols then s.spadElem (c.base + sr * c.stride) (clsBits c.cls) col % 2 ^ clsBits c.cls else 0 := by
  rw [State.sourceElem, apply_ite (· % 2 ^ clsBits c.cls), Nat.zero_mod]

/-- Column `k` of row `r` of a tile of `m` rows of `n` elements lies inside it. -/
theorem tile_lt {m n r k : Nat} (hr : r < m) (hk : k < n) : r * n + k < m * n := by
  calc r * n + k < (r + 1) * n := by rw [Nat.add_mul, Nat.one_mul]; omega
    _ ≤ m * n := Nat.mul_le_mul_right n hr

/-- The row of an element from its place in the tile. -/
theorem tile_div {n r k : Nat} (hk : k < n) : (r * n + k) / n = r := by
  rw [Nat.add_comm, Nat.add_mul_div_right _ _ (by omega), Nat.div_eq_of_lt hk, Nat.zero_add]

/-! ### The obligation -/

/-- Settles O42: the command by its first failing check, the tile by the place that each form gives a source element. -/
theorem matrixLoad : Obligations.MatrixLoad := by
  unfold Obligations.MatrixLoad
  refine ⟨fun s n a w formB bt fc hd i ho hroom hform hready => ?issue,
    fun s c r k hcls hr hk => ⟨fun hA => ?formA, fun hB halt => ?formB, fun hB halt => ?formBt⟩⟩
  case issue =>
    have hi : exec i s = .next (s.mload n a w fc hd formB bt) := by rcases hform with h | h | h <;> cases h <;> rfl
    have hnext : ∀ {t}, s.mload n a w fc hd formB bt = t → exec i s = .next t := fun h => hi.trans (congrArg _ h)
    have hcmd := Eq.refl (s.mloadCmd n a w fc hd formB bt)
    have hrows := (s.mloadCmd n a w fc hd formB bt).maxRows_eq
    have hcols := (s.mloadCmd n a w fc hd formB bt).maxCols_eq
    have hmisaligned := State.mload_of_misaligned ho hroom hready hcmd
    refine ⟨fun h => hnext (hmisaligned h), fun hbase hstride => ?_⟩
    have halign := not_or.mpr ⟨not_not.mpr hbase, not_not.mpr hstride⟩
    have hlarge := State.mload_of_large ho hroom hready hcmd halign
    rw [hrows, hcols] at hlarge
    refine ⟨fun h => hnext (hlarge h), fun hr hc hrange hscale hdet => ?_, fun hr hc hrange hscale => ?_⟩
    · have hsize := not_or.mpr ⟨Nat.not_lt.mpr (hr.trans_eq hrows.symm), Nat.not_lt.mpr (hc.trans_eq hcols.symm)⟩
      obtain ⟨hkind, hgood, hblock⟩ := MxCmd.scale_accepted (c := s.mloadCmd n a w fc hd formB bt) hscale
      exact ⟨_, hnext (State.mload_of_checked ho hroom hready hcmd halign hsize hkind hrange hgood hblock hdet), mloadTagged_frame s _ w _ rfl⟩
    · have hsize := not_or.mpr ⟨Nat.not_lt.mpr (hr.trans_eq hrows.symm), Nat.not_lt.mpr (hc.trans_eq hcols.symm)⟩
      obtain ⟨hkind, hbad⟩ := MxCmd.scale_refused (c := s.mloadCmd n a w fc hd formB bt) hscale
      exact hnext ((State.mload_of_badScale ho hroom hready hcmd halign hsize (Nat.not_lt.mpr hkind) hrange hbad).trans
        (State.format_eq (FClass.code_lt fc) (by omega) rfl))
  case formA =>
    rw [mloadTake_elem s hcls (tile_lt hr hk), State.placedElem, if_neg (by simp [hA]), tile_div hk, Nat.mul_add_mod_of_lt hk, sourceElem_mod]
  case formB =>
    rw [mloadTake_elem s hcls ((tile_lt hk hr).trans_eq (Nat.mul_comm _ _)), State.placedElem, if_pos hB, if_neg (by simp [halt]),
      tile_div hr, Nat.mul_add_mod_of_lt hr, sourceElem_mod]
  case formBt =>
    rw [mloadTake_elem s hcls ((tile_lt hk hr).trans_eq (Nat.mul_comm _ _)), State.placedElem, if_pos hB, if_pos halt, tile_div hr, Nat.mul_add_mod_of_lt hr,
      sourceElem_mod]

end Sys2Proof.Machine
end

section
/-! The scale slot (spec 06_matrix.md R180 to R189): loads of scale registers, blocks packed into and out of a byte image, draws and counters. -/

namespace Sys2Proof.Machine

/-! ### SCLD (R181) -/

theorem leNat_append (xs ys : List Byte) : leNat (xs ++ ys) = leNat xs + leNat ys * 2 ^ (8 * xs.length) := by
  induction xs with
  | nil => simp [leNat]
  | cons b xs ih =>
    rw [List.cons_append, leNat, leNat, ih, List.length_cons, Nat.mul_succ, Nat.pow_add]
    ring

theorem leNat_lt (xs : List Byte) : leNat xs < 2 ^ (8 * xs.length) := by
  induction xs with
  | nil => exact Nat.one_pos
  | cons b xs ih =>
    have hb := b.isLt
    rw [leNat, List.length_cons, Nat.mul_succ, Nat.pow_add]
    omega

/-- An element past the low part is one of the high part. -/
theorem elemOf_add_mul_high {w k n x : Nat} (y e : Nat) (hn : w * k = n) (hx : x < 2 ^ n) : elemOf w (x + y * 2 ^ n) (k + e) = elemOf w y e := by
  subst hn
  rw [elemOf, elemOf, Nat.mul_add, Nat.pow_add, ← Nat.div_div_eq_div_mul, Nat.add_mul_div_right _ _ (Nat.two_pow_pos _), Nat.div_eq_of_lt hx,
    Nat.zero_add]

theorem elemOf_add_mul_self {w e x : Nat} (y : Nat) (hx : x < 2 ^ (w * e)) : elemOf w (x + y * 2 ^ (w * e)) e = y % 2 ^ w := by
  rw [elemOf, Nat.add_mul_div_right _ _ (Nat.two_pow_pos _), Nat.div_eq_of_lt hx, Nat.zero_add]

theorem elemOf_eq_zero {w x e : Nat} (h : x < 2 ^ (w * e)) : elemOf w x e = 0 := by
  rw [elemOf, Nat.div_eq_of_lt h, Nat.zero_mod]

namespace State

theorem spadBytes_length (s : State) (a n : Nat) : (s.spadBytes a n).length = n := by simp [spadBytes]

theorem spadBytes_add (s : State) (a m n : Nat) : s.spadBytes a (m + n) = s.spadBytes a m ++ s.spadBytes (a + m) n := by
  simp [spadBytes, List.range_add, Nat.add_assoc, Function.comp_def]

/-- R4: halfword `e` of the scratchpad bytes from `a` on. -/
theorem elemOf_spadNat (s : State) (a : Nat) {n e : Nat} (h : 2 * e + 2 ≤ n) : elemOf 16 (s.spadNat a n) e = leNat (s.spadBytes (a + 2 * e) 2) := by
  obtain ⟨k, rfl⟩ := Nat.exists_eq_add_of_le h
  have hbits : 8 * (2 * e) = 16 * e := by omega
  have hlow := leNat_lt (s.spadBytes a (2 * e))
  have hhalf := leNat_lt (s.spadBytes (a + 2 * e) 2)
  rw [spadBytes_length] at hhalf
  rw [spadBytes_length, hbits] at hlow
  rw [spadNat, spadBytes_add, spadBytes_add, List.append_assoc, leNat_append, leNat_append, spadBytes_length, spadBytes_length, hbits]
  rw [elemOf_add_mul_self _ hlow, Nat.add_mul_mod_self_right, Nat.mod_eq_of_lt hhalf]

variable {s : State} (d : BitVec 4) {a : BitVec 6} {o : BitVec 9} {n : Nat} (f : Nat → Nat → Nat)

theorem scload_of_misaligned (h : (s.x a + o.signExtend 64 * 32).toNat % 32 ≠ 0) :
    s.scload d a o n f = s.misalign (s.x a + o.signExtend 64 * 32) 32 := if_pos h

/-- R181: an aligned load of bytes in range fills the register's 128 entries. -/
theorem scload_of_inRange (halign : (s.x a + o.signExtend 64 * 32).toNat % 32 = 0) (hrange : s.spadOk (s.x a + o.signExtend 64 * 32).toNat n = true) :
    ∃ val l, s.scload d a o n f = (s.readSlots l).setSc d val 4 ∧
      ∀ e, e < 128 → scEntry val e = f (s.spadNat (s.x a + o.signExtend 64 * 32).toNat n) e % 2 ^ 16 :=
  ⟨_, _, (if_neg (not_not.mpr halign)).trans (if_neg (by rw [hrange]; decide)), fun e he => elemOf_ofNat_packElems _ he (by decide)⟩

end State

theorem elemOf_mod_self (w x e : Nat) : elemOf w x e % 2 ^ w = elemOf w x e := Nat.mod_mod _ _

/-! ### The byte image of a packed register (R182) -/

theorem packElems_lt_of_le {w n k : Nat} (f : Nat → Nat) (h : w * n ≤ k) : packElems w n f < 2 ^ k :=
  (packElems_lt w n f).trans_le (Nat.pow_le_pow_right Nat.two_pos h)

namespace Blocks

variable (b : Blocks) {e m : Nat}

/-- Elements fit below byte 128. -/
theorem image_elem (hw : b.width ≤ 8) (he : e < 128) : vElem b.width b.image e = (b.code e).1 % 2 ^ b.width := by
  have hlow : b.width * (e + 1) ≤ 1024 := Nat.mul_le_mul hw he
  rw [vElem, image, elemOf_ofNat _ (by omega), elemOf_add_mul_low _ _ hlow, elemOf_packElems _ _ _ he]

theorem elements_lt (hw : b.width ≤ 8) : packElems b.width 128 (fun e => (b.code e).1) < 2 ^ 1024 :=
  packElems_lt_of_le _ (Nat.mul_le_mul_right 128 hw)

theorem image_high (hw : b.width ≤ 8) (hm : 128 + m < 512) : vElem 8 b.image (128 + m) = elemOf 8 (packElems 8 b.count b.scale) m := by
  rw [vElem, image, elemOf_ofNat _ (by omega), elemOf_add_mul_high (n := 1024) (packElems 8 b.count b.scale) m rfl (b.elements_lt hw)]

theorem image_scale (hw : b.width ≤ 8) (hcount : b.count ≤ 16) (he : e < b.count) : vElem 8 b.image (128 + e) = b.scale e % 256 := by
  rw [b.image_high hw (by omega)]
  exact elemOf_packElems 8 _ _ he

/-- Every byte between the elements and the scales, and past the scales, is 0. -/
theorem image_rest (hw : b.width ≤ 8) (hm : m < 512) (h : (16 * b.width ≤ m ∧ m < 128) ∨ 128 + b.count ≤ m) : vElem 8 b.image m = 0 := by
  rcases h with ⟨hlow, hhigh⟩ | hpast
  · have hbytes : b.width * 128 ≤ 8 * m := by omega
    rw [vElem, image, elemOf_ofNat _ (by omega), elemOf_add_mul_low _ _ (by omega),
      elemOf_eq_zero (packElems_lt_of_le _ hbytes)]
  · obtain ⟨k, rfl⟩ := Nat.exists_eq_add_of_le (show 128 ≤ m by omega)
    rw [b.image_high hw hm, elemOf_eq_zero (packElems_lt_of_le _ (by omega))]

end Blocks

/-! ### QCVT (R182 to R185) -/

/-- The draw of element `e`: only stochastic rounding uses one. -/
def State.qdraw (s : State) (r : RMode) (e : Nat) : Nat := if r = .rs then s.draw e else 0

/-- What lane `e` enters as: a disabled one as +0. -/
def State.qlane (s : State) (a : BitVec 5) (p : BitVec 4) (e : Nat) : FVal :=
  if (s.p p).getLsbD e then fp32.decode (vElem 32 (s.v a) e) else .fin false 0

/-- The blocks that a packing QCVT makes. -/
def State.qblocks (s : State) (a : BitVec 5) (r : RMode) (p : BitVec 4) (f : (Nat → Nat) → (Nat → FVal) → Blocks) : Blocks :=
  f (s.qdraw r) (s.qlane a p)

section

variable (s : State) (d a : BitVec 5) (r : RMode) (p : BitVec 4) (f : (Nat → Nat) → (Nat → FVal) → Blocks)

/-- The state of a packing QCVT before it takes its draws. -/
def State.qpacked : State :=
  (s.countEv (Ev.sumTo 128 fun e => ((s.qblocks a r p f).code e).2)).setV d (BitVec.allOnes 128) (s.qblocks a r p f).image 6

theorem State.qpacked_only : OnlyVector s (s.qpacked d a r p f) := setV_onlyVector (countStat_only _ _ _) d _ _ 6

theorem State.qpacked_flight : (s.qpacked d a r p f).core.flight =
    s.core.flight ++ [⟨6, .v d.toNat (BitVec.allOnes 128) (s.qblocks a r p f).image⟩] := by
  rw [qpacked, setV_flight]
  exact congrArg (· ++ _) (countStat_flight _ _ _)

theorem State.qpack_eq : s.qpack d a r p f = if r = .rs then (s.qpacked d a r p f).drawn 128 else s.qpacked d a r p f := rfl

/-- R182: a packing QCVT writes every lane of one register, and takes 128 draws in stochastic mode. -/
theorem State.qpack_frame (t : State) (ht : t = s.qpack d a r p f) :
    t.core.regs.z.rpos = s.core.regs.z.rpos + (if r = .rs then 128 else 0) ∧ t.core.regs.v = s.core.regs.v ∧ t.core.spad = s.core.spad ∧ t.mem = s.mem ∧
    t.core.flight = s.core.flight ++ [⟨6, .v d.toNat (BitVec.allOnes 128) (s.qblocks a r p f).image⟩] := by
  have honly := s.qpacked_only d a r p f
  have hrpos := congrArg (fun r : Regs => r.z.rpos) honly.regs
  have hv := congrArg Regs.v honly.regs
  rw [ht, qpack_eq]
  split
  · exact ⟨congrArg (· + BitVec.ofNat 64 128) hrpos, hv, honly.spad, honly.mem, s.qpacked_flight d a r p f⟩
  · exact ⟨hrpos.trans (BitVec.add_zero _).symm, hv, honly.spad, honly.mem, s.qpacked_flight d a r p f⟩

end

/-- What a packing QCVT of blocks of `blk` elements answers: codes of width `w`, one scale for each block, 0 in every other byte (R182). -/
theorem completes_qpack {i : Instr} {s : State} {d a : BitVec 5} {r : RMode} {p : BitVec 4} {f : (Nat → Nat) → (Nat → FVal) → Blocks}
    {w blk : Nat} {elem scale : Nat → Nat} (hi : exec i s = .next (s.qpack d a r p f)) (hwidth : (s.qblocks a r p f).width = w)
    (hcount : (s.qblocks a r p f).count = 128 / blk) (hw : w ≤ 8) (hblk : 128 / blk ≤ 16) (hcode : ∀ e, ((s.qblocks a r p f).code e).1 = elem e)
    (hscale : ∀ b, (s.qblocks a r p f).scale b = scale b) : Completes i s fun t =>
      t.core.regs.z.rpos = s.core.regs.z.rpos + (if r = .rs then 128 else 0) ∧ t.core.regs.v = s.core.regs.v ∧ t.core.spad = s.core.spad ∧ t.mem = s.mem ∧
      ∃ val, t.core.flight = s.core.flight ++ [⟨6, .v d.toNat (BitVec.allOnes 128) val⟩] ∧ (∀ e, e < 128 → vElem w val e = elem e % 2 ^ w) ∧
        (∀ g, g < 128 / blk → vElem 8 val (128 + g) = scale g % 256) ∧ ∀ m, m < 512 → (16 * w ≤ m ∧ m < 128) ∨ 128 + 128 / blk ≤ m → vElem 8 val m = 0 := by
  obtain ⟨hrpos, hv, hspad, hmem, hflight⟩ := s.qpack_frame d a r p f _ rfl
  rw [← hwidth] at hw ⊢
  rw [← hcount] at hblk ⊢
  refine ⟨_, hi, hrpos, hv, hspad, hmem, _, hflight, fun e he => ?_, fun g hg => ?_, fun m hm hrest => Blocks.image_rest _ hw hm hrest⟩
  · rw [Blocks.image_elem _ hw he, hcode]
  · rw [Blocks.image_scale _ hw hblk hg, hscale]

/-! ### MXFP8, MXFP4 and DB4 (R183, R184) -/

section

variable {f : FFmt} (mode : RMode) (draw : Nat → Nat) (val : Nat → FVal) (i : Nat)

/-- A format with a NaN has a code for every element. -/
theorem mxBlocks_of_nan (h : f.nanCode ≠ 0) :
    ((mxBlocks f mode draw val).code i).1 =
      (f.convert mode (draw i) (quantBits + mxExp (emaxOf f) (amaxOf val (32 * (i / 32)) 32)).toNat (val i)).1 ∧
    (mxBlocks f mode draw val).scale i = (mxExp (emaxOf f) (amaxOf val (32 * i) 32) + 127).toNat := by
  simp [mxBlocks, h]

/-- In a format without NaN a block that holds one is marked by its scale. -/
theorem mxBlocks_of_noNan (h : f.nanCode = 0) :
    ((mxBlocks f mode draw val).code i).1 = (if blockAny val (32 * (i / 32)) 32 FVal.isNaN then 0
      else (f.convert mode (draw i) (quantBits + mxExp (emaxOf f) (amaxOf val (32 * (i / 32)) 32)).toNat (val i)).1) ∧
    (mxBlocks f mode draw val).scale i = if blockAny val (32 * i) 32 FVal.isNaN then 0xFF
      else (mxExp (emaxOf f) (amaxOf val (32 * i) 32) + 127).toNat := by
  simp [mxBlocks, h, apply_ite Prod.fst]

end

section

variable {band : Nat} (mode : RMode) (draw : Nat → Nat) (val : Nat → FVal) (i : Nat)

/-- A band scale that is 0, infinite or NaN leaves no block. -/
theorem db4Blocks_of_dead (h : ∀ neg m, bf16.decode band ≠ .fin neg m ∨ m = 0) :
    ((db4Blocks band mode draw val).code i).1 = 0 ∧ (db4Blocks band mode draw val).scale i = 0xFF := by
  cases hband : bf16.decode band with
  | nan => simp [db4Blocks, hband]
  | inf neg => simp [db4Blocks, hband]
  | fin neg m =>
    have hm : m = 0 := (h neg m).resolve_left (not_not.mpr hband)
    simp [db4Blocks, hband, hm]

/-- R184: the code of an element under a finite band scale of magnitude `m` and a block scale. -/
def db4Code (u : Nat) (neg : Bool) (m scale : Nat) : FVal → Nat
  | .fin ng y => (e2m1.narrow mode u (ng != neg) (y * 2 ^ 7) ((e3m5 scale).getD 1 * m)).1
  | .inf ng => (if ng != neg then 8 else 0) + 7
  | .nan => 0

theorem db4Blocks_of_band {neg : Bool} {m : Nat} (h : bf16.decode band = .fin neg m) (hm : m ≠ 0) :
    (let sb := fun b => db4Scale m (amaxOf val (8 * b) 8) (blockAny val (8 * b) 8 fun v => v.isInf false || v.isInf true)
     ((db4Blocks band mode draw val).code i).1 = (if blockAny val (8 * (i / 8)) 8 FVal.isNaN ∨ sb (i / 8) = 0 then 0
       else db4Code mode (draw i) neg m (sb (i / 8)) (val i)) ∧
     (db4Blocks band mode draw val).scale i = if blockAny val (8 * i) 8 FVal.isNaN then 0xFF else sb i) := by
  refine ⟨?_, by simp [db4Blocks, h, hm]⟩
  simp only [db4Blocks, h, beq_eq_false_iff_ne.mpr hm, Bool.false_or, Bool.or_eq_true, beq_iff_eq, apply_ite Prod.fst]
  refine if_congr Iff.rfl rfl ?_
  cases val i <;> rfl

end

/-- R184: the scale code is the least whose value reaches amax / (6 |β|), or the largest of all. -/
theorem db4Scale_least {beta amax : Nat} (hamax : 0 < amax) :
    db4Scale beta amax false ≤ 0xFE ∧ (∀ c, c < db4Scale beta amax false → 6 * beta * (e3m5 c).getD 0 < amax * 2 ^ 7) ∧
    (db4Scale beta amax false < 0xFE → amax * 2 ^ 7 ≤ 6 * beta * (e3m5 (db4Scale beta amax false)).getD 0) := by
  rw [db4Scale, if_neg Bool.false_ne_true, if_neg hamax.ne']
  cases hfirst : firstTo 255 fun c => decide (amax * 2 ^ 7 ≤ 6 * beta * (e3m5 c).getD 0) with
  | none => exact ⟨le_rfl, fun c hc => by simpa using firstTo_eq_none hfirst (hc.trans (by decide)), fun h => absurd h (lt_irrefl _)⟩
  | some c =>
    obtain ⟨hlt, hreaches, hbefore⟩ := firstTo_eq_some hfirst
    exact ⟨Nat.le_of_lt_succ hlt, fun c' hc' => by simpa using hbefore c' hc', fun _ => of_decide_eq_true hreaches⟩

/-! ### The obligation -/

/-- Settles O44: loads by the halfwords of the bytes, packed registers by their blocks, the other forms by the lanes that they write. -/
theorem scaleSlot : Obligations.ScaleSlot := by
  unfold Obligations.ScaleSlot
  intro s d a n x o k r p
  refine ⟨⟨fun h => ⟨congrArg _ (State.scload_of_misaligned n _ h), congrArg _ (State.scload_of_misaligned n _ h)⟩,
    fun halign hrange => ?blk, fun halign hrange => ?band⟩, ⟨?f8, ?mx4, fun hband => ?db4Dead, fun neg m hband hm => ?db4⟩,
    fun beta amax _ hamax => db4Scale_least hamax, ?unpack, ⟨?drawInt, ?drawUni⟩, ?counters⟩
  case blk =>
    obtain ⟨val, l, hload, hval⟩ := State.scload_of_inRange n (fun m e => elemOf 16 m e) halign hrange
    refine ⟨val, l, congrArg Host.Outcome.next hload, fun e he => ?_⟩
    rw [hval e he, elemOf_mod_self, State.elemOf_spadNat s _ (by omega)]
  case band =>
    obtain ⟨val, l, hload, hval⟩ := State.scload_of_inRange n (fun m e => elemOf 16 m (e / 64)) halign hrange
    refine ⟨val, l, congrArg Host.Outcome.next hload, fun e he => ?_⟩
    rw [hval e he, elemOf_mod_self, State.elemOf_spadNat s _ (by omega)]
  case f8 =>
    have hnan : (fp8Kind k).nanCode ≠ 0 := by cases k <;> decide
    have hemax : emaxOf (fp8Kind k) = if k then 15 else 8 := by cases k <;> rfl
    have hblocks := fun i => mxBlocks_of_nan r (s.qdraw r) (s.qlane a p) i hnan
    rw [hemax] at hblocks
    exact completes_qpack rfl (by cases k <;> rfl) rfl (by decide) (by decide) (fun e => (hblocks e).1) (fun b => (hblocks b).2)
  case mx4 =>
    have hblocks := fun i => mxBlocks_of_noNan r (s.qdraw r) (s.qlane a p) i (f := e2m1) rfl
    exact completes_qpack rfl rfl rfl (by decide) (by decide) (fun e => (hblocks e).1) (fun b => (hblocks b).2)
  case db4Dead =>
    have hblocks := fun i => db4Blocks_of_dead r (s.qdraw r) (s.qlane a p) i hband
    exact completes_qpack rfl rfl rfl (by decide) (by decide) (fun e => (hblocks e).1) (fun b => (hblocks b).2)
  case db4 =>
    have hblocks := fun i => db4Blocks_of_band r (s.qdraw r) (s.qlane a p) i hband hm
    exact completes_qpack rfl rfl rfl (by decide) (by decide) (fun e => (hblocks e).1) (fun b => (hblocks b).2)
  case unpack => exact vecWrites_setV d 32 _ _ 6 _ rfl (OnlyVector.refl s) rfl fun e he _ => vElem_ofElems (.inl rfl) _ he
  case drawInt => exact ⟨_, rfl, rfl, rfl, rfl, _, rfl, fun e he => vElem_ofElems (.inl rfl) _ he⟩
  case drawUni => exact ⟨_, rfl, rfl, rfl, rfl, _, rfl, fun e he => vElem_ofElems (.inl rfl) _ he⟩
  case counters => exact vecWrites_setV d 32 _ _ 2 _ rfl (OnlyVector.refl s) rfl fun e he _ => vElem_ofElems (.inl rfl) _ he

end Sys2Proof.Machine
end

section
/-! Scratchpad loads and stores (spec 07_core_memory.md R203 to R205, R210; 04_numbers.md R129, R130): what a load extends, which bytes a store leaves, the
lanes of the vector forms, and where each form traps. -/

namespace Sys2Proof.Machine

/-! ### What a load delivers (R203) -/

/-- A signed load extends the sign of its `n` bytes. -/
theorem extendLoad_signed {n : Nat} (hn : 0 < n) (v : Nat) : extendLoad true n v = (BitVec.ofNat (8 * n) v).signExtend 64 := by
  have hhalf : 2 ^ (8 * n) = 2 * 2 ^ (8 * n - 1) := by rw [← Nat.pow_succ', show (8 * n - 1).succ = 8 * n by omega]
  rw [extendLoad, if_pos rfl, BitVec.signExtend, BitVec.toInt, BitVec.toNat_ofNat, sval]
  exact congrArg _ (if_congr (by omega) rfl rfl)

theorem extendLoad_unsigned (n v : Nat) : extendLoad false n v = (BitVec.ofNat (8 * n) v).zeroExtend 64 :=
  BitVec.eq_of_toNat_eq (by simp [extendLoad])

/-! ### Bytes of a value (R4) -/

theorem leBytes_getElem? (n v i : Nat) : (leBytes n v)[i]? = if i < n then some (BitVec.ofNat 8 (v / 2 ^ (8 * i))) else none := by
  induction n generalizing v i with
  | zero => rfl
  | succ n ih =>
    cases i with
    | zero => simp [leBytes]
    | succ i =>
      have hbyte : v / 256 / 2 ^ (8 * i) = v / 2 ^ (8 * (i + 1)) := by
        rw [Nat.div_div_eq_div_mul, Nat.mul_succ, Nat.pow_add, Nat.mul_comm]
      simp only [leBytes, List.getElem?_cons_succ, ih, hbyte, Nat.add_lt_add_iff_right]

/-! ### Scratchpad bytes after a write -/

theorem tget?_foldl_bytes (bs : List Byte) (t : Tab Byte) (a k : Nat) :
    tget? (bs.foldl (fun t b => (tset t.1 t.2 b, t.2 + 1)) (t, a)).1 k = if a ≤ k ∧ k < a + bs.length then bs[k - a]? else tget? t k := by
  induction bs generalizing t a with
  | nil => rw [if_neg (by simp)]; rfl
  | cons b bs ih =>
    rw [List.foldl_cons, ih, List.length_cons]
    by_cases hk : k = a
    · subst hk
      rw [if_neg (by omega), if_pos (by omega), Nat.sub_self]
      exact tget?_tset_same t k b
    · rw [tget?_tset_ne t b hk]
      by_cases hin : a + 1 ≤ k ∧ k < a + 1 + bs.length
      · rw [if_pos hin, if_pos (by omega), show k - a = k - (a + 1) + 1 by omega]
        rfl
      · rw [if_neg hin, if_neg (by omega)]

/-- A byte that cells write, all that name it with one value. -/
theorem tget?_foldl_cells {cs : List Host.Cell} {t : Tab Byte} {y : Nat} {b : Byte} (hval : ∀ c ∈ cs, c.1 = y → c.2 = b)
    (h : (∃ c ∈ cs, c.1 = y) ∨ tget? t y = some b) : tget? (cs.foldl (fun t c => tset t c.1 c.2) t) y = some b := by
  induction cs generalizing t with
  | nil => simpa using h
  | cons c cs ih =>
    obtain ⟨hc, hcs⟩ := List.forall_mem_cons.mp hval
    refine ih hcs ?_
    by_cases hy : c.1 = y
    · subst hy
      exact .inr ((tget?_tset_same t _ _).trans (congrArg some (hc rfl)))
    · refine (h.imp_right (tget?_tset_ne t c.2 (Ne.symm hy)).trans).imp_left fun ⟨d, hd, hdy⟩ => ⟨d, (List.mem_cons.mp hd).resolve_left ?_, hdy⟩
      rintro rfl
      exact hy hdy

theorem tget?_foldl_cells_other {cs : List Host.Cell} (t : Tab Byte) {y : Nat} (h : ∀ c ∈ cs, c.1 ≠ y) :
    tget? (cs.foldl (fun t c => tset t c.1 c.2) t) y = tget? t y := by
  induction cs generalizing t with
  | nil => rfl
  | cons c cs ih =>
    obtain ⟨hc, hcs⟩ := List.forall_mem_cons.mp h
    rw [List.foldl_cons, ih _ hcs, tget?_tset_ne t c.2 (Ne.symm hc)]

namespace State

theorem spadByte_spadPut (s : State) (a : Nat) (bs : List Byte) (k : Nat) :
    (s.spadPut a bs).spadByte k = if a ≤ k ∧ k < a + bs.length then bs.getD (k - a) 0 else s.spadByte k := by
  rw [spadByte, spadPut, modCore_core, tget?_foldl_bytes]
  split
  · next h =>
    have hlt : k - a < bs.length := by omega
    rw [List.getElem?_eq_getElem hlt, List.getD_eq_getElem _ _ hlt]
    rfl
  · rfl

theorem spadByte_spadCells {s : State} {cs : List Host.Cell} {y : Nat} {b : Byte} (hval : ∀ c ∈ cs, c.1 = y → c.2 = b) (h : ∃ c ∈ cs, c.1 = y) :
    (s.spadCells cs).spadByte y = b := by
  rw [spadByte, spadCells, modCore_core, tget?_foldl_cells hval (.inl h)]
  rfl

theorem spadByte_spadCells_other {s : State} {cs : List Host.Cell} {y : Nat} (h : ∀ c ∈ cs, c.1 ≠ y) : (s.spadCells cs).spadByte y = s.spadByte y := by
  rw [spadByte, spadCells, modCore_core, tget?_foldl_cells_other _ h]
  rfl

end State

/-! ### LD and ST -/

section

variable {s : State} (d a : BitVec 6) {z : MSize} {o : BitVec 10} {va : Word} (hva : s.x a + o.signExtend 64 * BitVec.ofNat 64 (MSize.bytes z) = va)
include hva

theorem exec_ld_misaligned (halign : va.toNat % MSize.bytes z ≠ 0) : exec (.ld d a z o) s = .next (s.misalign va (MSize.bytes z)) := by
  subst hva
  exact congrArg Host.Outcome.next (if_pos halign)

theorem exec_st_misaligned (halign : va.toNat % MSize.bytes z ≠ 0) : exec (.st d a z o) s = .next (s.misalign va (MSize.bytes z)) := by
  subst hva
  exact congrArg Host.Outcome.next (if_pos halign)

variable (halign : va.toNat % MSize.bytes z = 0)
include halign

theorem exec_ld_outside (hrange : s.spadOk va.toNat (MSize.bytes z) = false) : exec (.ld d a z o) s = .next s.illegal := by
  subst hva
  exact congrArg Host.Outcome.next ((if_neg (not_not.mpr halign)).trans (if_pos (congrArg (!·) hrange)))

theorem exec_st_outside (hrange : s.spadOk va.toNat (MSize.bytes z) = false) : exec (.st d a z o) s = .next s.illegal := by
  subst hva
  exact congrArg Host.Outcome.next ((if_neg (not_not.mpr halign)).trans (if_pos (congrArg (!·) hrange)))

variable (hrange : s.spadOk va.toNat (MSize.bytes z) = true)
include hrange

theorem exec_ld_inRange : exec (.ld d a z o) s = .next ((s.readSlots [(va.toNat, va.toNat + MSize.bytes z)]).setX d
    (extendLoad (MSize.signed z) (MSize.bytes z) (s.spadNat va.toNat (MSize.bytes z))) 4) := by
  subst hva
  exact congrArg Host.Outcome.next ((if_neg (not_not.mpr halign)).trans (if_neg ((congrArg (!·) hrange).trans_ne Bool.false_ne_true)))

theorem exec_st_inRange : exec (.st d a z o) s = .next (s.spadPut va.toNat (leBytes (MSize.bytes z) (s.x d).toNat)) := by
  subst hva
  exact congrArg Host.Outcome.next ((if_neg (not_not.mpr halign)).trans (if_neg ((congrArg (!·) hrange).trans_ne Bool.false_ne_true)))

end

/-- Settles O15: LD by the size that it extends, ST by the bytes of the source that stand at the address. -/
theorem scratchpadScalar : Obligations.ScratchpadScalar := by
  unfold Obligations.ScratchpadScalar
  refine ⟨fun s d a z o => ⟨fun halign hrange => ?_, exec_ld_misaligned d a rfl, exec_ld_outside d a rfl⟩,
    fun s r a z o => ⟨fun halign hrange => ⟨_, exec_st_inRange r a rfl halign hrange, rfl, fun k => ?_⟩, fun halign => ?_, exec_st_outside r a rfl⟩⟩
  · rw [exec_ld_inRange d a rfl halign hrange]
    refine congrArg (fun w => Host.Outcome.next (State.setX _ d w 4)) ?_
    cases z
    case d => exact (extendLoad_unsigned 8 _).trans (BitVec.setWidth_eq _)
    case b => exact extendLoad_signed (by decide) _
    case h => exact extendLoad_signed (by decide) _
    case w => exact extendLoad_signed (by decide) _
    case bu => exact extendLoad_unsigned 1 _
    case hu => exact extendLoad_unsigned 2 _
    case wu => exact extendLoad_unsigned 4 _
  · rw [State.spadByte_spadPut, leBytes_length]
    split
    · next hk => rw [List.getD_eq_getElem?_getD, leBytes_getElem?, if_pos (by omega)]; rfl
    · rfl
  · rw [BitVec.ofNat_toNat, BitVec.setWidth_eq]
    exact exec_st_misaligned r a rfl halign

/-! ### Enabled lanes (R204, R205) -/

theorem mem_lanesOf {m : Pred} {i : Nat} : i ∈ lanesOf m ↔ i < 128 ∧ m.getLsbD i = true := mem_enabledLanes

theorem State.lanesOk_iff {s : State} {m : Pred} {addr : Nat → Nat} :
    s.lanesOk m addr = true ↔ ∀ i, i < 128 → m.getLsbD i = true → s.spadOk (addr i) 4 = true := by
  simp [State.lanesOk, mem_lanesOf]

/-- One step of the search for the lowest misaligned address. -/
def lowerMisaligned (addr : Nat → Nat) (b : Option Nat) (i : Nat) : Option Nat :=
  if addr i % 4 = 0 then b else some (b.elim (addr i) fun x => min x (addr i))

theorem foldl_lowerMisaligned_of_aligned {addr : Nat → Nat} {l : List Nat} (b : Option Nat) (h : ∀ i ∈ l, addr i % 4 = 0) :
    l.foldl (lowerMisaligned addr) b = b := by
  induction l with
  | nil => rfl
  | cons i l ih =>
    obtain ⟨hi, hl⟩ := List.forall_mem_cons.mp h
    rw [List.foldl_cons, lowerMisaligned, if_pos hi, ih hl]

theorem foldl_lowerMisaligned_of_least {addr : Nat → Nat} {x : Nat} {l : List Nat} {b : Option Nat} (hb : ∀ y, b = some y → x ≤ y)
    (hleast : ∀ k ∈ l, addr k % 4 ≠ 0 → x ≤ addr k) (h : b = some x ∨ ∃ i ∈ l, addr i % 4 ≠ 0 ∧ addr i = x) :
    l.foldl (lowerMisaligned addr) b = some x := by
  induction l generalizing b with
  | nil => simpa using h
  | cons k l ih =>
    obtain ⟨hk, hl⟩ := List.forall_mem_cons.mp hleast
    rw [List.foldl_cons]
    by_cases halign : addr k % 4 = 0
    · rw [lowerMisaligned, if_pos halign]
      refine ih hb hl (h.imp_right fun ⟨i, hi, hne, hx⟩ => ⟨i, (List.mem_cons.mp hi).resolve_left ?_, hne, hx⟩)
      rintro rfl
      exact hne halign
    · have hle := hk halign
      rw [lowerMisaligned, if_neg halign]
      cases b with
      | none =>
        refine ih (fun y hy => by cases hy; exact hle) hl ?_
        obtain ⟨i, hi, hne, hx⟩ := h.resolve_left (by simp)
        rcases List.mem_cons.mp hi with rfl | hi
        · exact .inl (congrArg some hx)
        · exact .inr ⟨i, hi, hne, hx⟩
      | some y =>
        have hy := hb y rfl
        refine ih (fun w hw => by cases hw; exact le_min hy hle) hl ?_
        rcases h with h | ⟨i, hi, hne, hx⟩
        · cases h
          exact .inl (congrArg some (min_eq_left hle))
        · rcases List.mem_cons.mp hi with rfl | hi
          · exact .inl (congrArg some ((congrArg (min y) hx).trans (min_eq_right hy)))
          · exact .inr ⟨i, hi, hne, hx⟩

theorem laneMisaligned_eq (m : Pred) (addr : Nat → Nat) : State.laneMisaligned m addr = (lanesOf m).foldl (lowerMisaligned addr) none := by
  rw [State.laneMisaligned]
  congr 1
  funext b i
  cases b <;> rfl

theorem laneMisaligned_of_aligned {m : Pred} {addr : Nat → Nat} (h : ∀ i, i < 128 → m.getLsbD i = true → addr i % 4 = 0) :
    State.laneMisaligned m addr = none :=
  (laneMisaligned_eq m addr).trans <| foldl_lowerMisaligned_of_aligned none fun i hi => h i (mem_lanesOf.mp hi).1 (mem_lanesOf.mp hi).2

/-- R204: the lowest misaligned enabled lane is the one that is named. -/
theorem laneMisaligned_of_least {m : Pred} {addr : Nat → Nat} {i : Nat} (hi : i < 128) (hon : m.getLsbD i = true) (hne : addr i % 4 ≠ 0)
    (hleast : ∀ k, k < 128 → m.getLsbD k = true → addr k % 4 ≠ 0 → addr i ≤ addr k) : State.laneMisaligned m addr = some (addr i) :=
  (laneMisaligned_eq m addr).trans <| foldl_lowerMisaligned_of_least (by simp)
    (fun k hk => hleast k (mem_lanesOf.mp hk).1 (mem_lanesOf.mp hk).2) (.inr ⟨i, mem_lanesOf.mpr ⟨hi, hon⟩, hne, rfl⟩)

namespace State

variable {s : State}

theorem leNat_spadBytes_lt (s : State) (a n : Nat) : leNat (s.spadBytes a n) < 2 ^ (8 * n) := by
  have h := leNat_lt (s.spadBytes a n)
  rwa [spadBytes_length] at h

/-- R204, R210: enabled lanes in range are loaded, and the write carries the mask. -/
theorem loadLanes_of_ok (d : BitVec 5) {m : Pred} {addr : Nat → Nat} (lat : Nat) (h : ∀ i, i < 128 → m.getLsbD i = true → s.spadOk (addr i) 4 = true) :
    ∃ val l, s.loadLanes d m addr lat = (s.readSlots l).setV d m val lat ∧
      ∀ i, i < 128 → m.getLsbD i = true → (lane val i).toNat = leNat (s.spadBytes (addr i) 4) := by
  refine ⟨_, _, if_neg (by rw [lanesOk_iff.mpr h]; decide), fun i hi hon => ?_⟩
  rw [lane_ofLanes _ hi, if_pos hon]
  exact Nat.mod_eq_of_lt (s.leNat_spadBytes_lt (addr i) 4)

theorem lanesOk_of_outside {m : Pred} {addr : Nat → Nat} (h : ∃ i, i < 128 ∧ m.getLsbD i = true ∧ s.spadOk (addr i) 4 = false) :
    s.lanesOk m addr = false := by
  obtain ⟨i, hi, hon, hout⟩ := h
  exact Bool.eq_false_iff.mpr fun hok => Bool.false_ne_true (hout.symm.trans (lanesOk_iff.mp hok i hi hon))

theorem loadLanes_of_outside (d : BitVec 5) {m : Pred} {addr : Nat → Nat} (lat : Nat)
    (h : ∃ i, i < 128 ∧ m.getLsbD i = true ∧ s.spadOk (addr i) 4 = false) : s.loadLanes d m addr lat = s.illegal :=
  if_pos (by rw [lanesOk_of_outside h]; rfl)

theorem storeLanes_of_outside {m : Pred} (val : VReg) {addr : Nat → Nat}
    (h : ∃ i, i < 128 ∧ m.getLsbD i = true ∧ s.spadOk (addr i) 4 = false) : s.storeLanes m val addr = s.illegal :=
  if_pos (by rw [lanesOk_of_outside h]; rfl)

/-! ### The addresses of the forms -/

theorem vmBase_of_misaligned {a : BitVec 6} {o : BitVec 8} (k : State → Nat → State) (h : (s.x a + o.signExtend 64 * 32).toNat % 32 ≠ 0) :
    s.vmBase a o k = s.misalign (s.x a + o.signExtend 64 * 32) 32 := if_pos h

theorem vmBase_of_aligned {a : BitVec 6} {o : BitVec 8} (k : State → Nat → State) (h : (s.x a + o.signExtend 64 * 32).toNat % 32 = 0) :
    s.vmBase a o k = k s (s.x a + o.signExtend 64 * 32).toNat := if_neg (not_not.mpr h)

/-- R204: the address of a lane of a strided form. -/
def stridedAddr (s : State) (a x : BitVec 6) (i : Nat) : Word := s.x a + BitVec.ofNat 64 i * s.x x

/-- R205: the address of a lane of an indexed form. -/
def indexedAddr (s : State) (va b : BitVec 5) (i : Nat) : Word := s.x (b.zeroExtend 6) + (lane (s.v va) i).zeroExtend 64

section

variable {m : Pred} {w : Nat → Word} (a x : BitVec 6) (va b : BitVec 5) {t : VTy} (k : State → (Nat → Nat) → State)

theorem vmStrided_of_aligned (h : ∀ i, i < 128 → m.getLsbD i = true → (s.stridedAddr a x i).toNat % 4 = 0) :
    s.vmStrided a x m k = k s fun i => (s.stridedAddr a x i).toNat := by
  have hnone : laneMisaligned m (fun i => (s.x a + BitVec.ofNat 64 i * s.x x).toNat) = none := laneMisaligned_of_aligned h
  simp only [vmStrided, hnone]
  rfl

theorem indexed_of_aligned (ht : t = .f32 ∨ t = .i32) (h : ∀ i, i < 128 → m.getLsbD i = true → (s.indexedAddr va b i).toNat % 4 = 0) :
    s.indexed va b t m k = k s fun i => (s.indexedAddr va b i).toNat := by
  have hnone : laneMisaligned m (fun i => (s.x (b.zeroExtend 6) + (lane (s.v va) i).zeroExtend 64).toNat) = none := laneMisaligned_of_aligned h
  rw [indexed, if_neg (by tauto)]
  simp only [hnone]
  rfl

variable {i : Nat} (hi : i < 128) (hon : m.getLsbD i = true)
include hi hon

theorem vmStrided_of_least (hne : (s.stridedAddr a x i).toNat % 4 ≠ 0)
    (hleast : ∀ k, k < 128 → m.getLsbD k = true → (s.stridedAddr a x k).toNat % 4 ≠ 0 → (s.stridedAddr a x i).toNat ≤ (s.stridedAddr a x k).toNat) :
    s.vmStrided a x m k = s.misalign (s.stridedAddr a x i) 4 := by
  have hsome : laneMisaligned m (fun i => (s.x a + BitVec.ofNat 64 i * s.x x).toNat) = some (s.stridedAddr a x i).toNat :=
    laneMisaligned_of_least hi hon hne hleast
  simp only [vmStrided, hsome, BitVec.ofNat_toNat, BitVec.setWidth_eq]

theorem indexed_of_least (ht : t = .f32 ∨ t = .i32) (hne : (s.indexedAddr va b i).toNat % 4 ≠ 0)
    (hleast : ∀ k, k < 128 → m.getLsbD k = true → (s.indexedAddr va b k).toNat % 4 ≠ 0 → (s.indexedAddr va b i).toNat ≤ (s.indexedAddr va b k).toNat) :
    s.indexed va b t m k = s.misalign (s.indexedAddr va b i) 4 := by
  have hsome : laneMisaligned m (fun i => (s.x (b.zeroExtend 6) + (lane (s.v va) i).zeroExtend 64).toNat) = some (s.indexedAddr va b i).toNat :=
    laneMisaligned_of_least hi hon hne hleast
  rw [indexed, if_neg (by tauto)]
  simp only [hsome, BitVec.ofNat_toNat, BitVec.setWidth_eq]

end

end State

/-! ### The loading forms -/

/-- A form that loads lanes, all of them in range. -/
theorem loads_of_ok {i : Instr} {s : State} {d : BitVec 5} {m : Pred} {addr : Nat → Nat} {lat : Nat} (hexec : exec i s = .next (s.loadLanes d m addr lat))
    (h : ∀ i, i < 128 → m.getLsbD i = true → s.spadOk (addr i) 4 = true) :
    ∃ val l, exec i s = .next ((s.readSlots l).setV d m val lat) ∧
      ∀ i, i < 128 → m.getLsbD i = true → (lane val i).toNat = leNat (s.spadBytes (addr i) 4) := by
  obtain ⟨val, l, hload, hval⟩ := State.loadLanes_of_ok d lat h
  exact ⟨val, l, hexec.trans (congrArg _ hload), hval⟩

/-- Settles O16: each form by its lane addresses; a trap by the base, by the lowest misaligned lane, or by a lane out of range. -/
theorem scratchpadLanes : Obligations.ScratchpadLanes := by
  unfold Obligations.ScratchpadLanes
  refine ⟨fun s d a x o va b t p => ⟨fun halign => ⟨?ldv, ?ldvB⟩, fun h => ?ldvS, fun ht h => ?gath⟩,
    fun s d a x o va b p => ⟨⟨fun h => ⟨?_, ?_, ?_⟩, fun halign hout => ⟨?_, ?_⟩⟩, fun i hi hon hne hleast => ⟨?_, ?_⟩,
      fun i hi hon hne hleast => ⟨?_, ?_⟩⟩⟩
  case ldv => exact loads_of_ok (congrArg Host.Outcome.next (State.vmBase_of_aligned _ halign))
  case ldvB => exact loads_of_ok (congrArg Host.Outcome.next (State.vmBase_of_aligned _ halign))
  case ldvS =>
    exact loads_of_ok (congrArg Host.Outcome.next (State.vmStrided_of_aligned a x _ fun i hi hon => (h i hi hon).1)) fun i hi hon => (h i hi hon).2
  case gath =>
    exact loads_of_ok (congrArg Host.Outcome.next (State.indexed_of_aligned va b _ ht fun i hi hon => (h i hi hon).1)) fun i hi hon => (h i hi hon).2
  · exact congrArg Host.Outcome.next (State.vmBase_of_misaligned _ h)
  · exact congrArg Host.Outcome.next (State.vmBase_of_misaligned _ h)
  · exact congrArg Host.Outcome.next (State.vmBase_of_misaligned _ h)
  · exact congrArg Host.Outcome.next ((State.vmBase_of_aligned _ halign).trans (State.loadLanes_of_outside d 6 hout))
  · exact congrArg Host.Outcome.next ((State.vmBase_of_aligned _ halign).trans (State.storeLanes_of_outside (s.v d) hout))
  · exact congrArg Host.Outcome.next (State.vmStrided_of_least a x _ hi hon hne hleast)
  · exact congrArg Host.Outcome.next (State.vmStrided_of_least a x _ hi hon hne hleast)
  · exact congrArg Host.Outcome.next (State.indexed_of_least va b _ hi hon (.inl rfl) hne hleast)
  · exact congrArg Host.Outcome.next (State.indexed_of_least va b _ hi hon (.inr rfl) hne hleast)

/-! ### The bound check without bounds (R127, R130) -/

theorem ofNat_byte (x i : Nat) : BitVec.ofNat 8 (x / 2 ^ (8 * i)) = BitVec.ofNat 8 (elemOf 8 x i) :=
  BitVec.eq_of_toNat_eq (by simp [elemOf])

/-- A byte that the mask keeps is the byte of the value. -/
theorem elemOf_and_maskBits {m : BitVec 4} {i : Nat} (x : Nat) (hi : i < 4) (hm : m.getLsbD i = true) : elemOf 8 (x &&& maskBits m) i = elemOf 8 x i := by
  have hmask : elemOf 8 (maskBits m) i = 2 ^ 8 - 1 := by
    rw [maskBits, elemOf_packElems 8 4 _ hi, if_pos hm]
    rfl
  rw [elemOf] at hmask
  rw [elemOf, elemOf, Nat.and_div_two_pow, Nat.and_mod_two_pow, hmask, Nat.and_two_pow_sub_one_eq_mod, Nat.mod_mod]

theorem SWord.cells_congr {w : SWord} {v : Nat} (h : ∀ i, i < 4 → w.mask.getLsbD i = true → elemOf 8 v i = elemOf 8 w.val i) :
    ({ w with val := v } : SWord).cells = w.cells := by
  refine List.filterMap_congr fun i hi => ?_
  dsimp only
  split
  · next hm => rw [ofNat_byte, ofNat_byte, h i (List.mem_range.mp hi) hm]
  · rfl

/-- A word with every byte enabled writes its four bytes. -/
theorem SWord.cells_full {w : SWord} (h : w.mask = 0xF) : w.cells = (List.range 4).map fun i => (w.addr + i, BitVec.ofNat 8 (w.val / 2 ^ (8 * i))) := by
  rw [cells, h]
  rfl

/-- An entry that bounds nothing takes a word for FP32, counts a NaN, and leaves the bytes that the word writes. -/
theorem SWord.check_unbounded (w : SWord) : ∃ w' st, w.check {} = (w', st, none) ∧ w'.cells = w.cells := by
  by_cases hm : w.mask.getLsbD 3 = true
  · refine ⟨{ w with val := putFld w.val 0 32 (elemOf 32 (w.val &&& maskBits w.mask) 0) }, _, if_pos hm, cells_congr fun i hi hmi => ?_⟩
    have hsplit : putFld w.val 0 32 (elemOf 32 (w.val &&& maskBits w.mask) 0) = (w.val &&& maskBits w.mask) % 2 ^ 32 + w.val / 2 ^ 32 * 2 ^ 32 := by
      simp [putFld, elemOf, Nat.mod_one]
    rw [hsplit, elemOf_add_mul_low _ _ (by omega), elemOf_mod _ (by omega), elemOf_and_maskBits _ hi hmi]
  · exact ⟨w, {}, if_neg hm, rfl⟩

theorem OnlyVector.trans {s t u : State} (h : OnlyVector s t) (g : OnlyVector t u) : OnlyVector s u := by
  unfold OnlyVector at *
  rw [g, h]

theorem foldl_countStat_only {α : Type} (id : α → Nat) (st : α → Stat) (l : List α) (s : State) :
    OnlyVector s (l.foldl (fun s r => s.countStat (id r) (st r)) s) ∧ (l.foldl (fun s r => s.countStat (id r) (st r)) s).core.flight = s.core.flight := by
  induction l generalizing s with
  | nil => exact ⟨OnlyVector.refl s, rfl⟩
  | cons r l ih =>
    obtain ⟨honly, hflight⟩ := ih (s.countStat (id r) (st r))
    exact ⟨(countStat_only s _ _).trans honly, hflight.trans (countStat_flight s _ _)⟩

/-- With no bound set, every store passes the check with the bytes that it came with. -/
theorem State.boundCheck_of_unbounded {s : State} (h : s.core.vec.bounds = []) (ws : List SWord) :
    ∃ t ws', s.boundCheck ws = (t, .ok ws') ∧ ws'.flatMap SWord.cells = ws.flatMap SWord.cells ∧ OnlyVector s t ∧ t.core.flight = s.core.flight := by
  choose f st hcheck hcells using SWord.check_unbounded
  have hrs : (ws.map fun w => (w.id, w.check (tget {} s.core.vec.bounds w.id))) = ws.map fun w => (w.id, f w, st w, none) := by
    refine List.map_congr_left fun w _ => ?_
    rw [h, ← hcheck]
    rfl
  have hbads : (ws.map fun w => (w.id, f w, st w, (none : Option Nat))).filterMap (fun r => r.2.2.2.map fun a => (a, r.1)) = [] := by
    simp
  obtain ⟨honly, hflight⟩ := foldl_countStat_only (fun r : Nat × SWord × Stat × Option Nat => r.1) (fun r => r.2.2.1)
    (ws.map fun w => (w.id, f w, st w, none)) s
  refine ⟨_, ws.map f, ?_, ?_, honly, hflight⟩
  · rw [State.boundCheck, hrs]
    simp only [hbads]
    simp
  · simp [List.flatMap_map, hcells]

/-! ### The storing forms -/

/-- Does no higher enabled lane write at the address of lane `i`? -/
def lastAt (m : Pred) (addr : Nat → Nat) (i : Nat) : Bool :=
  (List.range (127 - i)).all fun k => !(m.getLsbD (i + 1 + k) && addr (i + 1 + k) == addr i)

theorem lastAt_iff {m : Pred} {addr : Nat → Nat} {i : Nat} :
    lastAt m addr i = true ↔ ∀ k, i < k → k < 128 → m.getLsbD k = true → addr k ≠ addr i := by
  simp only [lastAt, List.all_eq_true, List.mem_range, Bool.not_eq_true', Bool.and_eq_false_iff, beq_eq_false_iff_ne]
  constructor
  · intro h k hik hk hon
    obtain ⟨j, rfl⟩ := Nat.exists_eq_add_of_lt hik
    have hj := h j (by omega)
    rw [show i + 1 + j = i + j + 1 by omega] at hj
    exact hj.resolve_left (by simp [hon])
  · intro h j hj
    by_cases hon : m.getLsbD (i + 1 + j) = true
    · exact .inr (h _ (by omega) (by omega) hon)
    · exact .inl (by simpa using hon)

/-- The bytes that a storing form writes: of two lanes at one address the higher. -/
def laneCells (m : Pred) (val : VReg) (addr : Nat → Nat) : List Host.Cell :=
  ((lanesOf m).filter (lastAt m addr)).flatMap fun i => (List.range 4).map fun j => (addr i + j, BitVec.ofNat 8 ((lane val i).toNat / 2 ^ (8 * j)))

theorem mem_laneCells {m : Pred} {val : VReg} {addr : Nat → Nat} {c : Host.Cell} : c ∈ laneCells m val addr ↔
    ∃ i, (i < 128 ∧ m.getLsbD i = true ∧ lastAt m addr i = true) ∧ ∃ j, j < 4 ∧ (addr i + j, BitVec.ofNat 8 ((lane val i).toNat / 2 ^ (8 * j))) = c := by
  simp [laneCells, mem_lanesOf, and_assoc]

/-- Aligned lanes: the last lane at an address is the only one that writes its bytes. -/
theorem laneCells_value {m : Pred} {val : VReg} {addr : Nat → Nat} {k j : Nat} (halign : ∀ i, i < 128 → m.getLsbD i = true → addr i % 4 = 0) (hk : k < 128)
    (hon : m.getLsbD k = true) (hlast : lastAt m addr k = true) (hj : j < 4) {c : Host.Cell} (hc : c ∈ laneCells m val addr) (hy : c.1 = addr k + j) :
    c.2 = BitVec.ofNat 8 ((lane val k).toNat / 2 ^ (8 * j)) := by
  obtain ⟨i, ⟨hi, hion, hilast⟩, l, hl, rfl⟩ := mem_laneCells.mp hc
  dsimp only at hy ⊢
  have hai := halign i hi hion
  have hak := halign k hk hon
  obtain rfl : l = j := by omega
  have hsame : addr i = addr k := by omega
  obtain rfl : i = k := by
    rcases Nat.lt_trichotomy i k with h | h | h
    · exact absurd hsame.symm (lastAt_iff.mp hilast k h hk hon)
    · exact h
    · exact absurd hsame (lastAt_iff.mp hlast i h hi hion)
  rfl

theorem State.storeLanes_of_unbounded {s : State} {m : Pred} {addr : Nat → Nat} (val : VReg) (hbounds : s.core.vec.bounds = [])
    (h : ∀ i, i < 128 → m.getLsbD i = true → s.spadOk (addr i) 4 = true) :
    ∃ t, s.storeLanes m val addr = t.spadCells (laneCells m val addr) ∧ OnlyVector s t ∧ t.core.flight = s.core.flight := by
  obtain ⟨t, ws', hcheck, hcells, honly, hflight⟩ := State.boundCheck_of_unbounded hbounds (((lanesOf m).filter (lastAt m addr)).map fun i =>
    ({ addr := addr i, val := (lane val i).toNat, id := (tget {} s.core.copy.tags (addr i / 2048)).tid } : SWord))
  refine ⟨t, ?_, honly, hflight⟩
  have hlanes : laneCells m val addr = ws'.flatMap SWord.cells := by
    rw [hcells, List.flatMap_map]
    exact List.flatMap_congr fun i _ => by rw [SWord.cells_full rfl]
  rw [State.storeLanes, if_neg (by rw [lanesOk_iff.mpr h]; decide), hlanes]
  dsimp only
  split
  · next hq => cases hq.symm.trans hcheck
  · next hq => cases hq.symm.trans hcheck; rfl

/-- A byte of scratchpad does not depend on what the vector unit counts. -/
theorem OnlyVector.spadByte {s t : State} (h : OnlyVector s t) (y : Nat) : t.spadByte y = s.spadByte y := by
  rw [h]
  rfl

/-- What a storing form leaves, all enabled lanes aligned and in range. -/
theorem completes_storeLanes {i : Instr} {s : State} {m : Pred} {val : VReg} {addr : Nat → Nat} (hexec : exec i s = .next (s.storeLanes m val addr))
    (hbounds : s.core.vec.bounds = []) (h : ∀ k, k < 128 → m.getLsbD k = true → addr k % 4 = 0 ∧ s.spadOk (addr k) 4 = true) :
    Completes i s fun u =>
      (∀ k, k < 128 → m.getLsbD k = true → (∀ l, k < l → l < 128 → m.getLsbD l = true → addr l ≠ addr k) →
        ∀ j, j < 4 → u.spadByte (addr k + j) = BitVec.ofNat 8 ((lane val k).toNat / 2 ^ (8 * j))) ∧
      (∀ y, (∀ k, k < 128 → m.getLsbD k = true → y < addr k ∨ addr k + 4 ≤ y) → u.spadByte y = s.spadByte y) ∧
      u.core.regs = s.core.regs ∧ u.core.flight = s.core.flight ∧ u.core.copy = s.core.copy ∧ u.mem = s.mem ∧ u.core.mx = s.core.mx := by
  obtain ⟨t, hstore, honly, hflight⟩ := State.storeLanes_of_unbounded val hbounds fun k hk hon => (h k hk hon).2
  refine ⟨_, hexec.trans (congrArg _ hstore), fun k hk hon hlast j hj => ?_, fun y hy => ?_, honly.regs, hflight,
    congrArg (·.core.copy) honly, honly.mem, congrArg (·.core.mx) honly⟩
  · have hlast := lastAt_iff.mpr hlast
    exact State.spadByte_spadCells (fun c hc hcy => laneCells_value (fun i hi hion => (h i hi hion).1) hk hon hlast hj hc hcy)
      ⟨_, mem_laneCells.mpr ⟨k, ⟨hk, hon, hlast⟩, j, hj, rfl⟩, rfl⟩
  · refine (State.spadByte_spadCells_other fun c hc hcy => ?_).trans (honly.spadByte y)
    obtain ⟨k, ⟨hk, hon, -⟩, j, hj, rfl⟩ := mem_laneCells.mp hc
    have hout := hy k hk hon
    dsimp only at hcy
    omega

/-- Settles O17: each form stores the lanes at its addresses. -/
theorem scratchpadLaneStores : Obligations.ScratchpadLaneStores := by
  unfold Obligations.ScratchpadLaneStores
  rintro s v a x o va b t p hbounds i addr (⟨rfl, halign, rfl⟩ | ⟨rfl, rfl⟩ | ⟨rfl, ht, rfl⟩) h
  · exact completes_storeLanes (congrArg Host.Outcome.next (State.vmBase_of_aligned _ halign)) hbounds h
  · exact completes_storeLanes (congrArg Host.Outcome.next (State.vmStrided_of_aligned a x _ fun k hk hon => (h k hk hon).1)) hbounds h
  · exact completes_storeLanes (congrArg Host.Outcome.next (State.indexed_of_aligned va b _ ht fun k hk hon => (h k hk hon).1)) hbounds h

end Sys2Proof.Machine
end

section
/-! Global loads (spec 07_core_memory.md R206, R208 to R210; 14_fabric.md R362): the tests at issue, what a hit and a miss deliver, and when a load of another
device parks the task. -/

namespace Sys2Proof.Machine

namespace State

/-! ### Reads at memory keep the core in focus (R293) -/

section

variable {α : Type} {π : State → α} (hdie : ∀ (s : State) (d : Nat) (f : Die → Die), π (s.modDie d f) = π s)
  (hread : ∀ (s : State) (pa : Nat) (w : Bool), π (s.readBlock pa w).1 = π s)
include hdie hread

theorem readCritical_keeps (s : State) (d pa l : Nat) (a : Option Pte) : π (s.readCritical d pa l a).1 = π s := by
  have honce : ∀ (s : State) (pa l : Nat), π (s.readPteOnce pa l).1 = π s := fun s pa _ => hread s pa true
  have hparity : ∀ (s : State) (d : Nat), π (s.countParity d) = π s := fun s d => hdie s d _
  unfold State.readCritical
  dsimp only
  repeat' split
  all_goals simp only [honce, hparity]

theorem readPte_keeps (s : State) (d pa l : Nat) : π (s.readPte d pa l).1 = π s := by
  have honce : ∀ (s : State) (pa l : Nat), π (s.readPteOnce pa l).1 = π s := fun s pa _ => hread s pa true
  have hparity : ∀ (s : State) (d : Nat), π (s.countParity d) = π s := fun s d => hdie s d _
  unfold State.readPte
  dsimp only
  repeat' split
  all_goals simp only [honce, hparity, readCritical_keeps hdie hread]

theorem walkEntry_keeps (s : State) (d c pa l off : Nat) : π (s.walkEntry d c pa l off).1 = π s := by
  have hpte := readPte_keeps hdie hread
  unfold State.walkEntry
  dsimp only
  split
  · split
    · rfl
    · split
      · next hq => exact (hdie _ _ _).trans ((congrArg (fun r => π r.1) hq).symm.trans ((hpte _ _ _ _).trans ((hdie _ _ _).trans (hdie _ _ _))))
      · exact (hpte _ _ _ _).trans ((hdie _ _ _).trans (hdie _ _ _))
  · split
    · next hq => exact (hdie _ _ _).trans ((congrArg (fun r => π r.1) hq).symm.trans (hpte _ _ _ _))
    · exact hpte _ _ _ _

theorem walkTable_keeps (s : State) (d c off : Nat) : π (s.walkTable d c off).1 = π s := by
  have hentry : ∀ {s t : State} {c pa l r}, s.walkEntry d c pa l off = (t, r) → π t = π s := fun h =>
    (congrArg (fun r => π r.1) h).symm.trans (walkEntry_keeps hdie hread _ _ _ _ _ _)
  have hpte : ∀ {s t : State} {pa l r}, s.readPte d pa l = (t, r) → π t = π s := fun h =>
    (congrArg (fun r => π r.1) h).symm.trans (readPte_keeps hdie hread _ _ _ _)
  unfold State.walkTable
  dsimp only
  split
  · rfl
  · split
    · next h2 => exact hentry h2
    · next h2 => exact hentry h2
    · next h2 =>
      split
      · exact hentry h2
      · split
        · next h1 => exact (hentry h1).trans (hentry h2)
        · next h1 => exact (hentry h1).trans (hentry h2)
        · next h1 =>
          have h12 := (hentry h1).trans (hentry h2)
          split
          · exact h12
          · split
            · split <;> exact h12
            · split
              · next h0 => exact (hpte h0).trans h12
              · next h0 => exact (hpte h0).trans h12
              · next h0 =>
                split
                · exact (hpte h0).trans h12
                · split <;> exact (hpte h0).trans h12

theorem walkMiss_keeps (s : State) (d c off : Nat) : π (s.walkMiss d c off).1 = π s := by
  unfold State.walkMiss
  dsimp only
  split
  · exact (hdie _ _ _).trans (walkTable_keeps hdie hread s d c off)
  · exact walkTable_keeps hdie hread s d c off

/-- A walk keeps whatever reads of a block and changes of a die keep. -/
theorem walk_keeps (s : State) (d ia : Nat) : π (s.walk d ia).1 = π s := by
  unfold State.walk
  dsimp only
  split
  · rfl
  · split
    · split
      · rfl
      · exact (walkMiss_keeps hdie hread _ _ _ _).trans ((hdie _ _ _).trans (hdie _ _ _))
    · exact walkMiss_keeps hdie hread _ _ _ _

end

theorem trigger_coreId (s : State) (n : Nat) : (s.trigger n).coreId = s.coreId := by
  unfold State.trigger
  dsimp only
  split_ifs <;> rfl

theorem corrected_coreId (s : State) (n : Nat) : (s.corrected n).coreId = s.coreId := by
  unfold State.corrected
  dsimp only
  split
  · exact trigger_coreId _ n
  · rfl

theorem readBlock_coreId (s : State) (pa : Nat) (w : Bool) : (s.readBlock pa w).1.coreId = s.coreId := by
  unfold State.readBlock
  dsimp only
  split
  · split
    · exact corrected_coreId _ _
    all_goals rfl
  · rfl

theorem walk_coreId (s : State) (d ia : Nat) : (s.walk d ia).1.coreId = s.coreId := walk_keeps (fun _ _ _ => rfl) readBlock_coreId s d ia

/-- A walk changes neither the core, nor memory, nor which core is in focus. -/
theorem walk_frame {s u : State} {d ia : Nat} {w : Walk} (h : s.walk d ia = (u, w)) : u.core = s.core ∧ u.mem = s.mem ∧ u.coreId = s.coreId :=
  ⟨(congrArg (fun r => r.1.core) h).symm.trans (walk_core s d ia), (congrArg (fun r => r.1.mem) h).symm.trans (walk_mem s d ia),
    (congrArg (fun r => r.1.coreId) h).symm.trans (walk_coreId s d ia)⟩

theorem touch_coreId (s : State) (ia pa : Nat) : (s.touch ia pa).1.coreId = s.coreId := by
  unfold State.touch
  dsimp only
  repeat' split
  all_goals exact readBlock_coreId s pa false

theorem touchRange_coreId (s : State) (ia pa n : Nat) : (s.touchRange ia pa n).1.coreId = s.coreId := by
  induction n with
  | zero => exact touch_coreId s ia pa
  | succ n ih => exact (touch_coreId _ _ _).trans ih

theorem homeRead_coreId (s : State) (ia pa n : Nat) : (s.homeRead ia pa n).1.coreId = s.coreId := touchRange_coreId s ia pa _

/-! ### The tests at issue -/

section

variable {s : State} {va : Word} {n : Nat} {p : Perm} {c : Access} (k : State → Access → State)

theorem lsAccess_noWindow (h : (s.ctx s.bound.ctx).translate? va.toNat p = none) : s.lsAccess va n p k = s.noWindow va := by
  simp only [lsAccess, h]

theorem lsAccess_misaligned (hc : (s.ctx s.bound.ctx).translate? va.toNat p = some c) (halign : va.toNat % n ≠ 0) :
    s.lsAccess va n p k = s.misalign va n := by
  simp only [lsAccess, hc, if_pos halign]

theorem lsAccess_ok (hc : (s.ctx s.bound.ctx).translate? va.toNat p = some c) (halign : va.toNat % n = 0) : s.lsAccess va n p k = k s c := by
  simp only [lsAccess, hc, if_neg (not_not.mpr halign)]

end

section

variable {s u : State} {ia : Nat} (k : State → Nat → Bool → State)

theorem withPage_absent (h : s.walk s.myDie ia = (u, .absent)) : s.withPage ia k = u.abort ia := by
  rw [withPage, h]
  rfl

theorem withPage_page {pa : Nat} {m : Bool} (h : s.walk s.myDie ia = (u, .page pa m)) : s.withPage ia k = k u pa m := by
  rw [withPage, h]

end

/-- R362: a session that is up, with the incarnation that the window names, lets the access go. -/
theorem remoteGate_of_up {s : State} {ia : Nat} {inc : BitVec 16} (k : State → State) (hup : (s.peer (s.holderOf ia)).state = .up)
    (hinc : (s.peer (s.holderOf ia)).inc = inc) : s.remoteGate ia inc k = k s := by
  simp only [remoteGate, hup, if_pos hinc]

/-- Without a bad load, a copy job and a held cause, nothing comes before the task leaves (R90, R220, R222). -/
theorem beforeLeaving_of_clear {s : State} (k : State → State) (hmisses : s.core.misses = []) (hjobs : s.core.copy.jobs = [])
    (herr : s.core.copy.err = []) : s.beforeLeaving k = k s := by
  simp [beforeLeaving, badMiss?, hmisses, hjobs, herr]

section

variable {s : State} (l : RemoteLoad) (near : (State → State) → State → State)

theorem remoteLoad_in_loop (h : s.core.front.loops ≠ []) : s.remoteLoad l near = s.illegal :=
  if_pos (by simpa using h)

variable (hloops : s.core.front.loops = [])
include hloops

theorem remoteLoad_masked (h : s.core.regs.z.stat.tm = true) : s.remoteLoad l near = s.suspendMasked :=
  (if_neg (by simp [hloops])).trans (if_pos h)

/-- R85: a load of one part of another device parks the task at the end of its bundle. -/
theorem remoteLoad_parks {l : RemoteLoad} (hrest : l.rest = []) (htm : s.core.regs.z.stat.tm = false) (hmisses : s.core.misses = [])
    (hjobs : s.core.copy.jobs = []) (herr : s.core.copy.err = []) (hup : (s.peer (s.holderOf l.ia)).state = .up)
    (hinc : (s.peer (s.holderOf l.ia)).inc = l.inc) :
    s.remoteLoad l id = s.modRun fun r => { r with after := some (.remote { l with tick := s.time }) } := by
  refine (if_neg (by simp [hloops])).trans ((if_neg (by simp [htm])).trans ?_)
  dsimp only
  rw [hrest, List.foldr_cons, List.foldr_nil, remoteGate_of_up _ hup hinc, beforeLeaving_of_clear _ hmisses hjobs herr]
  simp [badMiss?, hmisses]

end

/-! ### Delivery (R206, R208) -/

theorem deliverX_hit (s : State) (d : BitVec 6) (val : Word) (ia : Nat) (bad : Bool) (lat : Nat) : s.deliverX d val ia false bad lat = s.setX d val lat := by
  by_cases hd : d = 0
  · rw [deliverX, setX, if_pos hd, if_pos ⟨hd, rfl⟩]
  · rw [deliverX, if_neg fun h => hd h.1, if_neg Bool.false_ne_true]

theorem deliverX_late (s : State) {d : BitVec 6} (hd : d ≠ 0) (val : Word) (ia : Nat) (bad : Bool) (lat : Nat) :
    s.deliverX d val ia true bad lat = s.addMiss { ia := ia, vec := false, reg := d.toNat, w := .x d.toNat val, bad := bad } :=
  (if_neg fun h => hd h.1).trans (if_pos rfl)

end State

/-- A result in flight, unless it names x0 (R67). -/
theorem setX_flight_ite (s : State) (d : BitVec 6) (val : Word) (lat : Nat) :
    (s.setX d val lat).core.flight = s.core.flight ++ (if d = 0 then [] else [⟨lat, .x d.toNat val⟩]) := by
  by_cases hd : d = 0
  · simp [State.setX, hd]
  · rw [setX_flight s d val lat hd, if_neg hd]

/-! ### LDG (R206) -/

section

variable {s : State} (d a : BitVec 6) {z : MSize} {o : BitVec 9} {va : Word} (hva : s.x a + o.signExtend 64 * BitVec.ofNat 64 (MSize.bytes z) = va)
include hva

theorem exec_ldg_noWindow (h : (s.ctx s.bound.ctx).translate? va.toNat .rd = none) : exec (.ldg d a z o) s = .next (s.noWindow va) := by
  subst hva
  exact congrArg Host.Outcome.next (State.lsAccess_noWindow _ h)

variable {c : Access} (hc : (s.ctx s.bound.ctx).translate? va.toNat .rd = some c)
include hc

theorem exec_ldg_misaligned (halign : va.toNat % MSize.bytes z ≠ 0) : exec (.ldg d a z o) s = .next (s.misalign va (MSize.bytes z)) := by
  subst hva
  exact congrArg Host.Outcome.next (State.lsAccess_misaligned _ hc halign)

variable (halign : va.toNat % MSize.bytes z = 0)
include halign

theorem exec_ldg_remote (hremote : s.isRemote c.ia = true) : exec (.ldg d a z o) s =
    .next (s.remoteLoad { ia := c.ia, inc := c.inc, size := MSize.bytes z, vec := false, reg := d.toNat, signed := MSize.signed z
                          bundle := BitVec.ofNat 64 s.bundleAddr } id) := by
  subst hva
  exact congrArg Host.Outcome.next ((State.lsAccess_ok _ hc halign).trans (if_pos hremote))

variable (hlocal : s.isRemote c.ia = false) {u : State}
include hlocal

theorem exec_ldg_absent (hwalk : s.walk s.myDie c.ia = (u, .absent)) : exec (.ldg d a z o) s = .next (u.abort c.ia) := by
  subst hva
  exact congrArg Host.Outcome.next ((State.lsAccess_ok _ hc halign).trans ((if_neg (by simp [hlocal])).trans (State.withPage_absent _ hwalk)))

/-- A load of this device whose page is there delivers what the view answers, or names its loss. -/
theorem exec_ldg_read {pa : Nat} {m : Bool} {v : State} {g : ViewGot} (hwalk : s.walk s.myDie c.ia = (u, .page pa m))
    (hread : u.viewRead c.ia pa (MSize.bytes z) = (v, g)) : exec (.ldg d a z o) s =
      .next (if g.lost && !g.missed then v.uncorrectable c.ia pa
        else v.deliverX d (extendLoad (MSize.signed z) (MSize.bytes z) (leNat g.data)) c.ia (m || g.missed) g.lost 24) := by
  subst hva
  refine congrArg Host.Outcome.next ((State.lsAccess_ok _ hc halign).trans ((if_neg (by simp [hlocal])).trans ((State.withPage_page _ hwalk).trans ?_)))
  dsimp only
  rw [hread]

end

/-! ### LDC (R209) -/

section

variable {s : State} {ia pa : Nat}

theorem constLine_hit {l : BcastLine}
    (h : (s.cluster (clusterOf s.coreId)).bcast.find? (fun l => l.launch == s.bound.launch && l.ia == ia / 64 * 64) = some l) :
    s.constLine ia pa = (s, true, if s.homeLost ia pa then none else some l.data) := by
  simp only [State.constLine, h]

/-- A line that is not there is read at home and kept. -/
def State.withConstLine (v : State) (ia : Nat) (bs : List Byte) : State :=
  v.modCluster (clusterOf v.coreId) fun x => { x with bcast := { launch := v.bound.launch, ia := ia / 64 * 64, data := bs } :: x.bcast }

theorem State.withConstLine_bcast (v : State) (ia : Nat) (bs : List Byte) : ((v.withConstLine ia bs).cluster (clusterOf v.coreId)).bcast =
    { launch := v.bound.launch, ia := ia / 64 * 64, data := bs } :: (v.cluster (clusterOf v.coreId)).bcast :=
  congrArg Cluster.bcast (tget_tmod_same (α := Cluster) {} v.clusters (clusterOf v.coreId) fun x =>
    { x with bcast := { launch := v.bound.launch, ia := ia / 64 * 64, data := bs } :: x.bcast })

theorem constLine_miss {v : State} {bs : List Byte}
    (h : (s.cluster (clusterOf s.coreId)).bcast.find? (fun l => l.launch == s.bound.launch && l.ia == ia / 64 * 64) = none)
    (hread : s.homeRead (ia / 64 * 64) (pa / 64 * 64) 64 = (v, some bs)) : s.constLine ia pa = (v.withConstLine ia bs, false, some bs) := by
  have hid : v.coreId = s.coreId := (congrArg (fun r => r.1.coreId) hread).symm.trans (State.homeRead_coreId s _ _ _)
  simp only [State.constLine, h, hread, State.withConstLine, hid]

end

section

variable {s : State} (d a : BitVec 6) {z : MSize} {o : BitVec 10} {va : Word} (hva : s.x a + o.signExtend 64 * BitVec.ofNat 64 (MSize.bytes z) = va)
include hva

theorem exec_ldc_noWindow (h : (s.ctx s.bound.ctx).translate? va.toNat .rd = none) : exec (.ldc d a z o) s = .next (s.noWindow va) := by
  subst hva
  change execLdc d a z o s = _
  simp only [execLdc, smAddr, h]

variable {c : Access} (hc : (s.ctx s.bound.ctx).translate? va.toNat .rd = some c)
include hc

theorem exec_ldc_not_constant (h : s.constWin c.win = false) : exec (.ldc d a z o) s = .next (s.noWindow va) := by
  subst hva
  change execLdc d a z o s = _
  simp only [execLdc, smAddr, hc, h, Bool.not_false, if_true]

variable (hconst : s.constWin c.win = true)
include hconst

theorem exec_ldc_misaligned (halign : va.toNat % MSize.bytes z ≠ 0) : exec (.ldc d a z o) s = .next (s.misalign va (MSize.bytes z)) := by
  subst hva
  change execLdc d a z o s = _
  simp only [execLdc, smAddr, hc, hconst, Bool.not_true, Bool.false_eq_true, if_false]
  exact congrArg Host.Outcome.next (if_pos halign)

variable (halign : va.toNat % MSize.bytes z = 0)
include halign

theorem exec_ldc_remote (hremote : s.isRemote c.ia = true) : exec (.ldc d a z o) s = .next s.illegal := by
  subst hva
  change execLdc d a z o s = _
  simp only [execLdc, smAddr, hc, hconst, if_neg (not_not.mpr halign), hremote]
  rfl

variable (hlocal : s.isRemote c.ia = false) {u : State}
include hlocal

theorem exec_ldc_absent (hwalk : s.walk s.myDie c.ia = (u, .absent)) : exec (.ldc d a z o) s = .next (u.abort c.ia) := by
  subst hva
  change execLdc d a z o s = _
  simp only [execLdc, smAddr, hc, hconst, if_neg (not_not.mpr halign), hlocal, State.withPage_absent _ hwalk]
  rfl

variable {pa : Nat} {m : Bool} (hwalk : s.walk s.myDie c.ia = (u, .page pa m)) {v : State} {hit : Bool}
include hwalk

/-- A load of this device delivers from the line that is at hand. -/
theorem exec_ldc_line {bs : List Byte} (hline : u.constLine c.ia pa = (v, hit, some bs)) : exec (.ldc d a z o) s =
    .next (v.deliverX d (extendLoad (MSize.signed z) (MSize.bytes z) (at' bs (c.ia % 64) (MSize.bytes z))) c.ia (m || !hit) false 12) := by
  subst hva
  change execLdc d a z o s = _
  simp only [execLdc, smAddr, hc, hconst, if_neg (not_not.mpr halign), hlocal, State.withPage_page _ hwalk, hline]
  rfl

theorem exec_ldc_lost (hline : u.constLine c.ia pa = (v, hit, none)) : exec (.ldc d a z o) s =
    .next (if hit && !m then v.uncorrectable c.ia pa else v.deliverX d 0 c.ia true true 12) := by
  subst hva
  change execLdc d a z o s = _
  simp only [execLdc, smAddr, hc, hconst, if_neg (not_not.mpr halign), hlocal, State.withPage_page _ hwalk, hline]
  rfl

end

/-- Settles O18: LDG and LDC by the first test that fails, then by what the view or the constant line answers. -/
theorem globalLoads : Obligations.GlobalLoads := by
  unfold Obligations.GlobalLoads
  intro s d a z o c10
  refine ⟨⟨exec_ldg_noWindow d a rfl, fun c hc => ⟨exec_ldg_misaligned d a rfl hc, fun halign hlocal =>
      ⟨fun u hwalk => exec_ldg_absent d a rfl hc halign hlocal hwalk, fun u pa m v g hwalk hread => ?ldg⟩, fun halign hremote => ?remote⟩⟩,
    ⟨exec_ldc_noWindow d a rfl, fun c hc => ⟨exec_ldc_not_constant d a rfl hc, exec_ldc_misaligned d a rfl hc, exec_ldc_remote d a rfl hc,
      fun hconst halign hlocal => ⟨fun u hwalk => exec_ldc_absent d a rfl hc hconst halign hlocal hwalk,
        fun u pa m hwalk => ⟨fun l hl => ?hit, fun v bs hnone hd hread => ?miss⟩⟩⟩⟩⟩
  case ldg =>
    have hexec := exec_ldg_read d a rfl hc halign hlocal hwalk hread
    refine ⟨fun hm hmissed hlost => ?_, fun hd hlate hgood => ?_, fun hlost hmissed => ?_⟩
    · simp only [hm, hmissed, hlost, Bool.false_and, Bool.or_self, Bool.false_eq_true, if_false, State.deliverX_hit] at hexec
      exact ⟨_, hexec, rfl, setX_flight_ite v d _ 24⟩
    · have hnot : ¬(g.lost && !g.missed) = true := by rcases hgood with h | h <;> simp [h]
      have hlate' : (m || g.missed) = true := by simpa using hlate
      rw [if_neg hnot, hlate', State.deliverX_late v hd] at hexec
      exact ⟨_, hexec, rfl, rfl, rfl, rfl⟩
    · rw [hexec, hlost, hmissed]
      rfl
  case remote =>
    have hexec := exec_ldg_remote d a rfl hc halign hremote
    refine ⟨fun hloops => hexec.trans (congrArg _ (State.remoteLoad_in_loop _ _ hloops)),
      fun hloops htm => hexec.trans (congrArg _ (State.remoteLoad_masked _ _ hloops htm)), fun hloops htm hmisses hjobs herr hup hinc =>
        ⟨_, hexec.trans (congrArg _ (State.remoteLoad_parks hloops rfl htm hmisses hjobs herr hup hinc)), fun r hr => ?_, rfl, rfl⟩⟩
    exact ⟨_, congrArg (Option.map _) hr, rfl, rfl, rfl, rfl, rfl⟩
  case hit =>
    have hline := constLine_hit (pa := pa) hl
    refine ⟨fun hm hgood => ?_, fun hm hlost => ?_⟩
    · rw [hgood] at hline
      have hexec := exec_ldc_line d a rfl hc hconst halign hlocal hwalk hline
      rw [hm, Bool.not_true, Bool.or_self, State.deliverX_hit] at hexec
      exact ⟨_, hexec, rfl, setX_flight_ite u d _ 12⟩
    · rw [hlost] at hline
      rw [exec_ldc_lost d a rfl hc hconst halign hlocal hwalk hline, hm]
      rfl
  case miss =>
    have hexec := exec_ldc_line d a rfl hc hconst halign hlocal hwalk (constLine_miss hnone hread)
    rw [Bool.not_false, Bool.or_true, State.deliverX_late _ hd] at hexec
    exact ⟨_, hexec, rfl, rfl, rfl, rfl, v.withConstLine_bcast c.ia bs⟩

end Sys2Proof.Machine
end

section
/-! Global stores and the vector forms of global memory (spec 07_core_memory.md R206, R207, R211; R259, R261): the record that a store leaves and the
bytes it holds. -/

namespace Sys2Proof.Machine

/-! ### Entries of a table by their values -/

theorem tget?_of_mem {α : Type} {t : Tab α} {n : Nat} {v : α} (hval : ∀ e ∈ t, e.1 = n → e.2 = v) (h : ∃ e ∈ t, e.1 = n) : tget? t n = some v := by
  induction t with
  | nil => simp at h
  | cons e t ih =>
    obtain ⟨he, ht⟩ := List.forall_mem_cons.mp hval
    rw [tget?]
    split
    · next hn => exact congrArg some (he hn)
    · next hn =>
      obtain ⟨x, hx, hxn⟩ := h
      exact ih ht ⟨x, (List.mem_cons.mp hx).resolve_left (by rintro rfl; exact hn hxn), hxn⟩

theorem tget?_of_not_mem {α : Type} {t : Tab α} {n : Nat} (h : ∀ e ∈ t, e.1 ≠ n) : tget? t n = none := by
  induction t with
  | nil => rfl
  | cons e t ih =>
    obtain ⟨he, ht⟩ := List.forall_mem_cons.mp h
    rw [tget?, if_neg he, ih ht]

/-- Entry `x` of a table that holds exactly the entries `f x` of the keys with `P x`. -/
theorem tget?_of_mem_iff {α : Type} {t : Tab α} {P : Nat → Prop} [DecidablePred P] {f : Nat → α} (h : ∀ e, e ∈ t ↔ P e.1 ∧ e.2 = f e.1) (x : Nat) :
    tget? t x = if P x then some (f x) else none := by
  split
  · next hx => exact tget?_of_mem (fun e he hex => by rw [((h e).mp he).2, hex]) ⟨(x, f x), (h _).mpr ⟨hx, rfl⟩, rfl⟩
  · next hx => exact tget?_of_not_mem fun e he hex => hx (hex ▸ ((h e).mp he).1)

/-! ### The bytes that a scalar store writes (R129, R206) -/

theorem SWord.mem_cells {w : SWord} {c : Host.Cell} :
    c ∈ w.cells ↔ ∃ j, j < 4 ∧ w.mask.getLsbD j = true ∧ c = (w.addr + j, BitVec.ofNat 8 (w.val / 2 ^ (8 * j))) := by
  simp only [cells, List.mem_filterMap, List.mem_range, Option.ite_none_right_eq_some, Option.some.injEq, eq_comm (a := c)]

theorem fullMask_getLsbD {j : Nat} (hj : j < 4) : (0xF : BitVec 4).getLsbD j = true := by
  interval_cases j <;> rfl

/-- The mask of a store of `n` bytes at byte `r` of its word. -/
theorem byteMask_getLsbD {n r j : Nat} (hj : j < 4) : (BitVec.ofNat 4 ((2 ^ n - 1) * 2 ^ r)).getLsbD j = true ↔ r ≤ j ∧ j < r + n := by
  rw [BitVec.getLsbD_ofNat, Nat.mul_comm, Nat.testBit_two_pow_mul, Nat.testBit_two_pow_sub_one]
  simp only [hj, decide_true, Bool.true_and, Bool.and_eq_true, decide_eq_true_eq]
  omega

/-- Byte `i` of the low `n` bytes of a value, moved up by `r` bytes. -/
theorem elemOf_moved {n r i : Nat} (v : Nat) (hi : i < n) : elemOf 8 (v % 2 ^ (8 * n) * 2 ^ (8 * r)) (r + i) = elemOf 8 v i := by
  have hhigh := elemOf_add_mul_high (w := 8) (k := r) (x := 0) (v % 2 ^ (8 * n)) i rfl (Nat.two_pow_pos _)
  rw [Nat.zero_add] at hhigh
  exact hhigh.trans (elemOf_mod v (by omega))

theorem elemOf_upper (v j : Nat) : elemOf 8 (v / 2 ^ 32) j = elemOf 8 v (4 + j) := by
  rw [elemOf, elemOf, Nat.div_div_eq_div_mul, ← Nat.pow_add, Nat.mul_add]

/-- R129: the words of an aligned scalar store write its bytes at rising addresses. -/
theorem mem_scalarCells {va n : Nat} (v id : Nat) (hn : n = 1 ∨ n = 2 ∨ n = 4 ∨ n = 8) (halign : va % n = 0) {c : Host.Cell} :
    c ∈ (scalarWords va n v id).flatMap SWord.cells ↔ ∃ i, i < n ∧ c = (va + i, BitVec.ofNat 8 (elemOf 8 v i)) := by
  by_cases h8 : n = 8
  · subst h8
    have hlow : ∀ j, j < 4 → elemOf 8 (v % 2 ^ 32) j = elemOf 8 v j := fun j hj => elemOf_mod v (by omega)
    have hhigh : ∀ j, j < 4 → elemOf 8 (v / 2 ^ 32 % 2 ^ 32) j = elemOf 8 v (4 + j) := fun j hj => (elemOf_mod _ (by omega)).trans (elemOf_upper v j)
    rw [scalarWords, if_pos rfl]
    simp only [List.flatMap_cons, List.flatMap_nil, List.append_nil, List.mem_append, SWord.mem_cells, ofNat_byte]
    constructor
    · rintro (⟨j, hj, -, rfl⟩ | ⟨j, hj, -, rfl⟩)
      · exact ⟨j, by omega, by rw [hlow j hj]⟩
      · exact ⟨4 + j, by omega, by rw [hhigh j hj, Nat.add_assoc]⟩
    · rintro ⟨i, hi, rfl⟩
      by_cases hi4 : i < 4
      · exact .inl ⟨i, hi4, fullMask_getLsbD hi4, by rw [hlow i hi4]⟩
      · obtain ⟨j, rfl⟩ := Nat.exists_eq_add_of_le (Nat.le_of_not_lt hi4)
        have hj : j < 4 := by omega
        exact .inr ⟨j, hj, fullMask_getLsbD hj, by rw [hhigh j hj, Nat.add_assoc]⟩
  · have hfit : va % 4 + n ≤ 4 := by rcases hn with rfl | rfl | rfl | rfl <;> omega
    rw [scalarWords, if_neg h8]
    simp only [List.flatMap_cons, List.flatMap_nil, List.append_nil, SWord.mem_cells, ofNat_byte]
    constructor
    · rintro ⟨j, hj, hmask, rfl⟩
      obtain ⟨hlow, hhigh⟩ := (byteMask_getLsbD hj).mp hmask
      obtain ⟨i, rfl⟩ := Nat.exists_eq_add_of_le hlow
      exact ⟨i, by omega, by rw [elemOf_moved v (by omega), show va / 4 * 4 + (va % 4 + i) = va + i by omega]⟩
    · rintro ⟨i, hi, rfl⟩
      exact ⟨va % 4 + i, by omega, (byteMask_getLsbD (by omega)).mpr ⟨by omega, by omega⟩,
        by rw [elemOf_moved v hi, show va / 4 * 4 + (va % 4 + i) = va + i by omega]⟩

theorem MSize.bytes_cases (z : MSize) : MSize.bytes z = 1 ∨ MSize.bytes z = 2 ∨ MSize.bytes z = 4 ∨ MSize.bytes z = 8 := by cases z <;> decide

/-! ### Records (R259, R261) -/

/-- `t` is `s` but for caches of translations, the log's bookkeeping and what the bound check counts. -/
structure Logged (s t : State) : Prop where
  regs : t.core.regs = s.core.regs
  flight : t.core.flight = s.core.flight
  spad : t.core.spad = s.core.spad
  task : t.core.task = s.core.task
  seq : t.core.seq = s.core.seq
  coreId : t.coreId = s.coreId
  mem : t.mem = s.mem

namespace State

/-- A log with 128 KiB to spare takes a record at once. -/
theorem withLogRoom_of_low {s : State} {size : Nat} (va : Word) (k : State → State) (hlow : s.mem.logUsed s.coreId ≤ 384 * 1024) (hsize : size ≤ 128 * 1024) :
    s.withLogRoom va size k = k (s.modFront fun f => { f with logSince := none, logDue := false }) := by
  have hspill : (s.drainLog s.coreId).spill size (s.mem.recs.length + 1) = s := by
    rw [drainLog, if_pos hlow, spill, if_pos (by omega)]
  have hroom : s.logRoom size = (s, true) := by
    rw [logRoom, hspill, decide_eq_true (by omega)]
  rw [withLogRoom, hroom]

/-- R259: a record of the core's log, unreleased, next in the core's order. -/
theorem append_recs (s : State) (ia n : Nat) (cells : List Host.Cell) (copy : Bool) (inc : BitVec 16) : (s.append ia n cells copy inc).mem.recs = s.mem.recs ++
    [{ core := s.coreId, ctx := s.bound.ctx, launch := s.bound.launch, index := s.bound.index, seq := (s.core.seq + 1).toNat
       addr := ia, len := n, cells := cells, copy := copy, inc := inc }] := by
  rw [append]
  simp only [modMem_mem, modTask, modCore, bound]
  cases s.core.task <;> rfl

end State

/-- What a store of this device leaves: one more record, and nothing else that a program can read. -/
theorem Logged.append {s t : State} (h : Logged s t) (ia n : Nat) (cells : List Host.Cell) (inc : BitVec 16) :
    let w := t.append ia n cells false inc
    w.core.regs = s.core.regs ∧ w.core.flight = s.core.flight ∧ w.core.spad = s.core.spad ∧ (∀ x, w.homeByte x = s.homeByte x) ∧
    ∃ e : Rec, w.mem.recs = s.mem.recs ++ [e] ∧ e.core = s.coreId ∧ e.launch = s.bound.launch ∧ e.index = s.bound.index ∧ e.addr = ia ∧ e.len = n ∧
      e.stamp = none ∧ e.seq = (s.core.seq + 1).toNat ∧ e.cells = cells := by
  have hbound : t.bound = s.bound := congrArg (·.getD { launch := 0, index := 0 }) h.task
  refine ⟨h.regs, h.flight, h.spad, fun x => ?_, _,
    (t.append_recs ia n cells false inc).trans (congrArg (· ++ _) (congrArg Mem.recs h.mem)), h.coreId, congrArg Bound.launch hbound,
    congrArg Bound.index hbound, rfl, rfl, rfl, congrArg (fun q => BitVec.toNat (q + 1)) h.seq, rfl⟩
  change cget t.mem.cells x = cget s.mem.cells x
  rw [h.mem]

namespace OnlyVector

variable {s t : State}

theorem task (h : OnlyVector s t) : t.core.task = s.core.task := congrArg (·.core.task) h
theorem seq (h : OnlyVector s t) : t.core.seq = s.core.seq := congrArg (·.core.seq) h
theorem coreId (h : OnlyVector s t) : t.coreId = s.coreId := congrArg (·.coreId) h

end OnlyVector

/-- The page of a local address is there, and the log has room: a store of words that no bound checks comes to its record. -/
theorem logged_of_walk {s u : State} {ia pa : Nat} {m : Bool} (hbounds : s.core.vec.bounds = []) (hwalk : s.walk s.myDie ia = (u, .page pa m)) (ws : List SWord) :
    ∃ t ws', (u.modFront fun f => { f with logSince := none, logDue := false }).boundCheck ws = (t, .ok ws') ∧
      ws'.flatMap SWord.cells = ws.flatMap SWord.cells ∧ Logged s t := by
  obtain ⟨hcore, hmem, hid⟩ := State.walk_frame hwalk
  obtain ⟨t, ws', hcheck, hcells, honly, hflight⟩ := State.boundCheck_of_unbounded
    (s := u.modFront fun f => { f with logSince := none, logDue := false }) (by simpa [hcore] using hbounds) ws
  exact ⟨t, ws', hcheck, hcells, honly.regs.trans (congrArg (·.regs) hcore :), hflight.trans (congrArg (·.flight) hcore :),
    honly.spad.trans (congrArg (·.spad) hcore :), honly.task.trans (congrArg (·.task) hcore :), honly.seq.trans (congrArg (·.seq) hcore :),
    honly.coreId.trans hid, honly.mem.trans hmem⟩

/-! ### STG -/

section

variable {s : State} (r a : BitVec 6) {z : MSize} {o : BitVec 9} {va : Word} (hva : s.x a + o.signExtend 64 * BitVec.ofNat 64 (MSize.bytes z) = va)
include hva

theorem exec_stg_noWindow (h : (s.ctx s.bound.ctx).translate? va.toNat .w = none) : exec (.stg r a z o) s = .next (s.noWindow va) := by
  subst hva
  exact congrArg Host.Outcome.next (State.lsAccess_noWindow _ h)

variable {c : Access} (hc : (s.ctx s.bound.ctx).translate? va.toNat .w = some c)
include hc

theorem exec_stg_misaligned (halign : va.toNat % MSize.bytes z ≠ 0) : exec (.stg r a z o) s = .next (s.misalign va (MSize.bytes z)) := by
  subst hva
  exact congrArg Host.Outcome.next (State.lsAccess_misaligned _ hc halign)

variable (halign : va.toNat % MSize.bytes z = 0)
include halign

theorem exec_stg_constant (hconst : s.constWin c.win = true) : exec (.stg r a z o) s = .next (s.constWrite va.toNat c.win) := by
  subst hva
  exact congrArg Host.Outcome.next ((State.lsAccess_ok _ hc halign).trans (if_pos hconst))

variable (hconst : s.constWin c.win = false) (hlocal : s.isRemote c.ia = false) {u : State}
include hconst hlocal

theorem exec_stg_absent (hwalk : s.walk s.myDie c.ia = (u, .absent)) : exec (.stg r a z o) s = .next (u.abort c.ia) := by
  subst hva
  exact congrArg Host.Outcome.next ((State.lsAccess_ok _ hc halign).trans ((if_neg (by simp [hconst])).trans ((if_neg (by simp [hlocal])).trans
    (State.withPage_absent _ hwalk))))

/-- R259: a store of this device appends its bytes, moved to the intermediate address. -/
theorem exec_stg_appends (hbounds : s.core.vec.bounds = []) {pa : Nat} {m : Bool} (hwalk : s.walk s.myDie c.ia = (u, .page pa m))
    (hlow : s.mem.logUsed s.coreId ≤ 384 * 1024) : ∃ t id, Logged s t ∧ exec (.stg r a z o) s = .next (t.append c.ia (MSize.bytes z)
      (((scalarWords va.toNat (MSize.bytes z) (s.x r).toNat id).flatMap SWord.cells).map fun b => (b.1 - va.toNat + c.ia, b.2)) false c.inc) := by
  subst hva
  obtain ⟨hcore, hmem, hid⟩ := State.walk_frame hwalk
  have hx : (u.modFront fun f => { f with logSince := none, logDue := false }).x r = s.x r := by
    change u.x r = s.x r
    rw [State.x, State.x, State.image, State.image, hcore]
  obtain ⟨t, ws', hcheck, hcells, hlogged⟩ := logged_of_walk hbounds hwalk (scalarWords (smAddr s a o z).toNat (MSize.bytes z) (s.x r).toNat u.tid)
  refine ⟨t, u.tid, hlogged, congrArg Host.Outcome.next ((State.lsAccess_ok _ hc halign).trans ((if_neg (by simp [hconst])).trans
    ((if_neg (by simp [hlocal])).trans ((State.withPage_page _ hwalk).trans ((State.withLogRoom_of_low _ _ (by rwa [hmem, hid]) (by decide)).trans ?_)))))⟩
  rw [hx]
  split
  · next hq => cases hq.symm.trans hcheck
  · next hq =>
    cases hq.symm.trans hcheck
    rw [hcells]
    rfl

end

/-- Settles O19: a store to this device by its record and its frame, the traps by the first test that fails. -/
theorem globalStores : Obligations.GlobalStores := by
  unfold Obligations.GlobalStores
  refine ⟨fun s u r a z o c pa m hbounds hc halign hconst hlocal hwalk hlow => ?_, fun s r a z o => ⟨exec_stg_noWindow r a rfl, fun c hc =>
    ⟨exec_stg_misaligned r a rfl hc, exec_stg_constant r a rfl hc, fun halign hconst hlocal u hwalk =>
      exec_stg_absent r a rfl hc halign hconst hlocal hwalk⟩⟩⟩
  obtain ⟨t, id, hlogged, hexec⟩ := exec_stg_appends r a rfl hc halign hconst hlocal hbounds hwalk hlow
  obtain ⟨hregs, hflight, hspad, hhome, e, hrecs, hid, hlaunch, hindex, haddr, hlen, hstamp, hseq, hcells⟩ := hlogged.append c.ia (MSize.bytes z) _ c.inc
  refine ⟨_, hexec, hregs, hflight, hspad, hhome, e, hrecs, hid, hlaunch, hindex, haddr, hlen, hstamp, hseq, fun x => ?_⟩
  rw [Rec.byte?, hcells]
  refine tget?_of_mem_iff (P := fun x => c.ia ≤ x ∧ x < c.ia + MSize.bytes z) (f := fun x => BitVec.ofNat 8 ((s.x r).toNat / 2 ^ (8 * (x - c.ia))))
    (fun b => ?_) x
  simp only [List.mem_map, mem_scalarCells _ _ (MSize.bytes_cases z) halign, ← ofNat_byte]
  constructor
  · rintro ⟨_, ⟨i, hi, rfl⟩, rfl⟩
    refine ⟨?_, ?_⟩
    · dsimp only; omega
    · dsimp only
      rw [show ∀ v : Nat, v + i - v + c.ia - c.ia = i by omega]
  · rintro ⟨⟨hlow, hhigh⟩, hbyte⟩
    exact ⟨_, ⟨b.1 - c.ia, by omega, rfl⟩, Prod.ext (by dsimp only; omega) hbyte.symm⟩

end Sys2Proof.Machine
end

section
/-! LDGV and STGV (spec 07_core_memory.md R207, R210; 10_memory_model.md R259): the chunk that the low eight lanes need, and what its load delivers and its
store appends. -/

namespace Sys2Proof.Machine

/-! ### One chunk -/

theorem lt_of_low {m : Pred} (hhigh : ∀ i, 8 ≤ i → m.getLsbD i = false) {i : Nat} (hon : m.getLsbD i = true) : i < 8 := by
  by_contra h
  exact Bool.false_ne_true ((hhigh i (Nat.le_of_not_lt h)).symm.trans hon)

/-- A predicate of the low eight lanes needs the first chunk alone. -/
theorem chunksOf_low {m : Pred} (hm : m ≠ 0) (hhigh : ∀ i, 8 ≤ i → m.getLsbD i = false) : chunksOf m = [0] := by
  have hlt : m.toNat < 2 ^ 8 := Nat.lt_pow_two_of_testBit _ hhigh
  have hne : m.toNat ≠ 0 := fun h => hm (BitVec.eq_of_toNat_eq h)
  have hrest : ∀ k, m.toNat / 2 ^ (8 * (k + 1)) = 0 := fun k =>
    Nat.div_eq_of_lt (hlt.trans_le (Nat.pow_le_pow_right (by decide) (by omega)))
  have hfirst : (m.toNat / 2 ^ (8 * 0) % 256 != 0) = true := by
    rw [Nat.mul_zero, Nat.pow_zero, Nat.div_one, Nat.mod_eq_of_lt (show m.toNat < 256 from hlt)]
    exact bne_iff_ne.mpr hne
  rw [chunksOf, List.range_succ_eq_map, List.filter_cons, if_pos hfirst, List.filter_eq_nil_iff.mpr]
  intro k hk
  obtain ⟨k, -, rfl⟩ := List.mem_map.mp hk
  rw [hrest k]
  decide

theorem chunkMask_low {m : Pred} (hhigh : ∀ i, 8 ≤ i → m.getLsbD i = false) : chunkMask m [0] = m := by
  refine BitVec.eq_of_getLsbD_eq fun i hi => ?_
  rw [chunkMask, getLsbD_ofBits _ hi]
  by_cases h8 : i < 8
  · rw [Nat.div_eq_of_lt h8, List.contains_cons, beq_self_eq_true, Bool.true_or, Bool.and_true]
  · rw [hhigh i (by omega), Bool.false_and]

namespace State

variable {s : State} {m : Pred} {b : Nat} {p : Perm}

theorem chunkAccess_of_none (s : State) (b : Nat) (p : Perm) : s.chunkAccess b 0 p = .ok [] := by
  rw [chunkAccess, show chunksOf 0 = [] by decide]
  rfl

theorem chunkAccess_low {c : Access} (hm : m ≠ 0) (hhigh : ∀ i, 8 ≤ i → m.getLsbD i = false) (hc : (s.ctx s.bound.ctx).translate? b p = some c) :
    s.chunkAccess b m p = .ok [(0, c)] := by
  simp only [chunkAccess, chunksOf_low hm hhigh, List.foldl_cons, List.foldl_nil, Nat.mul_zero, Nat.add_zero, hc, List.nil_append]

end State

theorem at'_lt (bs : List Byte) (o n : Nat) : at' bs o n < 2 ^ (8 * n) :=
  (leNat_lt _).trans_le (Nat.pow_le_pow_right (by decide) (Nat.mul_le_mul_left 8 (List.length_take_le _ _)))

/-- The eight lanes of the first chunk's bytes. -/
def chunkLanes (bs : List Byte) : VReg := ofLanes fun i => if i < 8 then BitVec.ofNat 32 (at' bs (4 * i) 4) else 0

theorem lane_chunkLanes (bs : List Byte) {i : Nat} (hi : i < 8) : (lane (chunkLanes bs) i).toNat = at' bs (4 * i) 4 := by
  rw [chunkLanes, lane_ofLanes _ (by omega), if_pos hi]
  exact Nat.mod_eq_of_lt (at'_lt _ _ 4)

/-- R206, R207: a chunk of this device that hits delivers its lanes after 24 cycles. -/
theorem loadNear_low (d : BitVec 5) {m : Pred} {c : Access} {s u v : State} {pa : Nat} {g : ViewGot} (hhigh : ∀ i, 8 ≤ i → m.getLsbD i = false)
    (hwalk : s.walk s.myDie c.ia = (u, .page pa false)) (hread : u.viewRead c.ia pa 32 = (v, g)) (hmissed : g.missed = false) (hlost : g.lost = false) :
    loadNear d m [(0, c)] id s = v.setV d m (chunkLanes g.data) 24 := by
  rw [loadNear, State.readChunks, State.withPage_page _ hwalk, hread]
  simp only [hmissed, hlost, State.readChunks, List.nil_append, List.map_cons, List.map_nil, chunkMask_low hhigh, Bool.false_and, Bool.or_self]
  refine congrArg (fun val => v.setV d m val 24) (congrArg ofLanes (funext fun i => ?_))
  by_cases hi : i < 8
  · rw [if_pos hi, Nat.div_eq_of_lt hi, Nat.mod_eq_of_lt hi]
    rfl
  · rw [if_neg hi, tget?, if_neg (by omega)]
    rfl

/-! ### LDGV -/

section

variable {s : State} (d : BitVec 5) (a : BitVec 6) (p : BitVec 4) {o : BitVec 9} {b : Word} (hb : s.x a + o.signExtend 64 * 32 = b)
include hb

theorem exec_ldgv_misaligned (halign : b.toNat % 32 ≠ 0) : exec (.ldgv d a o p) s = .next (s.misalign b 32) := by
  subst hb
  exact congrArg Host.Outcome.next (if_pos halign)

theorem exec_stgv_misaligned (halign : b.toNat % 32 ≠ 0) : exec (.stgv d a o p) s = .next (s.misalign b 32) := by
  subst hb
  exact congrArg Host.Outcome.next (if_pos halign)

variable (halign : b.toNat % 32 = 0)
include halign

theorem exec_ldgv_near {cs : List (Nat × Access)} (haccess : s.chunkAccess b.toNat (s.p p) .rd = .ok cs) (hlocal : ∀ c ∈ cs, s.isRemote c.2.ia = false) :
    exec (.ldgv d a o p) s = .next (loadNear d (s.p p) cs id s) := by
  subst hb
  have hfar : (cs.filter fun c => s.isRemote c.2.ia) = [] := List.filter_eq_nil_iff.mpr fun c hc => by rw [hlocal c hc]; decide
  have hnear : (cs.filter fun c => !s.isRemote c.2.ia) = cs := List.filter_eq_self.mpr fun c hc => by rw [hlocal c hc]; rfl
  refine congrArg Host.Outcome.next ((if_neg (not_not.mpr halign)).trans ?_)
  simp only [haccess, hfar, hnear]
  rfl

theorem exec_stgv_none (h : s.p p = 0) : exec (.stgv d a o p) s = .next s := by
  subst hb
  refine congrArg Host.Outcome.next ((if_neg (not_not.mpr halign)).trans ?_)
  simp only [h, State.chunkAccess_of_none]

end

/-! ### STGV of one chunk (R207, R259) -/

/-- The bytes of the enabled lanes, lane 0 at `b`. -/
def laneBytes (b : Nat) (m : Pred) (val : VReg) : List Host.Cell :=
  (lanesOf m).flatMap fun i => (List.range 4).map fun j => (b + 4 * i + j, BitVec.ofNat 8 ((lane val i).toNat / 2 ^ (8 * j)))

theorem mem_laneBytes {b : Nat} {m : Pred} {val : VReg} {c : Host.Cell} : c ∈ laneBytes b m val ↔
    ∃ i, (i < 128 ∧ m.getLsbD i = true) ∧ ∃ j, j < 4 ∧ (b + 4 * i + j, BitVec.ofNat 8 ((lane val i).toNat / 2 ^ (8 * j))) = c := by
  simp [laneBytes, mem_lanesOf]

/-- Cell `x` of the low lanes' bytes, moved to `y`. -/
theorem mem_laneBytes_moved {b y : Nat} {m : Pred} {val : VReg} (hhigh : ∀ i, 8 ≤ i → m.getLsbD i = false) {c : Host.Cell} :
    c ∈ (laneBytes b m val).map (fun c => (c.1 - b + y, c.2)) ↔ (y ≤ c.1 ∧ c.1 < y + 32 ∧ m.getLsbD ((c.1 - y) / 4) = true) ∧
      c.2 = BitVec.ofNat 8 ((lane val ((c.1 - y) / 4)).toNat / 2 ^ (8 * ((c.1 - y) % 4))) := by
  simp only [List.mem_map, mem_laneBytes]
  constructor
  · rintro ⟨_, ⟨i, ⟨-, hon⟩, j, hj, rfl⟩, rfl⟩
    have hi : i < 8 := lt_of_low hhigh hon
    have hdiff : b + 4 * i + j - b + y - y = 4 * i + j := by omega
    dsimp only
    rw [hdiff, show (4 * i + j) / 4 = i by omega, show (4 * i + j) % 4 = j by omega]
    exact ⟨⟨by omega, by omega, hon⟩, rfl⟩
  · rintro ⟨⟨hlow, hhigh, hon⟩, hbyte⟩
    exact ⟨_, ⟨(c.1 - y) / 4, ⟨by omega, hon⟩, (c.1 - y) % 4, by omega, rfl⟩, Prod.ext (by dsimp only; omega) hbyte.symm⟩

theorem laneBytes_ne_nil {b : Nat} {m : Pred} (val : VReg) (hm : m ≠ 0) : laneBytes b m val ≠ [] := by
  obtain ⟨i, hi, hon⟩ : ∃ i, i < 128 ∧ m.getLsbD i = true := by
    by_contra h
    push Not at h
    exact hm (BitVec.eq_of_getLsbD_eq fun i hi => by simpa using h i hi)
  exact List.ne_nil_of_mem (mem_laneBytes.mpr ⟨i, ⟨hi, hon⟩, 0, by decide, rfl⟩)

/-- Every byte of the low lanes belongs to chunk 0. -/
theorem laneBytes_chunk {b : Nat} {m : Pred} {val : VReg} (hhigh : ∀ i, 8 ≤ i → m.getLsbD i = false) {c : Host.Cell} (h : c ∈ laneBytes b m val) :
    (c.1 - b) / 32 = 0 := by
  obtain ⟨i, ⟨-, hon⟩, j, hj, rfl⟩ := mem_laneBytes.mp h
  have hi : i < 8 := lt_of_low hhigh hon
  dsimp only
  omega

section

variable {s : State} (r : BitVec 5) (a : BitVec 6) (p : BitVec 4) {o : BitVec 9} {b : Word} (hb : s.x a + o.signExtend 64 * 32 = b)
include hb

/-- R259: an STGV of one chunk of this device appends the enabled lanes' bytes. -/
theorem exec_stgv_appends (halign : b.toNat % 32 = 0) (hm : s.p p ≠ 0) (hhigh : ∀ i, 8 ≤ i → (s.p p).getLsbD i = false) (hbounds : s.core.vec.bounds = [])
    {c : Access} (hc : (s.ctx s.bound.ctx).translate? b.toNat .w = some c) (hconst : s.constWin c.win = false) (hlocal : s.isRemote c.ia = false)
    {u : State} {pa : Nat} {miss : Bool} (hwalk : s.walk s.myDie c.ia = (u, .page pa miss)) (hlow : s.mem.logUsed s.coreId ≤ 384 * 1024) :
    ∃ t x n, Logged s t ∧ exec (.stgv r a o p) s =
      .next (t.append x n ((laneBytes b.toNat (s.p p) (s.v r)).map fun e => (e.1 - b.toNat + c.ia, e.2)) false c.inc) := by
  obtain ⟨hcore, hmem, hid⟩ := State.walk_frame hwalk
  have hv : (u.modFront fun f => { f with logSince := none, logDue := false }).v r = s.v r := by
    change u.v r = s.v r
    rw [State.v, State.v, State.image, State.image, hcore]
  obtain ⟨t, ws', hcheck, hcells, hlogged⟩ := logged_of_walk hbounds hwalk ((lanesOf (s.p p)).map fun i =>
    ({ addr := b.toNat + 4 * i, val := (lane (s.v r) i).toNat, id := u.tid } : SWord))
  have hbytes : ws'.flatMap SWord.cells = laneBytes b.toNat (s.p p) (s.v r) := by
    rw [hcells, List.flatMap_map]
    exact List.flatMap_congr fun i _ => SWord.cells_full rfl
  have hmine : (laneBytes b.toNat (s.p p) (s.v r)).filter (fun e => [(0, c)].any fun k => k.1 == (e.1 - b.toNat) / 32 && k.2.ia - 32 * k.1 == c.ia) =
      laneBytes b.toNat (s.p p) (s.v r) := List.filter_eq_self.mpr fun e he => by simp [laneBytes_chunk hhigh he]
  have hne : (laneBytes b.toNat (s.p p) (s.v r)).map (fun e => (e.1 - b.toNat + c.ia, e.2)) ≠ [] := by simpa using laneBytes_ne_nil (s.v r) hm
  refine ⟨t, (List.head _ hne).1, (List.getLast _ hne).1 + 1 - (List.head _ hne).1, hlogged, ?_⟩
  change execStgv r a o p s = _
  have hroom : u.mem.logUsed u.coreId ≤ 384 * 1024 := by rwa [hmem, hid]
  simp only [execStgv, hb, if_neg (not_not.mpr halign), State.chunkAccess_low hm hhigh hc, List.find?_cons, List.find?_nil, hconst, State.pageChunks, hlocal,
    Bool.false_eq_true, if_false, State.withPage_page _ hwalk, State.withLogRoom_of_low b _ hroom (show 544 ≤ 128 * 1024 by decide), hv]
  split
  · next hq => cases hq.symm.trans hcheck
  · next hq =>
    cases hq.symm.trans hcheck
    simp only [hbytes, List.map_cons, List.map_nil, List.eraseDups_cons, List.eraseDups_nil, List.filter_nil, List.foldl_cons, List.foldl_nil, Nat.mul_zero,
      Nat.sub_zero, hmine, List.head?_eq_some_head hne, List.getLast?_eq_some_getLast hne]

end

/-- Settles O20: LDGV and STGV by the base's alignment, then by the chunks that the predicate needs: none, or the first. -/
theorem globalVectorForms : Obligations.GlobalVectorForms := by
  unfold Obligations.GlobalVectorForms
  intro s d a o p b
  refine ⟨fun h => ⟨exec_ldgv_misaligned d a p rfl h, exec_stgv_misaligned d a p rfl h⟩, fun halign hp => ⟨?_, exec_stgv_none d a p rfl halign hp⟩,
    fun c u pa v g halign hm hhigh hc hlocal hwalk hread hmissed hlost => ?load,
    fun c u pa m halign hm hhigh hbounds hc hconst hlocal hwalk hlow => ?store⟩
  · refine exec_ldgv_near d a p rfl halign (cs := []) ?_ (by simp)
    rw [hp]
    exact s.chunkAccess_of_none _ _
  case load =>
    refine ⟨chunkLanes g.data, ?_, fun i hi => lane_chunkLanes g.data hi⟩
    rw [exec_ldgv_near d a p rfl halign (State.chunkAccess_low hm hhigh hc) (by simpa using hlocal), loadNear_low d hhigh hwalk hread hmissed hlost]
  case store =>
    obtain ⟨t, x, n, hlogged, hexec⟩ := exec_stgv_appends d a p rfl halign hm hhigh hbounds hc hconst hlocal hwalk hlow
    obtain ⟨hregs, -, hspad, hhome, e, hrecs, -, -, -, -, -, hstamp, -, hcells⟩ := hlogged.append x n _ c.inc
    refine ⟨_, hexec, hregs, hspad, hhome, e, hrecs, hstamp, fun y => ?_⟩
    rw [Rec.byte?, hcells]
    exact tget?_of_mem_iff (P := fun y => c.ia ≤ y ∧ y < c.ia + 32 ∧ (s.p p).getLsbD ((y - c.ia) / 4) = true)
      (f := fun y => BitVec.ofNat 8 ((lane (s.v d) ((y - c.ia) / 4)).toNat / 2 ^ (8 * ((y - c.ia) % 4)))) (fun e => mem_laneBytes_moved hhigh) y

end Sys2Proof.Machine
end

section
/-! The copy engine's CPY and CPYR (spec 07_core_memory.md R214 to R219): the job that an accepted copy queues. -/

namespace Sys2Proof.Machine

namespace State

/-- The place that a job takes in the queue (R216). -/
def enqueue (s : State) (j : Job) (src dst : Side) : State :=
  s.takeTicket.1.modCopy fun c => { c with jobs := c.jobs ++
    [{ j with src := src.base, dst := dst.base, foot := { reads := src.range, writes := dst.range }, ticket := s.ticket, region := s.bound.region
              srcInc := src.inc, dstInc := dst.inc }] }

/-- R216, R218: pages that are there, a launch that is not deterministic and a queue with room let a job in. -/
theorem issueJob_of_ready {s u : State} (j : Job) {src dst : Side} (commit : State → State)
    (hpages : ∀ k, walkPages (fun ia => if src.glob && decide (src.lo ≤ ia) && decide (ia < src.hi) then src.inc else dst.inc) k
      (sidePages src ++ sidePages dst) s = k u)
    (hdet : u.det = false) (hroom : u.core.copy.jobs.length < 16) :
    s.issueJob j src dst commit = ((commit u).handleStart j.hd j.produces).enqueue j src dst := by
  simp only [issueJob, hpages, withFootprint_of_loose _ _ _ hdet, if_neg (Nat.not_le_of_lt hroom)]
  rfl

end State

/-- The job that a copy asks for. -/
def copyJob (dir : JobDir) (ext : List Nat) (str dstr : List Int) (w : Nat) (hd : BitVec 4) : Job :=
  { dir := dir, src := 0, dst := 0, w := w, ext := ext, str := str, dstr := dstr, hd := hd.toNat, region := 0, foot := {} }

/-- The exchange of the shape registers that `sw` asks for (R214). -/
def State.swapShapes (swap : Bool) (s : State) : State := if swap then s.result 1 (.swap true 0xF) else s

theorem State.swapShapes_only (swap : Bool) (s : State) : (s.swapShapes swap).core.regs = s.core.regs ∧ (s.swapShapes swap).core.copy = s.core.copy ∧
    (s.swapShapes swap).core.spad = s.core.spad ∧ (s.swapShapes swap).mem = s.mem ∧
    (s.swapShapes swap).core.flight = s.core.flight ++ (if swap then [⟨1, .swap true 0xF⟩] else []) := by
  cases swap
  · exact ⟨rfl, rfl, rfl, rfl, (List.append_nil _).symm⟩
  · exact ⟨rfl, rfl, rfl, rfl, rfl⟩

section

variable {dir : JobDir} {ext : List Nat} {str dstr : List Int} {w : Nat} {hd : BitVec 4}
variable (hrole : hd ≠ 0 → (dir == .hs || dir == .ss) = !(dir == .sh))
include hrole

/-- R198: a copy on a handle drains it just when it goes from scratchpad to memory. -/
theorem copyJob_produces (hne : hd ≠ 0) : (copyJob dir ext str dstr w hd).produces = !(dir == .sh) := hrole hne

/-- R216, R218: a copy whose handle, alignment and sides pass comes to its job. -/
theorem copyIssue_of_sides {s : State} {src dst : Word} (swap : Bool) {x y : Nat} {a b : Side} (hready : hd = 0 ∨ s.handleWait hd (dir == .sh) 1 = some true)
    (hx : x = (src.toNat + if hd ≠ 0 ∧ dir = .sh then (s.h hd).headSlot else 0) % 2 ^ 64)
    (hy : y = (dst.toNat + if hd ≠ 0 ∧ dir ≠ .sh then (s.h hd).tailSlot else 0) % 2 ^ 64)
    (hxw : x % w = 0) (hyw : y % w = 0) (hstrides : ∀ z ∈ str ++ dstr, z % (w : Int) = 0)
    (hsrc : ∀ k, (if dir = .hs ∨ dir = .rm then s.globalSide x (interval x ext str w) .rd k else s.spadSide x (interval x ext str w) k) = k s a)
    (hdst : ∀ k, (if dir = .sh ∨ dir = .rm then s.globalSide y (interval y ext dstr w) .w k else s.spadSide y (interval y ext dstr w) k) = k s b) :
    s.copyIssue dir src dst ext str dstr w hd swap = s.issueJob (copyJob dir ext str dstr w hd) a b (State.swapShapes swap) := by
  have hwait : hd = 0 ∨ s.handleWait hd (!(copyJob dir ext str dstr w hd).produces) 1 = some true := by
    refine or_iff_not_imp_left.mpr fun hne => ?_
    rw [copyJob_produces hrole hne, Bool.not_not]
    exact hready.resolve_left hne
  have hhead : (hd ≠ 0 ∧ (!(copyJob dir ext str dstr w hd).produces) = true) ↔ hd ≠ 0 ∧ dir = .sh :=
    and_congr_right fun hne => by rw [copyJob_produces hrole hne, Bool.not_not, beq_iff_eq]
  have htail : (hd ≠ 0 ∧ (copyJob dir ext str dstr w hd).produces = true) ↔ hd ≠ 0 ∧ dir ≠ .sh :=
    and_congr_right fun hne => by rw [copyJob_produces hrole hne, Bool.not_eq_true', beq_eq_false_iff_ne]
  have haligned : ¬(x % w ≠ 0 ∨ y % w ≠ 0 ∨ ((str ++ dstr).any fun z => z % (w : Int) != 0) = true) := by
    simpa [hxw, hyw, or_imp, forall_and] using hstrides
  have hhs : ∀ k, (if (dir == .hs || dir == .rm) = true then s.globalSide x (interval x ext str w) .rd k else s.spadSide x (interval x ext str w) k) = k s a :=
    fun k => by simpa only [Bool.or_eq_true, beq_iff_eq] using hsrc k
  have hsh : ∀ k, (if (dir == .sh || dir == .rm) = true then s.globalSide y (interval y ext dstr w) .w k else s.spadSide y (interval y ext dstr w) k) = k s b :=
    fun k => by simpa only [Bool.or_eq_true, beq_iff_eq] using hdst k
  rw [State.copyIssue]
  refine (State.withHandle_of_ready _ hwait).trans ?_
  simp only [← copyJob.eq_1, if_congr hhead rfl rfl, if_congr htail rfl rfl, ← hx, ← hy, if_neg haligned, hhs, hsh, ite_self]
  rfl

/-- R216 to R219: a copy is accepted. -/
theorem copyIssue_accepted (s : State) (src dst : Word) (swap : Bool) :
    CopyAccepted s dir src dst ext str dstr w hd swap (.next (s.copyIssue dir src dst ext str dstr w hd swap)) := by
  intro x y a b u hready hx hy hxw hyw hstrides hsrc hdst hpages hdet hroom
  have hissue := (copyIssue_of_sides hrole swap hready hx hy hxw hyw hstrides hsrc hdst).trans
    (State.issueJob_of_ready (copyJob dir ext str dstr w hd) (State.swapShapes swap) hpages hdet hroom)
  obtain ⟨hregs, hcopy, hspad, hmem, hflight⟩ := State.swapShapes_only swap u
  obtain ⟨h, hstart⟩ := State.handleStart_eq (u.swapShapes swap) (copyJob dir ext str dstr w hd).hd (copyJob dir ext str dstr w hd).produces
  rw [hstart] at hissue
  exact ⟨_, _, congrArg _ hissue, congrArg (fun c : CopyEng => c.jobs ++ _) hcopy, rfl, rfl, rfl, rfl, rfl, rfl, rfl, rfl, rfl, rfl, hflight,
    (congrArg Regs.x hregs :), (congrArg Regs.v hregs :), hspad, hmem⟩

end

/-- The element width of a copy (R216). -/
def copyWidth : CWidth → Nat
  | .e1 => 1
  | .e2 => 2
  | .e4 => 4

/-- R215, R219: a CPYR whose record is the one that the cache holds leaves the cache as it is and copies by the record. -/
theorem copyRec_of_cached {s : State} {a : BitVec 6} {q : Access} {bs : List Byte} (dir : JobDir) (b : BitVec 6) (w : Bool) (c : CWidth) (h : BitVec 4)
    (hq : (s.ctx s.bound.ctx).translate? (s.x a).toNat .rd = some q) (halign : (s.x a).toNat % 64 = 0) (hcache : s.core.rcache = [(q.ia, bs)]) :
    s.copyRec dir a b w c h = s.copyIssue dir (BitVec.ofNat 64 (at' bs 0 8)) (s.x b) ((List.range 4).map fun d => at' bs (8 + 4 * d) 4)
      ((List.range 4).map fun d => sval 32 (at' bs (24 + 4 * d) 4)) ((List.range 4).map fun d => sval 32 (at' bs (40 + 4 * d) 4)) (copyWidth c) h w := by
  have hkeep : (q.ia, bs) :: (s.core.rcache.filter fun x => x.1 != q.ia) = s.core.rcache := by
    rw [hcache]
    simp
  have hsame : (s.modCore fun k => { k with rcache := (q.ia, bs) :: k.rcache.filter fun x => x.1 != q.ia }) = s :=
    congrArg (fun l => s.modCore fun k => { k with rcache := l }) hkeep
  have hhit : tget? s.core.rcache q.ia = some bs := by
    rw [hcache, tget?, if_pos rfl]
  refine (State.withRecord_of_cached _ hq halign hhit).trans ?_
  rw [hsame]
  rfl

/-- Settles O28: CPY and CPYR as one copy, by the geometry that they hand it. -/
theorem copyAcceptance : Obligations.CopyAcceptance := by
  unfold Obligations.CopyAcceptance
  refine ⟨fun s g a b w c h => ⟨?_, ?_, ?_, ?_⟩, fun s a b w c h q bs halign hq hcache => ?_⟩
  · exact copyIssue_accepted (fun _ => rfl) s (s.x a) (s.x b) w
  · exact copyIssue_accepted (fun _ => rfl) s (s.x a) (s.x b) w
  · exact copyIssue_accepted (fun _ => rfl) s (s.x a) (s.x b) w
  · exact copyIssue_accepted (fun h => absurd rfl h) s (s.x a) (s.x b) w
  · have hrec := fun dir h => copyRec_of_cached dir b w c h hq halign hcache
    change CopyAccepted _ _ _ _ _ _ _ _ _ _ (.next (s.copyRec .hs a b w c h)) ∧ CopyAccepted _ _ _ _ _ _ _ _ _ _ (.next (s.copyRec .sh a b w c h)) ∧
      CopyAccepted _ _ _ _ _ _ _ _ _ _ (.next (s.copyRec .ss a b w c h)) ∧ CopyAccepted _ _ _ _ _ _ _ _ _ _ (.next (s.copyRec .rm a b w c 0))
    rw [hrec, hrec, hrec, hrec]
    refine ⟨?_, ?_, ?_, ?_⟩
    · exact copyIssue_accepted (fun _ => rfl) s _ (s.x b) w
    · exact copyIssue_accepted (fun _ => rfl) s _ (s.x b) w
    · exact copyIssue_accepted (fun _ => rfl) s _ (s.x b) w
    · exact copyIssue_accepted (fun h => absurd rfl h) s _ (s.x b) w

end Sys2Proof.Machine
end

section
/-! Handles as the program uses them (spec 07_core_memory.md R197, R199 to R202). -/

namespace Sys2Proof.Machine

/-! ### Waits (R199, R202) -/

section

variable {s : State} {h : BitVec 4} {n : Nat} (avail : Bool)

theorem waitHandle_refused (hn : (s.h h).count = 0 ∨ (s.h h).count < n) : s.waitHandle h avail n = s.illegal := by
  have hwait : s.handleWait h avail n = none := if_pos hn
  rw [State.waitHandle, hwait]

variable (hcount : (s.h h).count ≠ 0) (hle : n ≤ (s.h h).count)
include hcount hle

theorem handleWait_of_legal : s.handleWait h avail n =
    if n ≤ (if avail then (s.h h).avail else (s.h h).free) then some true else if s.oppositeOut h.toNat avail then some false else none :=
  if_neg (not_or.mpr ⟨hcount, Nat.not_lt_of_le hle⟩)

theorem waitHandle_met (hn : n ≤ if avail then (s.h h).avail else (s.h h).free) : s.waitHandle h avail n = s := by
  rw [State.waitHandle, handleWait_of_legal avail hcount hle, if_pos hn]

variable (hn : (if avail then (s.h h).avail else (s.h h).free) < n)
include hn

theorem waitHandle_stalls (hout : s.oppositeOut h.toNat avail = true) : s.waitHandle h avail n = s.modFront fun f => { f with hold := .stall } := by
  rw [State.waitHandle, handleWait_of_legal avail hcount hle, if_neg (Nat.not_le_of_lt hn), if_pos hout]

theorem waitHandle_alone (hout : s.oppositeOut h.toNat avail = false) : s.waitHandle h avail n = s.illegal := by
  rw [State.waitHandle, handleWait_of_legal avail hcount hle, if_neg (Nat.not_le_of_lt hn), if_neg (by simp [hout])]

end

/-! ### HSET (R197, R201) -/

theorem Handle.word0_ofWords (w0 w1 : Word) : (Handle.ofWords w0 w1).word0 = w0 ↔ w0.toNat = w0.toNat % 2 ^ 21 + w0.toNat / 2 ^ 32 % 2 ^ 21 * 2 ^ 32 := by
  rw [← BitVec.toNat_inj, word0, ofWords, BitVec.toNat_ofNat]
  simp only [fld, Nat.pow_zero, Nat.div_one]
  omega

theorem Handle.word1_ofWords (w0 w1 : Word) : (Handle.ofWords w0 w1).word1 = w1 ↔ w1.toNat = w1.toNat % 2 ^ 9 + w1.toNat / 2 ^ 16 % 2 ^ 8 * 2 ^ 16 +
    w1.toNat / 2 ^ 24 % 2 ^ 8 * 2 ^ 24 + w1.toNat / 2 ^ 32 % 2 ^ 9 * 2 ^ 32 := by
  rw [← BitVec.toNat_inj, word1, ofWords, BitVec.toNat_ofNat]
  simp only [fld, Nat.pow_zero, Nat.div_one]
  omega

/-- R201: what `handleOk` asks of the two words. -/
theorem handleOk_iff {s : State} {w0 w1 : Word} : s.handleOk w0 w1 = true ↔
    w0.toNat = w0.toNat % 2 ^ 21 + w0.toNat / 2 ^ 32 % 2 ^ 21 * 2 ^ 32 ∧
    w1.toNat = w1.toNat % 2 ^ 9 + w1.toNat / 2 ^ 16 % 2 ^ 8 * 2 ^ 16 + w1.toNat / 2 ^ 24 % 2 ^ 8 * 2 ^ 24 + w1.toNat / 2 ^ 32 % 2 ^ 9 * 2 ^ 32 ∧
    w0.toNat % 2 ^ 21 % 32 = 0 ∧ w0.toNat / 2 ^ 32 % 2 ^ 21 % 32 = 0 ∧ 32 ≤ w0.toNat / 2 ^ 32 % 2 ^ 21 ∧ w0.toNat / 2 ^ 32 % 2 ^ 21 ≤ 1048576 ∧
    1 ≤ w1.toNat % 2 ^ 9 ∧ w1.toNat % 2 ^ 9 ≤ 256 ∧ w1.toNat / 2 ^ 16 % 2 ^ 8 < w1.toNat % 2 ^ 9 ∧ w1.toNat / 2 ^ 24 % 2 ^ 8 < w1.toNat % 2 ^ 9 ∧
    w1.toNat / 2 ^ 32 % 2 ^ 9 ≤ w1.toNat % 2 ^ 9 ∧ s.spadOk (w0.toNat % 2 ^ 21) (w1.toNat % 2 ^ 9 * (w0.toNat / 2 ^ 32 % 2 ^ 21)) = true := by
  rw [State.handleOk]
  simp only [Bool.and_eq_true, beq_iff_eq, decide_eq_true_eq, Handle.word0_ofWords, Handle.word1_ofWords, and_assoc]
  simp only [Handle.ofWords, fld, Nat.pow_zero, Nat.div_one, Nat.reducePow]

section

variable {s : State} (h : BitVec 4) (a b : BitVec 6) {q : BitVec 3} (hq : s.sqOn q = true)
include hq

theorem exec_hset_ok (hok : s.handleOk (s.x a) (s.x b) = true ∧ (s.h h).pp = 0 ∧ (s.h h).cp = 0) :
    exec (.hset h a b q) s = .next (s.result 1 (.hset h.toNat (s.x a) (s.x b))) := by
  obtain ⟨hwords, hpp, hcp⟩ := hok
  exact congrArg Host.Outcome.next ((State.guarded_on hq _).trans (if_neg (by simp [hwords, hpp, hcp])))

theorem exec_hset_refused (hbad : ¬(s.handleOk (s.x a) (s.x b) = true ∧ (s.h h).pp = 0 ∧ (s.h h).cp = 0)) : exec (.hset h a b q) s = .next s.illegal := by
  refine congrArg Host.Outcome.next ((State.guarded_on hq _).trans (if_pos ?_))
  by_contra hno
  exact hbad (by simpa [and_assoc] using hno)

end

/-- Settles O29: the waits by what is available or free and by the opposite role, the advances by what they may take, HSET by its words. -/
theorem handleEffects : Obligations.HandleEffects := by
  unfold Obligations.HandleEffects
  refine ⟨fun s h n => ⟨fun hcount hle => ⟨?_, ?_, ?_, ?_, ?_, ?_⟩, fun hn => ⟨?_, ?_⟩, ?_, ?_, fun hcount => ⟨?_, ?_⟩, ?_, ?_⟩,
    fun s h a b q hq => ⟨?ok, ?refused⟩⟩
  · exact fun hn => congrArg Host.Outcome.next (waitHandle_met true hcount hle hn)
  · exact fun hn => congrArg Host.Outcome.next (waitHandle_met false hcount hle hn)
  · exact fun hn hpp => congrArg Host.Outcome.next (waitHandle_stalls true hcount hle hn (bne_iff_ne.mpr hpp))
  · exact fun hn hpp => congrArg Host.Outcome.next (waitHandle_alone true hcount hle hn (bne_eq_false_iff_eq.mpr hpp))
  · exact fun hn hcp => congrArg Host.Outcome.next (waitHandle_stalls false hcount hle hn (bne_iff_ne.mpr hcp))
  · exact fun hn hcp => congrArg Host.Outcome.next (waitHandle_alone false hcount hle hn (bne_eq_false_iff_eq.mpr hcp))
  · exact congrArg Host.Outcome.next (waitHandle_refused true hn)
  · exact congrArg Host.Outcome.next (waitHandle_refused false hn)
  · exact fun hcount hn => congrArg Host.Outcome.next (if_neg (not_or.mpr ⟨hcount, Nat.not_lt_of_le hn⟩))
  · exact fun hcount hn => congrArg Host.Outcome.next (if_neg (not_or.mpr ⟨hcount, Nat.not_lt_of_le hn⟩))
  · exact congrArg Host.Outcome.next (if_pos (.inl hcount))
  · exact congrArg Host.Outcome.next (if_pos (.inl hcount))
  · exact fun hn => congrArg Host.Outcome.next (if_pos (.inr hn))
  · exact fun hn => congrArg Host.Outcome.next (if_pos (.inr hn))
  case ok => exact fun hok => exec_hset_ok h a b hq (by simpa only [handleOk_iff, and_assoc] using hok)
  case refused => exact fun hbad => exec_hset_refused h a b hq fun hok => hbad (by simpa only [handleOk_iff, and_assoc] using hok)

end Sys2Proof.Machine
end

section
/-! Shape registers, the engine block, footprints and the scratchpad's fences (spec 07_core_memory.md R213, R214, R220, R221, R224, R227). -/

namespace Sys2Proof.Machine

/-! ### The engine block (R227) -/

section

variable {s : State} {w : Word} (k : State → Nat → State)

theorem engAccess_misaligned (h : w.toNat % 8 ≠ 0) : s.engAccess w k = s.misalign w 8 := if_pos h

variable (halign : w.toNat % 8 = 0)
include halign

theorem engAccess_outside (h : engMap w.toNat = false) : s.engAccess w k = s.illegal :=
  (if_neg (not_not.mpr halign)).trans (if_neg (h.trans_ne Bool.false_ne_true))

theorem engAccess_ok (h : engMap w.toNat = true) : s.engAccess w k = k s w.toNat := (if_neg (not_not.mpr halign)).trans (if_pos h)

end

/-! ### Footprints (R224) -/

section

variable {s : State} (glob net write : Bool) (a : Word) {n : Word}

theorem foot_empty : s.foot glob net write a 0 = s := if_pos rfl

variable (hn : n ≠ 0)
include hn

theorem foot_full (hfull : 8 ≤ (if net then s.core.copy.footNet else s.core.copy.footProg).length) : s.foot glob net write a n = s.illegal :=
  (if_neg hn).trans (if_pos hfull)

variable (hroom : (if net then s.core.copy.footNet else s.core.copy.footProg).length < 8)
include hroom

theorem foot_spad (hrange : s.spadOk a.toNat n.toNat = true) :
    s.foot false net write a n = s.declare net write ⟨false, a.toNat, a.toNat + n.toNat⟩ :=
  (if_neg hn).trans ((if_neg (Nat.not_le_of_lt hroom)).trans ((if_neg Bool.false_ne_true).trans (if_pos hrange)))

theorem foot_glob {c : Access} (hc : (s.ctx s.bound.ctx).rangeIn? a.toNat n.toNat (if write then .w else .rd) = some c) :
    s.foot true net write a n = s.declare net write ⟨true, c.ia, c.ia + n.toNat⟩ := by
  refine (if_neg hn).trans ((if_neg (Nat.not_le_of_lt hroom)).trans ((if_pos rfl).trans ?_))
  rw [hc]

end

/-- R224, R226: in a launch that is not deterministic a declaration takes the next place in the order of issue. -/
theorem declare_of_loose {s : State} (net write : Bool) (r : Range) (hdet : s.det = false) : s.declare net write r =
    ({ s with ticket := s.ticket + 1 } : State).modCopy fun c =>
      let f : Declared := ⟨s.ticket, if write then { writes := [r] } else { reads := [r] }⟩
      if net then { c with footNet := c.footNet ++ [f] } else { c with footProg := c.footProg ++ [f] } :=
  if_neg (by simp [hdet])

section

variable {s : State} (g y : Bool) (a b : BitVec 6) {q : BitVec 3} (hq : s.sqOn q = true)
include hq

theorem exec_footr_on : exec (.footr g y a b q) s = .next (s.foot g y false (s.x a) (s.x b)) := congrArg Host.Outcome.next (State.guarded_on hq _)
theorem exec_footw_on : exec (.footw g y a b q) s = .next (s.foot g y true (s.x a) (s.x b)) := congrArg Host.Outcome.next (State.guarded_on hq _)

end

/-! ### Waits for commands (R220, R221) -/

theorem exec_spfence_holds {s : State} {q : BitVec 3} (hq : s.sqOn q = true) (h : ∃ j ∈ s.core.copy.jobs, j.dir ≠ .rm) : exec (.spfence q) s = .next s.hold := by
  obtain ⟨j, hj, hdir⟩ := h
  have hany : s.core.copy.jobs.any Job.onSpad = true := List.any_eq_true.mpr ⟨j, hj, bne_iff_ne.mpr hdir⟩
  exact congrArg Host.Outcome.next ((State.guarded_on hq _).trans (if_pos (by simp [hany])))

theorem exec_spfence_passes {s : State} {q : BitVec 3} (hq : s.sqOn q = true) (hjobs : ∀ j ∈ s.core.copy.jobs, j.dir = .rm)
    (hloads : ∀ c ∈ s.core.mx.inWork, c.op ≠ .mload) (hstores : ∀ o ∈ s.core.snapOps, o.isStore = false) : exec (.spfence q) s = .next s := by
  have hjob : s.core.copy.jobs.any Job.onSpad = false := List.any_eq_false.mpr fun j hj => by simp [Job.onSpad, hjobs j hj]
  have hload : (s.core.mx.inWork.any fun c => c.op == .mload) = false := List.any_eq_false.mpr fun c hc => by simp [hloads c hc]
  have hstore : s.core.snapOps.any SnapOp.isStore = false := List.any_eq_false.mpr fun o ho => by simp [hstores o ho]
  exact congrArg Host.Outcome.next ((State.guarded_on hq _).trans (if_neg (by simp [hjob, hload, hstore])))

section

variable {s : State} {h : BitVec 4}

theorem exec_cpyw_holds (hjob : ∃ j ∈ s.core.copy.jobs, h = 0 ∨ j.hd = h.toNat) : exec (.cpyw h) s = .next s.hold := by
  obtain ⟨j, hj, hnames⟩ := hjob
  exact congrArg Host.Outcome.next (if_pos (List.any_eq_true.mpr ⟨j, hj, by simpa using hnames⟩))

variable (hjobs : ∀ j ∈ s.core.copy.jobs, h ≠ 0 ∧ j.hd ≠ h.toNat)
include hjobs

theorem cpyw_idle : ¬(s.core.copy.jobs.any fun j => h == 0 || j.hd == h.toNat) = true := by
  simpa using hjobs

theorem exec_cpyw_passes (herr : ∀ e ∈ s.core.copy.err, h ≠ 0 ∧ e.hd ≠ h.toNat) : exec (.cpyw h) s = .next s := by
  have hnone : s.copyHeld? h.toNat = none := by
    refine List.find?_eq_none.mpr fun e he => ?_
    obtain ⟨hh, hne⟩ := herr e he
    have hnat : h.toNat ≠ 0 := fun h0 => hh (BitVec.eq_of_toNat_eq h0)
    simp [hnat, hne]
  refine congrArg Host.Outcome.next ((if_neg (cpyw_idle hjobs)).trans ?_)
  rw [hnone]

theorem exec_cpyw_raises {e : CopyHeld} {rest : List CopyHeld} (herr : s.core.copy.err = e :: rest) (hnames : h = 0 ∨ e.hd = h.toNat) :
    exec (.cpyw h) s = .next ((s.modCopy fun c => { c with err := rest }).raise e.cause) := by
  have hnamed : (h.toNat == 0 || e.hd == h.toNat) = true := by
    rcases hnames with rfl | hhd
    · rfl
    · simp [hhd]
  have hfound : s.copyHeld? h.toNat = some e := by
    rw [State.copyHeld?, herr]
    exact List.find?_cons_of_pos hnamed
  have herase : s.core.copy.err.erase e = rest := by
    rw [herr, List.erase_cons_head]
  refine congrArg Host.Outcome.next ((if_neg (cpyw_idle hjobs)).trans ?_)
  rw [hfound, ← herase]
  rfl

end

/-- Settles O31: each instruction by its offset, its range and its set, or by the commands that are outstanding. -/
theorem engineSetup : Obligations.EngineSetup := by
  unfold Obligations.EngineSetup
  refine ⟨fun s k r a b f m => ⟨rfl, rfl, fun h => ⟨?_, ?_⟩, fun halign h => ⟨?_, ?_⟩, fun halign h => ⟨?_, fun hopen => ?engw⟩⟩,
    fun s g y a b h q hq => ⟨fun hn => ?empty, fun hn hfull => ?full, fun hn hroom hdet hrange => ?spad, fun w c hn hroom hdet hc => ?glob, ?footclr,
      exec_spfence_passes hq, exec_spfence_holds hq, exec_cpyw_holds, exec_cpyw_passes, fun e rest hjobs herr hnames => exec_cpyw_raises hjobs herr hnames⟩⟩
  · exact congrArg Host.Outcome.next (engAccess_misaligned _ h)
  · exact congrArg Host.Outcome.next (engAccess_misaligned _ h)
  · exact congrArg Host.Outcome.next (engAccess_outside _ halign h)
  · exact congrArg Host.Outcome.next (engAccess_outside _ halign h)
  · exact congrArg Host.Outcome.next (engAccess_ok _ halign h)
  case engw => exact congrArg Host.Outcome.next ((engAccess_ok _ halign h).trans (if_neg (by simp [hopen])))
  case empty =>
    rw [exec_footr_on g y a b hq, exec_footw_on g y a b hq, hn, foot_empty, foot_empty]
    exact ⟨rfl, rfl⟩
  case full =>
    rw [exec_footr_on g y a b hq, exec_footw_on g y a b hq, foot_full g y false _ hn hfull, foot_full g y true _ hn hfull]
    exact ⟨rfl, rfl⟩
  case spad =>
    rw [exec_footr_on false y a b hq, exec_footw_on false y a b hq, foot_spad y false _ hn hroom hrange, foot_spad y true _ hn hroom hrange,
      declare_of_loose y false _ hdet, declare_of_loose y true _ hdet]
    exact ⟨rfl, rfl⟩
  case glob =>
    have hfoot := (foot_glob y w (s.x a) hn hroom hc).trans (declare_of_loose y w _ hdet)
    cases w
    · exact (exec_footr_on true y a b hq).trans (congrArg _ hfoot)
    · exact (exec_footw_on true y a b hq).trans (congrArg _ hfoot)
  case footclr => exact congrArg Host.Outcome.next (State.guarded_on hq _)

end Sys2Proof.Machine
end

section
/-! The tag table (spec 07_core_memory.md R190, R192 to R196): what a hit answers, what an entry becomes, and the jobs of TFILL and TEVICT. -/

namespace Sys2Proof.Machine

/-! ### TLOOK (R194) -/

section

variable {s : State} (d a : BitVec 6) {q : BitVec 3} (hq : s.sqOn q = true)
include hq

theorem exec_tlook_noWindow (h : (s.ctx s.bound.ctx).translate? (s.x a).toNat .rd = none) : exec (.tlook d a q) s = .next (s.noWindow (s.x a)) := by
  refine congrArg Host.Outcome.next ((State.guarded_on hq _).trans ?_)
  simp only [h]

variable {c : Access} (hc : (s.ctx s.bound.ctx).translate? (s.x a).toNat .rd = some c)
include hc

theorem exec_tlook_miss (h : ∀ e ∈ s.core.copy.tags, ¬(e.2.valid = true ∧ e.2.tag = c.ia / 2048 ∧ s.spadOk (2048 * e.1) 2048 = true)) :
    exec (.tlook d a q) s = .next (s.setX d (BitVec.allOnes 64) 4) := by
  have hnone : (s.core.copy.tags.find? fun kv => kv.2.valid && kv.2.tag == c.ia / 2048 && s.spadOk (2048 * kv.1) 2048) = none :=
    List.find?_eq_none.mpr fun e he => by simpa [and_assoc] using h e he
  refine congrArg Host.Outcome.next ((State.guarded_on hq _).trans ?_)
  simp only [hc, hnone]

theorem exec_tlook_hit {n : Nat} {t : TagEntry} (htags : s.core.copy.tags = [(n, t)]) (hvalid : t.valid = true) (htag : t.tag = c.ia / 2048)
    (hrange : s.spadOk (2048 * n) 2048 = true) : exec (.tlook d a q) s = .next (s.setX d (BitVec.ofNat 64 n) 4) := by
  have hsome : (s.core.copy.tags.find? fun kv => kv.2.valid && kv.2.tag == c.ia / 2048 && s.spadOk (2048 * kv.1) 2048) = some (n, t) := by
    rw [htags]
    exact List.find?_cons_of_pos (by simp [hvalid, htag, hrange])
  refine congrArg Host.Outcome.next ((State.guarded_on hq _).trans ?_)
  simp only [hc, hsome]

end

/-! ### One entry (R192) -/

/-- Entry `n` becomes `f` of itself. -/
def State.setTag (s : State) (n : Nat) (f : TagEntry → TagEntry) : State := s.modCopy fun c => { c with tags := tmod {} c.tags n f }

theorem tag_setTag_same (s : State) (n : Nat) (f : TagEntry → TagEntry) :
    tget {} (s.setTag n f).core.copy.tags n = f (tget {} s.core.copy.tags n) := tget_tmod_same (α := TagEntry) {} _ n f

theorem tag_setTag_ne (s : State) {n m : Nat} (f : TagEntry → TagEntry) (h : m ≠ n) :
    tget {} (s.setTag n f).core.copy.tags m = (tget {} s.core.copy.tags m : TagEntry) := tget_tmod_ne (α := TagEntry) {} _ f h

/-- An entry that a command changes and the answer in `d`. -/
theorem completes_setTag {i : Instr} {s : State} {n : Nat} {f : TagEntry → TagEntry} {d : BitVec 6} {w : Word}
    (hexec : exec i s = .next ((s.setTag n f).setX d w 1)) : Completes i s fun u => tget {} u.core.copy.tags n = f (tget {} s.core.copy.tags n) ∧
      u.core.flight = (s.setX d w 1).core.flight ∧ u.core.spad = s.core.spad := by
  refine ⟨_, hexec, ?_, ?_, setX_spad _ d w 1⟩
  · rw [setX_only]
    exact tag_setTag_same s n f
  · rw [setX_flight_ite, setX_flight_ite]
    rfl

/-! ### Slots (R190) -/

section

variable {s : State} {w : Word} (k : State → Nat → State)

theorem withSlot_outside (h : s.spadOk (2048 * (w.toNat % 1024)) 2048 = false) : s.withSlot w k = s.illegal := if_neg (h.trans_ne Bool.false_ne_true)
theorem withSlot_inside (h : s.spadOk (2048 * (w.toNat % 1024)) 2048 = true) : s.withSlot w k = k s (w.toNat % 1024) := if_pos h

end

section

variable {s : State} (d a : BitVec 6) {q : BitVec 3} (hq : s.sqOn q = true)
include hq

theorem exec_tagOps_outside (h : s.spadOk (2048 * ((s.x a).toNat % 1024)) 2048 = false) : exec (.tinv a q) s = .next s.illegal ∧
    exec (.tlock d a q) s = .next s.illegal ∧ exec (.tunlock d a q) s = .next s.illegal ∧ exec (.tevict a q) s = .next s.illegal := by
  refine ⟨?_, ?_, ?_, ?_⟩
  all_goals exact congrArg Host.Outcome.next ((State.guarded_on hq _).trans (withSlot_outside _ h))

variable {n : Nat} (hn : (s.x a).toNat % 1024 = n) (hrange : s.spadOk (2048 * n) 2048 = true)
include hn hrange

theorem exec_tinv_inside : exec (.tinv a q) s = .next (if (tget {} s.core.copy.tags n : TagEntry).lock then s
    else s.setTag n fun t => { t with valid := false, reads := 0 }) := by
  subst hn
  exact congrArg Host.Outcome.next ((State.guarded_on hq _).trans (withSlot_inside _ hrange))

theorem exec_tlock_inside : exec (.tlock d a q) s = .next (if (tget {} s.core.copy.tags n : TagEntry).lock then s.setX d 1 1
    else if (s.ctx s.bound.ctx).lockq.toNat ≤ s.locksHeld s.bound.ctx then s.setX d 2 1
    else (s.setTag n fun t => { t with lock := true, owner := s.resNo }).setX d 0 1) := by
  subst hn
  exact congrArg Host.Outcome.next ((State.guarded_on hq _).trans (withSlot_inside _ hrange))

theorem exec_tunlock_inside : exec (.tunlock d a q) s = .next (if (tget {} s.core.copy.tags n : TagEntry).lock
    then (s.setTag n fun t => { t with lock := false }).setX d 0 1 else s.setX d 1 1) := by
  subst hn
  exact congrArg Host.Outcome.next ((State.guarded_on hq _).trans (withSlot_inside _ hrange))

theorem exec_tevict_invalid (hvalid : (tget {} s.core.copy.tags n : TagEntry).valid = false) : exec (.tevict a q) s = .next s := by
  subst hn
  exact congrArg Host.Outcome.next ((State.guarded_on hq _).trans ((withSlot_inside _ hrange).trans (if_pos (by simp [hvalid]))))

end

/-! ### Granules (R195) -/

/-- A side of 2 KiB. -/
def granule (glob : Bool) (base : Nat) (inc : BitVec 16) : Side := { glob := glob, base := base, lo := base, hi := base + 2048, inc := inc }

theorem granule_range (glob : Bool) (base : Nat) (inc : BitVec 16) : (granule glob base inc).range = [⟨glob, base, base + 2048⟩] :=
  if_pos (by simp [granule])

theorem sidePages_spad (base : Nat) (inc : BitVec 16) : State.sidePages (granule false base inc) = [] := rfl

/-- An aligned granule lies in one page. -/
theorem sidePages_glob {base : Nat} (inc : BitVec 16) (h : base % 2048 = 0) : State.sidePages (granule true base inc) = [base] := by
  have hpages : (base + 2048 - 1) / 65536 - base / 65536 + 1 = 1 := by omega
  have hpage : max base ((base / 65536 + 0) * 65536) = base := by omega
  rw [State.sidePages, if_pos (by simp [granule])]
  change (List.range ((base + 2048 - 1) / 65536 - base / 65536 + 1)).map (fun i => max base ((base / 65536 + i) * 65536)) = [base]
  rw [hpages]
  exact congrArg (fun x => [x]) hpage

/-- R195: what TFILL of the granule at `ia` by the operand `w` makes of an entry. -/
def TagEntry.filled (w ia own : Nat) (t : TagEntry) : TagEntry :=
  { t with tag := ia / 2048, tid := fld w 26 8, reads := fld w 10 16, owner := own, valid := false }

/-- The one page of a granule of this device is there. -/
theorem walkPages_granule {s u : State} {ia pa : Nat} {m : Bool} (inc : Nat → BitVec 16) (k : State → State) (hlocal : s.isRemote ia = false)
    (hwalk : s.walk s.myDie ia = (u, .page pa m)) : State.walkPages inc k [ia] s = k u := by
  rw [State.walkPages, if_neg (by simp [hlocal]), State.withPage_page _ hwalk, State.walkPages]

/-- The job between a slot and a granule, as it stands in the queue. -/
theorem enqueue_slotJob (u : State) (dir : JobDir) (n : Nat) (src dst : Side) : ∃ j,
    (u.enqueue (slotJob dir n) src dst).core.copy.jobs = u.core.copy.jobs ++ [j] ∧
    j.dir = dir ∧ j.src = src.base ∧ j.dst = dst.base ∧ j.slot = n ∧ j.foot = { reads := src.range, writes := dst.range } :=
  ⟨_, rfl, rfl, rfl, rfl, rfl, rfl⟩

/-- R195, R218: a job between a slot and a granule of this device, in a launch that is not deterministic and a queue with room. -/
theorem issue_slotJob {s u : State} {ia pa : Nat} {m : Bool} (dir : JobDir) (n : Nat) {src dst : Side} (commit : State → State)
    (hpages : State.sidePages src ++ State.sidePages dst = [ia]) (hlocal : s.isRemote ia = false) (hwalk : s.walk s.myDie ia = (u, .page pa m))
    (hdet : s.det = false) (hroom : s.core.copy.jobs.length < 16) :
    s.issueJob (slotJob dir n) src dst commit = (commit u).enqueue (slotJob dir n) src dst ∧ u.core = s.core := by
  obtain ⟨hcore, -, -⟩ := State.walk_frame hwalk
  refine ⟨State.issueJob_of_ready (slotJob dir n) commit (fun k => ?_) (by rw [State.det, hcore]; exact hdet) (by rwa [hcore]), hcore⟩
  rw [hpages]
  exact walkPages_granule _ k hlocal hwalk

section

variable {s u : State} (a b : BitVec 6) {q : BitVec 3} (hq : s.sqOn q = true) {pa : Nat} {m : Bool}
include hq

theorem exec_tfill_misaligned {c : Access} (hc : (s.ctx s.bound.ctx).translate? (s.x a).toNat .rd = some c) (halign : c.ia % 2048 ≠ 0) :
    exec (.tfill a b q) s = .next (s.misalign (s.x a) 2048) := by
  refine congrArg Host.Outcome.next ((State.guarded_on hq _).trans ?_)
  simp only [hc, if_pos halign]

variable {n : Nat}

theorem exec_tfill_starts {c : Access} (hc : (s.ctx s.bound.ctx).translate? (s.x a).toNat .rd = some c) (halign : c.ia % 2048 = 0)
    (hn : (s.x b).toNat % 1024 = n) (hrange : s.spadOk (2048 * n) 2048 = true) (hlocal : s.isRemote c.ia = false)
    (hwalk : s.walk s.myDie c.ia = (u, .page pa m)) (hdet : s.det = false) (hroom : s.core.copy.jobs.length < 16) :
    u.core = s.core ∧ exec (.tfill a b q) s = .next ((u.setTag n (TagEntry.filled (s.x b).toNat c.ia u.resNo)).enqueue (slotJob .tfill n)
      (granule true c.ia c.inc) (granule false (2048 * n) 0)) := by
  subst hn
  obtain ⟨hissue, hcore⟩ := issue_slotJob .tfill ((s.x b).toNat % 1024) (fun u => u.setTag ((s.x b).toNat % 1024) (TagEntry.filled (s.x b).toNat c.ia u.resNo))
    (src := granule true c.ia c.inc) (dst := granule false (2048 * ((s.x b).toNat % 1024)) 0)
    (by rw [sidePages_glob _ halign, sidePages_spad]; rfl) hlocal hwalk hdet hroom
  refine ⟨hcore, congrArg Host.Outcome.next ((State.guarded_on hq _).trans ?_)⟩
  simp only [hc, if_neg (not_not.mpr halign)]
  exact (withSlot_inside _ hrange).trans hissue

theorem exec_tevict_starts {t : TagEntry} (hn : (s.x a).toNat % 1024 = n) (ht : tget {} s.core.copy.tags n = t) (hrange : s.spadOk (2048 * n) 2048 = true)
    (hvalid : t.valid = true) (hconst : s.constGranule (t.tag * 2048) = none) (hlocal : s.isRemote (t.tag * 2048) = false)
    (hwalk : s.walk s.myDie (t.tag * 2048) = (u, .page pa m)) (hdet : s.det = false) (hroom : s.core.copy.jobs.length < 16) :
    u.core = s.core ∧ exec (.tevict a q) s = .next (u.enqueue (slotJob .tevict n) (granule false (2048 * n) 0)
      (granule true (t.tag * 2048) (s.peer (s.holderOf (t.tag * 2048))).inc)) := by
  subst hn ht
  obtain ⟨hissue, hcore⟩ := issue_slotJob .tevict ((s.x a).toNat % 1024) id (src := granule false (2048 * ((s.x a).toNat % 1024)) 0)
    (dst := granule true ((tget {} s.core.copy.tags ((s.x a).toNat % 1024) : TagEntry).tag * 2048)
      (s.peer (s.holderOf ((tget {} s.core.copy.tags ((s.x a).toNat % 1024) : TagEntry).tag * 2048))).inc)
    (by rw [sidePages_glob _ (Nat.mul_mod_left _ _), sidePages_spad]; rfl) hlocal hwalk hdet hroom
  refine ⟨hcore, congrArg Host.Outcome.next ((State.guarded_on hq _).trans ((withSlot_inside _ hrange).trans ?_))⟩
  simp only [hvalid, hconst]
  exact hissue

end

/-- Settles O30: TLOOK by the search of the table, the entry's commands by its bits, TFILL and TEVICT by the job that they queue. -/
theorem tagTable : Obligations.TagTable := by
  unfold Obligations.TagTable
  refine ⟨fun s d a q hq => ⟨exec_tlook_noWindow d a hq, fun c hc => ⟨exec_tlook_miss d a hq hc, fun n t => exec_tlook_hit d a hq hc⟩,
      exec_tagOps_outside d a hq, fun hrange => ?inside⟩,
    fun s u a b q c pa m hq => ⟨exec_tfill_misaligned a b hq, fun hc halign hrange hlocal hwalk hdet hroom => ?tfill,
      fun hrange hvalid hconst hlocal hwalk hdet hroom => ?tevict⟩⟩
  case inside =>
    have htinv := exec_tinv_inside a hq rfl hrange
    have htlock := exec_tlock_inside d a hq rfl hrange
    have htunlock := exec_tunlock_inside d a hq rfl hrange
    refine ⟨fun hlock => ⟨htinv.trans (congrArg _ (if_pos hlock)), htlock.trans (congrArg _ (if_pos hlock)), ?_⟩,
      fun hfree => ?_, exec_tevict_invalid a hq rfl hrange⟩
    · obtain ⟨t, hexec, htag, hflight, -⟩ := completes_setTag (htunlock.trans (congrArg _ (if_pos hlock)))
      exact ⟨t, hexec, htag, hflight⟩
    · have hunlocked := hfree.trans_ne Bool.false_ne_true
      refine ⟨htunlock.trans (congrArg _ (if_neg hunlocked)), ⟨_, htinv.trans (congrArg _ (if_neg hunlocked)), tag_setTag_same s _ _,
        fun m hm => tag_setTag_ne s _ hm, rfl, rfl⟩, fun hquota => ?_, fun hquota => ?_⟩
      · exact htlock.trans (congrArg _ ((if_neg hunlocked).trans (if_pos hquota)))
      · exact completes_setTag (htlock.trans (congrArg _ ((if_neg hunlocked).trans (if_neg (Nat.not_le_of_lt hquota)))))
  case tfill =>
    obtain ⟨hcore, hexec⟩ := exec_tfill_starts a b hq hc halign rfl hrange hlocal hwalk hdet hroom
    refine ⟨_, hexec, ?_, ?_, (congrArg Core.spad hcore :)⟩
    · obtain ⟨j, hjobs, hdir, hsrc, hdst, hslot, hfoot⟩ := enqueue_slotJob (u.setTag _ _) .tfill _ (granule true c.ia c.inc) (granule false (2048 * _) 0)
      exact ⟨j, hjobs.trans (congrArg (fun k : Core => k.copy.jobs ++ [j]) hcore :), hdir, hsrc, hdst, hslot,
        hfoot.trans (by rw [granule_range, granule_range])⟩
    · refine (tag_setTag_same u _ _).trans ?_
      rw [State.resNo, State.bound, hcore]
      rfl
  case tevict =>
    obtain ⟨hcore, hexec⟩ := exec_tevict_starts a hq rfl rfl hrange hvalid hconst hlocal hwalk hdet hroom
    obtain ⟨j, hjobs, hdir, hsrc, hdst, hslot, -⟩ := enqueue_slotJob u .tevict _ _ _
    exact ⟨_, hexec, ⟨j, hjobs.trans (congrArg (fun k : Core => k.copy.jobs ++ [j]) hcore :), hdir, hsrc, hdst, hslot⟩,
      (congrArg (fun k : Core => k.copy.tags) hcore :), (congrArg Core.spad hcore :)⟩

end Sys2Proof.Machine
end

section
/-! Barriers (spec 09_cluster.md R251 to R254): the messages of BARR and BARM, the answer of BARW, and the root of a group. -/

namespace Sys2Proof.Machine

/-! ### The reserved bits of a BARM value (R252) -/

/-- The bits of a word under the mask of one field are 0 exactly when the field is. -/
theorem and_fieldMask_eq_zero {w m : Word} {lo n : Nat} (hm : m.toNat = (2 ^ n - 1) * 2 ^ lo) : w &&& m = 0 ↔ fld w.toNat lo n = 0 := by
  have hfield : (w.toNat &&& m.toNat) / 2 ^ lo = fld w.toNat lo n := by
    rw [Nat.and_div_two_pow, hm, Nat.mul_div_cancel _ (Nat.two_pow_pos lo), Nat.and_two_pow_sub_one_eq_mod, fld]
  have hbelow : (w.toNat &&& m.toNat) % 2 ^ lo = 0 := by
    rw [Nat.and_mod_two_pow, hm, Nat.mul_mod_left, Nat.and_zero]
  rw [← BitVec.toNat_inj, BitVec.toNat_and, ← hfield]
  change _ = 0 ↔ _
  have hsplit := Nat.div_add_mod (w.toNat &&& m.toNat) (2 ^ lo)
  rw [hbelow, Nat.add_zero] at hsplit
  constructor
  · intro h
    rw [h, Nat.zero_div]
  · intro h
    rw [← hsplit, h, Nat.mul_zero]

/-- The reserved bits of a BARM value: from 48 up and [31:22], and for a group of the package [21:4] besides. -/
def barmReserved (g : Nat) : Word := if g < 64 then 0xFFFF0000FFC00000 else 0xFFFF0000FFFFFFF0

theorem and_barmReserved_eq_zero (g : Nat) (w : Word) : w &&& barmReserved g = 0 ↔
    w.toNat < 2 ^ 48 ∧ w.toNat / 2 ^ 22 % 2 ^ 10 = 0 ∧ (64 ≤ g → w.toNat / 2 ^ 4 % 2 ^ 18 = 0) := by
  have hpair (m k : Word) : w &&& (m ||| k) = 0 ↔ w &&& m = 0 ∧ w &&& k = 0 := by
    rw [BitVec.and_or_distrib_left]
    exact BitVec.or_eq_zero_iff
  have hhigh : w &&& 0xFFFF000000000000 = 0 ↔ fld w.toNat 48 16 = 0 := and_fieldMask_eq_zero rfl
  have hw := w.isLt
  rw [barmReserved]
  split
  · have hlow : w &&& 0xFFC00000 = 0 ↔ fld w.toNat 22 10 = 0 := and_fieldMask_eq_zero rfl
    rw [show (0xFFFF0000FFC00000 : Word) = 0xFFFF000000000000 ||| 0xFFC00000 from rfl, hpair, hhigh, hlow, fld, fld]
    omega
  · have hlow : w &&& 0xFFFFFFF0 = 0 ↔ fld w.toNat 4 28 = 0 := and_fieldMask_eq_zero rfl
    rw [show (0xFFFF0000FFFFFFF0 : Word) = 0xFFFF000000000000 ||| 0xFFFFFFF0 from rfl, hpair, hhigh, hlow, fld, fld]
    omega

section

variable {s : State} (d : BitVec 6) (g : BitVec 7)

/-- A value with a reserved bit, or with members but no mask, is ILLEGAL; any other leaves for the root. -/
theorem exec_barm : exec (.barm d g) s = .next (if s.x d &&& barmReserved g.toNat ≠ 0 ∨ fld (s.x d).toNat 32 16 ≠ 0 ∧ fld (s.x d).toNat 0 22 = 0
    then s.illegal else s.toSpire g (some (s.x d)) 0) := by
  refine congrArg Host.Outcome.next (if_congr ?_ rfl rfl)
  change (s.x d &&& barmReserved g.toNat != 0 || fld (s.x d).toNat 32 16 != 0 && fld (s.x d).toNat 0 22 == 0) = true ↔ _
  simp only [Bool.or_eq_true, Bool.and_eq_true, bne_iff_ne, beq_iff_eq]

/-! ### BARR and BARW (R253, R254) -/

/-- One arrival leaves the core, and the bundle ends its region; the register that the reply writes changes nothing yet. -/
theorem completes_barr : Completes (.barr d g) s fun t =>
    t.core.spireOut = s.core.spireOut ++ [⟨g.toNat, none, d.toNat, if g.toNat < 64 then 64 else 192⟩] ∧
      t.core.regs = s.core.regs ∧ t.core.flight = s.core.flight ∧ t.mem = s.mem ∧ EndsRegion t := by
  have hends : EndsRegion ((s.lineDest d).toSpire g none d).endRegion := by
    intro r hr
    obtain ⟨r', -, rfl⟩ := Option.map_eq_some_iff.mp hr
    rfl
  refine ⟨_, rfl, ?_⟩
  rw [State.lineDest] at hends ⊢
  split at hends
  · next h => rw [if_pos h]; exact ⟨rfl, rfl, rfl, rfl, hends⟩
  · next h => rw [if_neg h]; exact ⟨rfl, rfl, rfl, rfl, hends⟩

theorem exec_barw_passes {w : Word} (h : s.barrierResult g.toNat (s.x d) = some w) : exec (.barw d g) s = .next (s.setX d w 1) := by
  change execBarw d g s = _
  rw [execBarw, h]

theorem exec_barw_holds (h : s.barrierResult g.toNat (s.x d) = none) : exec (.barw d g) s = .next s.hold := by
  change execBarw d g s = _
  rw [execBarw, h]

end

section

variable {s : State} {g : Nat} {x : Word} {m : SpireGroup} (hm : (tget {} (s.cluster (clusterOf s.coreId)).mirror g : SpireGroup) = m)
include hm

theorem barrierResult_past (h : x.toNat < m.gen.toNat) : s.barrierResult g x = some m.gen := by
  subst hm
  exact if_pos h

variable (hnot : m.gen.toNat ≤ x.toNat)
include hnot

theorem barrierResult_unawaited (h : x = BitVec.allOnes 64 ∨ m.n = 0) : s.barrierResult g x = some (BitVec.allOnes 64) := by
  subst hm
  exact (if_neg (Nat.not_lt.mpr hnot)).trans (if_pos h)

theorem barrierResult_awaited (hx : x ≠ BitVec.allOnes 64) (hn : m.n ≠ 0) : s.barrierResult g x = none := by
  subst hm
  exact (if_neg (Nat.not_lt.mpr hnot)).trans (if_neg (not_or.mpr ⟨hx, hn⟩))

end

/-! ### The root of a group (R251 to R253) -/

namespace SpireGroup

variable {g : SpireGroup}

theorem arrive_incomplete (h : g.arrived + 1 ≠ g.n) : g.arrive = { g with arrived := g.arrived + 1 } := if_neg h

theorem arrive_complete (h : g.arrived + 1 = g.n) (hstaged : g.staged = none) : g.arrive = { g with gen := g.gen + 1, arrived := 0 } := by
  rw [arrive, if_pos h, hstaged]

theorem arrive_complete_staged {n : BitVec 16} {m : BitVec 22} (h : g.arrived + 1 = g.n) (hstaged : g.staged = some (n, m)) :
    g.arrive = { gen := g.gen + 1, n := n, mask := m, arrived := 0, staged := none } := by
  rw [arrive, if_pos h, hstaged]

theorem configure_eq (w : Word) : g.configure w = if w.extractLsb' 32 16 = 0 then { g with arrived := 0, staged := none, n := 0 }
    else if g.arrived = 0 then { g with n := w.extractLsb' 32 16, mask := w.extractLsb' 0 22, staged := none }
    else { g with staged := some (w.extractLsb' 32 16, w.extractLsb' 0 22) } := by
  have hn : BitVec.ofNat 16 (fld w.toNat 32 16) = w.extractLsb' 32 16 := (extractLsb'_eq_of_toNat (by simp [fld])).symm
  have hm : BitVec.ofNat 22 (fld w.toNat 0 22) = w.extractLsb' 0 22 := (extractLsb'_eq_of_toNat (by simp [fld])).symm
  rw [configure, hn, hm]

end SpireGroup

/-- Settles O33: BARR and BARM by the message that they send, BARW by where GEN stands, the root by its count of arrivals. -/
theorem barrierInstructions : Obligations.BarrierInstructions := by
  unfold Obligations.BarrierInstructions
  refine ⟨fun s d g => ⟨completes_barr d g, fun h => exec_barw_passes d g (barrierResult_past rfl h),
      fun hnot h => exec_barw_passes d g (barrierResult_unawaited rfl hnot h), fun hnot hx hn => exec_barw_holds d g (barrierResult_awaited rfl hnot hx hn),
      fun h48 h22 h4 hmask => (exec_barm d g).trans (congrArg _ (if_neg ?_)), fun h => (exec_barm d g).trans (congrArg _ (if_pos ?_))⟩,
    fun g w => ⟨SpireGroup.arrive_incomplete, SpireGroup.arrive_complete, fun n m => SpireGroup.arrive_complete_staged, ?_, ?_, ?_⟩⟩
  · rw [ne_eq, and_barmReserved_eq_zero, fld, fld]
    omega
  · rw [ne_eq, and_barmReserved_eq_zero, fld, fld]
    omega
  · intro hn
    rw [SpireGroup.configure_eq, if_pos hn]
  · intro hn harrived
    rw [SpireGroup.configure_eq, if_neg hn, if_pos harrived]
  · intro hn harrived
    rw [SpireGroup.configure_eq, if_neg hn, if_neg harrived]

end Sys2Proof.Machine
end

section
/-! Fused groups and the line of a cluster (spec 09_cluster.md R240 to R246): the group of a core, the waits of FUSE and REJN, and how they end. -/

namespace Sys2Proof.Machine

theorem mem_members {m : BitVec 4} {j : Nat} : j ∈ members m ↔ j < 4 ∧ m.getLsbD j = true := by
  rw [members, List.mem_filter, List.mem_range]

theorem modFirst_of_none {α : Type} {p : α → Bool} (f : α → α) {l : List α} (h : ∀ x ∈ l, p x = false) : modFirst p f l = l := by
  induction l with
  | nil => rfl
  | cons x xs ih =>
    obtain ⟨hx, hxs⟩ := List.forall_mem_cons.mp h
    rw [modFirst, if_neg (by rw [hx]; exact Bool.false_ne_true), ih hxs]

namespace Cluster

variable {c : Cluster} {n : Nat}

/-! ### The group of a core (R240) -/

theorem groupOf_eq_none_iff : c.groupOf n = none ↔ ∀ g ∈ c.groups, g.mask.getLsbD n = false := by
  simp only [groupOf, List.find?_eq_none, Bool.not_eq_true]

theorem groupOf_isSome_iff : (c.groupOf n).isSome = true ↔ ∃ g ∈ c.groups, g.mask.getLsbD n = true := by
  rw [groupOf, List.find?_isSome]

theorem groupOf_of_only {g : FuseGroup} (hgroups : c.groups = [g]) (hmask : g.mask.getLsbD n = true) : c.groupOf n = some g := by
  rw [groupOf, hgroups]
  exact List.find?_cons_of_pos hmask

theorem modGroup_outside (f : FuseGroup → FuseGroup) (h : ∀ g ∈ c.groups, g.mask.getLsbD n = false) : (c.modGroup n f).groups = c.groups :=
  modFirst_of_none f h

theorem modGroup_only (f : FuseGroup → FuseGroup) {g : FuseGroup} (hgroups : c.groups = [g]) (hmask : g.mask.getLsbD n = true) :
    (c.modGroup n f).groups = [f g] := by
  change modFirst _ f c.groups = _
  rw [hgroups]
  exact if_pos hmask

/-! ### How a FUSE wait ends (R242) -/

/-- Does core `j` refuse the wait, as a member of a group or by another FUSE? -/
def refuses (c : Cluster) (mask : BitVec 4) (addr j : Nat) : Bool :=
  (c.groupOf j).isSome || (match tget? c.line j with
    | some (.fuse m a _ _) => m != mask || a != addr
    | _ => false)

/-- Does core `j` wait in the same FUSE? -/
def agrees (c : Cluster) (mask : BitVec 4) (addr j : Nat) : Bool :=
  match tget? c.line j with
  | some (.fuse m a _ _) => m == mask && a == addr
  | _ => false

variable {i j : Nat} {mask : BitVec 4} {addr : Nat}

theorem refuses_iff : c.refuses mask addr j = true ↔ (∃ g ∈ c.groups, g.mask.getLsbD j = true) ∨
    ∃ m x d t, tget? c.line j = some (.fuse m x d t) ∧ (m ≠ mask ∨ x ≠ addr) := by
  rw [refuses, Bool.or_eq_true, groupOf_isSome_iff]
  refine or_congr_right ?_
  split
  · next m a d t hline => simp [hline]
  · next hline =>
    refine iff_of_false Bool.false_ne_true ?_
    rintro ⟨m, x, d, t, h, -⟩
    exact hline m x d t h

theorem agrees_iff : c.agrees mask addr j = true ↔ ∃ d t, tget? c.line j = some (.fuse mask addr d t) := by
  rw [agrees]
  split
  · next m a d t hline => simp [hline]
  · next hline =>
    refine iff_of_false Bool.false_ne_true ?_
    rintro ⟨d, t, h⟩
    exact hline mask addr d t h

theorem fuseEnd_eq : c.fuseEnd i mask addr = if ((members mask).filter (· != i)).any (c.refuses mask addr) then some 1
    else if ((members mask).filter (· != i)).all (c.agrees mask addr) then some 0 else none := rfl

theorem mem_others : j ∈ (members mask).filter (· != i) ↔ j < 4 ∧ j ≠ i ∧ mask.getLsbD j = true := by
  rw [List.mem_filter, mem_members, bne_iff_ne]
  tauto

theorem fuseEnd_of_refused (h : ∃ j, j < 4 ∧ j ≠ i ∧ mask.getLsbD j = true ∧ c.refuses mask addr j = true) : c.fuseEnd i mask addr = some 1 := by
  obtain ⟨j, hj, hne, hmask, href⟩ := h
  exact fuseEnd_eq.trans (if_pos (List.any_eq_true.mpr ⟨j, mem_others.mpr ⟨hj, hne, hmask⟩, href⟩))

/-- Where no other core refuses, all of them must wait alike. -/
theorem fuseEnd_of_unrefused (h : ∀ j, j < 4 → j ≠ i → mask.getLsbD j = true → c.refuses mask addr j = false) :
    c.fuseEnd i mask addr = if ((members mask).filter (· != i)).all (c.agrees mask addr) then some 0 else none := by
  rw [fuseEnd_eq, if_neg]
  rw [List.any_eq_true]
  rintro ⟨j, hj, href⟩
  obtain ⟨hlt, hne, hmask⟩ := mem_others.mp hj
  exact Bool.false_ne_true ((h j hlt hne hmask).symm.trans href)

theorem fuseEnd_of_agreed (h : ∀ j, j < 4 → j ≠ i → mask.getLsbD j = true →
    (∀ g ∈ c.groups, g.mask.getLsbD j = false) ∧ ∃ d t, tget? c.line j = some (.fuse mask addr d t)) : c.fuseEnd i mask addr = some 0 := by
  rw [fuseEnd_of_unrefused]
  · refine if_pos (List.all_eq_true.mpr fun j hj => ?_)
    obtain ⟨hlt, hne, hmask⟩ := mem_others.mp hj
    exact agrees_iff.mpr (h j hlt hne hmask).2
  · intro j hlt hne hmask
    obtain ⟨hfree, d, t, hline⟩ := h j hlt hne hmask
    rw [← Bool.not_eq_true, refuses_iff]
    rintro (⟨g, hg, hbit⟩ | ⟨m, x, d', t', hother, hdiff⟩)
    · simp [hfree g hg] at hbit
    · rw [hline] at hother
      cases hother
      simp at hdiff

theorem fuseEnd_of_absent (h : ∀ j, j < 4 → j ≠ i → mask.getLsbD j = true → (∀ g ∈ c.groups, g.mask.getLsbD j = false) ∧ tget? c.line j = none)
    (hsome : ∃ j, j < 4 ∧ j ≠ i ∧ mask.getLsbD j = true) : c.fuseEnd i mask addr = none := by
  rw [fuseEnd_of_unrefused]
  · obtain ⟨j, hlt, hne, hmask⟩ := hsome
    refine if_neg fun hall => ?_
    obtain ⟨d, t, hline⟩ := agrees_iff.mp (List.all_eq_true.mp hall j (mem_others.mpr ⟨hlt, hne, hmask⟩))
    rw [(h j hlt hne hmask).2] at hline
    cases hline
  · intro j hlt hne hmask
    obtain ⟨hfree, hnone⟩ := h j hlt hne hmask
    rw [← Bool.not_eq_true, refuses_iff]
    rintro (⟨g, hg, hbit⟩ | ⟨m, x, d, t, hother, -⟩)
    · simp [hfree g hg] at hbit
    · simp [hnone] at hother

/-! ### How a REJN wait ends (R246) -/

/-- The address with which core `j` waits in a REJN. -/
def rejnAt (c : Cluster) (j : Nat) : Option Nat :=
  match tget? c.line j with
  | some (.rejn a _) => some a
  | _ => none

theorem rejnAt_eq_some {x d : Nat} (h : tget? c.line j = some (.rejn x d)) : c.rejnAt j = some x := by
  rw [rejnAt, h]

theorem rejnAt_eq_none (h : tget? c.line j = none) : c.rejnAt j = none := by
  rw [rejnAt, h]

variable {g : FuseGroup}

theorem rejnEnd_eq : c.rejnEnd (some g) addr = if (members g.mask).all fun j => (c.rejnAt j).isSome
    then some (if (members g.mask).all fun j => c.rejnAt j == some addr then 0 else 1) else none := rfl

theorem rejnEnd_of_all (h : ∀ j, j < 4 → g.mask.getLsbD j = true → ∃ x d, tget? c.line j = some (.rejn x d)) :
    c.rejnEnd (some g) addr = some (if (members g.mask).all fun j => c.rejnAt j == some addr then 0 else 1) := by
  refine rejnEnd_eq.trans (if_pos (List.all_eq_true.mpr fun j hj => ?_))
  obtain ⟨hlt, hmask⟩ := mem_members.mp hj
  obtain ⟨x, d, hline⟩ := h j hlt hmask
  exact Option.isSome_iff_exists.mpr ⟨x, rejnAt_eq_some hline⟩

theorem rejnEnd_of_one_addr (h : ∀ j, j < 4 → g.mask.getLsbD j = true → ∃ d, tget? c.line j = some (.rejn addr d)) :
    c.rejnEnd (some g) addr = some 0 := by
  rw [rejnEnd_of_all fun j hlt hmask => ⟨addr, h j hlt hmask⟩, if_pos]
  refine List.all_eq_true.mpr fun j hj => ?_
  obtain ⟨hlt, hmask⟩ := mem_members.mp hj
  obtain ⟨d, hline⟩ := h j hlt hmask
  exact beq_iff_eq.mpr (rejnAt_eq_some hline)

theorem rejnEnd_of_other_addr (h : ∀ j, j < 4 → g.mask.getLsbD j = true → ∃ x d, tget? c.line j = some (.rejn x d))
    (hother : ∃ j x d, j < 4 ∧ g.mask.getLsbD j = true ∧ tget? c.line j = some (.rejn x d) ∧ x ≠ addr) : c.rejnEnd (some g) addr = some 1 := by
  obtain ⟨j, x, d, hlt, hmask, hline, hne⟩ := hother
  rw [rejnEnd_of_all h, if_neg]
  intro hall
  have haddr := beq_iff_eq.mp (List.all_eq_true.mp hall j (mem_members.mpr ⟨hlt, hmask⟩))
  rw [rejnAt_eq_some hline] at haddr
  exact hne (Option.some.inj haddr)

theorem rejnEnd_of_missing (h : ∃ j, j < 4 ∧ g.mask.getLsbD j = true ∧ tget? c.line j = none) : c.rejnEnd (some g) addr = none := by
  obtain ⟨j, hlt, hmask, hline⟩ := h
  rw [rejnEnd_eq, if_neg]
  intro hall
  have hsome := List.all_eq_true.mp hall j (mem_members.mpr ⟨hlt, hmask⟩)
  rw [rejnAt_eq_none hline] at hsome
  exact Bool.false_ne_true hsome

end Cluster

/-! ### FUSE, DECPL and REJN (R242, R245, R246) -/

/-- The bundle that issues carries the wait to its end, and nothing else that the syllable may change has changed. -/
def WaitIssued (s t : State) (w : LineWait) : Prop :=
  (∀ r, s.core.front.run = some r → ∃ r', t.core.front.run = some r' ∧ r'.line = some w ∧ r'.todo = r.todo ∧ r'.addr = r.addr) ∧
    t.clusters = s.clusters ∧ t.core.regs = s.core.regs ∧ t.core.flight = s.core.flight ∧ t.mem = s.mem

namespace State

variable (s : State)

theorem waitIssued_joinLine (d : BitVec 6) (w : LineWait) : WaitIssued s ((s.lineDest d).joinLine w) w := by
  by_cases hd : d = 0
  · rw [lineDest, if_pos hd]
    refine ⟨fun r hr => ⟨{ r with line := some w }, ?_, rfl, rfl, rfl⟩, rfl, rfl, rfl, rfl⟩
    rw [joinLine, modRun_core_front, hr]
    rfl
  · rw [lineDest, if_neg hd]
    refine ⟨fun r hr => ⟨{ r with wrote := .x d.toNat 0 :: r.wrote, line := some w }, ?_, rfl, rfl, rfl⟩, rfl, rfl, rfl, rfl⟩
    rw [joinLine, modRun_core_front, modRun_core_front, hr]
    rfl

theorem cluster_modCluster_same (k : Nat) (f : Cluster → Cluster) : (s.modCluster k f).cluster k = f (s.cluster k) :=
  tget_tmod_same (α := Cluster) {} s.clusters k f

/-- A core that waits stands on the line of its cluster. -/
theorem line_waitOn (w : LineWait) : tget? ((s.waitOn w).cluster (clusterOf s.coreId)).line (lowCore s.coreId) = some w := by
  rw [waitOn, cluster_modCluster_same]
  exact tget?_tset_same _ _ w

end State

section

variable {s : State} (d a : BitVec 6)

/-- A FUSE is legal in a core of one of the three masks that is in no group. -/
theorem exec_fuse {m : BitVec 4} (hm : (s.x a).truncate 4 = m) : exec (.fuse d a) s = .next
    (if (m ≠ 3 ∧ m ≠ 12 ∧ m ≠ 15) ∨ m.getLsbD (lowCore s.coreId) = false ∨
        ∃ g ∈ (s.cluster (clusterOf s.coreId)).groups, g.mask.getLsbD (lowCore s.coreId) = true
      then s.illegal else (s.lineDest d).joinLine (.fuse m s.bundleAddr d.toNat s.time)) := by
  subst hm
  change execFuse d a s = _
  rw [execFuse, BitVec.ofNat_toNat]
  refine congrArg Host.Outcome.next (if_congr ?_ rfl rfl)
  simp only [Bool.or_eq_true, Cluster.groupOf_isSome_iff, Bool.not_eq_true', Bool.or_eq_false_iff, beq_eq_false_iff_ne, and_assoc, or_assoc]

theorem exec_rejn_outside (h : ∀ g ∈ (s.cluster (clusterOf s.coreId)).groups, g.mask.getLsbD (lowCore s.coreId) = false) :
    exec (.rejn d) s = .next (s.setX d 2 1) := by
  change execRejn d s = _
  rw [execRejn, Cluster.groupOf_eq_none_iff.mpr h]

theorem exec_rejn_member {g : FuseGroup} (hg : (s.cluster (clusterOf s.coreId)).groupOf (lowCore s.coreId) = some g) :
    exec (.rejn d) s = .next ((s.lineDest d).joinLine (.rejn s.bundleAddr d.toNat)) := by
  change execRejn d s = _
  rw [execRejn, hg]

/-- The mark that DECPL leaves at its core's group. -/
def FuseGroup.markSplit (n : Nat) (g : FuseGroup) : FuseGroup := if g.coupled.getLsbD n = true then { g with split := true } else g

theorem exec_decpl : exec .decpl s = .next (s.modCluster (clusterOf s.coreId) fun c =>
    c.modGroup (lowCore s.coreId) (FuseGroup.markSplit (lowCore s.coreId))) := rfl

end

/-- Settles O32: the syllables by the group of their core, the ends of the waits by what the other cores of the mask or the group do on the line. -/
theorem fuseInstructions : Obligations.FuseInstructions := by
  unfold Obligations.FuseInstructions
  refine ⟨fun s d a => ⟨fun hmask hself hfree => ?fuse, fun hbad => (exec_fuse d a rfl).trans (congrArg _ (if_pos hbad)),
      fun hfree => ⟨exec_rejn_outside d hfree, _, exec_decpl, ?decplOutside, rfl⟩, fun g hgroups hmember => ⟨?rejn, _, exec_decpl, rfl, rfl, ?decplMember⟩,
      fun w => ⟨s.line_waitOn w, rfl, rfl⟩⟩,
    fun c i mask addr => ⟨Cluster.fuseEnd_of_agreed, ?refused, Cluster.fuseEnd_of_absent, fun _ => Cluster.rejnEnd_of_one_addr,
      fun _ => Cluster.rejnEnd_of_other_addr, fun _ => Cluster.rejnEnd_of_missing⟩⟩
  case fuse =>
    refine ⟨_, (exec_fuse d a rfl).trans (congrArg _ (if_neg ?_)), s.waitIssued_joinLine d _⟩
    rintro (hno | hno | ⟨g, hg, hbit⟩)
    · tauto
    · exact Bool.false_ne_true (hno.symm.trans hself)
    · exact Bool.false_ne_true ((hfree g hg).symm.trans hbit)
  case decplOutside =>
    rw [State.cluster_modCluster_same]
    exact Cluster.modGroup_outside _ hfree
  case rejn => exact ⟨_, exec_rejn_member d (Cluster.groupOf_of_only hgroups hmember), s.waitIssued_joinLine d _⟩
  case decplMember =>
    rw [State.cluster_modCluster_same]
    exact Cluster.modGroup_only _ hgroups hmember
  case refused =>
    rintro ⟨j, hlt, hne, hmask, h⟩
    exact Cluster.fuseEnd_of_refused ⟨j, hlt, hne, hmask, Cluster.refuses_iff.mpr h⟩

end Sys2Proof.Machine
end

section
/-! Events of channels, of the spire and of the line (spec 09_cluster.md R242, R251 to R255; 15_collectives_network.md R373 to R380; 03_scalar_control.md R99),
where their conditions hold. -/

namespace Sys2Proof.Machine

namespace State

variable {s : State} {core ch : Nat}

/-! ### Channel operations at an entry -/

/-- A change of a core counts by what it does to the core that is there. -/
theorem modCoreAt_congr {n : Nat} {f g : Core → Core} (h : f (s.coreAt n) = g (s.coreAt n)) : s.modCoreAt n f = s.modCoreAt n g := by
  rw [coreAt] at h
  rw [modCoreAt, modCoreAt]
  split at h
  · next hn => rw [if_pos hn, if_pos hn, modCore, modCore, h]
  · next hn => rw [if_neg hn, if_neg hn, h]

theorem modChanAt_congr {f g : Chan → Chan} (h : f (s.chanAt core ch) = g (s.chanAt core ch)) : s.modChanAt core ch f = s.modChanAt core ch g :=
  modCoreAt_congr (congrArg (fun c => { s.coreAt core with chans := tset (s.coreAt core).chans ch c }) h)

theorem engTake_of_due {v : Bool} {f : Flight} (hdue : s.engDue ch v = some f) (hrun : s.core.front.run = none) :
    s.engTake ch v = (s.modCore fun c => { c with flight := c.flight.erase f }).applyWrite f.w := by
  rw [engTake, hdue]
  exact if_pos (Option.isNone_iff_eq_none.mpr hrun)

section

variable {depth : Nat} {agree : Bool}

theorem chanPair_unopened (h : (s.chanAt core ch).state ≠ .opening) : s.chanPair core ch depth agree = s := if_pos h

variable (hstate : (s.chanAt core ch).state = .opening)
include hstate

/-- A peer device whose session is UP in the incarnation that the entry names: what it answered decides. -/
theorem chanPair_device (hkind : (s.chanAt core ch).kind = 2) (hup : (s.peer (s.chanAt core ch).dev).state = .up)
    (hinc : (s.peer (s.chanAt core ch).dev).inc = (s.chanAt core ch).inc) : s.chanPair core ch depth agree = if agree
      then s.modChanAt core ch fun c => { c with state := .opened, depthPeer := depth, cred := if c.recv then 0 else depth }
      else s.chanBreak core ch 1 := by
  rw [chanPair]
  dsimp only
  rw [if_neg (not_not.mpr hstate), if_pos hkind, if_neg (not_not.mpr hup), if_neg (not_not.mpr hinc)]
  cases agree <;> rfl

variable (hkind : (s.chanAt core ch).kind ≠ 2) {n : Nat} (hn : (s.chanAt core ch).peerCore core = n) {d : Chan}
  (hd : s.chanAt n (s.chanAt core ch).pch = d) (hopen : d.state = .opening ∨ d.state = .opened) (hnames : d.names n core ch = true)
include hkind hn hd hopen hnames

theorem chanPair_local_unlike (h : d.recv = (s.chanAt core ch).recv ∨ d.lanes ≠ (s.chanAt core ch).lanes ∨ d.ty ≠ (s.chanAt core ch).ty ∨
    d.proto ≠ (s.chanAt core ch).proto) : s.chanPair core ch depth agree = (s.chanBreak core ch 1).chanBreak n (s.chanAt core ch).pch 1 := by
  rw [chanPair]
  dsimp only
  rw [if_neg (not_not.mpr hstate), if_neg hkind, hn, hd, if_pos ⟨hopen, hnames⟩, if_neg]
  simp only [Bool.and_eq_true, bne_iff_ne, beq_iff_eq]
  tauto

theorem chanPair_local_alike (hrecv : d.recv ≠ (s.chanAt core ch).recv) (hlanes : d.lanes = (s.chanAt core ch).lanes)
    (hty : d.ty = (s.chanAt core ch).ty) (hproto : d.proto = (s.chanAt core ch).proto) :
    s.chanPair core ch depth agree = (let put := fun (e o : Chan) =>
        if e.state = .opening then { e with state := .opened, depthPeer := o.depth, cred := if e.recv then 0 else o.depth } else e
      (s.modChanAt core ch fun e => put e d).modChanAt n (s.chanAt core ch).pch fun e => put e (s.chanAt core ch)) := by
  rw [chanPair]
  dsimp only
  rw [if_neg (not_not.mpr hstate), if_neg hkind, hn, hd, if_pos ⟨hopen, hnames⟩, if_pos]
  simp [hrecv, hlanes, hty, hproto]

end

/-- The oldest element of a local sender goes to the buffer of its open receiver. -/
theorem chanDeliver_to_opened {e : ChanElem} (hhead : (s.chanAt core ch).pending.head? = some e) (hmoves : s.frozenAt core = false)
    {n : Nat} (hn : (s.chanAt core ch).peerCore core = n) (hpeer : s.frozenAt n = false)
    {v : State} (hv : s.modChanAt core ch (fun c => { c with pending := c.pending.tail }) = v) (hopen : (v.chanAt n (s.chanAt core ch).pch).state = .opened) :
    s.chanDeliver core ch = v.modChanAt n (s.chanAt core ch).pch fun d => { d with buf := d.buf ++ [e] } := by
  obtain ⟨rest, hpending⟩ := List.head?_eq_some_iff.mp hhead
  have hsent : s.modChanAt core ch (fun c => { c with pending := rest }) = v := by
    rw [← hv]
    refine modChanAt_congr ?_
    rw [hpending]
    rfl
  rw [chanDeliver]
  dsimp only
  rw [hpending]
  dsimp only
  rw [hn, if_neg (by simp [hmoves, hpeer]), hsent, if_pos hopen]

/-! ### Messages to the spire -/

section

variable {m : SpireMsg} {rest : List SpireMsg} (hout : (s.coreAt core).spireOut = m :: rest) {u : State}
  (hu : s.modCoreAt core (fun c => { c with spireOut := rest }) = u)
include hout

theorem spireApply_of_head : s.spireApply core = (s.spireDeliver core).mirrorAll core m.group := by
  rw [spireApply, hout]

theorem spireHead_of_head {g : Nat} {x : Option Word} (hgroup : m.group = g) (hvalue : m.value = x) : s.spireHead core g x = true := by
  rw [spireHead, hout]
  exact Bool.and_eq_true_iff.mpr ⟨beq_iff_eq.mpr hgroup, beq_iff_eq.mpr hvalue⟩

include hu

theorem spireDeliver_value {w : Word} (hvalue : m.value = some w) :
    s.spireDeliver core = u.setSpireRoot core m.group ((u.spireRoot core m.group).configure w) := by
  rw [spireDeliver, hout]
  dsimp only
  rw [hu, hvalue]

/-- An arrival counts where the root admits it; the answer is GEN, or all ones. -/
theorem spireDeliver_arrival {r : SpireGroup} (hr : u.spireRoot core m.group = r) (hvalue : m.value = none) {v : State}
    (hv : (if r.admits m.group core then u.setSpireRoot core m.group r.arrive else u) = v) :
    s.spireDeliver core = if m.dest = 0 then v else v.modCoreAt core fun c => { c with flight := c.flight ++
      [⟨max 1 m.left, .x m.dest (if r.admits m.group core then r.gen else BitVec.allOnes 64)⟩] } := by
  rw [spireDeliver, hout]
  dsimp only
  rw [hu, hvalue]
  dsimp only
  rw [hr, hv]

end

end State

/-! ### The events -/

/-- R99: a frozen core's channels do not move. -/
theorem exec_channels_frozen {s : State} {core : Nat} (ch : Nat) (h : s.frozenAt core = true) (depth : BitVec 6) (agree : Bool) (e : ChanElem) :
    exec (.channelPair core ch depth agree) s = .next s ∧ exec (.channelElementArrive core ch e) s = .next s ∧
      exec (.channelCreditReturn core ch) s = .next s := by
  have hstill : ¬(core < 352 ∧ (!s.frozenAt core) = true) := by simp [h]
  exact ⟨congrArg Host.Outcome.next (if_neg hstill), congrArg Host.Outcome.next (if_neg hstill), congrArg Host.Outcome.next (if_neg hstill)⟩

section

variable {s : State} {core ch : Nat} (hcore : core < 352)
include hcore

theorem exec_channelRouteTimeout_due {c : Chan} (hc : s.chanAt core ch = c) (hkind : c.kind = 2) (hopen : c.state = .opening ∨ c.state = .opened)
    (hroute : s.unroutedFor c.dev c.since = true) : exec (.channelRouteTimeout core ch) s = .next (s.chanBreak core ch 3) := by
  subst hc
  exact congrArg Host.Outcome.next ((if_pos hcore).trans (if_pos ⟨hkind, hopen, hroute⟩))

section

variable (hmoves : s.frozenAt core = false)
include hmoves

theorem exec_channelPair_moving (depth : BitVec 6) (agree : Bool) :
    exec (.channelPair core ch depth agree) s = .next (s.chanPair core ch (depth.toNat + 1) agree) :=
  congrArg Host.Outcome.next (if_pos ⟨hcore, congrArg (!·) hmoves⟩)

variable {c : Chan} (hc : s.chanAt core ch = c) (hopen : c.state = .opened)
include hc hopen

/-- An open receiver takes an element of another device while it has room. -/
theorem exec_channelElementArrive_recv (e : ChanElem) (hrecv : c.recv = true) (hkind : c.kind = 2) (hroom : c.buf.length + c.held.length < c.depth) :
    exec (.channelElementArrive core ch e) s = .next (s.modChanAt core ch fun c => { c with buf := c.buf ++ [e] }) := by
  subst hc
  exact congrArg Host.Outcome.next ((if_pos ⟨hcore, congrArg (!·) hmoves⟩).trans
    ((if_neg (not_not.mpr hopen)).trans ((if_pos hrecv).trans (if_pos ⟨hkind, hroom⟩))))

/-- The oldest element that an open sender has in flight leaves for another device, or for its receiver. -/
theorem exec_channelElementArrive_send {e : ChanElem} (hsend : c.recv = false) (hhead : c.pending.head? = some e) :
    exec (.channelElementArrive core ch e) s = .next (if c.kind = 2
      then s.modChanAt core ch fun c => { c with pending := c.pending.tail } else s.chanDeliver core ch) := by
  subst hc
  exact congrArg Host.Outcome.next ((if_pos ⟨hcore, congrArg (!·) hmoves⟩).trans
    ((if_neg (not_not.mpr hopen)).trans ((if_neg (hsend.trans_ne Bool.false_ne_true)).trans (if_pos hhead))))

theorem exec_channelCreditReturn_send (hsend : c.recv = false) :
    exec (.channelCreditReturn core ch) s = .next (if c.kind = 2
      then (if c.cred + c.pending.length < c.depthPeer then s.modChanAt core ch fun c => { c with cred := c.cred + 1 } else s)
      else s.modChanAt core ch fun c => { c with cred := c.cred + c.owed, owed := 0 }) := by
  subst hc
  exact congrArg Host.Outcome.next ((if_pos ⟨hcore, congrArg (!·) hmoves⟩).trans
    (if_neg (not_or.mpr ⟨not_not.mpr hopen, hsend.trans_ne Bool.false_ne_true⟩)))

end

theorem exec_barmApply_head {m : SpireMsg} {rest : List SpireMsg} {g : BitVec 7} {v : Word} (hout : (s.coreAt core).spireOut = m :: rest)
    (hgroup : m.group = g.toNat) (hvalue : m.value = some v) : exec (.barmApply core g v) s = .next (s.spireApply core) :=
  congrArg Host.Outcome.next (if_pos ⟨hcore, State.spireHead_of_head hout hgroup hvalue⟩)

theorem exec_barrierArrival_head {m : SpireMsg} {rest : List SpireMsg} {g : BitVec 7} (hout : (s.coreAt core).spireOut = m :: rest)
    (hgroup : m.group = g.toNat) (hvalue : m.value = none) : exec (.barrierArrival core g) s = .next (s.spireApply core) :=
  congrArg Host.Outcome.next (if_pos ⟨hcore, State.spireHead_of_head hout hgroup hvalue⟩)

/-- A FUSE that has waited 2,000 ticks leaves the line, and its register reads 2. -/
theorem exec_fuseTimeout_due {p : BitVec 4} {e d since : Nat} (hline : tget? (s.cluster (clusterOf core)).line (lowCore core) = some (.fuse p e d since))
    (hdue : since + 2000 ≤ s.time) : exec (.fuseTimeout core) s = .next
      (let t := s.modCluster (clusterOf core) fun c => { c with line := terase c.line (lowCore core) }
       if d = 0 then t else t.modCoreAt core fun c => { c with regs := { c.regs with x := c.regs.x.setIfInBounds d 2 } }) := by
  change execFuseTimeout core s = _
  rw [execFuseTimeout, if_pos hcore]
  dsimp only
  rw [hline]
  exact congrArg _ (if_pos hdue)

end

/-- Settles O47: each clause is the rule of its event, at the channel, the root or the line that the event names. -/
theorem channelAndSpireEvents : Obligations.ChannelAndSpireEvents := by
  unfold Obligations.ChannelAndSpireEvents
  refine ⟨fun s core ch hcore => ⟨fun htask f w hrun _ => ⟨fun hdue => ?opens, fun hdue => ?closes⟩,
      fun hkind hopen hroute => exec_channelRouteTimeout_due hcore rfl hkind hopen hroute,
      fun hmoves => ⟨fun depth agree h => ?unopened, fun depth agree hstate hkind hup hinc => ?device,
        fun depth agree hstate hkind hopen hnames => ⟨fun h => ?unlike, fun hrecv hlanes hty hproto => ?alike⟩,
        fun e hopen => ⟨exec_channelElementArrive_recv hcore hmoves rfl hopen e, fun hsend hhead hkind => ?sent,
          fun hsend hhead hkind hpeer hreceiver => ?placed⟩,
        fun hopen hsend => ⟨fun hkind hroom => ?credit, fun hkind => ?credits⟩⟩,
      exec_channels_frozen ch⟩,
    fun s core hcore => ⟨fun m rest g hout hgroup => ⟨fun v hvalue => ?value, fun hvalue => ?arrival⟩,
      fun d k g hd hk hg => congrArg Host.Outcome.next (if_pos ⟨hd, hk, hg⟩),
      fun p e d since => exec_fuseTimeout_due hcore⟩⟩
  case opens => exact next_onBound hcore htask (State.engTake_of_due hdue hrun)
  case closes =>
    refine congrArg Host.Outcome.next (State.onAny_eq hcore ((if_pos ?_).trans (State.engTake_of_due hdue hrun)))
    rw [hdue]
    rfl
  case unopened => rw [exec_channelPair_moving hcore hmoves, State.chanPair_unopened h]
  case device =>
    rw [exec_channelPair_moving hcore hmoves, State.chanPair_device hstate hkind hup hinc]
    rfl
  case unlike => rw [exec_channelPair_moving hcore hmoves, State.chanPair_local_unlike hstate hkind rfl rfl hopen hnames h]
  case alike => rw [exec_channelPair_moving hcore hmoves, State.chanPair_local_alike hstate hkind rfl rfl hopen hnames hrecv hlanes hty hproto]
  case sent => rw [exec_channelElementArrive_send hcore hmoves rfl hopen hsend hhead, if_pos hkind]
  case placed =>
    rw [exec_channelElementArrive_send hcore hmoves rfl hopen hsend hhead, if_neg hkind,
      State.chanDeliver_to_opened hhead hmoves rfl hpeer rfl hreceiver]
  case credit => rw [exec_channelCreditReturn_send hcore hmoves rfl hopen hsend, if_pos hkind, if_pos hroom]
  case credits => rw [exec_channelCreditReturn_send hcore hmoves rfl hopen hsend, if_neg hkind]
  case value =>
    rw [exec_barmApply_head hcore hout hgroup hvalue, State.spireApply_of_head hout, State.spireDeliver_value hout rfl hvalue, hgroup]
  case arrival =>
    rw [exec_barrierArrival_head hcore hout hgroup hvalue, State.spireApply_of_head hout, State.spireDeliver_arrival hout rfl rfl hvalue rfl, hgroup]

end Sys2Proof.Machine
end

section
/-! What synchronising syllables share (spec 10_memory_model.md R267, R270 to R272, R275): the reach and the eagerness of a scope, the tests of an access, and
how the room at a sync home, a release and an acquire go on. -/

namespace Sys2Proof.Machine

/-! ### Scopes (R267) -/

theorem Scope.eager_eq (sc : Scope) : Scope.eager sc = (sc == .host || sc == .network || sc == .system) := by cases sc <;> rfl

theorem Scope.eager_iff {sc : Scope} : Scope.eager sc = true ↔ sc ∈ [Scope.host, .network, .system] := by cases sc <;> decide

theorem Scope.remoteOk_iff {sc : Scope} : Scope.remoteOk sc = true ↔ sc ∈ [Scope.peer, .domain, .group, .network, .system] := by cases sc <;> decide

theorem Scope.eager_of_not_mem {sc : Scope} (h : sc ∉ [Scope.host, .network, .system]) : Scope.eager sc = false :=
  Bool.eq_false_iff.mpr (mt Scope.eager_iff.mp h)

theorem Scope.remoteOk_of_not_mem {sc : Scope} (h : sc ∉ [Scope.peer, .domain, .group, .network, .system]) : Scope.remoteOk sc = false :=
  Bool.eq_false_iff.mpr (mt Scope.remoteOk_iff.mp h)

/-! ### What ends a syllable -/

theorem endRegion_ends (s : State) : EndsRegion s.endRegion := by
  intro r hr
  obtain ⟨r', -, rfl⟩ := Option.map_eq_some_iff.mp hr
  rfl

@[simp] theorem setX_released (s : State) (d : BitVec 6) (w : Word) (lat : Nat) : (s.setX d w lat).core.released = s.core.released := by
  unfold State.setX; split <;> rfl

@[simp] theorem setX_task (s : State) (d : BitVec 6) (w : Word) (lat : Nat) : (s.setX d w lat).core.task = s.core.task := by
  unfold State.setX; split <;> rfl

@[simp] theorem setX_compacted (s : State) (d : BitVec 6) (w : Word) (lat : Nat) : (s.setX d w lat).core.compacted = s.core.compacted := by
  unfold State.setX; split <;> rfl

theorem setX_writesX {s t : State} (hflight : t.core.flight = s.core.flight) (d : BitVec 6) (w : Word) (lat : Nat) : WritesX s (t.setX d w lat) d w lat := by
  rw [WritesX, setX_flight_ite, hflight]

theorem State.x_congr {s t : State} (hregs : t.core.regs = s.core.regs) (hfront : t.core.front = s.core.front) (n : BitVec 6) : t.x n = s.x n := by
  rw [State.x, State.x, State.image, State.image, hregs, hfront]

namespace State

/-! ### The tests of R275 -/

section

variable {s : State} {va : Word} {n : Nat} {p : Perm} {sc : Scope} {c : Access} (k : State → Access → State)

theorem syncAccess_noWindow (h : (s.ctx s.bound.ctx).translate? va.toNat p = none) : s.syncAccess va n p sc k = s.noWindow va :=
  lsAccess_noWindow _ h

variable (hc : (s.ctx s.bound.ctx).translate? va.toNat p = some c)
include hc

theorem syncAccess_misaligned (halign : va.toNat % n ≠ 0) : s.syncAccess va n p sc k = s.misalign va n := lsAccess_misaligned _ hc halign

variable (halign : va.toNat % n = 0)
include halign

theorem syncAccess_constWrite (hp : p = .rdw) (hconst : s.constWin c.win = true) : s.syncAccess va n p sc k = s.constWrite va.toNat c.win :=
  (lsAccess_ok _ hc halign).trans (if_pos (by simp [hp, hconst]))

variable (hconst : p = .rdw → s.constWin c.win = false)
include hconst

theorem syncAccess_outOfReach (hremote : s.isRemote c.ia = true) (hsc : Scope.remoteOk sc = false) : s.syncAccess va n p sc k = s.illegal :=
  (lsAccess_ok _ hc halign).trans ((if_neg (by simpa using hconst)).trans (if_pos (by simp [hremote, hsc])))

theorem syncAccess_ok (hreach : s.isRemote c.ia = false ∨ Scope.remoteOk sc = true) : s.syncAccess va n p sc k = k s c :=
  (lsAccess_ok _ hc halign).trans ((if_neg (by simpa using hconst)).trans (if_neg (by rcases hreach with h | h <;> simp [h])))

end

/-- A variable of this device whose page is there and whose word reads well. -/
theorem syncWord_read {s u v : State} {ia n pa : Nat} {m : Bool} {bs : List Byte} (k : State → Nat → List Byte → State)
    (hwalk : s.walk s.myDie ia = (u, .page pa m)) (hread : u.homeRead ia pa n = (v, some bs)) : s.syncWord ia n k = k v pa bs := by
  rw [syncWord, withPage_page _ hwalk, hread]

/-- A walk and a read at home leave the core. -/
theorem walk_homeRead_core {s u v : State} {d ia pa n : Nat} {w : Walk} {r : Option (List Byte)} (hwalk : s.walk d ia = (u, w))
    (hread : u.homeRead ia pa n = (v, r)) : v.core = s.core :=
  (congrArg (fun r => r.1.core) hread).symm.trans ((homeRead_core u ia pa n).trans (walk_frame hwalk).1)

/-! ### Room, release and acquire -/

section

variable {s t : State} {ia : Nat} (k : State → State) (hreleased : s.core.released = none)
include hreleased

theorem withRoom_full (h : s.publishRoom ia s.myDie = (t, false)) : s.withRoom ia k = t.hold := by
  simp [withRoom, hreleased, h]

theorem withRoom_room (h : s.publishRoom ia s.myDie = (t, true)) : s.withRoom ia k = k t := by
  simp [withRoom, hreleased, h]

end

/-- The hold of a syllable that has released with a stamp and comes back without a second release (R271). -/
def holdReleased (stamp : Nat) (v : Word) (s : State) : State := (s.modCore fun c => { c with released := some (stamp, v) }).hold

/-- A release that is complete is no longer half done. -/
def releaseDone (s : State) : State := s.modCore fun c => { c with released := none }

theorem releaseDone_quiet {s : State} (h : s.core.released = none) : Quiet s s.releaseDone :=
  ⟨rfl, rfl, rfl, rfl, h.symm, rfl, rfl, rfl, Nat.le_refl _, List.Subset.refl _⟩

section

variable {s w : State} {st : Nat} (eager : Bool) (pub : State → Nat → State × Word) (k : State → Word → (State → State) → State)
  (hreleased : s.core.released = none)
include hreleased

theorem withRelease_race {e : Cause} (h : s.releasePart = (w, st, some e)) : s.withRelease eager pub k = w.raise e := by
  simp only [withRelease, hreleased, h]

variable {q z : State} {v : Word} (h : s.releasePart = (w, st, none)) (hpub : pub w st = (q, v))
include h hpub

theorem withRelease_waits (hforce : (if eager then q.forceDie q.myDie st else (q, true)) = (z, false)) :
    s.withRelease eager pub k = z.holdReleased st v := by
  simp only [withRelease, hreleased, h, hpub, hforce, Bool.false_eq_true, if_false, holdReleased]

theorem withRelease_passes (hforce : (if eager then q.forceDie q.myDie st else (q, true)) = (z, true)) :
    s.withRelease eager pub k = k z.releaseDone v (holdReleased st v) := by
  simp only [withRelease, hreleased, h, hpub, hforce, if_true, releaseDone]
  rfl

end

section

variable {s w : State} {ia : Nat} {far : Bool} {sources : Tab Nat} {sc : Scope} (again k : State → State)

theorem withAcquire_done (h : s.acquirePart ia far sources (Scope.eager sc) = (w, .done)) : s.withAcquire ia far sources sc again k = k w := by
  rw [withAcquire, h]

/-- How a syllable goes on after its acquire part: what follows it, the race that it found, or the hold that comes back to it (R272, R279). -/
theorem withAcquire_outcome {again k} {o : Out} (ho : o = .next (s.withAcquire ia far sources sc again k)) {r : Acq}
    (h : s.acquirePart ia far sources (Scope.eager sc) = (w, r)) :
    (r = .done → o = .next (k w)) ∧ (∀ e, r = .race e → o = .next (w.raise e)) ∧ (r = .wait → o = .next (again w)) := by
  subst ho
  refine ⟨?_, ?_, ?_⟩
  · rintro rfl; rw [withAcquire, h]
  · rintro e rfl; rw [withAcquire, h]
  · rintro rfl; rw [withAcquire, h]

end

end State

end Sys2Proof.Machine
end

section
/-! A task's own records in its view (spec 10_memory_model.md R266). -/

namespace Sys2Proof.Machine

/-- A record that comes last and whose key no other exceeds supplies the bytes that it writes. -/
theorem bestByte_concat {key : Rec → Nat} {x : Nat} {r : Rec} {b : Byte} (hb : r.byte? x = some b) {l : List Rec} (hl : ∀ e ∈ l, key e ≤ key r) :
    bestByte key x (l ++ [r]) = some (key r, b) := by
  induction l with
  | nil => simp [bestByte, hb]
  | cons e l ih =>
    obtain ⟨he, hl⟩ := List.forall_mem_cons.mp hl
    rw [List.cons_append, bestByte, ih hl]
    cases e.byte? x with
    | none => rfl
    | some y => exact if_neg (Nat.not_lt.mpr he)

/-- Appending a record changes none of what tells the task's own records apart. -/
theorem append_inU (s : State) (ia n : Nat) (cells : List Host.Cell) (copy : Bool) (inc : BitVec 16) : (s.append ia n cells copy inc).inU = s.inU := by
  funext r
  have hown : (s.append ia n cells copy inc).own r = s.own r := by
    simp only [State.own, State.append, State.bound, State.modTask, State.modCore, State.modMem]
    cases s.core.task <;> rfl
  rw [State.inU, State.inU, hown]
  rfl

/-- Settles O21: the new record is the last of the task's own and has the greatest sequence number. -/
theorem ownStoreVisible : Obligations.OwnStoreVisible := by
  unfold Obligations.OwnStoreVisible
  intro s ia len cells inc x b home st hseq hrecs hb
  have hlast : (s.core.seq + 1).toNat = s.core.seq.toNat + 1 := by bv_omega
  have hkeys : ∀ e ∈ s.mem.recs.filter s.inU, e.seq ≤ (s.core.seq + 1).toNat := by
    intro e he
    have := hrecs e (List.mem_of_mem_filter he) (List.mem_filter.mp he).2
    omega
  rw [State.viewByte, append_inU, State.append_recs, List.filter_append, List.filter_cons_of_pos (by simp [State.inU, State.own]), List.filter_nil,
    bestByte_concat (b := b)]
  · exact hb
  · exact hkeys

end Sys2Proof.Machine
end

section
/-! ACQ (spec 10_memory_model.md R265 to R267, R272, R275): its tests, and what its acquire part raises of the view. -/

namespace Sys2Proof.Machine

/-- R272: an acquire of this die's release raises P and A to its stamp, and nothing else. -/
theorem acquirePart_ownDie {s t : State} {b : Bound} {ia st : Nat} (htask : s.core.task = some b) (hid : s.coreId < 352)
    (h : s.acquirePart ia false [(s.myDie, st)] false = (t, .done)) :
    t = s.modTask fun b => { b with vp := max b.vp st, va := max b.va st } := by
  have hdie : ¬4 ≤ s.myDie := by rw [State.myDie, dieOf]; omega
  simp only [State.acquirePart, State.acquireAll, State.acquireFrom, List.filter_cons, List.filter_nil, beq_self_eq_true, bne_self_eq_false, if_true,
    Bool.false_eq_true, if_false, List.append_nil, Bool.not_false, Bool.and_true] at h
  cases hmarks : s.markConflicts (s.mem.releasedIn s.myDie s.bound.vp st) with
  | cons x rest => simp [hmarks] at h
  | nil =>
    simp only [hmarks, Prod.mk.injEq, and_true] at h
    rw [← h]
    simp [State.modTask, State.modCore, htask, hdie]

/-- R265, R266: the records of the own die with stamps up to P are visible. -/
theorem replayed_of_vp {t : State} {b : Bound} {r : Rec} {n : Nat} (htask : t.core.task = some b) (hdie : dieOf r.core = t.myDie) (hstamp : r.stamp = some n)
    (hn : n ≤ b.vp) : t.replayed r = true := by
  simp [State.replayed, hstamp, hdie, State.bound, htask, hn]

section

variable {s : State} {a : BitVec 6} {sc : Scope} {q : BitVec 3} (hq : s.sqOn q = true) (d : BitVec 6)
include hq

theorem exec_acq_noWindow (h : (s.ctx s.bound.ctx).translate? (s.x a).toNat .rd = none) : exec (.acq d a sc q) s = .next (s.noWindow (s.x a)) :=
  congrArg Host.Outcome.next ((State.guarded_on hq _).trans (State.syncAccess_noWindow _ h))

variable {c : Access} (hc : (s.ctx s.bound.ctx).translate? (s.x a).toNat .rd = some c)
include hc

theorem exec_acq_misaligned (halign : (s.x a).toNat % 8 ≠ 0) : exec (.acq d a sc q) s = .next (s.misalign (s.x a) 8) :=
  congrArg Host.Outcome.next ((State.guarded_on hq _).trans (State.syncAccess_misaligned _ hc halign))

variable (halign : (s.x a).toNat % 8 = 0)
include halign

theorem exec_acq_outOfReach (hremote : s.isRemote c.ia = true) (hsc : sc ∉ [Scope.peer, .domain, .group, .network, .system]) :
    exec (.acq d a sc q) s = .next s.illegal :=
  congrArg Host.Outcome.next ((State.guarded_on hq _).trans
    (State.syncAccess_outOfReach _ hc halign (fun h => nomatch h) hremote (Scope.remoteOk_of_not_mem hsc)))

/-- R363: the answer of another device, and the acquire part on this device's releases. -/
theorem exec_acq_answered (hremote : s.isRemote c.ia = true) (hsc : sc ∈ [Scope.peer, .domain, .group, .network, .system])
    (hreleased : s.core.released = none) {v : Word} {n : Nat} {w : State} (hanswer : s.core.answer = some (.sync v n))
    (h : ({ s with core := { s.core with asked := none, answer := none, released := none } } : State).acquirePart (varOf c.ia) true (s.farSources c.ia)
      (Scope.eager sc) = (w, .done)) : exec (.acq d a sc q) s = .next (w.setX d v 1) := by
  refine congrArg Host.Outcome.next ((State.guarded_on hq _).trans
    ((State.syncAccess_ok _ hc halign (fun h => nomatch h) (.inr (Scope.remoteOk_iff.mpr hsc))).trans ?_))
  dsimp only
  rw [if_pos hremote, hreleased]
  dsimp only
  rw [State.ask, hanswer]
  exact State.withAcquire_done _ _ h

/-- A variable of this device: its value is written once the acquire part has passed. -/
theorem exec_acq_local (hlocal : s.isRemote c.ia = false) {u v : State} {pa : Nat} {m : Bool} {bs : List Byte}
    (hwalk : s.walk s.myDie c.ia = (u, .page pa m)) (hread : u.homeRead c.ia pa 8 = (v, some bs)) :
    exec (.acq d a sc q) s = .next (v.withAcquire (varOf c.ia) false (v.varSources c.ia) sc State.hold fun s => s.setX d (BitVec.ofNat 64 (leNat bs)) 1) := by
  refine congrArg Host.Outcome.next ((State.guarded_on hq _).trans
    ((State.syncAccess_ok _ hc halign (fun h => nomatch h) (.inl hlocal)).trans ?_))
  exact (if_neg (by simp [hlocal])).trans (State.syncWord_read _ hwalk hread)

end

/-- Settles O22: the tests in their order, the answer of another device, and the acquire part of a variable of this device by how it ends. -/
theorem acquireEffects : Obligations.AcquireEffects := by
  unfold Obligations.AcquireEffects
  refine ⟨fun s d a sc q hq => ⟨fun h => exec_acq_noWindow hq d h, fun c hc => ⟨fun halign => exec_acq_misaligned hq d hc halign,
    fun halign hremote hsc => exec_acq_outOfReach hq d hc halign hremote hsc,
    fun halign hremote hsc hreleased v n w hanswer h => exec_acq_answered hq d hc halign hremote hsc hreleased hanswer h,
    fun halign hlocal u pa m v bs hwalk hread => ?here⟩⟩, fun s t b ia st htask hid h => ?ownDie⟩
  case here =>
    have hexec := exec_acq_local (sc := sc) hq d hc halign hlocal hwalk hread
    rw [← Scope.eager_eq]
    refine ⟨fun w r h => ?_, fun hquiet => ?_⟩
    · exact State.withAcquire_outcome hexec h
    · obtain ⟨hrecs, -, hsources⟩ := hquiet
      obtain ⟨w, h, hvw⟩ := State.acquirePart_of_quiet hrecs (varOf c.ia) _ (Scope.eager sc) hsources
      have hsw := (Quiet.of_walk_homeRead hwalk hread).trans hvw
      refine ⟨_, hexec.trans (congrArg _ (State.withAcquire_done _ _ h)), setX_writesX hsw.flight d _ 1, ?_, ?_, ?_⟩
      · rw [setX_regs, hsw.regs]
      · rw [setX_spad, hsw.spad]
      · rw [setX_mem, hsw.cells]
  case ownDie =>
    obtain rfl := acquirePart_ownDie htask hid h
    have htask' : (s.modTask fun b => { b with vp := max b.vp st, va := max b.va st }).core.task =
        some { b with vp := max b.vp st, va := max b.va st } := congrArg (Option.map _) htask
    exact ⟨htask', rfl, rfl, fun r _ hdie n hstamp hn => replayed_of_vp htask' hdie hstamp (hn.trans (Nat.le_max_right _ _))⟩

end Sys2Proof.Machine
end

section
/-! REL (spec 10_memory_model.md R267, R270, R271, R275, R278): what the release part stamps, what the syllable publishes, and its tests. -/

namespace Sys2Proof.Machine

namespace State

/-! ### The release part (R271, R278) -/

theorem putOwner_coreId (s : State) (w : Nat) (o : Owner) : (s.putOwner w o).coreId = s.coreId := by
  unfold State.putOwner
  split <;> rfl

theorem takeOwners_frame (s : State) (ws : List Nat) (st : Nat) : let t := ws.foldl (fun s w => s.takeOwner w st) s
    t.core = s.core ∧ t.mem = s.mem ∧ t.coreId = s.coreId := by
  induction ws generalizing s with
  | nil => exact ⟨rfl, rfl, rfl⟩
  | cons w ws ih =>
    obtain ⟨hcore, hmem, hid⟩ := ih (s.takeOwner w st)
    exact ⟨hcore.trans (putOwner_core _ _ _), hmem.trans (putOwner_mem _ _ _), hid.trans (putOwner_coreId _ _ _)⟩

theorem covers_congr {s t : State} (hcore : t.core = s.core) (hid : t.coreId = s.coreId) : t.covers = s.covers := by
  funext r
  simp only [covers, own, bound, hcore, hid]

/-- What a release part leaves that passes: a fresh stamp on every covered record and on no other, and the core but for its read marks and its task. -/
structure Released (s w : State) (st : Nat) : Prop where
  stamp : st = s.mem.clock
  mem : w.mem = { s.mem with clock := s.mem.clock + 1, recs := s.mem.recs.map fun r => if s.covers r = true then { r with stamp := some s.mem.clock } else r }
  core : w.core = { s.core with vcache := w.core.vcache, task := w.core.task }
  coreId : w.coreId = s.coreId

theorem Released.regs {s w : State} {st : Nat} (h : Released s w st) : w.core.regs = s.core.regs := by rw [h.core]

theorem Released.front {s w : State} {st : Nat} (h : Released s w st) : w.core.front = s.core.front := by rw [h.core]

theorem releasePart_of_noConflict {s : State} (h : s.conflicts (wordsOf (s.mem.recs.filter s.covers)) = []) :
    ∃ w, s.releasePart = (w, s.mem.clock, none) ∧ Released s w s.mem.clock := by
  obtain ⟨hcore, hmem, hid⟩ := takeOwners_frame s.takeStamp.1 (wordsOf (s.mem.recs.filter s.covers)) s.mem.clock
  generalize hu : (wordsOf (s.mem.recs.filter s.covers)).foldl (fun u w => u.takeOwner w s.mem.clock) s.takeStamp.1 = u at hcore hmem hid
  have hcovers : u.covers = s.covers := covers_congr hcore hid
  refine ⟨u.release s.mem.clock, ?_, rfl, ?_, ?_, hid⟩
  · simp only [releasePart, h]
    rw [← hu]
    rfl
  · simp only [release, modTask, modCore_mem, modMem_mem, hmem, hcovers]
    rfl
  · simp only [release, modTask, modCore_core, modMem_core, hcore]
    rfl

theorem released_of_releasePart {s w : State} {st : Nat} (h : s.releasePart = (w, st, none)) : Released s w st := by
  cases hconf : s.conflicts (wordsOf (s.mem.recs.filter s.covers)) with
  | nil =>
    obtain ⟨w', hw, hreleased⟩ := releasePart_of_noConflict hconf
    obtain ⟨rfl, rfl⟩ : w' = w ∧ s.mem.clock = st := by simpa [hw] using h
    exact hreleased
  | cons c rest => simp [releasePart, hconf] at h

/-! ### A release in quiet memory -/

/-- With no record in any log, the release part takes its stamp, and leaves no record. -/
theorem releasePart_of_quiet {s : State} (hrecs : s.mem.recs = []) : ∃ w, s.releasePart = (w, s.mem.clock, none) ∧ Quiet s w ∧ w.coreId = s.coreId :=
  ⟨_, releasePart_of_nil hrecs, (Quiet.takeStamp s).trans (release_quiet (s := s.takeStamp.1) hrecs _), rfl⟩

theorem publishRoom_core (s : State) (ia src : Nat) : SameCore s (s.publishRoom ia src).1 := by
  unfold publishRoom
  split
  · exact SameCore.refl s
  · exact syncRoom_core s _ _ _

/-- Room at the sync home, where memory is quiet. -/
theorem publishRoom_of_ready {v : State} {ia : Nat} (h : RmwReady v ia) : ∃ p, v.publishRoom ia v.myDie = (p, true) ∧ Quiet v p := by
  obtain ⟨⟨hrecs, -, -⟩, -, -, hroom⟩ := h
  have hmade := RoomMade.publishRoom hrecs ia v.myDie
  exact ⟨_, Prod.ext rfl hroom, Quiet.of_core_mem hmade.core hmade.mem⟩

theorem homePut_recs (s : State) (ia pa : Nat) (bs : List Byte) (st : Nat) : (s.homePut ia pa bs st).1.mem.recs = s.mem.recs := by
  have hput : ∀ (m : Mem) (pa : Nat), (m.putBytes st pa bs).recs = m.recs := by
    induction bs with
    | nil => exact fun _ _ => rfl
    | cons b bs ih =>
      intro m pa
      refine (ih (m.putByte pa b st) (pa + 1)).trans ?_
      unfold Mem.putByte
      split <;> rfl
  unfold homePut
  dsimp only
  split_ifs
  · rfl
  · exact (hput _ _).trans (congrArg Mem.recs (openImage_mem s ia pa))

/-! ### What REL publishes -/

/-- The variable one higher, with the release's stamp, and the stamp at its sync home (R270, R271). -/
def publishNext (ia pa old : Nat) (s : State) (st : Nat) : State × Word :=
  (((s.atomicWrite ia pa (leBytes 8 ((old + 1) % 2 ^ 64)) st).1).publish ia s.myDie st, BitVec.ofNat 64 ((old + 1) % 2 ^ 64))

section

variable (s : State) (ia pa old st : Nat)

theorem publishNext_core : SameCore s (publishNext ia pa old s st).1 :=
  (atomicWrite_core s ia pa _ st).trans (SameCore.of_eq (publish_frame _ ia s.myDie st).1)

theorem publishNext_mem : (publishNext ia pa old s st).1.mem = (s.homePut ia pa (leBytes 8 ((old + 1) % 2 ^ 64)) st).1.mem :=
  (publish_frame _ ia s.myDie st).2.2.trans (atomicWrite_mem s ia pa _ st)

theorem publishNext_recs : (publishNext ia pa old s st).1.mem.recs = s.mem.recs := by rw [publishNext_mem, homePut_recs]

theorem publishNext_byte_other {x : Nat} (hx : x < pa ∨ pa + 8 ≤ x) : (publishNext ia pa old s st).1.homeByte x = s.homeByte x := by
  rw [homeByte, publishNext_mem]
  exact homePut_byte_other s ia pa _ st (by rwa [leBytes_length])

/-- The new value stands at an aligned word that reads well. -/
theorem publishNext_word (halign : pa % 8 = 0) (hbad : ∀ b ∈ s.mem.bad, b ≠ pa / 32)
    (hstamps : ∀ x, pa ≤ x → x < pa + 8 → tget 0 s.mem.stamps x ≤ st) :
    leNat ((publishNext ia pa old s st).1.mem.bytes pa 8) = (old + 1) % 2 ^ 64 := by
  have hbytes := homePut_bytes (s := s) (ia := ia) (pa := pa) (st := st) (bs := leBytes 8 ((old + 1) % 2 ^ 64))
    (fun b hb hmem => hbad b hb (eq_of_mem_partBlocks (.inr rfl) halign (by rwa [leBytes_length] at hmem)))
    (fun i hi => hstamps (pa + i) (by omega) (by rw [leBytes_length] at hi; omega))
  rw [leBytes_length] at hbytes
  rw [publishNext_mem, hbytes, leNat_leBytes, show 256 = 2 ^ 8 by rfl, ← Nat.pow_mul, Nat.mod_mod]

end

end State

/-! ### The tests of REL, and what follows them -/

section

variable {s : State} {a : BitVec 6} {sc : Scope} {q : BitVec 3} {c : Access} (d : BitVec 6) (hq : s.sqOn q = true)
  (hc : (s.ctx s.bound.ctx).translate? (s.x a).toNat .rdw = some c) (halign : (s.x a).toNat % 8 = 0)
include hq hc halign

theorem exec_rel_constWrite (hconst : s.constWin c.win = true) : exec (.rel d a sc q) s = .next (s.constWrite (s.x a).toNat c.win) :=
  congrArg Host.Outcome.next ((State.guarded_on hq _).trans (State.syncAccess_constWrite _ hc halign rfl hconst))

variable (hconst : s.constWin c.win = false)
include hconst

theorem exec_rel_outOfReach (hremote : s.isRemote c.ia = true) (hsc : sc ∉ [Scope.peer, .domain, .group, .network, .system]) :
    exec (.rel d a sc q) s = .next s.illegal :=
  congrArg Host.Outcome.next ((State.guarded_on hq _).trans
    (State.syncAccess_outOfReach _ hc halign (fun _ => hconst) hremote (Scope.remoteOk_of_not_mem hsc)))

variable (hlocal : s.isRemote c.ia = false)
include hlocal

theorem exec_rel_loadsOut (hout : s.loadsOut = true) : exec (.rel d a sc q) s = .next s.hold :=
  congrArg Host.Outcome.next ((State.guarded_on hq _).trans
    ((State.syncAccess_ok _ hc halign (fun _ => hconst) (.inl hlocal)).trans (if_pos hout)))

/-- A variable of this device: room at its sync home, the release part and what it publishes. -/
theorem exec_rel_local (hout : s.loadsOut = false) {u v : State} {pa : Nat} {m : Bool} {bs : List Byte} (hwalk : s.walk s.myDie c.ia = (u, .page pa m))
    (hread : u.homeRead c.ia pa 8 = (v, some bs)) (hwait : v.imageWait c.ia = false) :
    exec (.rel d a sc q) s = .next (v.withRoom c.ia fun s =>
      s.withRelease (Scope.eager sc) (State.publishNext c.ia pa (leNat bs)) fun s w _ => (s.setX d w 1).endRegion) := by
  refine congrArg Host.Outcome.next ((State.guarded_on hq _).trans
    ((State.syncAccess_ok _ hc halign (fun _ => hconst) (.inl hlocal)).trans ((if_neg (by simp [hout])).trans ?_)))
  exact (if_neg (by simp [hlocal])).trans ((State.syncWord_read _ hwalk hread).trans (if_neg (by simp [hwait])))

end

/-- A release that is complete writes its value and ends the region, and leaves the rest as it is. -/
theorem releaseDone_setX_frame (y : State) (d : BitVec 6) (w : Word) : let t := (y.releaseDone.setX d w 1).endRegion
    t.core.flight = y.core.flight ++ (if d = 0 then [] else [⟨1, .x d.toNat w⟩]) ∧ EndsRegion t ∧ t.core.released = none ∧
      t.core.regs = y.core.regs ∧ t.core.spad = y.core.spad ∧ t.mem = y.mem :=
  ⟨setX_flight_ite _ d w 1, endRegion_ends _, setX_released _ _ _ _, setX_regs _ _ _ _, setX_spad _ _ _ _, setX_mem _ _ _ _⟩

/-- A REL that finds nothing to wait for passes at every scope, and leaves the new value at home (R264, R271). -/
theorem rel_effects {s v : State} {ia pa old : Nat} {sc : Scope} (d : BitVec 6) (hsv : Quiet s v) (hready : RmwReady v ia) :
    ∃ t, (v.withRoom ia fun s => s.withRelease (Scope.eager sc) (State.publishNext ia pa old) fun s w _ => (s.setX d w 1).endRegion) = t ∧
      WritesX s t d (BitVec.ofNat 64 ((old + 1) % 2 ^ 64)) 1 ∧ EndsRegion t ∧ t.core.released = none ∧ t.core.regs = s.core.regs ∧
      t.core.spad = s.core.spad ∧ (∀ x, (x < pa ∨ pa + 8 ≤ x) → t.homeByte x = s.homeByte x) ∧
      (pa % 8 = 0 → (∀ b ∈ s.mem.bad, b ≠ pa / 32) → (∀ x, pa ≤ x → x < pa + 8 → tget 0 s.mem.stamps x ≤ s.mem.clock) →
        leNat (t.mem.bytes pa 8) = (old + 1) % 2 ^ 64) := by
  obtain ⟨p, hroom, hvp⟩ := State.publishRoom_of_ready hready
  obtain ⟨⟨hrecs, -, -⟩, hreleased, -, -⟩ := hready
  obtain ⟨w, hrelease, hpw, -⟩ := State.releasePart_of_quiet (hvp.recs.trans hrecs)
  have hsp := hsv.trans hvp
  have hsw := hsp.trans hpw
  have hrecsNext := (State.publishNext_recs w ia pa old p.mem.clock).trans ((hvp.trans hpw).recs.trans hrecs)
  have hcore := State.publishNext_core w ia pa old p.mem.clock
  have hbyte := fun x => State.publishNext_byte_other w ia pa old p.mem.clock (x := x)
  have hword := State.publishNext_word w ia pa old p.mem.clock
  generalize hy : (State.publishNext ia pa old w p.mem.clock).1 = y at hrecsNext hcore hbyte hword
  have hpub : State.publishNext ia pa old w p.mem.clock = (y, BitVec.ofNat 64 ((old + 1) % 2 ^ 64)) := Prod.ext hy rfl
  have hforce : (if Scope.eager sc then y.forceDie y.myDie p.mem.clock else (y, true)) = (y, true) := by
    rw [State.forceDie_of_nil hrecsNext, ite_self]
  have hpass := State.withRelease_passes (Scope.eager sc) _ (fun s w _ => (s.setX d w 1).endRegion) (hvp.released.trans hreleased) hrelease
    hpub hforce
  obtain ⟨hflight, hends, hdone, hregs, hspad, hmem⟩ := releaseDone_setX_frame y d (BitVec.ofNat 64 ((old + 1) % 2 ^ 64))
  refine ⟨_, (State.withRoom_room _ hreleased hroom).trans hpass, ?_, hends, hdone, hregs.trans (hcore.regs.trans hsw.regs),
    hspad.trans (hcore.spad.trans hsw.spad), fun x hx => ?_, fun halign hbad hstamps => ?_⟩
  · rw [WritesX, hflight, hcore.flight, hsw.flight]
  · rw [State.homeByte, hmem]
    exact (hbyte x hx).trans (congrArg (cget · x) hsw.cells)
  · rw [hmem]
    refine hword halign (fun b hb => hbad b (hsw.bad hb)) fun x hx hx' => ?_
    rw [hsw.stamps]
    exact (hstamps x hx hx').trans hsp.clock

/-- Settles O23: the stamps of the release part, the tests of REL in their order, and the release of a variable of this device by how it goes on. -/
theorem releaseEffects : Obligations.ReleaseEffects := by
  unfold Obligations.ReleaseEffects
  refine ⟨fun s h => ?stamps, fun s d a sc q c hq hc halign => ⟨fun hconst => exec_rel_constWrite d hq hc halign hconst,
    fun hconst hremote hsc => exec_rel_outOfReach d hq hc halign hconst hremote hsc,
    fun hconst hlocal hout => exec_rel_loadsOut d hq hc halign hconst hlocal hout,
    fun hconst hlocal hout hreleased u pa m v bs hwalk hread hwait => ?here⟩⟩
  case stamps =>
    obtain ⟨w, hw, hreleased⟩ := State.releasePart_of_noConflict h
    exact ⟨w, hw, by rw [hreleased.mem], by rw [hreleased.mem], by rw [hreleased.mem], hreleased.regs⟩
  case here =>
    have hexec := exec_rel_local (sc := sc) d hq hc halign hconst hlocal hout hwalk hread hwait
    have hvreleased : v.core.released = none := (Quiet.of_walk_homeRead hwalk hread).released.trans hreleased
    refine ⟨fun p hroom => ?noRoom, fun p hroom => ?room, fun hready => ?quiet⟩
    case noRoom => rw [hexec, State.withRoom_full _ hvreleased hroom]
    case quiet =>
      obtain ⟨t, ht, hwrites, hends, hdone, hregs, hspad, hother, hword⟩ :=
        rel_effects (sc := sc) (pa := pa) (old := leNat bs) d (Quiet.of_walk_homeRead hwalk hread) hready
      exact ⟨t, hexec.trans (congrArg _ ht), hwrites, hends, hdone, hregs, hspad, hother, fun h1 _ h2 h3 => hword h1 h2 h3⟩
    case room =>
      have hpreleased : p.core.released = none :=
        (congrArg (fun r => r.1.core.released) hroom).symm.trans ((State.publishRoom_released v c.ia v.myDie).trans hvreleased)
      rw [hexec, State.withRoom_room _ hvreleased hroom]
      refine ⟨fun w st e h => congrArg _ (State.withRelease_race _ _ _ hpreleased h),
        fun w st h => ⟨fun hsc => ?lazy, fun hsc z => ⟨fun hz => ?eager, fun hz => ?waits⟩⟩⟩
      case lazy =>
        exact congrArg _ (State.withRelease_passes _ _ _ hpreleased h rfl (if_neg (by simp [Scope.eager_of_not_mem hsc])))
      case eager =>
        exact congrArg _ (State.withRelease_passes _ _ _ hpreleased h rfl ((if_pos (Scope.eager_iff.mpr hsc)).trans hz))
      case waits =>
        exact congrArg _ (State.withRelease_waits _ _ _ hpreleased h rfl ((if_pos (Scope.eager_iff.mpr hsc)).trans hz))

end Sys2Proof.Machine
end

section
/-! FENCE and the log (spec 10_memory_model.md R267, R273, R284, R285): a fence in quiet memory, and what LOGMARK, LOGTRUNC and LOGCMP do. -/

namespace Sys2Proof.Machine

theorem Scope.eager_iff_eq {sc : Scope} : Scope.eager sc = true ↔ sc = .host ∨ sc = .network ∨ sc = .system := by simp [Scope.eager_iff]

namespace State

/-! ### Fence variables (R273) -/

/-- The fence variables are as before, and the core in focus. -/
def SameFences (s t : State) : Prop := t.fence = s.fence ∧ t.dies = s.dies ∧ t.coreId = s.coreId

theorem SameFences.trans {s t u : State} (h : SameFences s t) (g : SameFences t u) : SameFences s u :=
  ⟨g.1.trans h.1, g.2.1.trans h.2.1, g.2.2.trans h.2.2⟩

theorem SameFences.fenceSources {s t : State} (h : SameFences s t) (sc : Scope) : t.fenceSources sc = s.fenceSources sc := by
  obtain ⟨hfence, hdies, hid⟩ := h
  rw [State.fenceSources, State.fenceSources, hfence, State.die, State.die, hdies, myDie, myDie, hid]

theorem fenceSources_fencePublish (s : State) (sc : Scope) (st : Nat) : (s.fencePublish sc st).fenceSources sc = tset (s.fenceSources sc) s.myDie st := by
  unfold fencePublish State.fenceSources
  cases Scope.ofDie sc with
  | true => exact congrArg Die.fence (die_modDie_same s s.myDie _)
  | false => rfl

theorem fenceSources_fencePublish_lt {s : State} {sc : Scope} (hid : s.coreId < 352) (h : ∀ kv ∈ s.fenceSources sc, kv.1 < 4) (st : Nat) :
    ∀ kv ∈ (s.fencePublish sc st).fenceSources sc, kv.1 < 4 := by
  rw [fenceSources_fencePublish]
  intro kv hkv
  rcases mem_tset hkv with rfl | hkv
  · rw [myDie, dieOf]
    omega
  · exact h kv hkv

theorem fencePublish_frame (s : State) (sc : Scope) (st : Nat) :
    (s.fencePublish sc st).core = s.core ∧ (s.fencePublish sc st).mem = s.mem := by
  unfold fencePublish
  split <;> exact ⟨rfl, rfl⟩

theorem acquireFrom_fences {s : State} (hrecs : s.mem.recs = []) (ia src st : Nat) (hsrc : src < 4) : SameFences s (s.acquireFrom ia false src st).1 := by
  unfold acquireFrom
  rw [forceSource, if_pos hsrc, forceDie_of_nil hrecs]
  dsimp only
  split
  · split <;> exact ⟨rfl, rfl, rfl⟩
  · split <;> exact ⟨rfl, rfl, rfl⟩

theorem acquireAll_fences {s : State} (hrecs : s.mem.recs = []) (ia : Nat) (l : List (Nat × Nat)) (hl : ∀ kv ∈ l, kv.1 < 4) :
    SameFences s (s.acquireAll ia false l).1 := by
  induction l generalizing s with
  | nil => exact ⟨rfl, rfl, rfl⟩
  | cons a l ih =>
    obtain ⟨ha, hl⟩ := List.forall_mem_cons.mp hl
    obtain ⟨t, hfrom, hquiet⟩ := acquireFrom_of_quiet hrecs ia a.1 a.2 ha
    have hfirst := acquireFrom_fences hrecs ia a.1 a.2 ha
    rw [acquireAll, hfrom]
    rw [hfrom] at hfirst
    exact hfirst.trans (ih (hquiet.recs.trans hrecs) hl)

/-- With no record, an acquire from dies leaves the fence variables. -/
theorem acquirePart_fences {s : State} (hrecs : s.mem.recs = []) (ia : Nat) (sources : Tab Nat) (eager : Bool) (hsources : ∀ kv ∈ sources, kv.1 < 4) :
    SameFences s (s.acquirePart ia false sources eager).1 := by
  have hall := acquireAll_fences hrecs ia ((sources.filter fun kv => kv.1 == s.myDie) ++ sources.filter fun kv => kv.1 != s.myDie)
    fun kv hkv => (List.mem_append.mp hkv).elim (fun h => hsources kv (List.mem_of_mem_filter h)) fun h => hsources kv (List.mem_of_mem_filter h)
  unfold acquirePart
  split <;> rename_i hq <;> rw [hq] at hall
  · dsimp only
    split <;> exact hall
  · exact hall
  · exact hall

end State

/-! ### FENCE -/

section

variable {s : State} {q : BitVec 3} (hq : s.sqOn q = true) (sc : Scope)
include hq

theorem exec_fence_loadsOut (hout : s.loadsOut = true) : exec (.fence sc q) s = .next s.hold :=
  congrArg Host.Outcome.next ((State.guarded_on hq _).trans (if_pos hout))

theorem exec_fence (hout : s.loadsOut = false) : exec (.fence sc q) s = .next (s.withRelease (Scope.eager sc) (fun s st => (s.fencePublish sc st, 0))
    fun s _ again => s.withAcquire 0 false (s.fenceSources sc) sc again State.endRegion) :=
  congrArg Host.Outcome.next ((State.guarded_on hq _).trans (if_neg (by simp [hout])))

end

/-- A FENCE that finds no record in any log passes at every scope, and its stamp stands on the fence variable (R273). -/
theorem fence_effects {s : State} (sc : Scope) (hreleased : s.core.released = none) (hrecs : s.mem.recs = []) (hid : s.coreId < 352)
    (hsources : ∀ kv ∈ s.fenceSources sc, kv.1 < 4) :
    ∃ w, (s.withRelease (Scope.eager sc) (fun s st => (s.fencePublish sc st, 0)) fun s _ again =>
        s.withAcquire 0 false (s.fenceSources sc) sc again State.endRegion) = w.endRegion ∧ Quiet s w ∧
      w.fenceSources sc = tset (s.fenceSources sc) s.myDie s.mem.clock := by
  obtain ⟨u, hrelease, hsu, huid⟩ := State.releasePart_of_quiet hrecs
  have hu : u.fenceSources sc = s.fenceSources sc := by
    obtain rfl : _ = u := congrArg Prod.fst ((State.releasePart_of_nil hrecs).symm.trans hrelease)
    rfl
  obtain ⟨hcore, hmem⟩ := State.fencePublish_frame u sc s.mem.clock
  have hy := State.fenceSources_fencePublish u sc s.mem.clock
  have hysources := State.fenceSources_fencePublish_lt (huid.symm ▸ hid) (hu.symm ▸ hsources) s.mem.clock
  rw [hu, State.myDie, huid, ← State.myDie] at hy
  generalize hpub : u.fencePublish sc s.mem.clock = y at hcore hmem hy hysources
  have hsy : Quiet s y := hsu.trans (Quiet.of_core_mem hcore hmem)
  have hyv : Quiet y y.releaseDone := State.releaseDone_quiet (hsy.released.trans hreleased)
  have hvrecs : y.releaseDone.mem.recs = [] := hsy.recs.trans hrecs
  obtain ⟨w, hacquire, hvw⟩ := State.acquirePart_of_quiet hvrecs 0 (y.fenceSources sc) (Scope.eager sc) hysources
  have hfences := State.acquirePart_fences hvrecs 0 (y.fenceSources sc) (Scope.eager sc) hysources
  rw [hacquire] at hfences
  refine ⟨w, ?_, hsy.trans (hyv.trans hvw), (hfences.fenceSources sc).trans hy⟩
  have hforce : (if Scope.eager sc then y.forceDie y.myDie s.mem.clock else (y, true)) = (y, true) := by
    rw [State.forceDie_of_nil (hsy.recs.trans hrecs), ite_self]
  rw [State.withRelease_passes _ _ _ hreleased hrelease (congrArg (·, 0) hpub) hforce]
  exact State.withAcquire_done _ _ hacquire

/-! ### LOGMARK and LOGTRUNC (R285) -/

section

variable {s : State} {q : BitVec 3} (hq : s.sqOn q = true) (d a : BitVec 6)
include hq

theorem exec_log_unprivileged (hpriv : s.logPriv = false) : exec (.logmark d q) s = .next s.illegal ∧ exec (.logtrunc d a q) s = .next s.illegal :=
  ⟨congrArg Host.Outcome.next ((State.guarded_on hq _).trans (if_neg (by simp [hpriv]))),
    congrArg Host.Outcome.next ((State.guarded_on hq _).trans (if_pos (by simp [hpriv])))⟩

theorem exec_logmark (hpriv : s.logPriv = true) : exec (.logmark d q) s = .next (s.setX d (logPos s.coreId s.bound.lastSeq) 1) :=
  congrArg Host.Outcome.next ((State.guarded_on hq _).trans (if_pos hpriv))

theorem exec_logtrunc_copying (hpriv : s.logPriv = true) (hjobs : ∃ j ∈ s.core.copy.jobs, j.dir = .sh ∨ j.dir = .rm ∨ j.dir = .tevict) :
    exec (.logtrunc d a q) s = .next s.hold :=
  congrArg Host.Outcome.next ((State.guarded_on hq _).trans ((if_neg (by simp [hpriv])).trans (if_pos (by simpa [or_assoc] using hjobs))))

/-- The unreleased records above the position go, and the answer says whether a record above it had been released. -/
theorem exec_logtrunc (hpriv : s.logPriv = true) (hjobs : ∀ j ∈ s.core.copy.jobs, j.dir ≠ .sh ∧ j.dir ≠ .rm ∧ j.dir ≠ .tevict) :
    let here := (s.x a).toNat / 2 ^ 55 = s.coreId
    let pos := if here then (s.x a).toNat % 2 ^ 55 else s.bound.seq0
    let stays := if here then decide (pos < s.bound.relSeq) else s.releasedSince ((s.x a).toNat / 2 ^ 55) ((s.x a).toNat % 2 ^ 55)
    exec (.logtrunc d a q) s =
      .next (((s.discard fun r => decide (pos < r.seq)).modTask fun b => { b with mark := min b.mark pos }).setX d (if stays = true then 1 else 0) 1) := by
  have hnone : (s.core.copy.jobs.any fun j => j.dir == .sh || j.dir == .rm || j.dir == .tevict) = false := by
    simpa [and_assoc] using hjobs
  refine congrArg Host.Outcome.next ((State.guarded_on hq _).trans ((if_neg (by simp [hpriv])).trans ((if_neg (by simp [hnone])).trans ?_)))
  simp only [decide_eq_true_eq]

end

/-! ### LOGCMP (R284) -/

namespace State

section

variable {s u : State} {n : Nat} (d : BitVec 6) (h : s.core.compacted = none)
include h

theorem logCompact_done (hforce : s.forceDie s.myDie n = (u, true)) :
    s.logCompact d n = (u.modCore fun c => { c with compacted := none }).setX d (BitVec.ofNat 64 (s.mem.releasedIn s.myDie 0 n).length) 1 := by
  simp only [logCompact, h, Option.getD_none, hforce]

theorem logCompact_waits (hforce : s.forceDie s.myDie n = (u, false)) :
    s.logCompact d n = (u.modCore fun c => { c with compacted := some (n, (s.mem.releasedIn s.myDie 0 n).length) }).hold := by
  simp only [logCompact, h, Option.getD_none, hforce]

end

end State

section

variable {s : State} {a : BitVec 6} {q : BitVec 3} (hq : s.sqOn q = true) (d : BitVec 6)
include hq

theorem exec_logcmp_noWindow (ha : a ≠ 0) (h : (s.ctx s.bound.ctx).translate? (s.x a).toNat .rd = none) :
    exec (.logcmp d a q) s = .next (s.noWindow (s.x a)) :=
  congrArg Host.Outcome.next ((State.guarded_on hq _).trans ((if_neg ha).trans (State.lsAccess_noWindow _ h)))

theorem exec_logcmp_misaligned {c : Access} (ha : a ≠ 0) (hc : (s.ctx s.bound.ctx).translate? (s.x a).toNat .rd = some c) (halign : (s.x a).toNat % 8 ≠ 0) :
    exec (.logcmp d a q) s = .next (s.misalign (s.x a) 8) :=
  congrArg Host.Outcome.next ((State.guarded_on hq _).trans ((if_neg ha).trans (State.lsAccess_misaligned _ hc halign)))

/-- The stamp up to which LOGCMP compacts: that of the task's last release, or of the die's on a variable. -/
theorem exec_logcmp {n : Nat} (hn : a = 0 ∧ n = s.bound.lastRel ∨
    ∃ c, a ≠ 0 ∧ (s.ctx s.bound.ctx).translate? (s.x a).toNat .rd = some c ∧ (s.x a).toNat % 8 = 0 ∧ n = s.dieStamp c.ia) :
    exec (.logcmp d a q) s = .next (s.logCompact d n) := by
  refine congrArg Host.Outcome.next ((State.guarded_on hq _).trans ?_)
  rcases hn with ⟨ha, rfl⟩ | ⟨c, ha, hc, halign, rfl⟩
  · exact if_pos ha
  · exact (if_neg ha).trans (State.lsAccess_ok _ hc halign)

end

/-- Settles O24: FENCE by how its release and its acquire go on, and the three syllables of the log. -/
theorem fenceAndLog : Obligations.FenceAndLog := by
  unfold Obligations.FenceAndLog
  refine ⟨fun s sc q hq hreleased => ⟨fun hout => exec_fence_loadsOut hq sc hout, fun hout => ⟨fun u st e h => ?race,
      fun u st h z b hz => ⟨fun hb => ?waits, fun hb w r hw => ?passes⟩, fun hrecs hid hsources => ?quiet⟩⟩,
    fun s d a q hq => ⟨fun hpriv => exec_log_unprivileged hq d a hpriv,
      fun hpriv => ⟨exec_logmark hq d hpriv, fun hjobs => exec_logtrunc_copying hq d a hpriv hjobs, fun hjobs => ?truncates⟩,
      fun ha h => exec_logcmp_noWindow hq d ha h, fun c ha hc halign => exec_logcmp_misaligned hq d ha hc halign, fun n hcompacted hn => ?logcmp⟩⟩
  case race => rw [exec_fence hq sc hout, State.withRelease_race _ _ _ hreleased h]
  case waits =>
    subst hb
    exact (exec_fence hq sc hout).trans (congrArg _ (State.withRelease_waits _ _ _ hreleased h rfl ((if_congr Scope.eager_iff_eq rfl rfl).trans hz)))
  case passes =>
    subst hb
    rw [← Scope.eager_eq] at hw
    have hexec := exec_fence hq sc hout
    rw [State.withRelease_passes _ _ _ hreleased h rfl ((if_congr Scope.eager_iff_eq rfl rfl).trans hz)] at hexec
    exact State.withAcquire_outcome hexec hw
  case quiet =>
    obtain ⟨w, hw, hsw, hfence⟩ := fence_effects sc hreleased hrecs hid hsources
    refine ⟨w.endRegion, (exec_fence hq sc hout).trans (congrArg _ hw), endRegion_ends w, hsw.released.trans hreleased, hsw.regs, hsw.flight,
      hsw.spad, hsw.cells, ?_⟩
    exact (congrArg (tget? · s.myDie) hfence).trans (tget?_tset_same _ _ _)
  case truncates =>
    refine ⟨_, exec_logtrunc hq d a hpriv hjobs, setX_mem _ _ _ _, setX_writesX rfl d _ 1, setX_regs _ _ _ _, fun b hb => ?_⟩
    rw [setX_task]
    exact congrArg (Option.map _) hb
  case logcmp =>
    have hexec := exec_logcmp hq d hn
    refine ⟨⟨fun u hu => ?_, fun u hu => ?_⟩, fun hrecs => ?_⟩
    · exact ⟨_, hexec.trans (congrArg _ (State.logCompact_done d hcompacted hu)), setX_writesX rfl d _ 1, setX_mem _ _ _ _, setX_compacted _ _ _ _⟩
    · exact hexec.trans (congrArg _ (State.logCompact_waits d hcompacted hu))
    · have hnone : (s.mem.releasedIn s.myDie 0 n).length = 0 := by rw [Mem.releasedIn, hrecs]; rfl
      refine ⟨_, hexec.trans (congrArg _ (State.logCompact_done d hcompacted (State.forceDie_of_nil hrecs _ _))), ?_, setX_mem _ _ _ _, setX_regs _ _ _ _⟩
      rw [hnone]
      exact setX_writesX rfl d _ 1

end Sys2Proof.Machine
end

section
/-! Supersteps, completion counters and posts (spec 10_memory_model.md R283; 11_translation_scheduling.md R303, R304; 15_collectives_network.md R388 to
R390). -/

namespace Sys2Proof.Machine

/-! ### SSTEP (R283) -/

section

variable {s : State} {q : BitVec 3} (hq : s.sqOn q = true) (pkg : Bool)

include hq in
theorem exec_sstep : exec (if pkg then .sstepPackage q else .sstepDie q) s = .next (s.sstep pkg) := by
  cases pkg <;> exact congrArg Host.Outcome.next (State.guarded_on hq _)

variable (hreleased : s.core.released = none)
include hreleased

theorem sstep_loadsOut (hout : s.loadsOut = true) : s.sstep pkg = s.hold := by
  simp only [State.sstep, hreleased, hout, if_true]

/-- With no SEND outstanding, the release is followed by the arrival at the superstep. -/
theorem sstep_arrives (hout : s.loadsOut = false) {u : State} {st : Nat} (h : s.releasePart = (u, st, none)) (hchans : u.core.chans = []) :
    ∃ l key f g k, s.sstep pkg =
      (((State.modStep u l key f).modCore fun c => { c with released := none, sstep := some (pkg, g) }).modStep l key k).endRegion := by
  have hpending : ∀ r l key f, (State.modStep u l key f).chanPending r = false := by
    intro r l key f
    change (u.core.chans.any _) = false
    rw [hchans]
    rfl
  simp only [State.sstep, hreleased, hout, Bool.false_eq_true, if_false, h, hpending]
  exact ⟨_, _, _, _, _, rfl⟩

end

/-! ### CCADD (R303, R304) -/

namespace State

/-- A read-modify-write that neither compacts its die nor acquires, and finds nothing to wait for: up to its operation it does bookkeeping only. -/
theorem rmwPasses_lazy_of_ready {v : State} {ia : Nat} (h : RmwReady v ia) (pa n : Nat) (f : Word → Option Word) :
    ∃ y, Quiet v y ∧ RmwPasses v ia pa n f false false (y.atomicAt ia pa n f).1 (y.atomicAt ia pa n f).2 := by
  obtain ⟨p, hroom, hvp⟩ := publishRoom_of_ready h
  obtain ⟨⟨hrecs, -, -⟩, hreleased, hwait, -⟩ := h
  obtain ⟨w, hrelease, hpw, -⟩ := releasePart_of_quiet (hvp.recs.trans hrecs)
  have hvq := (hvp.trans hpw).trans (publish_quiet w ia w.myDie p.mem.clock)
  generalize hq : w.publish ia w.myDie p.mem.clock = q at hvq
  have hdone : Quiet q q.releaseDone := State.releaseDone_quiet (hvq.released.trans hreleased)
  have hyrecs : q.releaseDone.mem.recs = [] := hvq.recs.trans hrecs
  exact ⟨q.releaseDone, hvq.trans hdone, p, w, p.mem.clock, q, q.releaseDone, q.releaseDone, hreleased, hwait, hroom, hrelease,
    Prod.ext hq rfl, rfl, compactAt_of_nil hyrecs ia n, rfl⟩

end State

section

variable {s : State} {a : BitVec 6} {c : Access} (b : BitVec 6) (hc : (s.ctx s.bound.ctx).translate? (s.x a).toNat .rdw = some c)
  (halign : (s.x a).toNat % 8 = 0) (hconst : s.constWin c.win = false)
include hc halign hconst

theorem exec_ccadd_remote (hremote : s.isRemote c.ia = true) : exec (.ccadd a b) s = .next s.illegal :=
  congrArg Host.Outcome.next (State.syncAccess_outOfReach _ hc halign (fun _ => hconst) hremote rfl)

variable (hlocal : s.isRemote c.ia = false)
include hlocal

theorem exec_ccadd_loadsOut (hout : s.loadsOut = true) : exec (.ccadd a b) s = .next s.hold :=
  congrArg Host.Outcome.next ((State.syncAccess_ok _ hc halign (fun _ => hconst) (.inl hlocal)).trans (if_pos hout))

variable (hout : s.loadsOut = false) {u v : State} {pa : Nat} {m : Bool} {bs : List Byte} (hwalk : s.walk s.myDie c.ia = (u, .page pa m))
  (hread : u.homeRead c.ia pa 8 = (v, some bs))
include hout hwalk hread

theorem exec_ccadd_local (hwait : v.imageWait c.ia = false) : exec (.ccadd a b) s = .next (v.withRoom c.ia fun s =>
    s.withRelease false (fun s st => (s.publish c.ia s.myDie st, 0)) fun s _ again =>
      s.withAtomic c.ia pa 8 (fun o => some (o + s.x b)) again fun s _ => s.endRegion) := by
  refine congrArg Host.Outcome.next ((State.syncAccess_ok _ hc halign (fun _ => hconst) (.inl hlocal)).trans ((if_neg (by simp [hout])).trans ?_))
  exact (State.syncWord_read _ hwalk hread).trans (if_neg (by simp [hwait]))

/-- A CCADD whose read-modify-write passes ends its region after the operation; its operand is as it was at issue. -/
theorem exec_ccadd_passes {z : State} {old : Word} (hpass : RmwPasses v c.ia pa 8 (fun o => some (o + s.x b)) false false z old) :
    exec (.ccadd a b) s = .next z.endRegion := by
  obtain ⟨p, w, st, e, y, k, hreleased, hwait, hroom, hrelease, hforce, hacquire, hcompact, hatomic⟩ := hpass
  obtain rfl : w.publish c.ia w.myDie st = e := congrArg Prod.fst hforce
  obtain rfl : (w.publish c.ia w.myDie st).releaseDone = y := congrArg Prod.fst hacquire
  have hvcore := State.walk_homeRead_core hwalk hread
  have hvp : SameCore v p := by simpa only [hroom] using State.publishRoom_core v c.ia v.myDie
  have hpw := State.released_of_releasePart hrelease
  have hwq := (State.publish_frame w c.ia w.myDie st).1
  have hx : (w.publish c.ia w.myDie st).releaseDone.x b = s.x b :=
    State.x_congr ((congrArg Core.regs hwq).trans (hpw.regs.trans (hvp.regs.trans (congrArg Core.regs hvcore))))
      ((congrArg Core.front hwq).trans (hpw.front.trans (hvp.front.trans (congrArg Core.front hvcore)))) b
  rw [exec_ccadd_local b hc halign hconst hlocal hout hwalk hread hwait, State.withRoom_room _ hreleased hroom,
    State.withRelease_passes _ _ _ (hvp.released.trans hreleased) hrelease rfl rfl, State.withAtomic, hx, hcompact]
  dsimp only
  rw [hatomic]

end

/-- A CCADD that finds nothing to wait for leaves the sum at home (R264, R303). -/
theorem ccadd_effects {s v : State} {ia pa : Nat} (x : Word) (hsv : Quiet s v) (hready : RmwReady v ia) :
    ∃ z old, RmwPasses v ia pa 8 (fun o => some (o + x)) false false z old ∧ z.core.regs = s.core.regs ∧ z.core.flight = s.core.flight ∧
      z.core.spad = s.core.spad ∧ (∀ x, (x < pa ∨ pa + 8 ≤ x) → z.homeByte x = s.homeByte x) ∧
      (pa % 8 = 0 → (∀ b ∈ s.mem.bad, b ≠ pa / 32) → (∀ x, pa ≤ x → x < pa + 8 → tget 0 s.mem.stamps x ≤ s.mem.clock) →
        leNat (z.mem.bytes pa 8) = (leNat (s.mem.bytes pa 8) + x.toNat) % 2 ^ 64) := by
  obtain ⟨y, hvy, hpass⟩ := State.rmwPasses_lazy_of_ready hready pa 8 fun o => some (o + x)
  have hsy := hsv.trans hvy
  have hyrecs : y.mem.recs = [] := hvy.recs.trans hready.1.1
  have hcore := State.atomicAt_core y ia pa 8 fun o => some (o + x)
  refine ⟨_, _, hpass, hcore.regs.trans hsy.regs, hcore.flight.trans hsy.flight, hcore.spad.trans hsy.spad, fun a ha => ?_, fun halign hbad hstamps => ?_⟩
  · exact (State.atomicAt_byte_other hyrecs ia pa 8 _ ha).trans (congrArg (cget · a) hsy.cells)
  · rw [State.atomicAt_new hyrecs ia pa 8 (fun o => some (o + x)) (.inr rfl) halign (fun b hb => hbad b (hsy.bad hb))
      (fun a ha ha' => by rw [hsy.stamps]; exact (hstamps a ha ha').trans hsy.clock) rfl, Mem.bytes_congr hsy.cells pa 8]
    simp [BitVec.toNat_add]

/-! ### CCWAIT and NETWAIT (R304, R389) -/

/-- A wait on a counter of this device: the hold below its value, the acquire from it once it is reached. -/
def counterWait (v : State) (ia : Nat) (bs : List Byte) (target : Word) (sc : Scope) : State :=
  if leNat bs < target.toNat then v.hold else v.withAcquire (varOf ia) false (v.varSources ia) sc State.hold id

section

variable {s : State} {a : BitVec 6} {c : Access} (b : BitVec 6) (hc : (s.ctx s.bound.ctx).translate? (s.x a).toNat .rd = some c)
  (halign : (s.x a).toNat % 8 = 0)
include hc halign

theorem exec_counterWait_remote (hremote : s.isRemote c.ia = true) : exec (.ccwait a b) s = .next s.illegal ∧ exec (.netwait a b) s = .next s.illegal :=
  ⟨congrArg Host.Outcome.next (State.syncAccess_outOfReach _ hc halign (fun h => nomatch h) hremote rfl),
    congrArg Host.Outcome.next (State.syncAccess_outOfReach _ hc halign (fun h => nomatch h) hremote rfl)⟩

variable (hlocal : s.isRemote c.ia = false) {u v : State} {pa : Nat} {m : Bool} {bs : List Byte} (hwalk : s.walk s.myDie c.ia = (u, .page pa m))
  (hread : u.homeRead c.ia pa 8 = (v, some bs))
include hlocal hwalk hread

theorem exec_ccwait_local : exec (.ccwait a b) s = .next (counterWait v c.ia bs (s.x b) (if v.netCounter c.ia then .network else .package)) := by
  have hcore := State.walk_homeRead_core hwalk hread
  refine congrArg Host.Outcome.next ((State.syncAccess_ok _ hc halign (fun h => nomatch h) (.inl hlocal)).trans ((State.syncWord_read _ hwalk hread).trans ?_))
  rw [counterWait, State.x_congr (congrArg Core.regs hcore) (congrArg Core.front hcore)]

theorem exec_netwait_local : exec (.netwait a b) s = .next (counterWait v c.ia bs (s.x b) .network) := by
  have hcore := State.walk_homeRead_core hwalk hread
  refine congrArg Host.Outcome.next ((State.syncAccess_ok _ hc halign (fun h => nomatch h) (.inl hlocal)).trans ((State.syncWord_read _ hwalk hread).trans ?_))
  rw [counterWait, State.x_congr (congrArg Core.regs hcore) (congrArg Core.front hcore)]

end

section

variable {v : State} {ia : Nat} {bs : List Byte} {target : Word} (sc : Scope)

theorem counterWait_low (h : leNat bs < target.toNat) : counterWait v ia bs target sc = v.hold := if_pos h

variable (h : target.toNat ≤ leNat bs)
include h

theorem counterWait_reached : counterWait v ia bs target sc = v.withAcquire (varOf ia) false (v.varSources ia) sc State.hold id :=
  if_neg (Nat.not_lt.mpr h)

/-- In quiet memory a wait on a counter that has reached its value passes. -/
theorem counterWait_effects (hquiet : SyncQuiet v ia) : Quiet v (counterWait v ia bs target sc) := by
  obtain ⟨hrecs, -, hsources⟩ := hquiet
  obtain ⟨w, hw, hvw⟩ := State.acquirePart_of_quiet hrecs (varOf ia) _ (Scope.eager sc) hsources
  rwa [counterWait_reached sc h, State.withAcquire_done _ _ hw]

end

theorem eager_ite_network (b : Bool) : Scope.eager (if b = true then .network else .package) = b := by cases b <;> rfl

/-! ### NETPOST (R388 to R390) -/

namespace State

/-- With no released record there is nothing to compact. -/
theorem forceDie_of_unstamped {s : State} (h : ∀ e ∈ s.mem.recs, e.stamp = none) (d st : Nat) : s.forceDie d st = (s, true) := by
  have hnone : s.mem.recs.filter (fun r => r.stamp.isSome) = [] := by simpa using h
  have hcompactible : ∀ p, s.mem.compactible p = [] := fun p => by rw [Mem.compactible, Mem.released, hnone]; rfl
  rw [forceDie, compactDie, compact, hcompactible, compactList]
  simp only [Prod.mk.injEq, true_and, Bool.not_eq_true', List.any_eq_false]
  intro r hr
  simp [h r hr]

/-- The core, which core is in focus, and the records are as before. -/
def SameRecs (s t : State) : Prop := t.core = s.core ∧ t.coreId = s.coreId ∧ t.mem.recs = s.mem.recs

theorem SameRecs.trans {s t u : State} (h : SameRecs s t) (g : SameRecs t u) : SameRecs s u :=
  ⟨g.1.trans h.1, g.2.1.trans h.2.1, g.2.2.trans h.2.2⟩

theorem walk_sameRecs (s : State) (d ia : Nat) : SameRecs s (s.walk d ia).1 :=
  ⟨walk_core s d ia, walk_coreId s d ia, congrArg Mem.recs (walk_mem s d ia)⟩

theorem homeRead_sameRecs (s : State) (ia pa n : Nat) : SameRecs s (s.homeRead ia pa n).1 :=
  ⟨homeRead_core s ia pa n, homeRead_coreId s ia pa n, (Quiet.homeRead s ia pa n).recs⟩

theorem readIa_sameRecs (s : State) (d ia n f : Nat) : SameRecs s (s.readIa d ia n f).1 := by
  induction f generalizing s ia n with
  | zero => exact ⟨rfl, rfl, rfl⟩
  | succ f ih =>
    have hwalk := walk_sameRecs s d ia
    unfold readIa
    dsimp only
    split
    · exact ⟨rfl, rfl, rfl⟩
    · split
      · refine hwalk.trans ?_
        split
        · exact homeRead_sameRecs _ _ _ _
        · exact (homeRead_sameRecs _ _ _ _).trans (ih _ _ _)
      · exact hwalk

/-- NETPOST's work request for slot `k` of a ring, once the slot is published (R390). -/
def postSlot (ring : Nat) (s : State) (k : Nat) : State :=
  let c := s.bound.ctx
  let w := s.ringReg (64 + ring)
  let (s, r) := s.readIa s.myDie (ringEntry w k) 64 2
  let bs := r.getD []
  let (s, t) := s.takeTicket
  let s := s.modNet fun n => { n with work := n.work ++
    [{ ctx := c, ring := ring, bytes := bs, slot := k, core := some s.coreId, foot := s.workFoot c bs, ticket := t }] }
  s.postEnd s.bound.lastRel

/-- Where nothing waits to be compacted, the work request joins with its ring, slot, context and bytes, and the region ends. -/
theorem postSlot_spec {s u : State} {ring k : Nat} {r : Option (List Byte)} (hrecs : ∀ e ∈ s.mem.recs, e.stamp = none)
    (hread : s.readIa s.myDie (ringEntry (s.ringReg (64 + ring)) k) 64 2 = (u, r)) : let t := postSlot ring s k
    (∃ x, t.net.work = u.net.work ++ [x] ∧ x.ctx = u.bound.ctx ∧ x.ring = ring ∧ x.slot = k ∧ x.core = some u.coreId ∧ x.bytes = r.getD [] ∧
      x.started = false) ∧ t.core.regs = u.core.regs ∧ t.mem = u.mem ∧ EndsRegion t := by
  have hframe := readIa_sameRecs s s.myDie (ringEntry (s.ringReg (64 + ring)) k) 64 2
  rw [hread] at hframe
  obtain ⟨hcore, -, hurecs⟩ := hframe
  have hctx : s.bound.ctx = u.bound.ctx := by rw [bound, bound, hcore]
  simp only [postSlot, hread, hctx, postEnd]
  rw [forceDie_of_unstamped (hurecs ▸ hrecs)]
  exact ⟨⟨_, rfl, rfl, rfl, rfl, rfl, rfl, rfl⟩, rfl, rfl, endRegion_ends _⟩

end State

theorem exec_netpost {s : State} (hreleased : s.core.released = none) (a b : BitVec 6) : ∃ check, exec (.netpost a b) s =
    .next (s.submit (s.x a) (64 + (s.x b).toNat % 64) check (State.postSlot ((s.x b).toNat % 64))) := by
  refine ⟨fun s bs k => s.withFootprint 3 (s.workFoot s.bound.ctx bs) k, ?_⟩
  change execNetpost a b s = _
  rw [execNetpost, hreleased]
  rfl

/-- Settles O27: SSTEP by what its release waits for, the counters by their tests and by whether they are reached, NETPOST by how far its submission has
come. -/
theorem countersAndPosts : Obligations.CountersAndPosts := by
  unfold Obligations.CountersAndPosts
  refine ⟨fun s q pkg i hi hq hreleased => ?sstep, fun s a b => ⟨fun c hc halign hconst => ?ccadd, fun c hc halign => ?waits⟩,
    fun s a b hreleased => ?netpost⟩
  case sstep =>
    have hexec := exec_sstep hq pkg
    rw [← hi] at hexec
    refine ⟨fun hout => hexec.trans (congrArg _ (sstep_loadsOut pkg hreleased hout)), fun hout u st h hchans => ?_⟩
    obtain ⟨l, key, f, g, k, harrives⟩ := sstep_arrives pkg hreleased hout h hchans
    exact ⟨_, hexec.trans (congrArg _ harrives), ⟨g, rfl⟩, rfl, rfl, rfl, endRegion_ends _⟩
  case ccadd =>
    refine ⟨fun hremote => exec_ccadd_remote b hc halign hconst hremote, fun hlocal hout => exec_ccadd_loadsOut b hc halign hconst hlocal hout,
      fun hlocal hout u pa m v bs hwalk hread =>
        ⟨fun z old hpass => exec_ccadd_passes b hc halign hconst hlocal hout hwalk hread hpass, fun hready => ?_⟩⟩
    obtain ⟨z, old, hpass, hregs, hflight, hspad, hother, hsum⟩ := ccadd_effects (pa := pa) (s.x b) (Quiet.of_walk_homeRead hwalk hread) hready
    exact ⟨_, exec_ccadd_passes b hc halign hconst hlocal hout hwalk hread hpass, endRegion_ends z, hregs, hflight, hspad, hother,
      fun h1 _ h2 h3 => hsum h1 h2 h3⟩
  case waits =>
    refine ⟨fun hremote => exec_counterWait_remote b hc halign hremote, fun hlocal u pa m v bs hwalk hread => ?_⟩
    have hcc := exec_ccwait_local b hc halign hlocal hwalk hread
    have hnet := exec_netwait_local b hc halign hlocal hwalk hread
    refine ⟨fun hlow => ⟨hcc.trans (congrArg _ (counterWait_low _ hlow)), hnet.trans (congrArg _ (counterWait_low _ hlow))⟩,
      fun hreached => ⟨fun w r hw => ?_, fun w r hw => ?_, fun hquiet i hi => ?_⟩⟩
    · rw [← eager_ite_network (v.netCounter c.ia)] at hw
      exact State.withAcquire_outcome (hcc.trans (congrArg _ (counterWait_reached _ hreached))) hw
    · exact State.withAcquire_outcome (sc := .network) (hnet.trans (congrArg _ (counterWait_reached _ hreached))) hw
    · obtain ⟨sc, hexec⟩ : ∃ sc, exec i s = .next (counterWait v c.ia bs (s.x b) sc) := by
        rcases hi with rfl | rfl
        · exact ⟨_, hcc⟩
        · exact ⟨_, hnet⟩
      have hsw := (Quiet.of_walk_homeRead hwalk hread).trans (counterWait_effects sc hreached hquiet)
      exact ⟨_, hexec, hsw.regs, hsw.flight, hsw.spad, hsw.cells, congrArg Front.hold hsw.front⟩
  case netpost =>
    obtain ⟨check, hexec⟩ := exec_netpost hreleased a b
    refine ⟨fun n k u hheld hpub htry => ?_, fun n k v u r hheld hpub htry hrecs hread => ?_, fun k u r hheld hpub hrecs hread => ?_⟩
    · rw [hexec, State.submit_of_held _ _ _ _ hheld, State.submitPublish_of_wait _ _ _ hpub htry]
    · exact ⟨_, by rw [hexec, State.submit_of_held _ _ _ _ hheld, State.submitPublish_of_try _ _ _ hpub htry],
        State.postSlot_spec (s := v.modCore fun c => { c with published := none }) hrecs hread⟩
    · exact ⟨_, by rw [hexec, State.submit_of_published _ _ _ _ hheld hpub],
        State.postSlot_spec (s := s.modCore fun c => { c with published := none }) hrecs hread⟩

end Sys2Proof.Machine
end

section
/-! TSEQ (spec 11_translation_scheduling.md R301, R302, R304): the slice that a descriptor has for a number, and which number the sequencer draws. -/

namespace Sys2Proof.Machine

namespace State

/-! ### Slices (R302) -/

section

variable (s : State) {t : TileDesc} {k : Nat}

theorem takeSlice_past (h : t.total ≤ k * t.slice) :
    s.takeSlice t k = ((s.setX 8 (BitVec.ofNat 64 t.total) 1).setX 9 0 1).setX 10 0 1 := by
  simp only [takeSlice, if_pos h, if_true, BitVec.ofNat_eq_ofNat]

theorem takeSlice_within (h : k * t.slice < t.total) (hslice : 0 < t.slice) :
    s.takeSlice t k = ((s.setX 8 (BitVec.ofNat 64 (k * t.slice)) 1).setX 9 (BitVec.ofNat 64 (min t.slice (t.total - k * t.slice))) 1).setX 10
      (BitVec.ofNat 64 (t.coords (k * t.slice))) 1 := by
  have hcount : min t.slice (t.total - k * t.slice) ≠ 0 := by omega
  simp only [takeSlice, if_neg (Nat.not_le.mpr h), if_neg hcount]

end

/-- A read-modify-write with an acquire that passes goes on with what its operation left and the old value (R275). -/
theorem rmw_of_passes {v z : State} {ia pa n : Nat} {f : Word → Option Word} {sc : Scope} {old : Word} (k : State → Word → State)
    (hpass : RmwPasses v ia pa n f (Scope.eager sc) true z old) :
    (v.withRoom ia fun s => s.withRelease (Scope.eager sc) (fun s st => (s.publish ia s.myDie st, 0)) fun s _ again =>
      s.withAcquire (varOf ia) false (s.varSources ia) sc again fun s => s.withAtomic ia pa n f again k) = k z old := by
  obtain ⟨p, w, st, e, y, q, hreleased, -, hroom, hrelease, hforce, hacquire, hcompact, hatomic⟩ := hpass
  have hvp : SameCore v p := by simpa only [hroom] using publishRoom_core v ia v.myDie
  have hacquire : e.releaseDone.acquirePart (varOf ia) false (e.releaseDone.varSources ia) (Scope.eager sc) = (y, .done) := hacquire
  rw [withRoom_room _ hreleased hroom, withRelease_passes _ _ _ (hvp.released.trans hreleased) hrelease rfl hforce,
    withAcquire_done _ _ hacquire, withAtomic, hcompact]
  dsimp only
  rw [hatomic]

/-! ### The number of the slice (R304) -/

/-- TSEQ once its descriptor has been read: the slice of the task's index in canonical mode, else of the cursor, which moves on. -/
def sequenceTile (v : State) (ia pa : Nat) (t : TileDesc) : State :=
  if v.det then (v.takeSlice t v.bound.index).endRegion
  else if v.loadsOut || (v.core.released.isNone && v.imageWait (ia + 24)) then v.hold
  else
    v.withRoom (ia + 24) fun s => s.withRelease (Scope.eager .package) (fun s st => (s.publish (ia + 24) s.myDie st, 0)) fun s _ again =>
      s.withAcquire (varOf (ia + 24)) false (s.varSources (ia + 24)) .package again fun s =>
        s.withAtomic (ia + 24) (pa + 24) 8 (fun o => some (o + 1)) again fun s old => (s.takeSlice t old.toNat).endRegion

theorem sequenceTile_canonical {v : State} (ia pa : Nat) (t : TileDesc) (hdet : v.core.regs.z.stat.det = true) :
    v.sequenceTile ia pa t = (v.takeSlice t v.bound.index).endRegion := if_pos hdet

theorem sequenceTile_cursor {v z : State} {ia pa : Nat} (t : TileDesc) {old : Word} (hdet : v.core.regs.z.stat.det = false) (hout : v.loadsOut = false)
    (hpass : RmwPasses v (ia + 24) (pa + 24) 8 (fun o => some (o + 1)) false true z old) :
    v.sequenceTile ia pa t = (z.takeSlice t old.toNat).endRegion := by
  obtain ⟨hdet, hwait⟩ : v.det = false ∧ v.imageWait (ia + 24) = false := ⟨hdet, by obtain ⟨-, -, -, -, -, -, -, h, -⟩ := hpass; exact h⟩
  rw [sequenceTile, if_neg (by simp [hdet]), if_neg (by simp [hout, hwait])]
  exact rmw_of_passes (sc := .package) _ hpass

end State

section

variable {s : State} {a : BitVec 6} {c : Access} (hc : (s.ctx s.bound.ctx).translate? (s.x a).toNat .rdw = some c) (halign : (s.x a).toNat % 64 = 0)
  (hconst : s.constWin c.win = false) (hlocal : s.isRemote c.ia = false) {u v : State} {pa : Nat} {m : Bool} {g : ViewGot}
  (hwalk : s.walk s.myDie c.ia = (u, .page pa m)) (hread : u.viewRead c.ia pa 64 = (v, g)) (hgot : g.lost = false)
include hc halign hconst hlocal hwalk hread hgot

/-- A TSEQ whose descriptor reads well: ILLEGAL where the descriptor is malformed. -/
theorem exec_tseq_read : exec (.tseq a) s = .next ((TileDesc.ofBytes g.data).elim v.illegal (v.sequenceTile c.ia pa)) := by
  refine congrArg Host.Outcome.next ((State.syncAccess_ok _ hc halign (fun _ => hconst) (.inl hlocal)).trans ((State.withPage_page _ hwalk).trans ?_))
  rw [hread]
  dsimp only
  rw [if_neg (by simp [hgot])]
  cases TileDesc.ofBytes g.data with
  | none => rfl
  | some t => rfl

theorem exec_tseq_malformed (hnone : TileDesc.ofBytes g.data = none) : exec (.tseq a) s = .next v.illegal := by
  rw [exec_tseq_read hc halign hconst hlocal hwalk hread hgot, hnone]
  rfl

theorem exec_tseq {t : TileDesc} (hsome : TileDesc.ofBytes g.data = some t) : exec (.tseq a) s = .next (v.sequenceTile c.ia pa t) := by
  rw [exec_tseq_read hc halign hconst hlocal hwalk hread hgot, hsome]
  rfl

end

/-- Settles O26: TSEQ by its descriptor and by where the number of its slice comes from, and a slice by whether it lies past the end. -/
theorem tileSequencer : Obligations.TileSequencer := by
  unfold Obligations.TileSequencer
  refine ⟨fun s a c u pa m v g hc halign hconst hlocal hwalk hread hgot => ⟨?malformed, fun t hsome hdet => ?canonical,
    fun t z old hsome hdet hout hpass => ?cursor⟩, fun s t k => ⟨s.takeSlice_past, s.takeSlice_within⟩⟩
  case malformed => exact exec_tseq_malformed hc halign hconst hlocal hwalk hread hgot
  case canonical => rw [exec_tseq hc halign hconst hlocal hwalk hread hgot hsome, State.sequenceTile_canonical _ _ t hdet]
  case cursor => rw [exec_tseq hc halign hconst hlocal hwalk hread hgot hsome, State.sequenceTile_cursor t hdet hout hpass]

end Sys2Proof.Machine
end

section
/-! The command processor, the graph walker and the job walker (spec 11_translation_scheduling.md R309 to R312; 13_package.md R348, R351): what each does with
the ring, the launch, the node or the phase that is due. -/

namespace Sys2Proof.Machine

namespace State

variable {s : State}

/-! ### Ring visits (R348) -/

theorem pollVisit_of_some {n : Nat} (h : (s.polled.find? fun n => decide (s.sched.poll ≤ n)).or s.polled.head? = some n) :
    s.pollVisit = (s.modSched fun q => { q with poll := n + 1 }).visitRing (n / 64) (n % 64) := by
  simp only [pollVisit, h]

theorem pollVisit_of_nil (h : s.polled = []) : s.pollVisit = s := by
  simp only [pollVisit, h, List.find?_nil, List.head?_nil, Option.or_none]

section

variable {c ring : Nat} {v t : State} {w : Word} (hw : tget 0 (s.ctx c).rings ring = w)
include hw

theorem visitRing_waits (h : s.agentAcquire (ringBase w + 8) = (v, false)) : s.visitRing c ring = v := by
  simp only [visitRing, hw, h]

theorem visitRing_words {r pub con : Nat} (h : s.agentAcquire (ringBase w + 8) = (v, true)) (hwords : v.ringWords 0 w = (t, some (r, pub, con))) :
    s.visitRing c ring = if con < pub then t.takeEntry c ring w con else t := by
  simp only [visitRing, hw, h, hwords]

end

/-! ### Launches that have ended (R351) -/

theorem completeLaunch_of_running {l : Launch} (h : s.launchEnded l = false) : s.completeLaunch l = s := if_pos (by simp [h])

/-- A launch that is neither deterministic, nor run again, nor of a graph's node leaves its statistics and its record, and is complete. -/
theorem completeLaunch_of_ended {l : Launch} (h : s.launchEnded l = true) (hdet : l.det = false) (hagain : l.again = false)
    (hgraph : l.graph = 0 ∨ l.orphan = true) :
    let u := if l.stats = 0 then s else (s.supWrite 0 l.ctx l.stats (statsBlock l.totals)).1
    let v := u.putRecord { l with stop := u.time } l.final (leBytes 48 0)
    s.completeLaunch l = v.modSched fun q => { q with
      launches := v.sched.launches.map fun x =>
        if x.id == l.id && !x.complete then { x with status := x.final, complete := true, stop := v.time } else x } := by
  have hdigest : s.outDigest l = (s, leBytes 48 0) := if_pos (by simp [hdet])
  simp only [completeLaunch, h, hdet, hagain, hdigest, if_pos hgraph, Bool.not_true, Bool.false_and, Bool.false_eq_true, if_false]
  rfl

/-! ### Nodes of a graph (R310) -/

/-- An end node whose entry is well formed acts by leaving the active nodes. -/
theorem nodeAct_end {g : Graph} {n : Nat} {u : State} {b : List Byte} (hread : s.supRead 0 g.ctx (nodeAddr g n) 64 = (u, some b)) (htype : at' b 0 1 = 3)
    (h1 : zeros b 1 1 = true) (h4 : zeros b 4 4 = true) (h40 : zeros b 40 24 = true) (hsucc1 : at' b 16 4 = 0xFFFFFFFF ∨ at' b 16 4 < g.nodes)
    (hsucc2 : at' b 20 4 = 0xFFFFFFFF ∨ at' b 20 4 < g.nodes) :
    s.nodeAct g n = u.modGraph g.id fun g => { g with active := g.active.erase n } := by
  have hok : ∀ o, (at' b o 4 = 0xFFFFFFFF ∨ at' b o 4 < g.nodes) → (at' b o 4 == 0xFFFFFFFF || decide (at' b o 4 < g.nodes)) = true := by simp
  simp only [nodeAct, hread, htype, h1, h4, h40, hok 16 hsucc1, hok 20 hsucc2, Bool.not_true, Bool.false_eq_true, or_false, lt_irrefl, if_false]

/-! ### Jobs and their phases (R311, R312) -/

section

variable {j : JobRun} (hstopped : j.stopped = false) (hlive : j.complete = false)
include hstopped hlive

theorem jobStep_of_idle (hidle : j.active = false) : s.jobStep j = if j.cur < j.nphase then s.startPhase j else s := by
  simp [jobStep, hstopped, hlive, hidle]

theorem jobStep_of_active (hactive : j.active = true) {p : Phase}
    (hp : (s.sched.phases.find? fun p => p.job == j.id && !p.complete && p.graph == 0 && p.gaddr != 0) = some p) : s.jobStep j = s.restartGraph j p := by
  rw [jobStep, if_neg (by simp [hstopped, hlive]), if_neg (by simp [hactive]), hp]

end

theorem restartGraph_starts (j : JobRun) {p : Phase} {t : State}
    (hnone : (s.sched.launches.any fun l => !l.complete && (s.graph? l.graph).any fun g => g.phase == p.id) = false) (hstopped : p.stopped = false)
    (h : s.startGraph p p.gaddr = (t, true)) : s.restartGraph j p = t := by
  rw [restartGraph, if_neg (by simp [hnone]), if_neg (by simp [hstopped]), h]

end State

/-! ### The rows -/

section

variable {s : State}

theorem exec_ringPollVisit {n : Nat} (h : (s.polled.find? fun n => decide (s.sched.poll ≤ n)).or s.polled.head? = some n) :
    exec .ringPollVisit s = .next ((s.modSched fun q => { q with poll := n + 1 }).visitRing (n / 64) (n % 64)) :=
  congrArg Host.Outcome.next (State.pollVisit_of_some h)

theorem exec_ringPollVisit_nil (h : s.polled = []) : exec .ringPollVisit s = .next s := congrArg Host.Outcome.next (State.pollVisit_of_nil h)

theorem exec_launchComplete {l : Launch} (h : (s.sched.launches.find? fun x => x.id == l.id && !x.complete) = some l) :
    exec (.launchComplete l.id) s = .next (s.completeLaunch l) := by
  change execLaunchComplete l.id s = _
  simp only [execLaunchComplete, h]

variable {gid : Nat} {g : Graph} (n : Nat)

theorem exec_graphNodeActivate (h : s.graph? gid = some g) : exec (.graphNodeActivate gid n) s =
    .next (if n ∈ g.active ∧ g.complete = false then (s.nodeAct g n).graphSettle g.id else s.graphSettle gid) := by
  change execGraphNodeActivate gid n s = _
  simp [execGraphNodeActivate, h, State.nodeStep]

theorem exec_phaseStart {j : JobRun} (h : s.job? j.id = some j) : exec (.phaseStart j.id) s = .next (s.jobStep j) := by
  change execPhaseStart j.id s = _
  simp only [execPhaseStart, h]

end

end Sys2Proof.Machine
end

section
/-! Writes of the register window (spec 13_package.md R333, R341; 11_translation_scheduling.md R289, R294, R299, R312): a master that is not the owner, the
owner's command, and the registers that take a value. -/

namespace Sys2Proof.Machine

namespace State

variable {s : State}

/-! ### Whose write it is (R333, R341) -/

theorem settleLease_of_held (h : s.root.owner.id = 0 ∨ s.time < s.root.owner.beat + s.root.owner.lease.toNat) : s.settleLease = s := by
  rw [settleLease, if_neg]
  rintro ⟨howner, hlapsed⟩
  exact h.elim howner (Nat.not_lt.mpr hlapsed)

theorem not_foreign {m : Nat} (hm : m ≠ 0) (howner : s.root.owner.id = m) : ¬ (m = 0 ∨ s.root.owner.id ≠ m) := fun h => h.elim hm fun hne => hne howner

section

variable {m : Nat} (hlease : s.root.owner.id = 0 ∨ s.time < s.root.owner.beat + s.root.owner.lease.toNat)
include hlease

section

variable (hforeign : m = 0 ∨ s.root.owner.id ≠ m)
include hforeign

theorem next_ownerWrite_foreign (off : Nat) (v : Word) (f : State → Written) : (.next (s.ownerWrite m off v f) : Out) = .next s := by
  simp only [ownerWrite, settleLease_of_held hlease, if_pos hforeign]

theorem stageWrite_foreign (v : Word) : s.stageWrite m v = s := by
  simp only [stageWrite, settleLease_of_held hlease, if_pos hforeign]

theorem beat_foreign : s.beat m = s := by
  have hnot : ¬ (m ≠ 0 ∧ s.root.owner.id = m) := fun ⟨hm, howner⟩ => hforeign.elim hm fun h => h howner
  simp only [beat, settleLease_of_held hlease, if_neg hnot]

end

section

variable (hm : m ≠ 0) (howner : s.root.owner.id = m) {off : Nat} {v : Word} {f : State → Written}
include hm howner

theorem ownerWrite_refused (h : f s = .refused) : s.ownerWrite m off v f = s.command m 1 off v := by
  simp only [ownerWrite, settleLease_of_held hlease, if_neg (not_foreign hm howner), h]

/-- A write that takes effect does so after its journal entry. -/
theorem ownerWrite_done {t u : State} (h : f s = .done t) (hcommand : f (s.command m 0 off v) = .done u) : s.ownerWrite m off v f = u := by
  simp only [ownerWrite, settleLease_of_held hlease, if_neg (not_foreign hm howner), h, hcommand]

end

end

/-! ### Registers that a context guards (R289, R312) -/

theorem writePtroot_free (v : Word) (h : s.anyCtx = false) : s.writePtroot v =
    .done ([0, 1, 2, 3].foldl (fun s d => s.dropTlb d (BitVec.allOnes 64)) (s.modRoot fun r => { r with ptroot := v &&& 0x0000FFFFFFF00001 })) :=
  if_neg (Bool.eq_false_iff.mp h)

theorem writePtroot_guarded (v : Word) (h : s.anyCtx = true) : s.writePtroot v = .refused := if_pos h

section

variable {c w : Nat} {v : Word} {a : Window} (ha : (tget {} (s.ctx c).aws w).withWord 3 v = a)
include ha

theorem writeAw_free (hen : (s.ctx c).en = false) (hone : a.a.getLsbD 0 = false ∨ a.twoDevices = false) :
    s.writeAw c w 3 v = .done (s.modCtx c fun x => { x with aws := tset x.aws w a }) := by
  have hnot : ¬ (True ∧ a.a.getLsbD 0 = true ∧ a.twoDevices = true) := by
    rintro ⟨-, hvalid, htwo⟩
    exact hone.elim (Bool.eq_false_iff.mp · hvalid) (Bool.eq_false_iff.mp · htwo)
  simp only [writeAw, ha, hen, Bool.false_eq_true, if_false, if_neg hnot]

theorem writeAw_guarded (h : (s.ctx c).en = true ∨ (a.a.getLsbD 0 = true ∧ a.twoDevices = true)) : s.writeAw c w 3 v = .refused := by
  simp only [writeAw, ha]
  split
  · rfl
  · next hen => exact if_pos ⟨trivial, h.resolve_left hen⟩

end

section

variable (c : Nat) {v : Word}

theorem writeJobsub_stores (hgo : v.getLsbD 0 = false) :
    s.writeJobsub c v = .done (s.modCtx c fun x => { x with jobSub := v &&& 0xFFFFFFFFFFFFFFC0 }) := if_neg (Bool.eq_false_iff.mp hgo)

theorem writeJobsub_go (hgo : v.getLsbD 0 = true) :
    let u := s.modCtx c fun x => { x with jobSub := v &&& 0xFFFFFFFFFFFFFFC0 }
    s.writeJobsub c v = .done (if (s.ctx c).en then u.submitJob c (v &&& 0xFFFFFFFFFFFFFFC0).toNat else u.rejectJob c) := if_pos hgo

end

/-- UNITCANCEL cancels the unit that its ID and LEVEL name (R312). -/
theorem writeUnitCancel_level (s : State) {v : Word} {l : CLevel} (hlevel : v.toNat / 2 ^ 32 % 8 = cLevelCode l) :
    s.writeUnitCancel v = .done (s.cancelUnit l (v.toNat % 2 ^ 32)) := by
  have hlevel : fld v.toNat 32 3 = cLevelCode l := hlevel
  have hid : fld v.toNat 0 32 = v.toNat % 2 ^ 32 := by rw [fld, pow_zero, Nat.div_one]
  cases l <;> simp only [writeUnitCancel, hlevel, hid, cLevelCode]

end State

/-! ### The rows -/

section

variable {s : State} {m : Nat} (hlease : s.root.owner.id = 0 ∨ s.time < s.root.owner.beat + s.root.owner.lease.toNat)
include hlease

/-- A write of a master that does not own the window changes nothing, the claim and the master's own journal index apart (R333). -/
theorem exec_registerWrite_foreign (hforeign : m = 0 ∨ s.root.owner.id ≠ m) {off : Nat} (v : Word) (halign : off % 8 = 0) (hoff : off < 2 ^ 17)
    (hclaim : off ≠ 0x010) (hjidx : off ≠ 0x1010) : exec (.registerWrite off m v) s = .next s := by
  have hwrite := State.next_ownerWrite_foreign hlease hforeign
  change execRegisterWrite off m v s = _
  unfold execRegisterWrite
  rw [if_neg (by omega)]
  split
  · exact congrArg _ (State.stageWrite_foreign hlease hforeign v)
  · contradiction
  · exact congrArg _ (State.beat_foreign hlease hforeign)
  · contradiction
  · exact hwrite _ _ _
  · exact hwrite _ _ _
  · split
    · exact hwrite _ _ _
    · split
      · exact hwrite _ _ _
      · rfl
  · split
    · split
      · exact hwrite _ _ _
      · rfl
    · exact hwrite _ _ _

section

variable (hm : m ≠ 0) (howner : s.root.owner.id = m) (v : Word)
include hm howner

theorem exec_registerWrite_lease : exec (.registerWrite 0x028 m v) s =
    .next ((s.command m 0 0x028 v).modRoot fun r => { r with owner := { r.owner with lease := BitVec.ofNat 32 v.toNat } }) :=
  congrArg Host.Outcome.next (State.ownerWrite_done hlease hm howner (f := fun s => s.regWrite 0x028 v) rfl rfl)

theorem exec_registerWrite_reroute : exec (.registerWrite 0x5008 m v) s =
    .next ((s.command m 0 0x5008 v).modFabric fun f => { f with reroute := BitVec.ofNat 32 v.toNat }) :=
  congrArg Host.Outcome.next (State.ownerWrite_done hlease hm howner (f := fun s => s.regWrite 0x5008 v) rfl rfl)

theorem exec_registerWrite_netAddr : exec (.registerWrite 0x7010 m v) s = .next ((s.command m 0 0x7010 v).modNet fun n => { n with addr0 := v }) :=
  congrArg Host.Outcome.next (State.ownerWrite_done hlease hm howner (f := fun s => s.regWrite 0x7010 v) rfl rfl)

theorem exec_registerWrite_logStall {d : Nat} (hd : d < 4) : exec (.registerWrite (0x2000 + 0x400 * d) m v) s =
    .next ((s.command m 0 (0x2000 + 0x400 * d) v).modDie d fun x => { x with logStall := BitVec.ofNat 32 v.toNat }) := by
  interval_cases d <;>
    exact congrArg Host.Outcome.next (State.ownerWrite_done hlease hm howner (f := fun s => s.regWrite _ v) rfl rfl)

theorem exec_tlbInvalidate (d : Nat) :
    exec (.tlbInvalidate d m v) s = .next ((s.command m 0 (0x2000 + 0x400 * d + 0x18) v).writeTlbInv d v) :=
  congrArg Host.Outcome.next (State.ownerWrite_done hlease hm howner (f := fun s => .done (s.writeTlbInv d v)) rfl rfl)

theorem exec_pageDone (d : Nat) : exec (.pageDone d m v) s = .next ((s.command m 0 (0x2000 + 0x400 * d + 0x28) v).writePgDone d v) :=
  congrArg Host.Outcome.next (State.ownerWrite_done hlease hm howner (f := fun s => .done (s.writePgDone d v)) rfl rfl)

theorem exec_ptrootWrite (h : s.anyCtx = false) : exec (.ptrootWrite m v) s =
    .next ([0, 1, 2, 3].foldl (fun s d => s.dropTlb d (BitVec.allOnes 64))
      ((s.command m 0 0x050 v).modRoot fun r => { r with ptroot := v &&& 0x0000FFFFFFF00001 })) :=
  congrArg Host.Outcome.next (State.ownerWrite_done hlease hm howner (State.writePtroot_free v h) (State.writePtroot_free v h))

theorem exec_ptrootWrite_refused (h : s.anyCtx = true) : exec (.ptrootWrite m v) s = .next (s.command m 1 0x050 v) :=
  congrArg Host.Outcome.next (State.ownerWrite_refused hlease hm howner (State.writePtroot_guarded v h))

section

variable (c w : Nat)

theorem exec_awaWrite :
    let off := 0x10000 + 0x1000 * c + 0x100 + 32 * w + 24
    let a := (tget {} (s.ctx c).aws w).withWord 3 v
    ((s.ctx c).en = false → (a.a.getLsbD 0 = false ∨ a.twoDevices = false) →
      exec (.awaWrite c w m v) s = .next ((s.command m 0 off v).modCtx c fun x => { x with aws := tset x.aws w a })) ∧
    (((s.ctx c).en = true ∨ (a.a.getLsbD 0 = true ∧ a.twoDevices = true)) → exec (.awaWrite c w m v) s = .next (s.command m 1 off v)) :=
  ⟨fun hen hone => congrArg Host.Outcome.next
      (State.ownerWrite_done hlease hm howner (State.writeAw_free rfl hen hone) (State.writeAw_free rfl hen hone)),
    fun h => congrArg Host.Outcome.next (State.ownerWrite_refused hlease hm howner (State.writeAw_guarded rfl h))⟩

theorem exec_jobSubmit :
    let u := (s.command m 0 (0x10000 + 0x1000 * c + 0x28) v).modCtx c fun x => { x with jobSub := v &&& 0xFFFFFFFFFFFFFFC0 }
    exec (.jobSubmit c m v) s = .next (if v.getLsbD 0 = true then
      (if (s.ctx c).en = true then u.submitJob c (v &&& 0xFFFFFFFFFFFFFFC0).toNat else u.rejectJob c) else u) := by
  refine congrArg Host.Outcome.next ?_
  cases hgo : v.getLsbD 0 with
  | false => exact State.ownerWrite_done hlease hm howner (State.writeJobsub_stores c hgo) (State.writeJobsub_stores c hgo)
  | true => exact State.ownerWrite_done hlease hm howner (State.writeJobsub_go c hgo) (State.writeJobsub_go c hgo)

theorem exec_unitCancel {l : CLevel} (hlevel : v.toNat / 2 ^ 32 % 8 = cLevelCode l) :
    exec (.unitCancel c m v) s = .next ((s.command m 0 (0x10000 + 0x1000 * c + 0x30) v).cancelUnit l (v.toNat % 2 ^ 32)) :=
  congrArg Host.Outcome.next
    (State.ownerWrite_done hlease hm howner (State.writeUnitCancel_level _ hlevel) (State.writeUnitCancel_level _ hlevel))

end

end

end

theorem exec_fltqPop {s : State} {m d : Nat} {r : Word} (h : s.regRead m (0x2000 + 0x400 * d + 0x20) = some r) : exec (.fltqPop d m) s =
    .next (((s.modDie d fun d => { d with fltq := d.fltq.tail }).fltqRefill d).serveWaiting.send (.readValue m r)) := by
  change execFltqPop d m s = _
  simp only [execFltqPop, h]

/-- Settles O48: the walkers by what is due to them, a register write by whose it is and by which register it writes. -/
theorem unitAndRegisterEvents : Obligations.UnitAndRegisterEvents := by
  unfold Obligations.UnitAndRegisterEvents
  refine ⟨fun s => ⟨fun n hn => ?visit, exec_ringPollVisit_nil, fun l hl => ?launch, fun gid n g hg => ?node, fun j hj hstopped hlive => ?job⟩,
    fun s m v hlease => ⟨fun hforeign => ?foreign, fun hm howner => ?owner, fun d => rfl, fun d r h => exec_fltqPop h⟩⟩
  case visit =>
    have hexec := exec_ringPollVisit hn
    refine ⟨fun v hacquire => hexec.trans (congrArg _ (State.visitRing_waits rfl hacquire)), fun v t r pub con hacquire hwords => ?_⟩
    have hvisit := hexec.trans (congrArg _ (State.visitRing_words rfl hacquire hwords))
    exact ⟨fun hbehind => hvisit.trans (congrArg _ (if_pos hbehind)), fun hlevel => hvisit.trans (congrArg _ (if_neg (Nat.not_lt.mpr hlevel)))⟩
  case launch =>
    rw [exec_launchComplete hl]
    exact ⟨fun h => congrArg _ (State.completeLaunch_of_running h),
      fun h hdet hagain hgraph => congrArg _ (State.completeLaunch_of_ended h hdet hagain hgraph)⟩
  case node =>
    rw [exec_graphNodeActivate n hg]
    refine ⟨fun hidle => congrArg _ (if_neg fun h => hidle h.1), fun hactive hlive => ?_⟩
    rw [if_pos ⟨hactive, hlive⟩]
    exact ⟨rfl, fun u b hread htype h1 h4 h40 hsucc1 hsucc2 => by rw [State.nodeAct_end hread htype h1 h4 h40 hsucc1 hsucc2]⟩
  case job =>
    rw [exec_phaseStart hj]
    refine ⟨fun hidle => ?_, fun hactive p hp hnone hpstopped t ht => ?_⟩
    · rw [State.jobStep_of_idle hstopped hlive hidle]
      exact ⟨fun hnext => congrArg _ (if_pos hnext), fun hend => congrArg _ (if_neg (Nat.not_lt.mpr hend))⟩
    · rw [State.jobStep_of_active hstopped hlive hactive hp, State.restartGraph_starts j hnone hpstopped ht]
  case foreign =>
    have hwrite := State.next_ownerWrite_foreign hlease hforeign
    exact ⟨fun off halign hoff hclaim hjidx => exec_registerWrite_foreign hlease hforeign v halign hoff hclaim hjidx,
      fun c => ⟨hwrite _ _ _, hwrite _ _ _⟩, fun d => ⟨hwrite _ _ _, hwrite _ _ _⟩, hwrite _ _ _, fun c w => hwrite _ _ _⟩
  case owner =>
    refine ⟨exec_registerWrite_lease hlease hm howner v, exec_registerWrite_reroute hlease hm howner v, exec_registerWrite_netAddr hlease hm howner v,
      fun d hd => ⟨exec_registerWrite_logStall hlease hm howner v hd, exec_tlbInvalidate hlease hm howner v d, exec_pageDone hlease hm howner v d⟩,
      exec_ptrootWrite hlease hm howner v, exec_ptrootWrite_refused hlease hm howner v, exec_awaWrite hlease hm howner v,
      fun c => ?submit, fun c => ⟨?_, ?_, ?_, ?_⟩⟩
    case submit =>
      rw [exec_jobSubmit hlease hm howner v c]
      refine ⟨fun hgo => ?_, fun hgo hen => ?_, fun hgo hen => ?_⟩
      · rw [if_neg (Bool.eq_false_iff.mp hgo)]
      · rw [if_pos hgo, if_pos hen]
      · rw [if_pos hgo, if_neg (Bool.eq_false_iff.mp hen)]
        rfl
    · exact exec_unitCancel hlease hm howner v c (l := .launch)
    · exact exec_unitCancel hlease hm howner v c (l := .graph)
    · exact exec_unitCancel hlease hm howner v c (l := .phase)
    · exact exec_unitCancel hlease hm howner v c (l := .job)

end Sys2Proof.Machine
end

section
/-! The owner, the staged start and the journal (spec 13_package.md R331, R336 to R345, R353): the lease at the end of a step, what an entry to stage 0
leaves, the advances, the claims and the writes of an owner, and the mirror of a journal entry. -/

namespace Sys2Proof.Machine

namespace State

variable {s : State}

/-! ### The lease (R342) -/

theorem settleLease_of_over (howner : s.root.owner.id ≠ 0) (hover : s.root.owner.beat + s.root.owner.lease.toNat ≤ s.time) :
    s.settleLease = s.lapse := if_pos ⟨howner, hover⟩

/-- Once settled, no lease has run out. -/
theorem settleLease_live (s : State) : s.settleLease.root.owner.id = 0 ∨
    s.settleLease.time < s.settleLease.root.owner.beat + s.settleLease.root.owner.lease.toNat := by
  by_cases howner : s.root.owner.id = 0
  · rw [settleLease_of_held (.inl howner)]
    exact .inl howner
  · by_cases hover : s.root.owner.beat + s.root.owner.lease.toNat ≤ s.time
    · rw [settleLease_of_over howner hover]
      exact .inl rfl
    · have hheld := Nat.not_le.mp hover
      rw [settleLease_of_held (.inr hheld)]
      exact .inr hheld

/-- A step is a move that settles the lease when it has been made. -/
theorem moveOn_eq (s : State) : s.moveOn = outMap settleLease s.move := by
  rw [moveOn]
  cases s.move <;> rfl

end State

/-- Settles O59: a step ends with the lease settled, and a lease that has run out lapses. -/
theorem leaseEndsOnTime : Obligations.LeaseEndsOnTime := by
  unfold Obligations.LeaseEndsOnTime
  refine ⟨fun s t hstep => ?_, fun s t howner hover hsettle => ?_⟩
  · rw [step, State.moveOn_eq] at hstep
    cases hmove : s.move with
    | next u =>
      rw [hmove] at hstep
      cases hstep
      exact u.settleLease_live
    | fault e => rw [hmove] at hstep; cases hstep
    | refused e => rw [hmove] at hstep; cases hstep
  · rw [← hsettle, State.settleLease_of_over howner hover]
    exact ⟨rfl, rfl, rfl, rfl, rfl, rfl⟩

namespace State

variable {s : State}

/-! ### Entry to stage 0 (R336, R338) -/

/-- All four images verify (R336). -/
def ImagesPass (s : State) : Prop := 4 ≤ s.root.images.length ∧ ∀ i ∈ s.root.images, i.1 = true

/-- The measurements of the four images (R336). -/
def measures (s : State) : Tab Digest := (List.range 4).map fun n => (n, measured (s.root.images.getD n (false, 0)).2)

theorem imagesPass_iff (s : State) : (decide (4 ≤ s.root.images.length) && s.root.images.all Prod.fst) = true ↔ s.ImagesPass := by
  rw [Bool.and_eq_true, decide_eq_true_iff, List.all_eq_true, ImagesPass]

theorem verify_of_pass (h : s.ImagesPass) :
    s.verify = s.modRoot fun r => { r with meas := s.measures, stage := { r.stage with verified := true } } := by
  simp only [verify, (imagesPass_iff s).mpr h, if_true, measures]

/-- An image that does not verify sets ERR with CAUSE 1. -/
theorem verify_of_fail (h : ¬ s.ImagesPass) :
    s.verify = s.modRoot fun r => { r with meas := s.measures, stage := { r.stage with verified := false, err := true, cause := 1 } } := by
  simp only [verify, Bool.eq_false_iff.mpr (mt (imagesPass_iff s).mp h), Bool.false_eq_true, if_false, measures]
  rfl

end State

/-- Power-on enters stage 0 with the images verified (R336, R338). -/
theorem powerOnReset_completes (s : State) (images : List (Bool × Digest)) : Completes (.powerOnReset images) s fun t =>
    t.root.stage.stage = 0 ∧ t.root.inc = (if s.root.inc + 1 = 0 then 1 else s.root.inc + 1) ∧ t.root.owner = {} ∧ t.trav.retired = s.trav.retired ∧
    t.mem.cells = [] ∧ (t.root.stage.verified = true ↔ 4 ≤ images.length ∧ ∀ i ∈ images, i.1 = true) ∧ t.root.stage.err = !t.root.stage.verified ∧
    t.root.journal.jseq = s.root.journal.jseq + 1 := by
  refine ⟨_, rfl, ?_⟩
  by_cases hpass : (s.restartTime.modRoot fun r => { r with images := images }).stageZero.ImagesPass
  · rw [State.verify_of_pass hpass]
    exact ⟨rfl, rfl, rfl, rfl, rfl, iff_of_true rfl hpass, rfl, rfl⟩
  · rw [State.verify_of_fail hpass]
    exact ⟨rfl, rfl, rfl, rfl, rfl, iff_of_false Bool.false_ne_true hpass, rfl, rfl⟩

/-- A thermal cut enters stage 0 with CAUSE 3, or 1 where the images do not verify (R336, R338, R353). -/
theorem thermalCut_completes (s : State) : Completes .thermalCut s fun t =>
    t.root.stage.stage = 0 ∧ t.root.stage.err = true ∧ t.root.images = s.root.images ∧
    t.root.inc = (if s.root.inc + 1 = 0 then 1 else s.root.inc + 1) ∧ t.root.owner = {} ∧ t.mem.cells = [] ∧
    (t.root.stage.verified = true ↔ 4 ≤ s.root.images.length ∧ ∀ i ∈ s.root.images, i.1 = true) ∧
    t.root.stage.cause = if t.root.stage.verified then 3 else 1 := by
  refine ⟨_, rfl, ?_⟩
  by_cases hpass : (s.stageZero.modRoot fun r => { r with stage := { r.stage with err := true, cause := 3 } }).ImagesPass
  · rw [State.verify_of_pass hpass]
    exact ⟨rfl, rfl, rfl, rfl, rfl, rfl, iff_of_true rfl hpass, rfl⟩
  · rw [State.verify_of_fail hpass]
    exact ⟨rfl, rfl, rfl, rfl, rfl, rfl, iff_of_false Bool.false_ne_true hpass, rfl⟩

/-! ### The staged start (R338) -/

section

variable {s : State} {g : Go} (hpending : s.root.stage.pending = some g)
include hpending

theorem exec_stageAdvanceCompute (failed : List Nat) (hgo : g.stage = 2) (hstage : s.root.stage.stage = 1) :
    exec (.stageAdvanceCompute failed) s = .next (s.trainHbm failed g) := by
  change execStageAdvanceCompute failed s = _
  simp only [execStageAdvanceCompute, hpending, if_pos (And.intro hgo hstage)]

theorem exec_stageAdvanceFabric (hgo : g.stage = 3) : exec .stageAdvanceFabric s = .next s.settleStage := by
  change execStageAdvanceFabric s = _
  rw [execStageAdvanceFabric, hpending, if_pos (by rw [Option.map_some, hgo])]

theorem exec_stageAdvanceGroup (hgo : g.stage = 4) : exec .stageAdvanceGroup s = .next s.settleStage := by
  change execStageAdvanceGroup s = _
  rw [execStageAdvanceGroup, hpending, if_pos (by rw [Option.map_some, hgo])]

theorem exec_stageAdvanceTimeout (hgo : g.stage ≠ 2) (hover : g.tick + 1000000000 ≤ s.time) :
    exec .stageAdvanceTimeout s = .next s.advanceFails := by
  change execStageAdvanceTimeout s = _
  simp only [execStageAdvanceTimeout, hpending]
  exact congrArg _ (if_pos ⟨hgo, hover⟩)

/-- Within its 10 s an advance to FABRIC takes place once the ports in use run. -/
theorem State.settleStage_fabric (hgo : g.stage = 3) (hsoon : s.time < g.tick + 1000000000) (hports : s.portsRun = true) :
    s.settleStage = s.toStage 3 g.master (leBytes 8 g.value.toNat) := by
  have hwaits : ¬ g.tick + State.goTicks ≤ s.time := Nat.not_le.mpr hsoon
  simp only [State.settleStage, hpending, hgo, hwaits, and_false, if_false, if_true, hports]

/-- Within its 10 s an advance to GROUP takes place once the groups are restored. -/
theorem State.settleStage_group (hgo : g.stage = 4) (hsoon : s.time < g.tick + 1000000000) (hgroups : s.groupsRestored = some true) :
    s.settleStage = s.toStage 4 g.master (leBytes 8 g.value.toNat) := by
  have hwaits : ¬ g.tick + State.goTicks ≤ s.time := Nat.not_le.mpr hsoon
  have hother : ¬ (4 : Nat) = 3 := by decide
  simp only [State.settleStage, hpending, hgo, hwaits, and_false, if_false, hother, if_true, hgroups]

end

namespace State

variable {s : State}

theorem portsRun_of_forall (h : ∀ k, k < 8 → (s.port k).en = false ∨ (s.port k).state = .run) : s.portsRun = true := by
  refine List.all_eq_true.mpr fun k hk => ?_
  obtain hen | hrun := h k (List.mem_range.mp hk)
  · simp [hen]
  · simp [hrun]

theorem trainHbm_enough {failed : List Nat} {g : Go} (h : (s.trav.retired ++
      failed.eraseDups.filter fun f => decide (f < 16) && !s.trav.retired.contains f).length ≤ 4) :
    (s.trainHbm failed g).root.stage.stage = 2 ∧ (s.trainHbm failed g).root.stage.pending = none := by
  have heq : s.trainHbm failed g = State.toStage _ 2 g.master (leBytes 8 g.value.toNat) := if_pos h
  rw [heq]
  exact ⟨rfl, rfl⟩

theorem trainHbm_few {failed : List Nat} {g : Go} (h : ¬ (s.trav.retired ++
      failed.eraseDups.filter fun f => decide (f < 16) && !s.trav.retired.contains f).length ≤ 4) :
    (s.trainHbm failed g).root.stage = { s.root.stage with err := true, cause := 2, pending := none } := by
  have heq : s.trainHbm failed g = State.modRoot _ fun r => { r with stage := { r.stage with err := true, cause := 2, pending := none } } := if_neg h
  rw [heq]
  rfl

theorem trainHbm_retired (failed : List Nat) (g : Go) : (s.trainHbm failed g).trav.retired =
    s.trav.retired ++ failed.eraseDups.filter fun f => decide (f < 16) && !s.trav.retired.contains f := by
  rw [trainHbm]
  dsimp only
  split <;> rfl

/-! ### Claims and renewals (R341 to R343) -/

theorem fld_high (v : Word) : fld v.toNat 32 32 = v.toNat / 2 ^ 32 := Nat.mod_eq_of_lt (by have := v.isLt; omega)

theorem fld_low (n w : Nat) : fld n 0 w = n % 2 ^ w := by rw [fld, pow_zero, Nat.div_one]

section

variable {m : Nat} {v : Word} (hstage : s.root.stage.stage ≠ 0) (hm : m ≠ 0)
  (hlease : s.root.owner.id = 0 ∨ s.time < s.root.owner.beat + s.root.owner.lease.toNat)
include hstage hm hlease

theorem claim_won (hepoch : v.toNat / 2 ^ 32 = s.root.owner.epoch.toNat) (hself : v.toNat % 4 = m)
    (hfree : s.root.owner.id = 0 ∨ s.root.owner.succ.toNat = m) : s.claim m v =
    (s.modRoot fun r => { r with owner := { s.root.owner with
      epoch := s.root.owner.epoch + 1, id := m, succ := 0, beat := s.time, results := tset s.root.owner.results m 1 } }).journal 3 m 0 0x010
      (leBytes 8 v.toNat) := by
  rw [claim, settleLease_of_held hlease]
  dsimp only
  rw [if_neg (not_or.mpr ⟨hstage, hm⟩), if_pos ⟨(fld_high v).trans hepoch, (fld_low _ 2).trans hself, hfree⟩]

theorem claim_lost (h : v.toNat / 2 ^ 32 ≠ s.root.owner.epoch.toNat ∨ v.toNat % 4 ≠ m ∨ (s.root.owner.id ≠ 0 ∧ s.root.owner.succ.toNat ≠ m)) :
    s.claim m v = s.modRoot fun r => { r with owner := { s.root.owner with results := tset s.root.owner.results m 2 } } := by
  have hnot : ¬ (fld v.toNat 32 32 = s.root.owner.epoch.toNat ∧ fld v.toNat 0 2 = m ∧ (s.root.owner.id = 0 ∨ s.root.owner.succ.toNat = m)) := by
    rintro ⟨hepoch, hself, hfree⟩
    rw [fld_high] at hepoch
    rw [fld_low] at hself
    obtain h | h | ⟨howned, hother⟩ := h
    · exact h hepoch
    · exact h hself
    · exact hfree.elim howned hother
  rw [claim, settleLease_of_held hlease]
  dsimp only
  rw [if_neg (not_or.mpr ⟨hstage, hm⟩), if_neg hnot]

end

theorem beat_owner {m : Nat} (hlease : s.root.owner.id = 0 ∨ s.time < s.root.owner.beat + s.root.owner.lease.toNat) (hm : m ≠ 0)
    (howner : s.root.owner.id = m) : s.beat m = s.modRoot fun r => { r with owner := { r.owner with beat := s.time } } := by
  simp only [beat, settleLease_of_held hlease, if_pos (And.intro hm howner)]

end State

/-! ### The mirror of the journal (R345) -/

theorem JEntry.bytes_length (e : JEntry) : e.bytes.length = 64 := by
  simp only [JEntry.bytes, List.length_append, leBytes_length]

/-- A byte takes the value of a list's write whose stamp is not below its own, whatever the stamps of the other bytes (R276). -/
theorem putBytes_same_at {m : Mem} {st pa x : Nat} (bs : List Byte) (h : tget 0 m.stamps x ≤ st) (hx : pa ≤ x) (hy : x < pa + bs.length) :
    cget (m.putBytes st pa bs).cells x = bs.getD (x - pa) 0 := by
  induction bs generalizing m pa with
  | nil => simp only [List.length_nil] at hy; omega
  | cons b bs ih =>
    simp only [List.length_cons] at hy
    rw [Mem.putBytes]
    by_cases hp : x = pa
    · subst hp
      rw [putBytes_other _ _ _ _ (by omega), putByte_same m x b h, Nat.sub_self, List.getD_cons_zero]
    · obtain ⟨k, rfl⟩ : ∃ k, x = pa + 1 + k := ⟨x - (pa + 1), by omega⟩
      rw [ih (by rwa [putByte_stamp_other m b st hp]) (by omega) (by omega), Nat.add_sub_cancel_left,
        show pa + 1 + k - pa = k + 1 by omega, List.getD_cons_succ]

namespace State

variable {s : State}

/-- The state with a journal entry written at a physical address, as a request of its own (R325, R345). -/
def mirrored (s : State) (pa : Nat) (e : JEntry) : State :=
  (s.request pa).takeStamp.1.modMem fun m => { m.putBytes s.mem.clock pa e.bytes with bad := m.bad.filter fun b => b / 2 != pa / 64 }

section

variable {q pa : Nat} {e : JEntry} (hentry : s.journalEntry? q = some e)
include hentry

theorem mirrorEntry_served (hpa : pa = s.root.journal.mirror.toNat / 2 ^ 22 % 2 ^ 25 * 2 ^ 22 + 64 * (q % 65536))
    (hbase : s.root.journal.mirror.toNat / 2 ^ 22 % 2 ^ 25 ≠ 0) (hserved : s.trav.serves pa = true) : s.mirrorEntry q = s.mirrored pa e := by
  subst hpa
  have hnot : ¬ (fld s.root.journal.mirror.toNat 22 25 * 2 ^ 22 = 0 ∨
      (!s.trav.serves (fld s.root.journal.mirror.toNat 22 25 * 2 ^ 22 + 64 * (q % 65536))) = true) := by
    rintro (hzero | hunserved)
    · exact hbase ((Nat.mul_eq_zero.mp hzero).resolve_right (by decide))
    · rw [Bool.not_eq_true'] at hunserved
      exact absurd (hunserved.symm.trans hserved) Bool.false_ne_true
  simp only [mirrorEntry, hentry, if_neg hnot]
  rfl

end

theorem mirrored_core (s : State) (pa : Nat) (e : JEntry) : (s.mirrored pa e).core = s.core := by
  simp only [mirrored, takeStamp, request, modMem_core, modCtrl_core]

theorem mirrored_root (s : State) (pa : Nat) (e : JEntry) : (s.mirrored pa e).root = s.root := by
  simp only [mirrored, takeStamp, request, modMem_root, modCtrl_root]

theorem mirrored_cells (s : State) (pa : Nat) (e : JEntry) : (s.mirrored pa e).mem.cells =
    (({ s.mem with clock := s.mem.clock + 1 } : Mem).putBytes s.mem.clock pa e.bytes).cells := by
  simp only [mirrored, takeStamp, modMem_mem, request_mem]

/-- A byte of the mirror reads as the entry's, where no write of a greater stamp stands (R276). -/
theorem mirrored_homeByte {pa i : Nat} (e : JEntry) (hi : i < 64) (hstamp : tget 0 s.mem.stamps (pa + i) ≤ s.mem.clock) :
    (s.mirrored pa e).homeByte (pa + i) = e.bytes.getD i 0 := by
  have hlen : e.bytes.length = 64 := JEntry.bytes_length e
  have hbyte := putBytes_same_at (m := { s.mem with clock := s.mem.clock + 1 }) (pa := pa) e.bytes hstamp (by omega) (by omega)
  rw [Nat.add_sub_cancel_left] at hbyte
  rw [homeByte, mirrored_cells, hbyte]

theorem journalMirrorWrite_completes {q pa : Nat} {e : JEntry} (hmirror : s.mirrorEntry q = s.mirrored pa e) :
    Completes (.journalMirrorWrite q) s fun t => t.core = s.core ∧ t.root = s.root ∧
      ∀ i, i < 64 → tget 0 s.mem.stamps (pa + i) ≤ s.mem.clock → (e.bytes[i]?).any (fun b => t.homeByte (pa + i) == b) = true := by
  refine ⟨s.mirrored pa e, congrArg Host.Outcome.next hmirror, mirrored_core s pa e, mirrored_root s pa e, fun i hi hstamp => ?_⟩
  have hlen : i < e.bytes.length := (JEntry.bytes_length e).symm ▸ hi
  rw [List.getElem?_eq_getElem hlen, Option.any_some, mirrored_homeByte e hi hstamp, List.getD_eq_getElem _ _ hlen]
  exact beq_self_eq_true _

end State

/-- Settles O49: each clause is the rule of its event, under the conditions that select it. -/
theorem packageEvents : Obligations.PackageEvents := by
  unfold Obligations.PackageEvents
  intro s
  refine ⟨powerOnReset_completes s, fun hstage hverified => ⟨_, congrArg Host.Outcome.next (if_pos ⟨hstage, hverified⟩), rfl, rfl, rfl⟩,
    fun hverified => congrArg _ (if_neg fun h => ?_), fun failed g hpending hgo hstage => ?train, fun g hpending hgo hsoon hports => ?fabric,
    fun g hpending hgo hsoon hgroups => ?group, fun g hpending hgo hover => exec_stageAdvanceTimeout hpending hgo hover, thermalCut_completes s,
    fun on => ?throttle, fun d1 d2 => rfl, fun n hstage => ⟨_, congrArg Host.Outcome.next (if_pos hstage), rfl, rfl, rfl⟩,
    fun n hstage => congrArg _ (if_neg hstage), fun m v hstage hm hlease => ⟨fun hepoch hself hfree => ?won, fun h => ?lost⟩,
    fun m v howner hm hlease => ⟨?hand, ?renew⟩, fun howner hover => ?lapses, fun h => congrArg _ (State.settleLease_of_held h), rfl,
    fun q e hentry hbase hserved => ?mirror, fun m v => rfl⟩
  · rw [hverified] at h
    exact Bool.false_ne_true h.2
  case train =>
    refine ⟨_, exec_stageAdvanceCompute hpending failed hgo hstage, State.trainHbm_retired failed g, ?_, fun h => (State.trainHbm_enough h).1,
      fun h => ?_⟩
    · by_cases h : (s.trav.retired ++ failed.eraseDups.filter fun f => decide (f < 16) && !s.trav.retired.contains f).length ≤ 4
      · exact (State.trainHbm_enough h).2
      · rw [State.trainHbm_few h]
    · rw [State.trainHbm_few (Nat.not_le.mpr h)]
      exact ⟨hstage, rfl⟩
  case fabric => rw [exec_stageAdvanceFabric hpending hgo, State.settleStage_fabric hpending hgo hsoon (State.portsRun_of_forall hports)]
  case group => rw [exec_stageAdvanceGroup hpending hgo, State.settleStage_group hpending hgo hsoon hgroups]
  case throttle =>
    refine ⟨_, rfl, ?_⟩
    split <;> exact ⟨rfl, rfl, rfl⟩
  case won =>
    exact ⟨_, congrArg Host.Outcome.next (State.claim_won hstage hm hlease hepoch hself hfree), rfl, rfl, rfl, rfl⟩
  case lost => exact congrArg _ (State.claim_lost hstage hm hlease h)
  case hand =>
    exact ⟨_, congrArg Host.Outcome.next (State.ownerWrite_done (.inr hlease) hm howner (off := 0x018) (v := v)
      (f := fun s => .done (s.modRoot fun r => { r with owner := { r.owner with succ := BitVec.ofNat 4 v.toNat } })) rfl rfl), rfl, rfl⟩
  case renew => exact congrArg _ (State.beat_owner (.inr hlease) hm howner)
  case lapses =>
    exact ⟨_, congrArg Host.Outcome.next (State.settleLease_of_over howner hover), rfl, rfl, rfl, rfl⟩
  case mirror => exact State.journalMirrorWrite_completes (State.mirrorEntry_served hentry rfl hbase hserved)

end Sys2Proof.Machine
end

section
/-! SEND, RECV, RADD and CHWAIT (spec 15_collectives_network.md R372, R376 to R380): the state of the entry that lets each of them act, the element that a send
puts in flight, and what consuming an element writes. -/

namespace Sys2Proof.Machine

namespace State

variable {s : State} {c : BitVec 6} {ok : Chan → Bool} {k : State → Chan → State}

/-! ### The entry's state -/

theorem chanUse_opened (hstate : (s.chan c).state = .opened) (hok : ok (s.chan c) = true) : s.chanUse c ok k = k s (s.chan c) := by
  simp [chanUse, hstate, hok]

theorem chanUse_refused (h : (s.chan c).state = .closed ∨ ok (s.chan c) = false) : s.chanUse c ok k = s.illegal := by
  have hbad : (decide ((s.chan c).state = .closed) || !ok (s.chan c)) = true := by simpa using h
  simp only [chanUse, hbad, if_true]

theorem modChan_same (s : State) (n : Nat) (f : Chan → Chan) : tget {} (s.modChan n f).core.chans n = f (tget {} s.core.chans n) := tget_tmod_same _ _ _ _

theorem modChan_other (s : State) {n m : Nat} (f : Chan → Chan) (h : m ≠ n) : tget {} (s.modChan n f).core.chans m = tget {} s.core.chans m :=
  tget_tmod_ne _ _ _ h

/-! ### SEND -/

/-- The element that a SEND makes of the lanes from `b` on (R376). -/
def sentElem (s : State) (e : Chan) (v : BitVec 5) (l : BitVec 6) (p : BitVec 4) : ChanElem :=
  { lanes := (List.range e.lanes).map fun j => if (s.p p).getLsbD (2 * l.toNat + j) then lane (s.v v) (2 * l.toNat + j) else 0
    stamp := if e.proto then BitVec.ofNat 8 e.rank else 0 }

theorem sentElem_lane (s : State) {e : Chan} (v : BitVec 5) (l : BitVec 6) (p : BitVec 4) {j : Nat} (hj : j < e.lanes) :
    (s.sentElem e v l p).lanes[j]? = some (if (s.p p).getLsbD (2 * l.toNat + j) then lane (s.v v) (2 * l.toNat + j) else 0) := by
  simp only [sentElem, List.getElem?_map, List.getElem?_range hj, Option.map_some]

/-- The state with an element in flight for one credit (R376). -/
def sendOne (s : State) (c : BitVec 6) (x : ChanElem) : State :=
  s.modChan c.toNat fun e => { e.counted with cred := e.cred - 1, pending := e.pending ++ [x] }

end State

theorem exec_send_credit {s : State} {c : BitVec 6} (v : BitVec 5) {l : BitVec 6} (p : BitVec 4) (hstate : (s.chan c).state = .opened)
    (hsends : (s.chan c).recv = false) (hfits : 2 * l.toNat + (s.chan c).lanes ≤ 128) (hcred : 0 < (s.chan c).cred) (hkind : (s.chan c).kind < 2) :
    exec (.send c v l p) s = .next (s.sendOne c (s.sentElem (s.chan c) v l p)).endRegion := by
  have hok : (!(s.chan c).recv && (s.chan c).fits l) = true := by simp [hsends, Chan.fits, hfits]
  refine congrArg Host.Outcome.next ((State.chanUse_opened hstate hok).trans ?_)
  dsimp only
  rw [if_neg (Nat.ne_of_gt hcred), if_neg (Nat.ne_of_lt hkind)]
  rfl

theorem exec_send_stalls {s : State} {c : BitVec 6} (v : BitVec 5) {l : BitVec 6} (p : BitVec 4) (hstate : (s.chan c).state = .opened)
    (hsends : (s.chan c).recv = false) (hfits : 2 * l.toNat + (s.chan c).lanes ≤ 128) (hcred : (s.chan c).cred = 0) :
    exec (.send c v l p) s = .next s.stall := by
  have hok : (!(s.chan c).recv && (s.chan c).fits l) = true := by simp [hsends, Chan.fits, hfits]
  exact congrArg Host.Outcome.next ((State.chanUse_opened hstate hok).trans (if_pos hcred))

theorem exec_send_illegal {s : State} {c : BitVec 6} (v : BitVec 5) {l : BitVec 6} (p : BitVec 4)
    (h : (s.chan c).state = .closed ∨ (s.chan c).recv = true ∨ 128 < 2 * l.toNat + (s.chan c).lanes) : exec (.send c v l p) s = .next s.illegal := by
  refine congrArg Host.Outcome.next (State.chanUse_refused (h.imp_right fun h => ?_))
  obtain hrecv | hwide := h
  · simp [hrecv]
  · simp [Chan.fits, Nat.not_le.mpr hwide]

/-! ### RECV and RADD -/

section

variable {s : State} {c : BitVec 6} {l : BitVec 6} {v : BitVec 5} {p : BitVec 4} {lat : Nat} {add : BitVec 32 → BitVec 32 → Nat × Ev}
  {stampOk : ChanElem → Bool}

theorem State.consume_full {e : Chan} (h : e.held.length = e.depth) : s.consume c l v p lat e add stampOk = s.illegal := if_pos h

theorem State.consume_empty {e : Chan} (h : e.held.length ≠ e.depth) (hbuf : e.buf = []) : s.consume c l v p lat e add stampOk = s.stall := by
  simp only [State.consume, if_neg h, hbuf]

/-- The lanes that an element of the entry meets from lane `2 * l` on, as far as they are enabled (R376). -/
def State.elemLanes (s : State) (e : Chan) (l : BitVec 6) (p : BitVec 4) (i : Nat) : Bool :=
  (s.p p).getLsbD i && decide (2 * l.toNat ≤ i) && decide (i < 2 * l.toNat + e.lanes)

/-- The head element of a receive channel is among those held (R376, R379). -/
def State.holdHead (s : State) (c : BitVec 6) (x : ChanElem) (rest : List ChanElem) : State :=
  s.modChan c.toNat fun e => { e.counted with buf := rest, held := e.held ++ [x] }

/-- The state with the head element of a receive channel among those held, and the operation's events counted (R132, R379). -/
def State.headTaken (s : State) (c l : BitVec 6) (v : BitVec 5) (p : BitVec 4) (x : ChanElem) (rest : List ChanElem)
    (add : BitVec 32 → BitVec 32 → Nat × Ev) : State :=
  (s.holdHead c x rest).countEv (Ev.sumTo 128 fun i =>
    if s.elemLanes (s.chan c) l p i then (add (x.lanes.getD (i - 2 * l.toNat) 0) (lane (s.v v) i)).2 else {})

theorem State.consume_head {x : ChanElem} {rest : List ChanElem} (hheld : (s.chan c).held.length ≠ (s.chan c).depth)
    (hbuf : (s.chan c).buf = x :: rest) (hstamp : stampOk x = true) : s.consume c l v p lat (s.chan c) add stampOk =
    (s.headTaken c l v p x rest add).setV v (ofBits (s.elemLanes (s.chan c) l p)) (ofLanes fun i =>
      if s.elemLanes (s.chan c) l p i then BitVec.ofNat 32 (add (x.lanes.getD (i - 2 * l.toNat) 0) (lane (s.v v) i)).1 else 0) lat := by
  have hstamp' : ¬ (!stampOk x) = true := by simp [hstamp]
  simp only [State.consume, if_neg hheld, hbuf, if_neg hstamp']
  rfl

/-- Consuming the head element moves it to those held, and writes the enabled lanes of its range (R376, R379). -/
theorem completes_of_consume {i : Instr} {x : ChanElem} {rest : List ChanElem} {f : Nat → Nat}
    (hexec : exec i s = .next (s.consume c l v p lat (s.chan c) add stampOk)) (hheld : (s.chan c).held.length ≠ (s.chan c).depth)
    (hbuf : (s.chan c).buf = x :: rest) (hstamp : stampOk x = true)
    (hf : ∀ k, (add (x.lanes.getD (k - 2 * l.toNat) 0) (lane (s.v v) k)).1 = f k) :
    Completes i s fun t => tget {} t.core.chans c.toNat =
        { s.chan c with xfer := BitVec.ofNat 32 (satAdd 32 (s.chan c).xfer.toNat 1), buf := rest, held := (s.chan c).held ++ [x] } ∧
      ∃ m w, t.core.flight = s.core.flight ++ [⟨lat, .v v.toNat m w⟩] ∧ (∀ k, k < 128 → m.getLsbD k = s.elemLanes (s.chan c) l p k) ∧
        (∀ k, k < 128 → s.elemLanes (s.chan c) l p k = true → lane w k = BitVec.ofNat 32 (f k)) ∧ t.core.regs = s.core.regs ∧ t.mem = s.mem := by
  rw [State.consume_head hheld hbuf hstamp] at hexec
  have honly : OnlyVector (s.holdHead c x rest) (s.headTaken c l v p x rest add) :=
    countStat_only _ _ _
  have hchans : (s.headTaken c l v p x rest add).core.chans = (s.holdHead c x rest).core.chans := by rw [honly]
  have hregs := congrArg (fun t : State => t.core.regs) honly
  have hmem := congrArg (fun t : State => t.mem) honly
  have hflight : (s.headTaken c l v p x rest add).core.flight = s.core.flight := countStat_flight _ _ _
  refine ⟨_, hexec, (congrArg (fun t => tget {} t c.toNat) hchans).trans (State.modChan_same s c.toNat _), _, _, (setV_flight _ _ _ _ _).trans (congrArg (· ++ _) hflight),
    fun k hk => getLsbD_ofBits _ hk, fun k hk hon => ?_, hregs, hmem⟩
  rw [lane_ofLanes _ hk, if_pos hon, hf]

/-- The checks that RECV and RADD share let a receive entry whose lanes fit through (R376). -/
theorem exec_recv_opened (hstate : (s.chan c).state = .opened) (hrecv : (s.chan c).recv = true) (hfits : 2 * l.toNat + (s.chan c).lanes ≤ 128) :
    exec (.recv c v l p) s = .next (s.consume c l v p 6 (s.chan c) (fun x _ => (x.toNat, {})) fun _ => true) :=
  congrArg Host.Outcome.next (State.chanUse_opened hstate (by simp [hrecv, Chan.fits, hfits]))

theorem State.radd_opened {ty : Nat} (hstate : (s.chan c).state = .opened) (hrecv : (s.chan c).recv = true)
    (hfits : 2 * l.toNat + (s.chan c).lanes ≤ 128) (hproto : (s.chan c).proto = true) (hty : (s.chan c).ty = ty) :
    s.radd c v l p ty add = s.consume c l v p 9 (s.chan c) add fun x => !s.det || x.stamp.toNat + 1 == (s.chan c).rank :=
  State.chanUse_opened hstate (by simp [hrecv, Chan.fits, hfits, hproto, hty])

theorem radd_stampOk {rank : Nat} {x : ChanElem} (h : s.det = true → x.stamp.toNat + 1 = rank) : (!s.det || x.stamp.toNat + 1 == rank) = true := by
  cases hdet : s.det with
  | false => rfl
  | true => simp [h hdet]

end

/-! ### CHWAIT -/

section

variable {s : State} {c n : BitVec 6} (hstate : (s.chan c).state = .opened)
include hstate

theorem exec_chwait_recv (hrecv : (s.chan c).recv = true) : exec (.chwait c n) s = .next (if n.toNat = 0 then s
    else if (s.chan c).depth - (s.chan c).held.length < n.toNat then s.illegal else if n.toNat ≤ (s.chan c).buf.length then s else s.stall) :=
  congrArg Host.Outcome.next ((State.chanUse_opened hstate rfl).trans (if_pos hrecv))

theorem exec_chwait_send (hsends : (s.chan c).recv = false) : exec (.chwait c n) s = .next (if n.toNat = 0 then
    (if (s.chan c).cred = (s.chan c).depthPeer then s else s.stall)
    else if (s.chan c).depthPeer < n.toNat then s.illegal else if n.toNat ≤ (s.chan c).cred then s else s.stall) :=
  congrArg Host.Outcome.next ((State.chanUse_opened hstate rfl).trans (if_neg (Bool.eq_false_iff.mp hsends)))

end

/-- Settles O34: each syllable by the state of its entry, RECV and RADD as the consumption of one element. -/
theorem channelInstructions : Obligations.ChannelInstructions := by
  unfold Obligations.ChannelInstructions
  refine ⟨fun s c v l p => ⟨fun hstate hsends hfits hcred hkind => ?send, fun hstate hsends hfits hcred => exec_send_stalls v p hstate hsends hfits hcred,
    fun h => exec_send_illegal v p h⟩, fun s c v l p x rest => fun hstate hrecv hfits hheld hbuf i lat f hcases => ?consume,
    fun s c n v l p => fun hstate => ⟨fun hrecv hfits hfull => ?full, fun hrecv hfits hfull hbuf => ?empty, fun hrecv hn => ?recvAll,
      fun hrecv hn hroom => ?recvSome, fun hrecv hroom => ?recvMany, fun hsends hn => ?sendAll, fun hsends hn hdepth => ?sendSome,
      fun hsends hdepth => ?sendMany⟩⟩
  case send =>
    have hsame : tget {} (s.sendOne c (s.sentElem (s.chan c) v l p)).core.chans c.toNat = _ := s.modChan_same c.toNat _
    have hother : ∀ m, m ≠ c.toNat → tget {} (s.sendOne c (s.sentElem (s.chan c) v l p)).core.chans m = _ := fun m hm => s.modChan_other _ hm
    exact ⟨_, exec_send_credit v p hstate hsends hfits hcred hkind, s.sentElem (s.chan c) v l p, hsame, (List.length_map _).trans List.length_range,
      fun j hj => s.sentElem_lane v l p hj, fun hproto => if_pos hproto, hother, rfl, rfl, rfl, endRegion_ends _⟩
  case consume =>
    obtain ⟨rfl, rfl, rfl⟩ | ⟨rfl, rfl, hproto, hty, hstamp, rfl⟩ | ⟨rfl, rfl, hproto, hty, hstamp, rfl⟩ := hcases
    · exact completes_of_consume (exec_recv_opened hstate hrecv hfits) hheld hbuf rfl fun _ => rfl
    · exact completes_of_consume (congrArg Host.Outcome.next (State.radd_opened hstate hrecv hfits hproto hty)) hheld hbuf (radd_stampOk hstamp)
        fun _ => rfl
    · exact completes_of_consume (congrArg Host.Outcome.next (State.radd_opened hstate hrecv hfits hproto hty)) hheld hbuf (radd_stampOk hstamp)
        fun _ => rfl
  case full => exact (exec_recv_opened hstate hrecv hfits).trans (congrArg _ (State.consume_full hfull))
  case empty => exact (exec_recv_opened hstate hrecv hfits).trans (congrArg _ (State.consume_empty hfull hbuf))
  case recvAll => exact (exec_chwait_recv hstate hrecv).trans (congrArg _ (if_pos (hn ▸ BitVec.toNat_zero)))
  case recvSome =>
    exact (exec_chwait_recv hstate hrecv).trans ((congrArg _ ((if_neg fun h => hn (BitVec.eq_of_toNat_eq h)).trans
      (if_neg (Nat.not_lt.mpr hroom)))).trans (apply_ite Host.Outcome.next _ _ _))
  case recvMany => exact (exec_chwait_recv hstate hrecv).trans (congrArg _ ((if_neg (Nat.ne_zero_of_lt hroom)).trans (if_pos hroom)))
  case sendAll =>
    exact (exec_chwait_send hstate hsends).trans ((congrArg _ (if_pos (hn ▸ BitVec.toNat_zero))).trans (apply_ite Host.Outcome.next _ _ _))
  case sendSome =>
    exact (exec_chwait_send hstate hsends).trans ((congrArg _ ((if_neg fun h => hn (BitVec.eq_of_toNat_eq h)).trans
      (if_neg (Nat.not_lt.mpr hdepth)))).trans (apply_ite Host.Outcome.next _ _ _))
  case sendMany => exact (exec_chwait_send hstate hsends).trans (congrArg _ ((if_neg (Nat.ne_zero_of_lt hdepth)).trans (if_pos hdepth)))

end Sys2Proof.Machine
end

section
/-! The traverse and the memory side (spec 12_hbm.md R317 to R326; 13_package.md R332): the owner's triggers and answers, one granule of the list and of the
sweep, and the requests of the host die. -/

namespace Sys2Proof.Machine

/-! ### A granule at its new place (R319) -/

/-- One byte of a granule, with its stamp, at the granule's new place. -/
def Mem.copyByte (src dst : Nat) (m : Mem) (i : Nat) : Mem :=
  { m with cells := cset m.cells (dst + i) (cget m.cells (src + i))
           stamps := if tget 0 m.stamps (src + i) = 0 then terase m.stamps (dst + i) else tset m.stamps (dst + i) (tget 0 m.stamps (src + i)) }

theorem Mem.moveGranule_eq (m : Mem) (src dst : Nat) : m.moveGranule src dst = (List.range 2048).foldl (Mem.copyByte src dst) m := by
  unfold Mem.moveGranule
  rfl

/-- The first `n` bytes of a granule stand at its new place, and every other byte stands as before. -/
theorem Mem.copyBytes_cells (m : Mem) {src dst n : Nat} (hapart : dst + n ≤ src ∨ src + n ≤ dst) (x : Nat) :
    cget ((List.range n).foldl (Mem.copyByte src dst) m).cells x =
      if dst ≤ x ∧ x < dst + n then cget m.cells (src + (x - dst)) else cget m.cells x := by
  induction n generalizing x with
  | zero => rw [if_neg (by omega)]; rfl
  | succ n ih =>
    have ih := ih (by omega)
    rw [List.range_succ, List.foldl_append]
    change cget (cset _ (dst + n) (cget _ (src + n))) x = _
    by_cases hx : x = dst + n
    · subst hx
      rw [cget_cset_same, ih, if_neg (by omega), if_pos (by omega), Nat.add_sub_cancel_left]
    · rw [cget_cset_ne _ _ hx, ih]
      split
      · rw [if_pos (by omega)]
      · rw [if_neg (by omega)]

theorem Mem.moveGranule_cells (m : Mem) {src dst : Nat} (hapart : dst + 2048 ≤ src ∨ src + 2048 ≤ dst) (x : Nat) :
    cget (m.moveGranule src dst).cells x = if dst ≤ x ∧ x < dst + 2048 then cget m.cells (src + (x - dst)) else cget m.cells x := by
  rw [Mem.moveGranule_eq, Mem.copyBytes_cells m hapart]

namespace State

variable {s : State}

theorem modTrav_modMem (s : State) (f : Mem → Mem) (g : Trav → Trav) : (s.modMem f).modTrav g = { s with mem := f s.mem, trav := g s.trav } := rfl

/-! ### The list (R317 to R319) -/

theorem relocStep_idle (h : s.trav.state ≠ .relocate ∨ s.trav.listGo = false) : s.relocStep = s := by
  have hidle : s.trav.state ≠ .relocate ∨ (!s.trav.listGo) = true := by simpa using h
  exact if_pos hidle

section

variable (hstate : s.trav.state = .relocate) (hgo : s.trav.listGo = true)
include hstate hgo

theorem relocStep_over (h : s.trav.listCount.toNat ≤ s.trav.listIdx) : s.relocStep = s.endList := by
  rw [relocStep, if_neg (by simp [hstate, hgo]), if_pos h]

theorem relocStep_copies (h : s.trav.listIdx < s.trav.listCount.toNat) (hpage : s.trav.relSize ≠ 0) : s.relocStep = s.copyGranule := by
  rw [relocStep, if_neg (by simp [hstate, hgo]), if_neg (Nat.not_le.mpr h)]
  simp only [if_neg hpage, if_pos (And.intro hstate hpage)]

end

section

variable {u : State} {bad : List Nat}

/-- A granule is lost when a block of it can neither be read nor be reconstructed (R322). -/
theorem lost_iff : (!bad.isEmpty && !u.blocksProtected bad) = true ↔ bad ≠ [] ∧ u.blocksProtected bad = false := by simp

theorem kept_iff : ¬ (!bad.isEmpty && !u.blocksProtected bad) = true ↔ bad = [] ∨ u.blocksProtected bad = true := by
  rw [lost_iff, not_and_or, not_ne_iff, Bool.not_eq_false]

section

variable (hread : s.readGranule (s.trav.relOld + 2048 * s.trav.pagePtr) = (u, bad))
include hread

theorem copyGranule_waits (hbad : bad ≠ []) (hlost : u.blocksProtected bad = false) : s.copyGranule = u := by
  simp only [copyGranule, hread, if_pos (lost_iff.mpr ⟨hbad, hlost⟩)]

theorem copyGranule_moves (h : bad = [] ∨ u.blocksProtected bad = true) : s.copyGranule =
    (let old := s.trav.relOld + 2048 * s.trav.pagePtr
     let new := s.trav.relNew + 2048 * s.trav.pagePtr
     let w := ((u.healGranule old).healGranule new).request new
     let v : State := { w with mem := w.mem.moveGranule old new, trav := { w.trav with pagePtr := w.trav.pagePtr + 1 } }
     if v.trav.relSize ≤ v.trav.pagePtr then v.endPage else v) := by
  simp only [copyGranule, hread, if_neg (kept_iff.mpr h), modTrav_modMem]

end

/-! ### The sweep (R320 to R322) -/

theorem sweepStep_idle (h : s.trav.state ≠ .sweep) : s.sweepStep = s := if_pos h

section

variable (hstate : s.trav.state = .sweep) (hread : s.readGranule (2048 * s.trav.gran) = (u, bad))
include hstate hread

theorem sweepStep_holds (hbad : bad ≠ []) (hlost : u.blocksProtected bad = false) : s.sweepStep =
    (u.modTrav fun t => { t with state := .hold, lossValid := true, lossGran := 2048 * s.trav.gran }).event 8 0 u.trav.retStack := by
  simp only [sweepStep, if_neg (not_not.mpr hstate), hread, if_pos (lost_iff.mpr ⟨hbad, hlost⟩)]

theorem sweepStep_moves (h : bad = [] ∨ u.blocksProtected bad = true) : s.sweepStep =
    (let h := u.healGranule (2048 * s.trav.gran)
     let new := mapGranule h.trav.retired.reverse h.trav.gran
     (h.modCtrl new.1 fun c => (c.enterWindow h.refreshWindow).request new.2 h.time).granuleDone) := by
  simp only [sweepStep, if_neg (not_not.mpr hstate), hread, if_neg (kept_iff.mpr h)]

end

end

/-! ### The host die (R332) -/

theorem hostRead_answers {off n : Nat} {u : State} {bs : List Byte} (hread : s.readIa 0 (s.localIa off) n 2 = (u, some bs)) :
    s.hostRead off n = u.send (.readValue 1 (BitVec.ofNat 64 (leNat bs))) := by
  simp only [hostRead, hread]

theorem hostAtomic_passes {off n pa : Nat} {f : Word → Option Word} {u w : State} {x : List Byte} (hpa : s.peekPa? (s.localIa off) = some pa)
    (hwait : s.imageWait (s.localIa off) = false) (hready : s.syncReady (hostSource - 4) (s.localIa off) n true true = (u, true))
    (hread : u.homeRead (s.localIa off) pa n = (w, some x)) : s.hostAtomic off n f =
    (let z := w.takeStamp
     let r := (z.1.publish (s.localIa off) hostSource z.2).atomicAt (s.localIa off) pa n f
     r.1.send (.readValue 1 r.2)) := by
  simp only [hostAtomic, hpa, if_neg (Bool.eq_false_iff.mp hwait), hready, hread]

end State

/-! ### The rows -/

theorem exec_hostCas (s : State) (a : Nat) (e v : Word) :
    exec (.memRequest (.hostCas a e v)) s = .next (s.hostAtomic a 8 fun old => if old = e then some v else none) := rfl

section

variable {s : State} {m : Nat} (hlease : s.root.owner.id = 0 ∨ s.time < s.root.owner.beat + s.root.owner.lease.toNat) (hm : m ≠ 0)
  (howner : s.root.owner.id = m)
include hlease hm howner

theorem exec_retireTrigger (v : Word) :
    let u := (s.command m 0 0x3020 v).modTrav fun t => { t with stackField := BitVec.ofNat 4 v.toNat }
    exec (.retireTrigger m v) s = .next (if v.getLsbD 4 then u.trigger (v.toNat % 16) else u) :=
  congrArg Host.Outcome.next (State.ownerWrite_done hlease hm howner rfl rfl)

/-- GO with a count starts the list, in RELOCATE with no list in progress (R319). -/
theorem exec_reloclistGo {v : Word} (hstate : s.trav.state = .relocate) (hgo : s.trav.listGo = false) (hbit : v.getLsbD 0 = true)
    (hcount : v.toNat / 2 ^ 48 ≠ 0) : exec (.reloclistGo m v) s = .next ((s.command m 0 0x3030 v).modTrav fun t => { t with
      listCount := BitVec.ofNat 16 (v.toNat / 2 ^ 48), listAddr := v.toNat / 32 % 2 ^ 43 * 32, listGo := true, listIdx := 0, pagePtr := 0, relSize := 0 }) := by
  have hlt : v.toNat / 2 ^ 48 < 2 ^ 16 := by have := v.isLt; omega
  have hfld : fld v.toNat 48 16 = v.toNat / 2 ^ 48 := Nat.mod_eq_of_lt hlt
  have hsome : ¬ BitVec.ofNat 16 (fld v.toNat 48 16) = 0 := by
    rw [hfld]
    exact fun h => hcount ((Nat.mod_eq_of_lt hlt).symm.trans (congrArg BitVec.toNat h))
  have hstarts : v.getLsbD 0 = true ∧ s.trav.state = .relocate ∧ (!s.trav.listGo) = true := ⟨hbit, hstate, by simp [hgo]⟩
  rw [← hfld]
  exact congrArg Host.Outcome.next (State.ownerWrite_done hlease hm howner rfl
    (congrArg State.Written.done ((if_pos hstarts).trans (if_neg hsome))))

theorem exec_travlossZeroFill (hstate : s.trav.state = .hold) : exec (.travlossZeroFill m) s = .next (s.command m 0 0x3040 1).zeroLost :=
  congrArg Host.Outcome.next (State.ownerWrite_done hlease hm howner (if_pos hstate) (if_pos hstate))

theorem exec_travlossReread (hstate : s.trav.state = .hold) : exec (.travlossReread m) s =
    .next ((s.command m 0 0x3040 2).modTrav fun t => { t with state := .sweep, lossValid := false, lossGran := 0 }) :=
  congrArg Host.Outcome.next (State.ownerWrite_done hlease hm howner (if_pos hstate) (if_pos hstate))

/-- A value that the register ignores changes nothing (R333). -/
theorem State.ownerWrite_ignored {off : Nat} {v : Word} {f : State → State.Written} (h : f s = .ignored) : s.ownerWrite m off v f = s := by
  simp only [State.ownerWrite, State.settleLease_of_held hlease, if_neg (State.not_foreign hm howner), h]

end

/-- Settles O50: each event by the condition that selects what it does, a granule's move by the bytes it copies. -/
theorem traverseEvents : Obligations.TraverseEvents := by
  unfold Obligations.TraverseEvents
  intro s
  refine ⟨fun m v hlease hm howner => ⟨exec_retireTrigger hlease hm howner v, exec_reloclistGo hlease hm howner,
      fun hhold => ⟨exec_travlossZeroFill hlease hm howner hhold, exec_travlossReread hlease hm howner hhold⟩,
      fun hother => ⟨congrArg _ (State.ownerWrite_ignored hlease hm howner (if_neg hother)),
        congrArg _ (State.ownerWrite_ignored hlease hm howner (if_neg hother))⟩⟩,
    fun f hauto hceth hf hcount hnew hpend => congrArg _ (if_pos ⟨hauto, hceth, hf, hcount, by simpa using hnew, hpend⟩),
    fun f hauto => congrArg _ (if_neg fun h => Bool.false_ne_true (hauto.symm.trans h.1)),
    fun h => congrArg _ (State.relocStep_idle h), fun hstate hgo h => congrArg _ (State.relocStep_over hstate hgo h),
    fun hstate hgo h hpage u bad hread => ?copy, fun m src dst i hapart hi => ?bytes, fun h => congrArg _ (State.sweepStep_idle h),
    fun hstate u bad hread => ⟨fun h => congrArg _ (State.sweepStep_moves hstate hread h),
      fun hbad hlost => congrArg _ (State.sweepStep_holds hstate hread hbad hlost)⟩,
    fun pa hserved => congrArg _ (if_pos hserved), fun pa hserved => congrArg _ (if_neg (Bool.eq_false_iff.mp hserved)),
    fun a n u bs hread => congrArg _ (State.hostRead_answers hread), fun a bs hwait => congrArg _ (if_neg (Bool.eq_false_iff.mp hwait)),
    fun a e v pa u w x hpa hwait hready hread => ?cas, fun c b t hhold hover => ?hold,
    fun c b hc hopen => congrArg _ (if_pos ⟨hc, hopen⟩), fun c hc hwindow => congrArg _ (if_pos ⟨hc, hwindow⟩)⟩
  case copy =>
    have hstep : exec .relocGranuleCopy s = .next s.copyGranule := congrArg Host.Outcome.next (State.relocStep_copies hstate hgo h hpage)
    exact ⟨fun hkept => hstep.trans (congrArg _ (State.copyGranule_moves hread hkept)),
      fun hbad hlost => hstep.trans (congrArg _ (State.copyGranule_waits hread hbad hlost))⟩
  case bytes =>
    refine ⟨?_, fun x hx => ?_⟩
    · rw [Mem.moveGranule_cells m hapart, if_pos (by omega), Nat.add_sub_cancel_left]
    · rw [Mem.moveGranule_cells m hapart, if_neg (by omega)]
  case cas => rw [exec_hostCas, State.hostAtomic_passes hpa hwait hready hread]
  case hold =>
    change execRfmHoldEnd c b s = _
    simp only [execRfmHoldEnd, hhold, if_pos hover]

end Sys2Proof.Machine
end

section
/-! The network engine (spec 15_collectives_network.md R382 to R396): the fold of a reduction, the ranks that a chunk waits for, a visit of a ring, the steps
of LAP, and the packets of a delivery context. -/

namespace Sys2Proof.Machine

/-! ### The reduction of an element (R382) -/

theorem FFmt.decode_canon {f : FFmt} (hnan : f.decode f.nanCode = .nan) (c : Nat) : f.decode (f.canon c) = f.decode c := by
  rw [FFmt.canon]
  split
  · next h =>
    rw [hnan]
    cases hc : f.decode c with
    | nan => rfl
    | inf neg => rw [hc] at h; exact absurd h Bool.false_ne_true
    | fin neg mag => rw [hc] at h; exact absurd h Bool.false_ne_true
  · rfl

theorem fp32_canon_add (c d : Nat) : fp32.add (fp32.canon c) d = fp32.add c d := by
  rw [FFmt.add, FFmt.decode_canon (by decide), FFmt.add]

theorem bf16_canon_add (c d : Nat) : bf16.add (bf16.canon c) d = bf16.add c d := by
  rw [FFmt.add, FFmt.decode_canon (by decide), FFmt.add]

theorem redElem_fp32 (c d : Nat) (cs : List Nat) : redElem 2 (c :: d :: cs) = cs.foldl (fun acc x => (fp32.add acc x).1) (fp32.add c d).1 := by
  change (d :: cs).foldl (fun acc x => (fp32.add acc x).1) (fp32.canon c) = _
  rw [List.foldl_cons, fp32_canon_add]

theorem redElem_bf16 (c d : Nat) (cs : List Nat) : redElem 1 (c :: d :: cs) = cs.foldl (fun acc x => (bf16.add acc x).1) (bf16.add c d).1 := by
  change (d :: cs).foldl (fun acc x => (bf16.add acc x).1) (bf16.canon c) = _
  rw [List.foldl_cons, bf16_canon_add]

/-! ### The ranks that a chunk waits for (R383) -/

theorem RChunk.absent_succ (c : RChunk) (n : Nat) :
    c.absent (n + 1) = if (tget? c.parts n).isSome then c.absent n else c.absent n ||| BitVec.ofNat 128 (2 ^ n) := by
  rw [absent, List.range_succ, List.foldl_append]
  rfl

theorem RChunk.absent_getLsbD (c : RChunk) {n r : Nat} (hr : r < 128) :
    (c.absent n).getLsbD r = (decide (r < n) && (tget? c.parts r).isNone) := by
  induction n with
  | zero => simp [absent]
  | succ n ih =>
    rw [absent_succ]
    split
    · next hpart =>
      rw [ih]
      by_cases hrn : r = n
      · subst hrn; simpa using hpart
      · simp [show r < n + 1 ↔ r < n by omega]
    · next hpart =>
      rw [BitVec.getLsbD_or, ih, BitVec.getLsbD_ofNat, Nat.testBit_two_pow]
      by_cases hrn : r = n
      · subst hrn; simpa [hr] using hpart
      · simp [hr, Ne.symm hrn, show r < n + 1 ↔ r < n by omega]

/-- With two ranks or more, one contribution does not complete a chunk. -/
theorem RChunk.absent_of_one {c : RChunk} {n rank : Nat} {data : List Byte} (hparts : c.parts = tset [] rank data) (hn : 2 ≤ n) (hmax : n ≤ 128) :
    c.absent n ≠ 0 := by
  obtain ⟨r, hr, hne⟩ : ∃ r, r < n ∧ r ≠ rank := by
    by_cases h : rank = 0
    · exact ⟨1, by omega, by omega⟩
    · exact ⟨0, by omega, Ne.symm h⟩
  intro hzero
  have hbit := c.absent_getLsbD (n := n) (Nat.lt_of_lt_of_le hr hmax)
  rw [hzero, hparts, tget?_tset_ne _ _ hne] at hbit
  simp [hr, tget?] at hbit

namespace State

variable {s : State}

/-! ### Contributions and results (R382, R383) -/

/-- The first contribution to a chunk of two ranks or more is kept. -/
theorem contribute_first {g seq k rank ty : Nat} {data : List Byte} (hnone : s.findChunk g seq k = none) (hn : 2 ≤ (s.cgroup g).nranks.toNat)
    (hrank : rank < (s.cgroup g).nranks.toNat) (hmax : (s.cgroup g).nranks.toNat ≤ 128) : s.contribute g seq k rank ty data =
    s.setChunk { group := g, seq := seq, chunk := k, ty := ty, first := s.time, parts := tset [] rank data } := by
  have hnew : ¬ ((tget? ([] : Tab (List Byte)) rank).isSome = true ∨ (s.cgroup g).nranks.toNat ≤ rank) := by simp [tget?, hrank]
  have habsent := RChunk.absent_of_one (c := { group := g, seq := seq, chunk := k, ty := ty, first := s.time, parts := tset [] rank data }) rfl hn hmax
  simp only [contribute, hnone, Option.getD_none, if_neg hnew, Bool.false_eq_true, if_false, if_neg habsent]

theorem flushChunk_due {g seq k : Nat} {c : RChunk} (hfind : s.findChunk g seq k = some c) (hflushed : c.flushed = false) (hresult : c.result = none)
    (hset : (s.cgroup g).treduce.toNat ≠ 0) (hdue : c.first + (s.cgroup g).treduce.toNat ≤ s.time) : s.flushChunk g seq k = s.sendChunk c := by
  have hcond : (!c.flushed && c.result.isNone && (s.cgroup g).treduce.toNat != 0 && decide (c.first + (s.cgroup g).treduce.toNat ≤ s.time)) = true := by
    simp [hflushed, hresult, hset, hdue]
  simp only [flushChunk, hfind, if_pos hcond]

/-! ### Rings (R388) -/

theorem netVisit_none (agree : Bool) (h : s.netPolled = []) : s.netVisit agree = s := by
  simp only [netVisit, h, List.find?_nil, List.head?_nil, Option.or_none]

theorem netVisit_at {n : Nat} (agree : Bool) (h : (s.netPolled.find? fun n => decide (s.net.poll ≤ n)).or s.netPolled.head? = some n) :
    s.netVisit agree = ({ s with net := { s.net with poll := n + 1 } } : State).visitNet (n / 64) (n % 64) agree := by
  simp only [netVisit, h]
  rfl

section

variable {c ring : Nat} {w : Word} (agree : Bool) (hw : tget 0 (s.ctx c).netRings ring = w)
include hw

theorem visitNet_waits {v : State} (hacquire : s.agentAcquire (ringBase w + 8) = (v, false)) : s.visitNet c ring agree = v := by
  simp only [visitNet, hw, hacquire, Bool.false_eq_true, if_false]

variable {v t : State} {r pub con : Nat} (hacquire : s.agentAcquire (ringBase w + 8) = (v, true)) (hwords : v.ringWords 0 w = (t, some (r, pub, con)))
include hacquire hwords

theorem visitNet_level (h : pub ≤ con) : s.visitNet c ring agree = t := by
  simp only [visitNet, hw, hacquire, if_true, hwords, if_pos h]

/-- The request at CON is taken, CON advances, and the request starts. -/
theorem visitNet_takes (h : con < pub) {x y : State} {bs : List Byte} {q : WorkReq} (hread : t.readIa 0 (ringEntry w con) 64 2 = (x, some bs))
    (hwork : x.workAt c ring con bs = (y, q)) (hwaits : y.workWaits q = false) (habsent : y.sourceAbsent? q = none) : s.visitNet c ring agree =
    ((y.takeStamp.1.setHomeWord 0 (ringBase w + 16) ((con + 1) % 2 ^ 64) y.takeStamp.2).1.wakeRing c (64 + ring)).workStart q agree := by
  simp only [visitNet, hw, hacquire, if_true, hwords, if_neg (Nat.not_le.mpr h), hread, hwork, hwaits, habsent, Option.isSome_none, Bool.false_eq_true,
    if_false]

end

/-! ### LAP (R385) -/

theorem lapStart_copies {c d : Nat} {w : WorkReq} {bs : List Byte} (hfind : (s.net.work.find? fun w => w.ctx == c && w.op == 3 && w.started && !w.copying &&
      decide (w.done < w.word36) && decide (w.done + 1 ≤ s.lapR w)) = some w)
    (hread : (if w.len = 0 then some [] else (s.lapBuf w w.done).bind fun ia => (s.readIa 0 ia w.len (w.len / 65536 + 2)).2) = some bs)
    (hdev : s.rankDev w.group (((s.cgroup w.group).myrank.toNat + 1) % (s.cgroup w.group).nranks.toNat) = some d) : s.lapStart c =
    (s.modWork w fun w => { w with copying := true, tick := s.time }).post d (.lap d w.group w.done bs) := by
  simp only [lapStart, hfind, hread, hdev]

section

variable {c : Nat} {w : WorkReq} (hfind : (s.net.work.find? fun w => w.ctx == c && w.op == 3 && w.copying) = some w)
include hfind

theorem lapRefused_fails : s.lapRefused c = s.workFail w true := by simp only [lapRefused, hfind]

theorem lapEnd_goes_on (h : w.done + 1 ≠ w.word36) : s.lapEnd c = s.modWork w fun _ => { w with copying := false, done := w.done + 1 } := by
  simp only [lapEnd, hfind, if_neg h]

theorem lapEnd_last (h : w.done + 1 = w.word36) : s.lapEnd c =
    ((s.modWork w fun _ => { w with copying := false, done := w.done + 1, finished := true, foot := {} }).netCount c w.lctr).lapSettle
      { w with copying := false, done := w.done + 1, finished := true } := by
  simp only [lapEnd, hfind, if_pos h]

end

theorem lapArrive_written {c ia : Nat} {w : WorkReq} {bs : List Byte} {u : State} (hfind : (s.net.work.find? fun w => w.ctx == c && w.op == 3 && w.started &&
      decide (w.arrived < w.word36)) = some w) (hlen : bs.length = w.len) (hbuf : s.lapBuf w (w.arrived + 1) = some ia)
    (hwrite : (s.writeIa 0 ia bs (bs.length / 65536 + 2)).1 = u) : s.lapArrive c bs =
    ((u.modWork w fun _ => { w with arrived := w.arrived + 1 }).netCount c w.status).lapSettle { w with arrived := w.arrived + 1 } := by
  simp only [lapArrive, hfind, if_neg (not_not.mpr hlen), hbuf, hwrite]

/-! ### Packets (R393 to R395) -/

theorem packetTake_duplicate {p : Packet} (h : p.psn < (s.pdc (rxKey p.src)).cack ∨ p.psn ∈ (s.pdc (rxKey p.src)).got) : s.packetTake p =
    (s.modNet fun n => { n with dup := BitVec.ofNat 16 (min 65535 (n.dup.toNat + 1)) }).modPdc (rxKey p.src) fun d => { d with sackDue := true } := by
  have hcond : (decide (p.psn < (s.pdc (rxKey p.src)).cack) || (s.pdc (rxKey p.src)).got.contains p.psn) = true := by simpa using h
  exact if_pos hcond

section

variable {p : Packet} (hlow : (s.pdc (rxKey p.src)).cack ≤ p.psn) (hnew : p.psn ∉ (s.pdc (rxKey p.src)).got)
include hlow hnew

theorem not_duplicate : ¬ (decide (p.psn < (s.pdc (rxKey p.src)).cack) || (s.pdc (rxKey p.src)).got.contains p.psn) = true := by
  simpa using And.intro hlow hnew

theorem packetTake_rejected (hen : (s.ctx p.ctx.toNat).en = false) : s.packetTake p =
    (s.modNet fun n => { n with rej := BitVec.ofNat 16 (min 65535 (n.rej.toNat + 1)) }).send (.packetError p.src) := by
  simp only [packetTake, if_neg (not_duplicate hlow hnew), hen, Bool.false_eq_true, if_false]
  rfl

theorem packetTake_written (hen : (s.ctx p.ctx.toNat).en = true) {e : List Byte} {ia pa : Nat} {m : Bool} {u w : State}
    (hentry : s.netEntry (s.ctx p.ctx.toNat).netRes p.res = some e) (hjob : at' e 24 3 = p.job.toNat) (hfits : p.roff + p.len ≤ at' e 8 8)
    (hia : s.supIa p.ctx.toNat (at' e 0 8 + p.roff + p.off) p.data.length .w = some ia) (hwalk : s.walk 0 ia = (u, .page pa m))
    (hwait : s.imageWait ia = false) (hwrite : s.writeIa 0 ia p.data 3 = (w, true)) : s.packetTake p =
    (let c := ((w.net.rxMsgs.find? fun m => m.1 == p.src && m.2.1 == p.first).map fun m => m.2.2).getD 0 + 1
     let rest := w.net.rxMsgs.filter fun m => !(m.1 == p.src && m.2.1 == p.first)
     let z := (w.modPdc (rxKey p.src) fun d => d.take p.psn).modNet fun x => { x with rxMsgs := if c = p.count then rest else (p.src, p.first, c) :: rest }
     if c = p.count then z.netCount p.ctx.toNat (at' e 16 8) else z) := by
  have hok : ¬ (at' e 24 3 ≠ p.job.toNat ∨ at' e 8 8 < p.roff + p.len) := not_or.mpr ⟨not_not.mpr hjob, Nat.not_lt.mpr hfits⟩
  simp only [packetTake, if_neg (not_duplicate hlow hnew), hen, if_true, hentry, if_neg hok, hia, hwalk, hwait, hwrite, Bool.false_eq_true, if_false,
    Bool.not_true]

end

end State

/-! ### The rows -/

section

variable {s : State} {g seq k rank ty : Nat} {data : List Byte} {missing : BitVec 128} (hen : (s.cgroup g).en = true)
include hen

theorem exec_reduceContribution_root (h : (s.cgroup g).root = (s.cgroup g).myrank) :
    exec (.reduceContribution g seq k rank ty data missing) s = .next (s.contribute g seq k rank ty data) :=
  congrArg Host.Outcome.next ((if_neg (by simp [hen])).trans (if_pos h))

theorem exec_reduceContribution_member (h : (s.cgroup g).root ≠ (s.cgroup g).myrank) :
    exec (.reduceContribution g seq k rank ty data missing) s = .next (s.resultArrives g seq k data missing) :=
  congrArg Host.Outcome.next ((if_neg (by simp [hen])).trans (if_neg h))

end

theorem exec_rtoExpire_quiet {s : State} {p : Nat} (h : ∀ x ∈ (s.pdc p).sent, x.acked = true ∨ s.time < x.last + s.net.rto.toNat) :
    exec (.rtoExpire p) s = .next s := by
  have hnone : (s.pdc p).sent.filter (fun x => !x.acked && decide (x.last + s.net.rto.toNat ≤ s.time)) = [] := by
    refine List.filter_eq_nil_iff.mpr fun x hx => ?_
    obtain hacked | hsoon := h x hx
    · simp [hacked]
    · simp [hsoon]
  change execRtoExpire p s = _
  rw [execRtoExpire, hnone, List.foldl_nil]

theorem exec_rtoExpire_one {s : State} {p : Nat} {x : SentPkt} (hsent : (s.pdc p).sent = [x]) (hacked : x.acked = false)
    (hdue : x.last + s.net.rto.toNat ≤ s.time) : exec (.rtoExpire p) s = .next (s.retransmit p x.psn) := by
  have hone : (s.pdc p).sent.filter (fun x => !x.acked && decide (x.last + s.net.rto.toNat ≤ s.time)) = [x] := by
    rw [hsent, List.filter_cons_of_pos (by simp [hacked, hdue]), List.filter_nil]
  change execRtoExpire p s = _
  rw [execRtoExpire, hone, List.foldl_cons, List.foldl_nil]

theorem exec_packetErrorAnswer_live {s : State} {p psn : Nat} {w : WorkReq} (h : s.msgOf p psn = some w) :
    exec (.packetErrorAnswer p psn) s = .next ((s.workFail w true).pdcTrim p) := by
  change execPacketErrorAnswer p psn s = _
  simp only [execPacketErrorAnswer, h]

theorem exec_packetErrorAnswer_over {s : State} {p psn : Nat} (h : s.msgOf p psn = none) : exec (.packetErrorAnswer p psn) s = .next s := by
  change execPacketErrorAnswer p psn s = _
  simp only [execPacketErrorAnswer, h]

/-- Settles O52: each event by the condition that selects what it does, a reduced element by its fold. -/
theorem netEvents : Obligations.NetEvents := by
  unfold Obligations.NetEvents
  intro s
  refine ⟨fun hidle agree => congrArg _ (State.netVisit_none agree hidle), fun n agree hn => ?visit,
    fun g seq k rank ty data missing hen => ⟨fun hroot => exec_reduceContribution_root hen hroot,
      fun hother => exec_reduceContribution_member hen hother, fun hroot hnone hn hrank hmax =>
      (exec_reduceContribution_root hen hroot).trans (congrArg _ (State.contribute_first hnone hn hrank hmax))⟩,
    fun c d x y => ⟨rfl, rfl, redElem_fp32 c d [], redElem_fp32 c d [x], redElem_bf16 c d [x], redElem_fp32 c d [x, y]⟩,
    fun g seq k c hfind hflushed hresult hset hdue => congrArg _ (State.flushChunk_due hfind hflushed hresult hset hdue),
    fun c w hfind bs d hread hdev => congrArg _ (State.lapStart_copies hfind hread hdev),
    fun c w hfind => ⟨congrArg _ (State.lapRefused_fails hfind), fun h => congrArg _ (State.lapEnd_goes_on hfind h),
      fun h => congrArg _ (State.lapEnd_last hfind h)⟩,
    fun c w bs ia u hfind hlen hbuf hwrite => congrArg _ (State.lapArrive_written hfind hlen hbuf hwrite),
    fun p => ⟨fun h => congrArg _ (State.packetTake_duplicate h), fun hlow hnew hen => congrArg _ (State.packetTake_rejected hlow hnew hen),
      fun hlow hnew hen e ia pa m u w hentry hjob hfits hia hwalk hwait hwrite =>
        congrArg _ (State.packetTake_written hlow hnew hen hentry hjob hfits hia hwalk hwait hwrite)⟩,
    fun p => ⟨fun hdue => congrArg _ (if_pos hdue), fun hnot => congrArg _ (if_neg (Bool.eq_false_iff.mp hnot))⟩, fun p a => rfl,
    fun p h => exec_rtoExpire_quiet h, fun p x hsent hacked hdue => exec_rtoExpire_one hsent hacked hdue,
    fun p psn w h => exec_packetErrorAnswer_live h, fun p psn h => exec_packetErrorAnswer_over h, fun k up hk => congrArg _ (if_pos hk)⟩
  case visit =>
    have hexec : exec (.netRingPoll agree) s = .next _ := congrArg Host.Outcome.next (State.netVisit_at agree hn)
    exact ⟨fun v hacquire => hexec.trans (congrArg _ (State.visitNet_waits agree rfl hacquire)), fun v t r pub con hacquire hwords =>
      ⟨fun h => hexec.trans (congrArg _ (State.visitNet_level agree rfl hacquire hwords h)), fun h x bs y q hread hwork hwaits habsent =>
        hexec.trans (congrArg _ (State.visitNet_takes agree rfl hacquire hwords h hread hwork hwaits habsent))⟩⟩

end Sys2Proof.Machine
end

section
/-! Coding groups (spec 16_coding_groups.md R399 to R417): the word that joins and the one that leaves, formation, deltas and acknowledgements, decisions, and
the start of a rebuild. -/

namespace Sys2Proof.Machine

/-! ### CGCFG (R399) -/

theorem ofNat_eq_of_toNat {w n : Nat} {b : BitVec w} (h : n % 2 ^ w = b.toNat) : BitVec.ofNat w n = b := BitVec.eq_of_toNat_eq h

/-- A configuration reads back from its word, over any that agrees with it in the other registers. -/
theorem GCfg.withWord_word {c d : GCfg}
    (h : d = { c with gid := d.gid, repl := d.repl, ovr := d.ovr, myidx := d.myidx, k := d.k, m := d.m, en := d.en }) : c.withWord d.word = d := by
  have hgid := d.gid.isLt
  have hrepl := d.repl.toNat_le
  have hovr := d.ovr.toNat_le
  have hidx := d.myidx.isLt
  have hk := d.k.isLt
  have hm := d.m.isLt
  have hen := d.en.toNat_le
  have hw : d.word.toNat = _ := (BitVec.toNat_ofNat _ 64).trans (Nat.mod_eq_of_lt (by omega))
  have fgid : BitVec.ofNat 16 (fld d.word.toNat 48 16) = d.gid := ofNat_eq_of_toNat (by rw [fld, hw]; omega)
  have fidx : BitVec.ofNat 4 (fld d.word.toNat 40 4) = d.myidx := ofNat_eq_of_toNat (by rw [fld, hw]; omega)
  have fk : BitVec.ofNat 4 (fld d.word.toNat 36 4) = d.k := ofNat_eq_of_toNat (by rw [fld, hw]; omega)
  have fm : BitVec.ofNat 3 (fld d.word.toNat 33 3) = d.m := ofNat_eq_of_toNat (by rw [fld, hw]; omega)
  have frepl : d.word.getLsbD 45 = d.repl := getLsbD_eq_of_toNat (by rw [hw]; omega)
  have fovr : d.word.getLsbD 44 = d.ovr := getLsbD_eq_of_toNat (by rw [hw]; omega)
  have fen : d.word.getLsbD 32 = d.en := getLsbD_eq_of_toNat (by rw [hw]; omega)
  rw [GCfg.withWord, fgid, frepl, fovr, fidx, fk, fm, fen]
  exact h.symm

/-! ### What a slot makes of a delta and of a decision (R402, R408, R410) -/

/-- A delta as a parity member stages it (R402, R408). -/
def GSlot.scaled (g : GSlot) (d : Delta) : Staged :=
  { round := d.round, src := d.src, goff := d.goff, data := scaleBytes (gfCoef (g.cfg.myidx.toNat - g.cfg.k.toNat) d.src) d.data }

/-- The slot with what a decision record says of the members (R410, R416). -/
def GSlot.informed (g : GSlot) (d : Decision) : GSlot :=
  let g := { g with dead := d.dead, memberRegs := d.regs, record := some d }
  let g := if g.rb && !g.dead.getLsbD g.rbidx.toNat then { g with rb := false } else g
  if g.state = .run ∨ g.state = .degraded then g.settle else g

theorem GSlot.settle_roundLast (g : GSlot) : g.settle.roundLast = g.roundLast := by
  rw [settle]
  split <;> rfl

theorem GSlot.informed_roundLast (g : GSlot) (d : Decision) : (g.informed d).roundLast = g.roundLast := by
  unfold informed
  dsimp only
  split_ifs <;> simp only [settle_roundLast]

namespace State

variable {s : State} {n : Nat}

theorem group_modGroup (s : State) (n : Nat) (f : GSlot → GSlot) : (s.modGroup n f).group n = f (s.group n) := tget_tmod_same _ _ _ _

/-- A change of a slot depends on what it makes of the slot as it stands. -/
theorem modGroup_congr {f f' : GSlot → GSlot} (h : f (s.group n) = f' (s.group n)) : s.modGroup n f = s.modGroup n f' := by
  rw [modGroup, modGroup, tmod, tmod, show f (tget {} s.groups n) = f' (tget {} s.groups n) from h]

/-! ### Joining and leaving (R400, R401, R416) -/

section

variable {v : Word} {c : GCfg} (hv : (s.group n).cfg.withWord v = c)
include hv

theorem writeCgcfg_held (hen : (s.group n).cfg.en = true) (hc : c.en = true) : s.writeCgcfg n v = .refused := by
  simp only [writeCgcfg, hv, hen, hc, if_true]

theorem writeCgcfg_leaves (hen : (s.group n).cfg.en = true) (hc : c.en = false) : s.writeCgcfg n v = .done (s.leave n c) := by
  simp only [writeCgcfg, hv, hen, hc, if_true, Bool.false_eq_true, if_false]

theorem writeCgcfg_refused (hen : (s.group n).cfg.en = false) (hc : c.en = true) (h : s.joinRefused n c = true) : s.writeCgcfg n v = .refused := by
  simp only [writeCgcfg, hv, hen, hc, h, if_true, Bool.false_eq_true, if_false, Bool.not_true]

theorem writeCgcfg_joins (hen : (s.group n).cfg.en = false) (hc : c.en = true) (h : s.joinRefused n c = false) : s.writeCgcfg n v = .done (s.join n c) := by
  simp only [writeCgcfg, hv, hen, hc, h, Bool.false_eq_true, if_false, Bool.not_true]

end

/-! ### Formation (R401, R416) -/

theorem form_not_forming (agree : Bool) (h : (s.group n).state ≠ .forming) : s.form n agree = s := if_pos h

section

variable (hstate : (s.group n).state = .forming)
include hstate

theorem form_disagrees : s.form n false = s.formFails n 2 := by
  simp only [form, if_neg (not_not.mpr hstate), Bool.not_false, if_true]

theorem form_waits (h : ∃ i, i < (s.group n).cfg.members ∧ s.memberUp n i = false) : s.form n true = s := by
  obtain ⟨i, hi, hdown⟩ := h
  have hall : (!(List.range (s.group n).cfg.members).all fun i => s.memberUp n i) = true := by
    rw [Bool.not_eq_true', List.all_eq_false]
    exact ⟨i, List.mem_range.mpr hi, Bool.eq_false_iff.mp hdown⟩
  simp only [form, if_neg (not_not.mpr hstate), Bool.not_true, Bool.false_eq_true, if_false, if_pos hall]

section

variable (hup : ∀ i, i < (s.group n).cfg.members → s.memberUp n i = true)
include hup

theorem form_up : s.form n true = if (s.group n).cfg.badPlacement && !(s.group n).cfg.ovr then s.formFails n 1
    else ((if (s.group n).cfg.isData then s else s.zeroParity n).modGroup n fun h =>
      { cfg := h.cfg, state := .run, weak := (s.group n).cfg.badPlacement }).groupEvent n := by
  have hall : (List.range (s.group n).cfg.members).all (fun i => s.memberUp n i) = true := List.all_eq_true.mpr fun i hi => hup i (List.mem_range.mp hi)
  simp only [form, if_neg (not_not.mpr hstate), Bool.not_true, Bool.false_eq_true, if_false, hall]

end

end

/-! ### Deltas (R406, R408, R410) -/

theorem stageDelta_new {d : Delta} (hen : (s.group n).cfg.en = true) (hparity : (s.group n).cfg.isData = false)
    (hstate : (s.group n).state = .run ∨ (s.group n).state = .degraded)
    (hnew : ∀ x ∈ (s.group n).staged, x.src ≠ d.src ∨ x.round ≠ d.round ∨ x.goff ≠ d.goff) (hroom : (s.group n).bufferRoom 1 = true) :
    s.stageDelta n d = (s.modGroup n fun g => { g with staged := g.staged ++
      [g.scaled d] }).post
        ((s.group n).cfg.dev d.src) (.deltaAck ((s.group n).cfg.dev d.src) (s.group n).cfg.gid
          { src := (s.group n).cfg.myidx.toNat, round := d.round, goff := d.goff }) := by
  have hlive : ¬ (!(s.group n).cfg.en || (s.group n).cfg.isData || !((s.group n).state == .run || (s.group n).state == .degraded)) = true := by
    obtain h | h := hstate <;> simp [hen, hparity, h]
  have hrest : (s.group n).staged.filter (fun x => !(x.src == d.src && x.round == d.round && x.goff == d.goff)) = (s.group n).staged :=
    List.filter_eq_self.mpr fun x hx => by
      obtain h | h | h := hnew x hx <;> simp [h]
  simp only [stageDelta, if_neg hlive, hrest, hroom, Bool.not_true, Bool.false_eq_true, and_false, if_false]
  exact congrArg (fun t : State => t.post ((s.group n).cfg.dev d.src) (.deltaAck ((s.group n).cfg.dev d.src) (s.group n).cfg.gid
    { src := (s.group n).cfg.myidx.toNat, round := d.round, goff := d.goff })) (modGroup_congr rfl)

theorem stageDelta_other {d : Delta} (h : (s.group n).cfg.en = false ∨ (s.group n).cfg.isData = true) : s.stageDelta n d = s := by
  refine if_pos ?_
  obtain h | h := h <;> simp [h]

theorem ackDelta_counted {a : DeltaAck} (hphase : (s.group n).phase = 1) (hround : a.round = (s.group n).roundLast + 1) :
    let u := s.modGroup n fun g => { g with unacked := g.unacked.erase (a.src, a.goff) }
    s.ackDelta n a = if ((s.group n).unacked.erase (a.src, a.goff)).isEmpty then u.becomePrepared n else u := by
  have hdue : ¬ ((s.group n).phase ≠ 1 ∨ a.round ≠ (s.group n).roundLast + 1) := by simp [hphase, hround]
  simp only [ackDelta, if_neg hdue, group_modGroup]

theorem ackDelta_other {a : DeltaAck} (h : (s.group n).phase ≠ 1 ∨ a.round ≠ (s.group n).roundLast + 1) : s.ackDelta n a = s := if_pos h

theorem takePrepared_round {src : Nat} {round : Word} {regs : List Region} (h : (s.group n).rb = false ∨ (s.group n).dead.getLsbD src = false) :
    s.takePrepared n src round regs = s.preparedAt n src round regs := by
  refine if_neg ?_
  obtain h | h := h <;> simp [h]

/-! ### Decisions (R410, R411, R417) -/

theorem takeDecision_off {src : Nat} (d : Decision) (hen : (s.group n).cfg.en = false) : s.takeDecision n src d = s := if_pos (by simp [hen])

section

variable {src : Nat} {d : Decision} (hen : (s.group n).cfg.en = true)
include hen

theorem takeDecision_asked (h : src ∈ (s.group n).asking) : s.takeDecision n src d = s.askedOne n src (some d) :=
  (if_neg (by simp [hen])).trans (if_pos (List.contains_iff_mem.mpr h))

variable (hasked : src ∉ (s.group n).asking)
include hasked

theorem takeDecision_rebuild (h : (s.group n).state = .rebuild) : s.takeDecision n src d = s.takeDecisionRebuild n d :=
  (if_neg (by simp [hen])).trans ((if_neg (by simpa using hasked)).trans (if_pos h))

/-- A record of a round to come is stored; a slot that rebuilds no member does nothing more. -/
theorem takeDecision_stores (hstate : (s.group n).state = .run ∨ (s.group n).state = .degraded ∨ (s.group n).state = .failed)
    (hround : (s.group n).roundLast < d.round) (hrb : ((s.storeDecision n d).group n).rb = false) : s.takeDecision n src d = s.storeDecision n d := by
  have hen' : ¬ (!(s.group n).cfg.en) = true := by simp [hen]
  have hasked' : ¬ (s.group n).asking.contains src = true := by simpa using hasked
  have hstate' : ¬ (s.group n).state = .rebuild ∧
      ¬ (!((s.group n).state == .run || (s.group n).state == .degraded || (s.group n).state == .failed)) = true := by
    obtain h | h | h := hstate <;> simp [h]
  have hround' : ¬ d.round ≤ (s.group n).roundLast := BitVec.not_le.mpr hround
  simp only [takeDecision, if_neg hen', if_neg hasked', if_neg hstate'.1, if_neg hstate'.2, if_neg hround', hrb, Bool.false_and, Bool.false_eq_true,
    if_false]

end

/-- A commitment that is stored in its turn is applied: its round is the last one. -/
theorem applyDecision_roundLast {d : Decision} (hcommit : d.commit = true) (hround : d.round = (s.group n).roundLast + 1) :
    ((s.applyDecision n d).group n).roundLast = d.round := by
  have hinformed : ((s.modGroup n fun g => g.informed d).group n).roundLast = (s.group n).roundLast := by
    rw [group_modGroup, GSlot.informed_roundLast]
  have happly : s.applyDecision n d = (s.modGroup n fun g => g.informed d).applyCommit n d :=
    (if_neg (by simp [hcommit])).trans (if_pos (by rw [hround, ← hinformed]; rfl))
  rw [happly]
  exact congrArg GSlot.roundLast (group_modGroup _ _ _)

theorem storeDecision_roundLast {d : Decision} (hcommit : d.commit = true) (hround : d.round = (s.group n).roundLast + 1)
    (hnone : (s.group n).decisions = []) : ((s.storeDecision n d).group n).roundLast = d.round := by
  have hturn : ¬ (s.group n).roundLast + 1 < d.round := by rw [hround]; exact BitVec.lt_irrefl _
  have hsort : sortBy (fun e : Decision => e.round.toNat) [] = [] := rfl
  simp only [storeDecision, if_neg hturn, hnone, hsort, List.foldl_nil]
  exact applyDecision_roundLast hcommit (by rw [group_modGroup]; exact hround)

/-! ### Rebuild (R417) -/

theorem survivorStart_refused {i : Nat} (h : (s.group n).state ≠ .degraded ∨ (s.group n).rb = true ∨ (s.group n).dead.getLsbD i = false) :
    s.survivorStart n i = s := by
  refine if_pos ?_
  obtain h | h | h := h <;> simp [h]

theorem survivorStart_sends {i : Nat} (hstate : (s.group n).state = .degraded) (hrb : (s.group n).rb = false) (hdead : (s.group n).dead.getLsbD i = true) :
    s.survivorStart n i = ((s.modGroup n fun g => { g with rb := true, rbidx := BitVec.ofNat 4 i }).groupEvent n).sendShares n i :=
  if_neg (by simp [hstate, hrb, hdead])

theorem takeShare_other {x : Share} (h : (s.group n).state ≠ .rebuild) : s.takeShare n x = s := if_pos (.inl h)

theorem takeShare_kept {x : Share} (hstate : (s.group n).state = .rebuild) (hoff : (s.group n).rbNext ≤ x.off) (hread : x.lost = false) :
    s.takeShare n x =
    (s.modGroup n fun g => { g with shares := x :: g.shares.filter fun y => !(y.src == x.src && y.off == x.off) }).rebuildRun n := by
  have hdue : ¬ ((s.group n).state ≠ .rebuild ∨ x.off < (s.group n).rbNext) := not_or.mpr ⟨not_not.mpr hstate, Nat.not_lt.mpr hoff⟩
  simp only [takeShare, if_neg hdue, hread, Bool.false_eq_true, if_false]

end State

/-! ### The rows -/

section

variable {s : State} {m n : Nat} (hlease : s.root.owner.id = 0 ∨ s.time < s.root.owner.beat + s.root.owner.lease.toNat) (hm : m ≠ 0)
  (howner : s.root.owner.id = m)
include hlease hm howner

theorem exec_groupJoin_refused {c : GCfg} (hc : c = { (s.group n).cfg with en := true, repl := false })
    (h : (s.group n).cfg.en = true ∨ s.joinRefused n c = true) : exec (.groupJoin m n) s = .next (s.command m 1 (0x8000 + 0x100 * n) c.word) := by
  subst hc
  refine congrArg Host.Outcome.next (State.ownerWrite_refused hlease hm howner ?_)
  by_cases hen : (s.group n).cfg.en = true
  · exact State.writeCgcfg_held (GCfg.withWord_word rfl) hen rfl
  · exact State.writeCgcfg_refused (GCfg.withWord_word rfl) (Bool.eq_false_iff.mpr hen) rfl (h.resolve_left hen)

theorem exec_groupJoin_joins {c : GCfg} (hc : c = { (s.group n).cfg with en := true, repl := false }) (hen : (s.group n).cfg.en = false)
    (h : s.joinRefused n c = false) : exec (.groupJoin m n) s = .next ((s.command m 0 (0x8000 + 0x100 * n) c.word).join n c) := by
  subst hc
  exact congrArg Host.Outcome.next (State.ownerWrite_done hlease hm howner (State.writeCgcfg_joins (GCfg.withWord_word rfl) hen rfl h)
    (State.writeCgcfg_joins (s := s.command m 0 _ _) (GCfg.withWord_word rfl) hen rfl h))

theorem exec_groupLeave_leaves {c : GCfg} (hc : c = { (s.group n).cfg with en := false }) (hen : (s.group n).cfg.en = true) :
    exec (.groupLeave m n) s = .next ((s.command m 0 (0x8000 + 0x100 * n) c.word).leave n c) := by
  subst hc
  exact congrArg Host.Outcome.next (State.ownerWrite_done hlease hm howner (State.writeCgcfg_leaves (GCfg.withWord_word rfl) hen rfl)
    (State.writeCgcfg_leaves (s := s.command m 0 _ _) (GCfg.withWord_word rfl) hen rfl))

theorem exec_rebuildResume_held (h : (s.group n).rbHeld = true) : exec (.rebuildResume m n) s =
    .next (((s.command m 0 (0x8000 + 0x100 * n + 0x58) 2).modGroup n fun g => { g with rbHeld := false, err := 0 }).rebuildRun n) :=
  congrArg Host.Outcome.next (State.ownerWrite_done hlease hm howner rfl (congrArg State.Written.done (if_pos h)))

end

/-- Settles O53: each event by the state of its slot and by the condition that selects what it does. -/
theorem groupEvents : Obligations.GroupEvents := by
  unfold Obligations.GroupEvents
  intro s n
  refine ⟨fun m hlease hm howner => ⟨fun hen => ⟨exec_groupJoin_refused hlease hm howner rfl (.inl hen), exec_groupLeave_leaves hlease hm howner rfl hen⟩,
      fun hen => ⟨fun h => exec_groupJoin_refused hlease hm howner rfl (.inr h), fun h => exec_groupJoin_joins hlease hm howner rfl hen h⟩,
      fun hheld => exec_rebuildResume_held hlease hm howner hheld⟩,
    fun h a => congrArg _ (State.form_not_forming a h), fun hstate => ⟨congrArg _ (State.form_disagrees hstate),
      fun h => congrArg _ (State.form_waits hstate h), fun hup => ?formed, fun h => ?late⟩,
    fun d hen hparity hstate hnew hroom => congrArg _ (State.stageDelta_new hen hparity hstate hnew hroom),
    fun d h => congrArg _ (State.stageDelta_other h), fun a hphase hround => ?acked, fun a h => congrArg _ (State.ackDelta_other h),
    fun src round regs h => congrArg _ (State.takePrepared_round h), fun src d hen => congrArg _ (State.takeDecision_off d hen),
    fun src d hen => ⟨fun h => congrArg _ (State.takeDecision_asked hen h), fun hasked h => congrArg _ (State.takeDecision_rebuild hen hasked h),
      fun hasked hstate hround hrb => congrArg _ (State.takeDecision_stores hen hasked hstate hround hrb)⟩,
    fun d hcommit hround hnone hdata => State.storeDecision_roundLast hcommit hround hnone,
    fun i left h => congrArg _ (if_pos (by simpa using h)), fun i h => congrArg _ (if_neg (by simp [h])),
    fun i hstate h => (congrArg _ (if_neg hstate)).trans (congrArg _ (State.survivorStart_refused h)),
    fun i hstate hrb hdead => congrArg Host.Outcome.next ((if_neg (by simp [hstate])).trans (State.survivorStart_sends hstate hrb hdead)),
    fun i hstate hrepl hen h => congrArg Host.Outcome.next ((if_pos hstate).trans (if_pos (by rw [hrepl, hen, Bool.not_false, Bool.true_and, Bool.true_and, h]; rfl))),
    fun x h => congrArg _ (State.takeShare_other h), fun x hstate hoff hread => congrArg _ (State.takeShare_kept hstate hoff hread)⟩
  case formed =>
    have hexec : exec (.groupForm n true) s = .next _ := congrArg Host.Outcome.next (State.form_up hstate hup)
    exact ⟨fun hbad hovr => hexec.trans (congrArg _ (if_pos (by simp [hbad, hovr]))), fun h => hexec.trans (congrArg _ (if_neg (by obtain h | h := h <;> simp [h])))⟩
  case late =>
    obtain ⟨i, hi, hlost⟩ := h
    exact congrArg _ (if_pos ⟨hstate, List.any_eq_true.mpr ⟨i, List.mem_range.mpr hi, hlost⟩⟩)
  case acked =>
    have hexec : exec (.deltaAckReceive n a) s = .next _ := congrArg Host.Outcome.next (State.ackDelta_counted hphase hround)
    exact ⟨fun h => hexec.trans (congrArg _ (if_pos (List.isEmpty_iff.mpr h))), fun h => hexec.trans (congrArg _ (if_neg (mt List.isEmpty_iff.mp h)))⟩

end Sys2Proof.Machine
end

section
/-! Frames, streams and sessions (spec 14_fabric.md R354 to R360): what a frame, a timeout and a probe make of a stream, and how an exchange ends. -/

namespace Sys2Proof.Machine

namespace State

variable {s : State} {k p : Nat} {f : Frame}

theorem peer_modPeer (s : State) (p : Nat) (f : Peer → Peer) : (s.modPeer p f).peer p = f (s.peer p) := tget_tmod_same _ _ _ _

/-! ### Frames (R356 to R358) -/

theorem frameReceive_closed (h : s.frameOpen k p f = false) : s.frameReceive k p f = s := if_pos (by simp [h])

section

variable (hopen : s.frameOpen k p f = true)
include hopen

theorem frameReceive_bad (h : s.frameBad k p f = true) : s.frameReceive k p f = (s.tagTake k p f).nak k p :=
  (if_neg (by simp [hopen])).trans (if_pos h)

/-- The state once a good frame's key, acknowledgement and time have been taken (R357, R359, R360). -/
def goodTaken (s : State) (k p : Nat) (f : Frame) : State :=
  let v := s.phaseTake k p f
  let w := v.modPeer (f.src.toNat % 128) fun q => { q with lastGood := v.time }
  (w.modStream k p fun t => t.ack (f.ack.toNat % 65536) w.time).pump k p

variable (hgood : s.frameBad k p f = false)
include hgood

theorem frameReceive_good : s.frameReceive k p f = match f.nak with
    | some q => (s.goodTaken k p f).nakTake k p q.toNat
    | none =>
      if s.frameGap k p f = 0 then
        (let z := (s.goodTaken k p f).modStream k p fun t => { t with rxNext := (t.rxNext + 1) % 65536 }
         (z.send (.ack k p (z.stream k p).rxNext)).frameTake k p (s.opened k p f))
      else if s.frameGap k p f < 32768 then (s.goodTaken k p f).nak k p
      else (s.goodTaken k p f).send (.ack k p ((s.goodTaken k p f).stream k p).rxNext) :=
  (if_neg (by simp [hopen])).trans (if_neg (by simp [hgood]))

theorem frameReceive_nak {q : BitVec 16} (h : f.nak = some q) : s.frameReceive k p f = (s.goodTaken k p f).nakTake k p q.toNat := by
  rw [frameReceive_good hopen hgood, h]

variable (hnone : f.nak = none)
include hnone

theorem frameReceive_next (h : s.frameGap k p f = 0) : s.frameReceive k p f =
    (let z := (s.goodTaken k p f).modStream k p fun t => { t with rxNext := (t.rxNext + 1) % 65536 }
     (z.send (.ack k p (z.stream k p).rxNext)).frameTake k p (s.opened k p f)) := by
  rw [frameReceive_good hopen hgood, hnone]
  exact if_pos h

theorem frameReceive_gap (hpos : 0 < s.frameGap k p f) (h : s.frameGap k p f < 32768) : s.frameReceive k p f = (s.goodTaken k p f).nak k p := by
  rw [frameReceive_good hopen hgood, hnone]
  exact (if_neg (Nat.ne_of_gt hpos)).trans (if_pos h)

theorem frameReceive_old (h : 32768 ≤ s.frameGap k p f) :
    s.frameReceive k p f = (s.goodTaken k p f).send (.ack k p ((s.goodTaken k p f).stream k p).rxNext) := by
  rw [frameReceive_good hopen hgood, hnone]
  exact (if_neg (by omega)).trans (if_neg (Nat.not_lt.mpr h))

end

end State

/-! ### Streams (R357) -/

section

variable {s : State} {k p : Nat}

theorem exec_streamAckTimeout_dies (hlive : (s.stream k p).dead = false) (hretry : (s.stream k p).retry ≠ [])
    (hover : (s.stream k p).since + 5000 ≤ s.time) : exec (.streamAckTimeout k p) s = .next (s.killStream k p) :=
  congrArg Host.Outcome.next (if_pos ⟨by simp [hlive], by simp [hretry], hover⟩)

theorem exec_streamAckTimeout_lives (h : (s.stream k p).dead = true ∨ (s.stream k p).retry = [] ∨ s.time < (s.stream k p).since + 5000) :
    exec (.streamAckTimeout k p) s = .next s := by
  refine congrArg Host.Outcome.next (if_neg ?_)
  rintro ⟨hlive, hretry, hover⟩
  obtain h | h | h := h
  · simp [h] at hlive
  · simp [h] at hretry
  · exact Nat.not_le.mpr h hover

section

variable (hdead : (s.stream k p).dead = true) (hport : (s.port k).state = .locked ∨ (s.port k).state = .run)
  (hover : (s.stream k p).since + 10000000 ≤ s.time)
include hdead hport hover

/-- A probe of a dead stream that is due: the count of answered probes decides what becomes of it. -/
theorem exec_streamProbe_due {answered : Bool} {n : Nat} (hn : (if answered then (s.stream k p).probes + 1 else 0) = n) :
    exec (.streamProbe k p answered) s = .next
      (let u := (s.send (.probe k (wavelength s.devNum p))).modStream k p fun t =>
        { t with probes := if n = 3 then 0 else n, dead := decide (n ≠ 3), since := s.time }
       if n = 3 then State.streamsChanged s (u.settleRoutes) else u) := by
  subst hn
  have hdue : ¬ ((!(s.stream k p).dead) = true ∨ (!((s.port k).state == .locked || (s.port k).state == .run)) = true ∨
      s.time < (s.stream k p).since + 10000000) := by
    rintro (h | h | h)
    · simp [hdead] at h
    · obtain hport | hport := hport <;> simp [hport] at h
    · exact Nat.not_lt.mpr hover h
  exact congrArg Host.Outcome.next (if_neg hdue)

theorem exec_streamProbe_counts {answered : Bool} {n : Nat} (hn : (if answered then (s.stream k p).probes + 1 else 0) = n) (h : n ≠ 3) :
    exec (.streamProbe k p answered) s = .next ((s.send (.probe k (wavelength s.devNum p))).modStream k p fun t =>
      { t with probes := n, dead := true, since := s.time }) := by
  rw [exec_streamProbe_due hdead hport hover hn]
  simp only [if_neg h, decide_eq_true h]

theorem exec_streamProbe_revives (h : (s.stream k p).probes = 2) : exec (.streamProbe k p true) s = .next (State.streamsChanged s
    (((s.send (.probe k (wavelength s.devNum p))).modStream k p fun t => { t with probes := 0, dead := false, since := s.time }).settleRoutes)) := by
  have hn : (if true = true then (s.stream k p).probes + 1 else 0) = 3 := by rw [if_pos rfl, h]
  rw [exec_streamProbe_due hdead hport hover hn]
  rfl

end

/-! ### Sessions (R359, R360) -/

theorem exec_sessionSetup_starts (hp : p < 128) (hne : p ≠ s.devNum) (hport : ∃ k, k < 8 ∧ ((s.port k).state = .locked ∨ (s.port k).state = .run))
    (hstate : (s.peer p).state = .none ∨ ((s.peer p).state = .down ∧ (s.peer p).downAt + 100000 ≤ s.time)) :
    let u := (s.modPeer p fun x => { x with state := .setup, spdm := 0 }).noteRoutes
    exec (.sessionSetup p) s = .next (if s.devNum < p then u.post p (.spdm p .getVersion false []) else u) := by
  obtain ⟨k, hk, hlit⟩ := hport
  have hany : ((List.range 8).any fun k => (s.port k).state == .locked || (s.port k).state == .run) = true :=
    List.any_eq_true.mpr ⟨k, List.mem_range.mpr hk, by simpa using hlit⟩
  exact congrArg Host.Outcome.next (if_pos ⟨hp, hne, hany, hstate⟩)

section

variable {inc : BitVec 16} {chain : Bool} {meas : Digest} (hstate : (s.peer p).state = .setup)
include hstate

theorem exec_sessionUp_ends (h : chain = false ∨ (s.peer p).spdm = 7) : exec (.sessionUp p inc chain meas) s = .next (s.sessionEnds p inc chain meas) :=
  congrArg Host.Outcome.next (if_pos ⟨hstate, h.imp_left fun hchain => by simp [hchain]⟩)

/-- A failed chain, or measurements that no ACCEPT register admits, refuse the session. -/
theorem sessionUp_refused (h : chain = false ∨ ((s.peer p).spdm = 7 ∧ (∃ k, k < 4 ∧ tget 0 s.fabric.accept k ≠ 0) ∧
      ∀ k, k < 4 → tget 0 s.fabric.accept k ≠ meas)) :
    Completes (.sessionUp p inc chain meas) s fun t => (t.peer p).state = .refused ∧ t.root.journal.jseq = s.root.journal.jseq + 1 := by
  have hrefused : ¬ (chain && (((List.range 4).map fun k => tget 0 s.fabric.accept k).all (· == 0) ||
      ((List.range 4).map fun k => tget 0 s.fabric.accept k).contains meas)) = true := by
    obtain h | ⟨-, ⟨k, hk, hset⟩, hother⟩ := h
    · simp [h]
    · simp only [Bool.and_eq_true, Bool.or_eq_true, List.all_eq_true, List.contains_iff_mem, List.mem_map, List.mem_range, beq_iff_eq]
      rintro ⟨-, hall | ⟨j, hj, hmeas⟩⟩
      · exact hset (hall _ ⟨k, hk, rfl⟩)
      · exact hother j hj hmeas
  have hends : s.sessionEnds p inc chain meas = (s.modPeer p fun x => { x with state := .refused }).event 0x0C 4 p := if_neg hrefused
  refine ⟨_, (exec_sessionUp_ends hstate (h.imp_right And.left)).trans (congrArg _ hends), ?_, rfl⟩
  exact congrArg Peer.state (State.peer_modPeer s p fun x => { x with state := .refused })

end

theorem exec_sessionLivenessTimeout_down (hstate : (s.peer p).state = .up) (hover : (s.peer p).lastGood + 100000 ≤ s.time) :
    exec (.sessionLivenessTimeout p) s = .next (s.sessionDown p) := congrArg Host.Outcome.next (if_pos ⟨hstate, hover⟩)

theorem exec_sessionLivenessTimeout_other (h : (s.peer p).state ≠ .up) : exec (.sessionLivenessTimeout p) s = .next s :=
  congrArg Host.Outcome.next (if_neg fun hboth => h hboth.1)

/-- KEY_UPDATE goes to the peer, and the frames to it are counted from 0 under the next key. -/
theorem exec_keyUpdate (h : (s.peer p).state = .up) :
    let u := (s.post p (.spdm p .keyUpdate false [])).modPeer p fun x => { x with txGen := x.txGen + 1, txFrames := 0 }
    exec (.keyUpdate p) s = .next { u with fabric := { u.fabric with
      streams := u.fabric.streams.map fun kv => (kv.1, if kv.1 % 128 = p then { kv.2 with frames := 0 } else kv.2) } } :=
  congrArg Host.Outcome.next (if_pos h)

theorem exec_reachAdvert (relay : BitVec 128) (h : (s.peer p).state = .up) :
    exec (.reachAdvert p relay) s = .next ((s.send (.advert p s.liveMask)).modPeer p fun x => { x with advert := relay }).settleRoutes :=
  congrArg Host.Outcome.next (if_pos h)

end

end Sys2Proof.Machine
end

section
/-! Ports (spec 14_fabric.md R361, R366 to R370): the owner's commands to a port and its errors, waits for a route, requests of other devices, and
roaming pages. -/

namespace Sys2Proof.Machine

/-! ### Ports (R361) -/

theorem portCommand_en (s : State) (k : Nat) {c : Nat} (hc : c < 4) : (portCommand s k c)[0] = (s.port k).en := by
  have hbits : ∀ c < 4, ∀ b : Bool, (BitVec.ofNat 64 (c * 2 ^ 32 + b.toNat)).getLsbD 0 = b := by decide
  exact hbits c hc _

theorem fld_portCommand (s : State) (k : Nat) {c : Nat} (hc : c < 4) : fld (portCommand s k c).toNat 32 2 = c := by
  have hbits : ∀ c < 4, ∀ b : Bool, fld (BitVec.ofNat 64 (c * 2 ^ 32 + b.toNat)).toNat 32 2 = c := by decide
  exact hbits c hc _

namespace State

variable {s : State} {k : Nat}

theorem port_modPort (s : State) (k : Nat) (f : Port → Port) : (s.modPort k f).port k = f (s.port k) := tget_tmod_same _ _ _ _

section

variable {v : Word} {c : Nat} (hstage : 2 ≤ s.root.stage.stage) (hen : v[0] = (s.port k).en) (hcmd : fld v.toNat 32 2 = c)
include hstage hen hcmd

/-- LOCK of an unlocked port. -/
theorem writePort_lock (hc : c = 1) (hstate : (s.port k).state = .unlocked) (hon : (s.port k).en = true) : s.writePort k v =
    .done ((s.modPort k fun p => { p with en := v.getLsbD 0 }).modPort k fun p =>
      { p with state := .locked, meas := digestOf (Config.portBytes k true s.fabric.enc s.fabric.relayMask) }) := by
  subst hc
  have hroot (f : Port → Port) : (s.modPort k f).root = s.root := rfl
  rw [hon] at hen
  simp only [writePort, hstate, hcmd]
  simp [hroot, hen, Nat.not_lt.mpr hstage]
  rfl

theorem writePort_run (hc : c = 2) (hstate : (s.port k).state = .locked) : s.writePort k v =
    .done (((s.modPort k fun p => { p with state := .run }).settleRoutes).settleStage) := by
  subst hc
  simp [writePort, hstate, hen, hcmd, Nat.not_lt.mpr hstage]

/-- UNLOCK of a port in RUN kills its streams. -/
theorem writePort_unlock_run (hc : c = 3) (hstate : (s.port k).state = .run) : s.writePort k v =
    .done ((s.modPort k fun p => { p with state := .unlocked }).killPort k) := by
  subst hc
  simp [writePort, hstate, hen, hcmd, Nat.not_lt.mpr hstage]

theorem writePort_unlock_locked (hc : c = 3) (hstate : (s.port k).state = .locked) : s.writePort k v =
    .done (s.modPort k fun p => { p with state := .unlocked }).noteRoutes := by
  subst hc
  simp [writePort, hstate, hen, hcmd, Nat.not_lt.mpr hstage]

omit hen in
theorem writePort_unlock_error (hc : c = 3) (hstate : (s.port k).state = .error) : s.writePort k v =
    .done (s.modPort k fun p => { p with state := .unlocked, ecause := 0 }) := by
  subst hc
  simp [writePort, hstate, hcmd, Nat.not_lt.mpr hstage]

end

theorem portError_run (cause : Nat) (h : (s.port k).state = .run) :
    s.portError k cause = (s.modPort k fun p => { p with state := .error, ecause := BitVec.ofNat 8 cause }).killPort k :=
  (if_pos (.inr h)).trans (if_pos h)

theorem portError_locked (cause : Nat) (h : (s.port k).state = .locked) :
    s.portError k cause = (s.modPort k fun p => { p with state := .error, ecause := BitVec.ofNat 8 cause }).noteRoutes :=
  (if_pos (.inl h)).trans (if_neg (by simp [h]))

end State

section

variable {s : State} {m : Nat} (hlease : s.root.owner.id = 0 ∨ s.time < s.root.owner.beat + s.root.owner.lease.toNat) (hm : m ≠ 0) (howner : s.root.owner.id = m)
include hlease hm howner

theorem exec_acceptWrite (k w : Nat) (v : Word) :
    exec (.acceptWrite m k w v) s = .next ((s.command m 0 (0x5400 + 0x40 * k + 8 * w) v).writeAccept k w v) :=
  congrArg Host.Outcome.next (State.ownerWrite_done hlease hm howner (f := fun s => .done (s.writeAccept k w v)) rfl rfl)

theorem exec_migwinWrite : exec (.migwinWrite m) s = .next (s.command m 0 0x5020 0).endWindow :=
  congrArg Host.Outcome.next (State.ownerWrite_done hlease hm howner (f := fun s => .done s.endWindow) rfl rfl)

section

variable {k : Nat} (hstage : 2 ≤ s.root.stage.stage)
include hstage

/-- LOCK is journalled and leaves the port LOCKED. -/
theorem portLock_locks (hstate : (s.port k).state = .unlocked) (hon : (s.port k).en = true) :
    Completes (.portLock m k) s fun t => (t.port k).state = .locked ∧ t.root.journal.jseq = s.root.journal.jseq + 1 := by
  have hen := portCommand_en s k (c := 1) (by decide)
  have hcmd := fld_portCommand s k (c := 1) (by decide)
  refine ⟨_, congrArg Host.Outcome.next (State.ownerWrite_done hlease hm howner (State.writePort_lock hstage hen hcmd rfl hstate hon)
    (State.writePort_lock (s := s.command m 0 (0x5100 + 0x40 * k) (portCommand s k 1)) hstage hen hcmd rfl hstate hon)), ?_, rfl⟩
  exact congrArg Port.state (State.port_modPort _ k _)

theorem exec_portRun (hstate : (s.port k).state = .locked) : exec (.portRun m k) s =
    .next (((s.command m 0 (0x5100 + 0x40 * k) (portCommand s k 2)).modPort k fun p => { p with state := .run }).settleRoutes).settleStage :=
  have hen := portCommand_en s k (c := 2) (by decide)
  have hcmd := fld_portCommand s k (c := 2) (by decide)
  congrArg Host.Outcome.next (State.ownerWrite_done hlease hm howner (State.writePort_run hstage hen hcmd rfl hstate)
    (State.writePort_run (s := s.command m 0 (0x5100 + 0x40 * k) (portCommand s k 2)) hstage hen hcmd rfl hstate))

theorem exec_portUnlock_run (hstate : (s.port k).state = .run) : exec (.portUnlock m k) s =
    .next (((s.command m 0 (0x5100 + 0x40 * k) (portCommand s k 3)).modPort k fun p => { p with state := .unlocked }).killPort k) :=
  have hen := portCommand_en s k (c := 3) (by decide)
  have hcmd := fld_portCommand s k (c := 3) (by decide)
  congrArg Host.Outcome.next (State.ownerWrite_done hlease hm howner (State.writePort_unlock_run hstage hen hcmd rfl hstate)
    (State.writePort_unlock_run (s := s.command m 0 (0x5100 + 0x40 * k) (portCommand s k 3)) hstage hen hcmd rfl hstate))

theorem exec_portUnlock_locked (hstate : (s.port k).state = .locked) : exec (.portUnlock m k) s =
    .next ((s.command m 0 (0x5100 + 0x40 * k) (portCommand s k 3)).modPort k fun p => { p with state := .unlocked }).noteRoutes :=
  have hen := portCommand_en s k (c := 3) (by decide)
  have hcmd := fld_portCommand s k (c := 3) (by decide)
  congrArg Host.Outcome.next (State.ownerWrite_done hlease hm howner (State.writePort_unlock_locked hstage hen hcmd rfl hstate)
    (State.writePort_unlock_locked (s := s.command m 0 (0x5100 + 0x40 * k) (portCommand s k 3)) hstage hen hcmd rfl hstate))

theorem exec_portUnlock_error (hstate : (s.port k).state = .error) : exec (.portUnlock m k) s =
    .next ((s.command m 0 (0x5100 + 0x40 * k) (portCommand s k 3)).modPort k fun p => { p with state := .unlocked, ecause := 0 }) :=
  have hcmd := fld_portCommand s k (c := 3) (by decide)
  congrArg Host.Outcome.next (State.ownerWrite_done hlease hm howner (State.writePort_unlock_error hstage hcmd rfl hstate)
    (State.writePort_unlock_error (s := s.command m 0 (0x5100 + 0x40 * k) (portCommand s k 3)) hstage hcmd rfl hstate))

end

end

theorem exec_portMeasCheck_differs {s : State} {k : Nat} (h : (s.port k).state = .run) : exec (.portMeasCheck k false) s = .next (s.portError k 3) :=
  congrArg Host.Outcome.next (if_pos ⟨h, rfl⟩)

theorem exec_portMeasCheck_agrees (s : State) (k : Nat) : exec (.portMeasCheck k true) s = .next s :=
  congrArg Host.Outcome.next (if_neg (by simp))

namespace State

variable {s : State} {p : Nat}

/-! ### A wait for a route that is over (R366) -/

theorem rerouted_load {l i : Nat} {t : Task} {r : RemoteLoad} {b : Bool} (htask : s.task? l i = some t) (hparked : t.state = .parked)
    (hwait : t.park = some (.remote r b)) (hholder : s.holderOf r.ia = p) (hover : s.unroutedFor p r.tick = true) :
    s.rerouted p (.load l i) = s.replyTo t r (.error 0x0C (BitVec.ofNat 32 p)) := by
  simp only [rerouted, htask, hparked, hwait]
  exact if_pos ⟨hholder, hover⟩

theorem rerouted_sync {c : Nat} {b : Bool} (hc : c < 352) (hasked : (s.coreAt c).asked = some (p, b)) (hanswer : (s.coreAt c).answer = none)
    (hover : s.unroutedFor p (s.coreAt c).askedAt = true) :
    s.rerouted p (.sync c) = s.modCoreAt c fun k => { k with answer := some (.error 0x0C (BitVec.ofNat 32 p)) } := by
  simp only [rerouted, hasked]
  exact if_pos ⟨hc, trivial, by rw [hanswer]; rfl, hover⟩

/-- The copy job fails at the first of its ranges whose holder has no route. -/
theorem rerouted_copy {c : Nat} {j : Job} {r : Range} (hc : c < 352) (hjob : (s.coreAt c).copy.jobs.head? = some j) (hrun : j.running = true)
    (hover : s.unroutedFor p j.tick = true) (hfar : ((j.foot.reads ++ j.foot.writes).find? fun r => r.glob && s.holderOf r.lo == p) = some r) :
    s.rerouted p (.copy c) = s.onCore c fun u => u.jobFailAt { code := 0x0C, addr := BitVec.ofNat 64 r.lo, detail := BitVec.ofNat 32 p } := by
  simp only [rerouted, hjob, hfar]
  exact if_pos ⟨hc, hrun, hover⟩

theorem rerouted_work {c ring slot : Nat} {w : WorkReq} (hwork : (s.net.work.find? fun w =>
      w.ctx == c && w.ring == ring && w.slot == slot && w.started && !w.finished && (w.op == 3 || w.op == 4)) = some w)
    (hover : s.unroutedFor p w.tick = true) : s.rerouted p (.work c ring slot) = s.workFail w true := by
  simp only [rerouted, hwork]
  exact if_pos hover

/-! ### A request of another device (R358, R362, R363, R367) -/

theorem requestTake_due {r : RemoteReq} {q : Nat} {rest : List Nat} (hdue : (s.peer p).due = q :: rest)
    (hframes : frameCount (opBytes r.op) ≤ (s.peer p).due.length) (hup : (s.peer p).state = .up) (hstage : 3 ≤ s.root.stage.stage) (hne : p ≠ s.devNum) :
    s.requestTake p r = (s.modPeer p fun x => { x with due := x.due.drop (frameCount (opBytes r.op)) }).serve p q r := by
  rw [hdue] at hframes
  simp only [requestTake, hdue]
  exact if_pos ⟨hframes, hup, hstage, hne⟩

section

variable {q : Nat} {r : RemoteReq}

theorem serve_restarted (h : r.inc ≠ s.root.inc) : s.serve p q r = s.answerReq p q false (.error 0x0B (s.root.inc.zeroExtend 32)) := if_pos h

variable (hinc : r.inc = s.root.inc)
include hinc

theorem serve_forwarded (hfar : opNamed r.op = true ∧ s.isRemote (s.reqIa r.addr) = true) : s.serve p q r =
    (let d := s.holderOf (s.reqIa r.addr)
     (s.post d (.request d (s.peer d).txPseq r.addr (s.peer d).inc r.op)).modFabric fun f => { f with forwards := f.forwards ++ [(d, p, q)] }) :=
  (if_neg (not_not_intro hinc)).trans (if_pos hfar)

variable (hnear : ¬ (opNamed r.op = true ∧ s.isRemote (s.reqIa r.addr) = true)) {v : State}
include hnear

theorem serve_answered {o : RemoteReply} (h : s.perform p q r = (v, some o)) : s.serve p q r = v.answerReq p q (RemoteReq.bulk r) o := by
  rw [serve, if_neg (not_not_intro hinc), if_neg hnear, h]

theorem serve_waits (h : s.perform p q r = (v, none)) : s.serve p q r = v.modFabric fun f => { f with waiting := f.waiting ++ [(p, q, r)] } := by
  rw [serve, if_neg (not_not_intro hinc), if_neg hnear, h]

end

/-! ### Roaming pages (R367, R368) -/

section

variable {page asker core : Nat} {refused : Bool}

theorem askMove_other (h : roaming (page * 65536) = false) : s.askMove page asker core refused = s := if_pos (by simp [h])

variable (hroam : roaming (page * 65536) = true)
include hroam

theorem askMove_asked (hasker : asker ≠ s.devNum) (hreg : devOf (page * 65536) = s.devNum) :
    s.askMove page asker core refused = (s.decideMove page asker refused).1 :=
  (if_neg (by simp [hroam])).trans ((if_neg hasker).trans (if_pos hreg))

variable (hasker : asker = s.devNum) (hth : s.fabric.migTh ≠ 0) (hholder : s.holderOf (page * 65536) ≠ s.devNum)
  (hmany : s.fabric.migTh.toNat ≤ ((tget [] s.fabric.accesses page).filter fun t => decide (s.time < t + 10000)).length)
include hasker hth hholder hmany

/-- A task here has used the page often enough: the registry decides. -/
theorem askMove_asks : s.askMove page asker core refused =
    (let u := s.modFabric fun f => { f with accesses := terase f.accesses page }
     if devOf (page * 65536) = s.devNum then
       match u.decideMove page asker u.freeFrame.isNone with
       | (v, true) => v
       | (v, false) => v.moveRefused page core
     else
       let v := u.post (devOf (page * 65536)) (.moveRequest (devOf (page * 65536)) page)
       if refused then v.moveRefused page core else v) := by
  have hwants : ¬ (s.fabric.migTh = 0 ∨ s.holderOf (page * 65536) = s.devNum ∨
      ((tget [] s.fabric.accesses page).filter fun t => decide (s.time < t + 10000)).length < s.fabric.migTh.toNat) := by
    rintro (h | h | h)
    · exact hth h
    · exact hholder h
    · exact Nat.not_lt.mpr hmany h
  exact (if_neg (by simp [hroam])).trans ((if_pos hasker).trans (if_neg hwants))

theorem askMove_posts (hreg : devOf (page * 65536) ≠ s.devNum) : s.askMove page asker core refused =
    (let v := (s.modFabric fun f => { f with accesses := terase f.accesses page }).post (devOf (page * 65536)) (.moveRequest (devOf (page * 65536)) page)
     if refused then v.moveRefused page core else v) :=
  (askMove_asks hroam hasker hth hholder hmany).trans (if_neg hreg)

theorem askMove_granted (hreg : devOf (page * 65536) = s.devNum) {u v : State}
    (hu : (s.modFabric fun f => { f with accesses := terase f.accesses page }) = u) (h : u.decideMove page asker u.freeFrame.isNone = (v, true)) :
    s.askMove page asker core refused = v := by
  rw [askMove_asks hroam hasker hth hholder hmany, hu]
  simp only [if_pos hreg, h]

end

section

variable {page h : Nat} {data : List Byte}

theorem copyEnd_other (hroam : roaming (page * 65536) = false) : s.copyEnd page h data = s := if_pos (by simp [hroam])

theorem copyEnd_ungranted (hreg : devOf (page * 65536) = s.devNum) (hmoving : (tget { holder := s.devNum } s.fabric.directory page).moving ≠ some h) :
    s.copyEnd page h data = s := if_pos (.inr (by simp [hreg, hmoving]))

section

variable (hroam : roaming (page * 65536) = true) (hreg : devOf (page * 65536) ≠ s.devNum)
include hroam hreg

/-- The page reaches its new holder, whose pool has room. -/
theorem copyEnd_taken {f : Nat} (hpool : s.poolFrame? (page * 65536) = none) (hfree : s.freeFrame = some f) :
    s.copyEnd page s.devNum data = s.takePage page f data := by
  simp [copyEnd, hroam, hreg, hpool, hfree]

/-- A device that neither registers nor holds the page notes where it is now. -/
theorem copyEnd_noted (hother : h ≠ s.devNum) (hholder : s.holderOf (page * 65536) ≠ s.devNum) : s.copyEnd page h data =
    (s.modFabric fun f => { f with pool := f.pool.filter fun kv => kv.2 != page, holders := tset f.holders page h }).serveWaiting := by
  simp [copyEnd, hroam, hreg, hother, hholder]

end

end

end State

end Sys2Proof.Machine
end

section
/-! Frames, sessions, ports, requests of other devices and roaming pages together (spec 14_fabric.md). -/

namespace Sys2Proof.Machine

/-- Settles O51: each event of the fabric by the equation of the function that it runs. -/
theorem fabricEvents : Obligations.FabricEvents := by
  unfold Obligations.FabricEvents
  refine ⟨fun s => ⟨fun k lam f => ?frames, fun k p => ?streams⟩, fun s => ?sessions, fun s => ?requests⟩
  case frames =>
    exact ⟨fun h => congrArg Host.Outcome.next (State.frameReceive_closed h), fun hopen h => congrArg Host.Outcome.next (State.frameReceive_bad hopen h),
      fun hopen hgood => ⟨fun q h => congrArg Host.Outcome.next (State.frameReceive_nak hopen hgood h),
        fun hnone h => congrArg Host.Outcome.next (State.frameReceive_next hopen hgood hnone h),
        fun hnone hpos h => congrArg Host.Outcome.next (State.frameReceive_gap hopen hgood hnone hpos h),
        fun hnone h => congrArg Host.Outcome.next (State.frameReceive_old hopen hgood hnone h)⟩⟩
  case streams =>
    refine ⟨exec_streamAckTimeout_dies, exec_streamAckTimeout_lives, fun hdead hport hover => ⟨?lost, fun h => ?counts, ?revives⟩⟩
    case lost => exact exec_streamProbe_counts hdead hport hover rfl (by decide)
    case counts => exact exec_streamProbe_counts hdead hport hover rfl fun hthree => h (Nat.succ.inj hthree)
    case revives => exact exec_streamProbe_revives hdead hport hover
  case sessions =>
    refine ⟨fun p => exec_sessionSetup_starts, fun p inc chain meas hstate => ⟨sessionUp_refused hstate, fun _ hspdm _ => exec_sessionUp_ends hstate (.inr hspdm)⟩,
      fun p => exec_sessionLivenessTimeout_down, fun p => exec_sessionLivenessTimeout_other, fun p => exec_keyUpdate, fun m v hlease hm howner => ?owner,
      fun k hrun => ⟨congrArg Host.Outcome.next (State.portError_run 2 hrun), ?differs, exec_portMeasCheck_agrees s k⟩,
      fun k hlocked => congrArg Host.Outcome.next (State.portError_locked 2 hlocked), fun p => exec_reachAdvert⟩
    case owner =>
      exact ⟨fun k w => exec_acceptWrite hlease hm howner k w v, exec_migwinWrite hlease hm howner, fun k hstage =>
        ⟨portLock_locks hlease hm howner hstage, exec_portRun hlease hm howner hstage, exec_portUnlock_run hlease hm howner hstage,
          exec_portUnlock_locked hlease hm howner hstage, exec_portUnlock_error hlease hm howner hstage⟩⟩
    case differs => exact (exec_portMeasCheck_differs hrun).trans (congrArg Host.Outcome.next (State.portError_run 3 hrun))
  case requests =>
    refine ⟨fun p l i t r b htask hparked hwait hholder hover => congrArg Host.Outcome.next (State.rerouted_load htask hparked hwait hholder hover),
      fun p c b hc hasked hanswer hover => congrArg Host.Outcome.next (State.rerouted_sync hc hasked hanswer hover),
      fun p c j r hc hjob hrun hover hfar => congrArg Host.Outcome.next (State.rerouted_copy hc hjob hrun hover hfar),
      fun p c ring slot w hwork hover => congrArg Host.Outcome.next (State.rerouted_work hwork hover),
      fun p r q rest hdue hframes hup hstage hne => ?remote, fun page asker core refused => ?move, fun page h data => ?copied⟩
    case remote =>
      have htake := State.requestTake_due hdue hframes hup hstage hne
      exact ⟨fun h => congrArg Host.Outcome.next (htake.trans (State.serve_restarted h)),
        fun hinc hfar => congrArg Host.Outcome.next (htake.trans (State.serve_forwarded hinc hfar)),
        fun hinc hnear => ⟨fun v o h => congrArg Host.Outcome.next (htake.trans (State.serve_answered hinc hnear h)),
          fun v h => congrArg Host.Outcome.next (htake.trans (State.serve_waits hinc hnear h))⟩⟩
    case move =>
      exact ⟨fun h => congrArg Host.Outcome.next (State.askMove_other h),
        fun hroam hasker hreg => congrArg Host.Outcome.next (State.askMove_asked hroam hasker hreg),
        fun hroam hasker hth hholder hmany => ⟨fun hreg => congrArg Host.Outcome.next (State.askMove_posts hroam hasker hth hholder hmany hreg),
          fun hreg v h => congrArg Host.Outcome.next (State.askMove_granted hroam hasker hth hholder hmany hreg rfl h)⟩⟩
    case copied =>
      exact ⟨fun hroam => congrArg Host.Outcome.next (State.copyEnd_other hroam),
        fun _ hreg hmoving => congrArg Host.Outcome.next (State.copyEnd_ungranted hreg hmoving),
        fun hroam hreg hpool f hfree => congrArg Host.Outcome.next (State.copyEnd_taken hroam hreg hpool hfree),
        fun hroam hreg hother hholder => congrArg Host.Outcome.next (State.copyEnd_noted hroam hreg hother hholder)⟩

end Sys2Proof.Machine
end
